-- ==== Sys2Proof/Word.lean ====
section
/-! DEFINITION. The words of the machine and the small types that an event of the opcode table carries. -/

namespace Sys2Proof

/-- A scalar register's value (R39). -/
abbrev Word := BitVec 64
/-- One byte of memory. -/
abbrev Byte := BitVec 8
/-- A module address or a program counter: 60 bits (R39, R74). -/
abbrev Addr := BitVec 60

/-- The two meshes of the module (R18). -/
inductive Mesh where
  /-- routes along x first (R18) -/
  | oak
  /-- routes along y first (R18) -/
  | ash
deriving DecidableEq, Repr

/-- Where a register write of the step REGISTER_WRITE comes from (R57, R371): a strand's `setc` that waits for its reply,
or a store to a word of a control window (placed unit 16). -/
inductive WriteTarget where
  /-- the `setc` for which the strand with this key is parked -/
  | pending (k : Nat)
  /-- a store of `w` to offset `off` of the control window of site `v` -/
  | window (v off : Nat) (w : BitVec 64)
deriving DecidableEq, Repr

/-- What a pre-emption request names beside the launch: the gang, and the context area that its save goes to (R161). -/
structure GangSave where
  gang : Nat
  area : BitVec 60
deriving DecidableEq, Repr

/-- The link fields of a flit's head (R402): credits, acknowledgement and retry request. -/
structure LinkFields where
  /-- crd and ccl are valid (CV) -/
  cv : Bool
  /-- class of the returned credits -/
  ccl : Nat
  /-- credits returned -/
  crd : Nat
  /-- ack is valid (AV) -/
  av : Bool
  /-- highest sequence number received in order -/
  ack : Nat
  /-- retry request (RQ) -/
  rq : Bool
deriving DecidableEq, Repr

end Sys2Proof
end

