-- ==== Sys2Proof/Config.lean ====
section
/-! DEFINITION. What the spec leaves open: free values, constants without a body. Nothing can be proved of the value they stand for. -/

namespace Sys2Proof.Config

/-- The n-th free value that the machine draws (log 11). -/
opaque freeWord : Nat → BitVec 64
/-- A supply of free bytes: the draw and the place in it (log 11). -/
opaque freeByte : Nat → Nat → BitVec 8

/-- What a site's section of the configuration image holds (R419, R432). The layout of its bytes is not in the spec (log 8). -/
structure ImageSection where
  x : Nat
  y : Nat
  kind : Nat
  /-- virtual sites of an integrator's assembly: x, y, kind; none on a module (R76) -/
  sites : Option (List (Nat × Nat × Nat))
  /-- edge, kind, y and x of each neighbour expected -/
  peers : List (Nat × Nat × Nat × Nat)
  /-- virtual coordinates (x, y) of a pavilion (R201) -/
  self : Option (Nat × Nat)
  /-- virtual to physical site of the pavilions -/
  smap : List (Nat × Nat)
  /-- virtual site to network-select setting -/
  ns : List (Nat × Nat)
  /-- region to least and greatest latency -/
  band : List (Nat × Nat × Nat)
  /-- core to mcap.maxm -/
  maxm : List (Nat × Nat)
  evTarget : Nat
  fqEn : Bool
  fqRim : Nat
  /-- bower to host cap and boost grant (R423) -/
  caps : List (Nat × Nat × Bool)
  ilimit : Nat
  /-- slots 13 to 15, and any slot of a gatehouse's keeper core: entry address, and the two words of s0 to s7 of its strand -/
  service : List (Nat × BitVec 60 × List (Nat × BitVec 64 × BitVec 64))
  /-- PUF helper data and the certificate's public key (R434) -/
  helper : List (BitVec 8)
  certX : Nat
  certY : Nat
deriving DecidableEq, Repr, Inhabited

/-- The section that the bytes of a verified image hold for a site. -/
opaque sectionOf : Nat → List (BitVec 8) → ImageSection
/-- Block n of a site's section in the signed image, of which each gatehouse has a copy of its own, and whether it is the last (R418, R419). -/
opaque imageBlock : Nat → Nat → List (BitVec 8) × Bool
/-- The bytes that the n-th save writes to its context area: their layout and number are firmware's (R161, R163). -/
opaque contextBytes : Nat → List (BitVec 8)
/-- Where a hello's second word carries the edge that it leaves by, beside cfg.coord (R417; log 59). -/
opaque helloEdge : Nat → BitVec 64
/-- How the record of a link-down event names an edge and a mesh (R166, R408; log 36). -/
opaque linkName : Nat → Bool → BitVec 60
/-- Lanryn's root public key, in mask ROM (R432). -/
opaque rootKey : Nat × Nat
/-- The seed that a site's PUF reproduces from helper data (R434). -/
opaque pufSeed : Nat → List (BitVec 8) → Nat
/-- cfg.ident and cfg.caps of a site, where the spec says `by die` (R414). -/
opaque dieWord : Nat → Nat → BitVec 64

end Sys2Proof.Config
end

