-- ==== Sys2Proof/Syntax.lean ====
section
/-! DEFINITION. The steps of the machine: one constructor for every row of spec/opcode_table.json.
A row with an encoding is an instruction, its arguments the fields of its word (R253, R259, R262). A row without one is an
event of the device (spec/95_what_each_step_holds.md); its arguments name the agent or the message concerned (m a message in
flight, k a strand, c a core, b a bower, v a site, g a gatehouse, all by the keys of Machine/State.lean) and carry what comes from
outside. -/

namespace Sys2Proof

/-- One step of the part (spec/opcode_table.json). -/
inductive Instr where
  /-- ADD (R275). Writes d with the 64-bit sum of a and b. -/
  | add (d : BitVec 8) (a : BitVec 8) (b : BitVec 8)
  /-- SUB (R275). Writes d with a minus b modulo 2^64. -/
  | sub (d : BitVec 8) (a : BitVec 8) (b : BitVec 8)
  /-- MUL (R275). Writes d with the low 64 bits of the product of a and b. -/
  | mul (d : BitVec 8) (a : BitVec 8) (b : BitVec 8)
  /-- MULH_I (R275). Writes d with the high 64 bits of the signed product. -/
  | mulhI (d : BitVec 8) (a : BitVec 8) (b : BitVec 8)
  /-- MULH_N (R275). Writes d with the high 64 bits of the unsigned product. -/
  | mulhN (d : BitVec 8) (a : BitVec 8) (b : BitVec 8)
  /-- DIV_I (R246). Writes d with the signed quotient; division by zero gives the fixed values and raises nothing. -/
  | divI (d : BitVec 8) (a : BitVec 8) (b : BitVec 8)
  /-- DIV_N (R246). Writes d with the unsigned quotient. -/
  | divN (d : BitVec 8) (a : BitVec 8) (b : BitVec 8)
  /-- REM_I (R246). Writes d with the signed remainder. -/
  | remI (d : BitVec 8) (a : BitVec 8) (b : BitVec 8)
  /-- REM_N (R246). Writes d with the unsigned remainder. -/
  | remN (d : BitVec 8) (a : BitVec 8) (b : BitVec 8)
  /-- AND (R275). Writes d with the bitwise AND of a and b. -/
  | and (d : BitVec 8) (a : BitVec 8) (b : BitVec 8)
  /-- OR (R275). Writes d with the bitwise OR of a and b. -/
  | or (d : BitVec 8) (a : BitVec 8) (b : BitVec 8)
  /-- XOR (R275). Writes d with the bitwise XOR of a and b. -/
  | xor (d : BitVec 8) (a : BitVec 8) (b : BitVec 8)
  /-- SHL (R276). Shifts a left by the unsigned value of b; 64 or more gives zero. -/
  | shl (d : BitVec 8) (a : BitVec 8) (b : BitVec 8)
  /-- SHR (R276). Shifts a right logically by the value of b. -/
  | shr (d : BitVec 8) (a : BitVec 8) (b : BitVec 8)
  /-- SRA (R276). Shifts a right arithmetically by the value of b. -/
  | sra (d : BitVec 8) (a : BitVec 8) (b : BitVec 8)
  /-- MIN_I (R275). Writes d with the signed lesser of a and b. -/
  | minI (d : BitVec 8) (a : BitVec 8) (b : BitVec 8)
  /-- MAX_I (R275). Writes d with the signed greater of a and b. -/
  | maxI (d : BitVec 8) (a : BitVec 8) (b : BitVec 8)
  /-- MIN_N (R275). Writes d with the unsigned lesser of a and b. -/
  | minN (d : BitVec 8) (a : BitVec 8) (b : BitVec 8)
  /-- MAX_N (R275). Writes d with the unsigned greater of a and b. -/
  | maxN (d : BitVec 8) (a : BitVec 8) (b : BitVec 8)
  /-- SEQ (R275). Writes 1 to d if a equals b, else 0. -/
  | seq (d : BitVec 8) (a : BitVec 8) (b : BitVec 8)
  /-- SLT_I (R275). Writes 1 to d if a is less than b signed. -/
  | sltI (d : BitVec 8) (a : BitVec 8) (b : BitVec 8)
  /-- SLT_N (R275). Writes 1 to d if a is less than b unsigned. -/
  | sltN (d : BitVec 8) (a : BitVec 8) (b : BitVec 8)
  /-- SEL (R277). Writes d with a if the old d is nonzero, else b. -/
  | sel (d : BitVec 8) (a : BitVec 8) (b : BitVec 8)
  /-- CLZ (R275). Writes d with the count of leading zero bits of a. -/
  | clz (d : BitVec 8) (a : BitVec 8)
  /-- POPC (R275). Writes d with the number of set bits of a. -/
  | popc (d : BitVec 8) (a : BitVec 8)
  /-- SEXT (R278). Sign-extends the low b bits of a into d. -/
  | sext (d : BitVec 8) (a : BitVec 8) (b : BitVec 8)
  /-- ZEXT (R278). Zero-extends the low b bits of a into d. -/
  | zext (d : BitVec 8) (a : BitVec 8) (b : BitVec 8)
  /-- ADD_W (R275). Writes d with the 32-bit sum of a and b, sign-extended. -/
  | addW (d : BitVec 8) (a : BitVec 8) (b : BitVec 8)
  /-- MUL_W (R275). Writes d with the 32-bit product of a and b, sign-extended. -/
  | mulW (d : BitVec 8) (a : BitVec 8) (b : BitVec 8)
  /-- BFX (R279). Extracts a bit field of a, placed by b, into d. -/
  | bfx (d : BitVec 8) (a : BitVec 8) (b : BitVec 8)
  /-- BFI (R279). Inserts the low bits of a into a field of d placed by b. -/
  | bfi (d : BitVec 8) (a : BitVec 8) (b : BitVec 8)
  /-- ADDI (R280). Adds the sign-extended immediate to a. -/
  | addi (d : BitVec 8) (a : BitVec 8) (i : BitVec 8)
  /-- ANDI (R280). ANDs a with the sign-extended immediate. -/
  | andi (d : BitVec 8) (a : BitVec 8) (i : BitVec 8)
  /-- ORI (R280). ORs a with the sign-extended immediate. -/
  | ori (d : BitVec 8) (a : BitVec 8) (i : BitVec 8)
  /-- XORI (R280). XORs a with the sign-extended immediate. -/
  | xori (d : BitVec 8) (a : BitVec 8) (i : BitVec 8)
  /-- SHLI (R280). Shifts a left by an immediate 0 to 63. -/
  | shli (d : BitVec 8) (a : BitVec 8) (i : BitVec 6)
  /-- SHRI (R280). Shifts a right logically by an immediate 0 to 63. -/
  | shri (d : BitVec 8) (a : BitVec 8) (i : BitVec 6)
  /-- SRAI (R280). Shifts a right arithmetically by an immediate 0 to 63. -/
  | srai (d : BitVec 8) (a : BitVec 8) (i : BitVec 6)
  /-- SEQI (R280). Writes 1 if a equals the sign-extended immediate. -/
  | seqi (d : BitVec 8) (a : BitVec 8) (i : BitVec 8)
  /-- SLTI_I (R280). Writes 1 if a is less than the immediate, signed. -/
  | sltiI (d : BitVec 8) (a : BitVec 8) (i : BitVec 8)
  /-- SLTI_N (R280). Writes 1 if a is less than the sign-extended immediate, unsigned. -/
  | sltiN (d : BitVec 8) (a : BitVec 8) (i : BitVec 8)
  /-- MINI_I (R280). Writes the signed lesser of a and the immediate. -/
  | miniI (d : BitVec 8) (a : BitVec 8) (i : BitVec 8)
  /-- MAXI_I (R280). Writes the signed greater of a and the immediate. -/
  | maxiI (d : BitVec 8) (a : BitVec 8) (i : BitVec 8)
  /-- BZ (R282). Branches when a is zero. -/
  | bz (a : BitVec 8) (i : BitVec 16)
  /-- BNZ (R282). Branches when a is nonzero. -/
  | bnz (a : BitVec 8) (i : BitVec 16)
  /-- BLT (R282). Branches when a is negative. -/
  | blt (a : BitVec 8) (i : BitVec 16)
  /-- BGE (R282). Branches when a is not negative. -/
  | bge (a : BitVec 8) (i : BitVec 16)
  /-- J (R283). Jumps by a 24-bit word displacement. -/
  | j (i : BitVec 24)
  /-- CALL (R283). Writes the return address to a7 and jumps. -/
  | call (i : BitVec 24)
  /-- JR (R284). Jumps to the address in a, faulting if misaligned. -/
  | jr (a : BitVec 8)
  /-- CALLR (R284). Writes the return address to d and jumps to the address in a. -/
  | callr (d : BitVec 8) (a : BitVec 8)
  /-- NEST (R286). Reads the loop registers and starts or joins a generation of the gang's nest counter. -/
  | nest (i : BitVec 2)
  /-- NEXT (R287). Takes the next flat index of the crew's chunk, claiming a new chunk when empty, and branches to the body or falls through. -/
  | next (i : BitVec 16)
  /-- TRAP (R374). Enters the supervisor at the trap entry for number n. -/
  | trap (i : BitVec 8)
  /-- ERET (R374). Returns from a trap, restoring s0, mode and pc. -/
  | eret
  /-- LD_I8 (R293). Loads a byte, sign-extended. -/
  | ldI8 (d : BitVec 8) (x : BitVec 8) (s : BitVec 3) (o : BitVec 5)
  /-- LD_N8 (R293). Loads a byte, zero-extended. -/
  | ldN8 (d : BitVec 8) (x : BitVec 8) (s : BitVec 3) (o : BitVec 5)
  /-- LD_I16 (R293). Loads a halfword, sign-extended. -/
  | ldI16 (d : BitVec 8) (x : BitVec 8) (s : BitVec 3) (o : BitVec 5)
  /-- LD_N16 (R293). Loads a halfword, zero-extended. -/
  | ldN16 (d : BitVec 8) (x : BitVec 8) (s : BitVec 3) (o : BitVec 5)
  /-- LD_I32 (R293). Loads a word, sign-extended. -/
  | ldI32 (d : BitVec 8) (x : BitVec 8) (s : BitVec 3) (o : BitVec 5)
  /-- LD_N32 (R293). Loads a word, zero-extended. -/
  | ldN32 (d : BitVec 8) (x : BitVec 8) (s : BitVec 3) (o : BitVec 5)
  /-- LD_64 (R293). Loads a doubleword. -/
  | ld64 (d : BitVec 8) (x : BitVec 8) (s : BitVec 3) (o : BitVec 5)
  /-- LD_128 (R293). Loads 16 bytes into a register pair. -/
  | ld128 (d : BitVec 8) (x : BitVec 8) (s : BitVec 3) (o : BitVec 5)
  /-- LDR_64 (R297). Issues a relaxed doubleword load that sets the destination pending without parking. -/
  | ldr64 (d : BitVec 8) (x : BitVec 8) (s : BitVec 3) (o : BitVec 5)
  /-- LDF_64 (R298). Waits until the granule is full and loads it, leaving it full. -/
  | ldf64 (d : BitVec 8) (x : BitVec 8) (s : BitVec 3) (o : BitVec 5)
  /-- LDFC_64 (R298). Waits until the granule is full, loads it and sets it empty. -/
  | ldfc64 (d : BitVec 8) (x : BitVec 8) (s : BitVec 3) (o : BitVec 5)
  /-- LDFN_64 (R298). Reads the doubleword and the full/empty bit without waiting. -/
  | ldfn64 (d : BitVec 8) (x : BitVec 8) (s : BitVec 3) (o : BitVec 5)
  /-- PREF (R303). Asks the L1D to prefetch a line, dropped silently on any failed check. -/
  | pref (x : BitVec 8) (s : BitVec 3) (o : BitVec 5)
  /-- ST_8 (R294). Stores a byte. -/
  | st8 (d : BitVec 8) (x : BitVec 8) (s : BitVec 3) (o : BitVec 5)
  /-- ST_16 (R294). Stores a halfword. -/
  | st16 (d : BitVec 8) (x : BitVec 8) (s : BitVec 3) (o : BitVec 5)
  /-- ST_32 (R294). Stores a word. -/
  | st32 (d : BitVec 8) (x : BitVec 8) (s : BitVec 3) (o : BitVec 5)
  /-- ST_64 (R294). Stores a doubleword. -/
  | st64 (d : BitVec 8) (x : BitVec 8) (s : BitVec 3) (o : BitVec 5)
  /-- ST_128 (R294). Stores a register pair as 16 bytes. -/
  | st128 (d : BitVec 8) (x : BitVec 8) (s : BitVec 3) (o : BitVec 5)
  /-- STR_64 (R297). Issues a relaxed doubleword store without parking. -/
  | str64 (d : BitVec 8) (x : BitVec 8) (s : BitVec 3) (o : BitVec 5)
  /-- STF_64 (R298). Stores a doubleword and sets the granule full. -/
  | stf64 (d : BitVec 8) (x : BitVec 8) (s : BitVec 3) (o : BitVec 5)
  /-- STEF_64 (R298). Waits until the granule is empty, stores and sets it full. -/
  | stef64 (d : BitVec 8) (x : BitVec 8) (s : BitVec 3) (o : BitVec 5)
  /-- CLRE (R298). Sets the granule empty without changing data. -/
  | clre (x : BitVec 8) (s : BitVec 3) (o : BitVec 5)
  /-- SETF (R298). Sets the granule full without changing data. -/
  | setf (x : BitVec 8) (s : BitVec 3) (o : BitVec 5)
  /-- AMO_ADD (R300). Issues a relaxed non-fetching 64-bit atomic add. -/
  | amoAdd (d : BitVec 8) (x : BitVec 8) (s : BitVec 3) (o : BitVec 5)
  /-- AMO_FADD (R300). Issues a relaxed non-fetching FP32 atomic add. -/
  | amoFadd (d : BitVec 8) (x : BitVec 8) (s : BitVec 3) (o : BitVec 5)
  /-- AMO_MIN_I (R300). Issues a relaxed signed atomic minimum. -/
  | amoMinI (d : BitVec 8) (x : BitVec 8) (s : BitVec 3) (o : BitVec 5)
  /-- AMO_MAX_I (R300). Issues a relaxed signed atomic maximum. -/
  | amoMaxI (d : BitVec 8) (x : BitVec 8) (s : BitVec 3) (o : BitVec 5)
  /-- AMO_MIN_N (R300). Issues a relaxed unsigned atomic minimum. -/
  | amoMinN (d : BitVec 8) (x : BitVec 8) (s : BitVec 3) (o : BitVec 5)
  /-- AMO_MAX_N (R300). Issues a relaxed unsigned atomic maximum. -/
  | amoMaxN (d : BitVec 8) (x : BitVec 8) (s : BitVec 3) (o : BitVec 5)
  /-- AMO_AND (R300). Issues a relaxed atomic AND. -/
  | amoAnd (d : BitVec 8) (x : BitVec 8) (s : BitVec 3) (o : BitVec 5)
  /-- AMO_OR (R300). Issues a relaxed atomic OR. -/
  | amoOr (d : BitVec 8) (x : BitVec 8) (s : BitVec 3) (o : BitVec 5)
  /-- AMO_XOR (R300). Issues a relaxed atomic XOR. -/
  | amoXor (d : BitVec 8) (x : BitVec 8) (s : BitVec 3) (o : BitVec 5)
  /-- FAMO_ADD (R301). Atomically adds and returns the old value. -/
  | famoAdd (d : BitVec 8) (x : BitVec 8) (s : BitVec 3) (o : BitVec 5)
  /-- FAMO_FADD (R301). Atomically adds FP32 and returns the old value. -/
  | famoFadd (d : BitVec 8) (x : BitVec 8) (s : BitVec 3) (o : BitVec 5)
  /-- FAMO_OR (R301). Atomically ORs and returns the old value. -/
  | famoOr (d : BitVec 8) (x : BitVec 8) (s : BitVec 3) (o : BitVec 5)
  /-- FAMO_SWAP (R301). Atomically swaps and returns the old value. -/
  | famoSwap (d : BitVec 8) (x : BitVec 8) (s : BitVec 3) (o : BitVec 5)
  /-- FAMO_CAS (R301). Atomically compares and swaps, returning the old value in the pair's first register. -/
  | famoCas (d : BitVec 8) (x : BitVec 8) (s : BitVec 3) (o : BitVec 5)
  /-- FENCE_ACQ (R106). Waits for relaxed accesses and invalidates cached lines for the named scope. -/
  | fenceAcq (s : BitVec 3)
  /-- FENCE_REL (R106). Waits for relaxed accesses and writes back dirty bytes for the named scope. -/
  | fenceRel (s : BitVec 3)
  /-- FENCE_AR (R106). Takes the release and then the acquire actions of the named scope. -/
  | fenceAr (s : BitVec 3)
  /-- BAR_ARR (R308). Sends one arrival of the crew at the gang barrier, a release. -/
  | barArr
  /-- BAR_WAIT (R308). Waits until the crew's lead counter is zero, an acquire. -/
  | barWait
  /-- BAR_SYNC (R308). Arrives at the gang barrier and then waits. -/
  | barSync
  /-- MON_ARM (R309). Clears the fired mark and sends a watch for a granule to its home. -/
  | monArm (x : BitVec 8) (s : BitVec 3) (o : BitVec 5)
  /-- MON_WAIT (R310). Completes if the monitor has fired, otherwise parks until it fires. -/
  | monWait
  /-- MON_CLR (R310). Sends removal of the watch and clears the fired mark. -/
  | monClr
  /-- WAIT_R (R103). Parks until every relaxed access of the strand is performed. -/
  | waitR
  /-- INV (R307). Invalidates the lines of an address range in the L1D and slice. -/
  | inv (d : BitVec 8) (x : BitVec 8) (s : BitVec 3) (o : BitVec 5)
  /-- WB (R307). Writes back the dirty bytes of an address range to the home. -/
  | wb (d : BitVec 8) (x : BitVec 8) (s : BitVec 3) (o : BitVec 5)
  /-- START (R335). Starts a helper in a free slot of the crew's slotmask. -/
  | start (d : BitVec 8) (a : BitVec 8) (n : BitVec 8)
  /-- JOIN (R336). Waits until the named helper has ended. -/
  | join (n : BitVec 8)
  /-- END (R337). Waits for relaxed accesses and copies, releases the strand's granules and frees its slot. -/
  | endStrand
  /-- HALT (R338). Raises the halt fault. -/
  | halt
  /-- IDGET (R339). Reads an identity or index register into d. -/
  | idget (d : BitVec 8) (i : BitVec 8)
  /-- ACQ_W (R183). Requests units of a pool and parks until the grant is available and safe. -/
  | acqW (a : BitVec 8) (k : BitVec 2) (b : BitVec 2)
  /-- ACQ_F (R184). Requests units of a pool and returns a status at once, granting only if available and safe. -/
  | acqF (d : BitVec 8) (a : BitVec 8) (k : BitVec 2) (b : BitVec 2)
  /-- REL (R185). Releases units of one pool after the waits, then triggers the waiter scan. -/
  | rel (a : BitVec 8) (k : BitVec 2) (b : BitVec 2)
  /-- REL_ALL (R185). Releases every holding of the strand, crew and gang pools it names. -/
  | relAll
  /-- CLAIMQ_HELD (R187). Returns the units held in a pool. -/
  | claimqHeld (d : BitVec 8) (a : BitVec 8) (k : BitVec 2) (b : BitVec 2)
  /-- CLAIMQ_REM (R187). Returns the units that may still be acquired from a pool. -/
  | claimqRem (d : BitVec 8) (a : BitVec 8) (k : BitVec 2) (b : BitVec 2)
  /-- CLAIMQ_FREE (R187). Returns the free units of a pool. -/
  | claimqFree (d : BitVec 8) (a : BitVec 8) (k : BitVec 2) (b : BitVec 2)
  /-- CLAIMQ_GRAN (R187). Returns the physical granule number of an entry of the gang's store list. -/
  | claimqGran (d : BitVec 8) (a : BitVec 8) (b : BitVec 2)
  /-- LAUNCH (R341). Releases and submits a descriptor to a gatehouse's device-side queue, returning a status. -/
  | launch (d : BitVec 8) (a : BitVec 8)
  /-- CKPT (R342). With a pre-emption pending, stops the strand at a checkpoint naming a live-range entry. -/
  | ckpt (e : BitVec 16)
  /-- CTR_ADD (R359). Adds to a trigger counter of the own pavilion as a module-scope release. -/
  | ctrAdd (a : BitVec 8) (b : BitVec 8)
  /-- CTR_SET (R359). Sets a trigger counter. -/
  | ctrSet (a : BitVec 8) (b : BitVec 8)
  /-- CTR_READ (R359). Reads a trigger counter into d. -/
  | ctrRead (d : BitVec 8) (a : BitVec 8)
  /-- CTR_WAIT (R217). Waits until a counter reaches a threshold, an acquire. -/
  | ctrWait (a : BitVec 8) (b : BitVec 8)
  /-- CTR_ADDR (R359). Adds to a trigger counter at a named site as a release. -/
  | ctrAddr (a : BitVec 8) (b : BitVec 8)
  /-- TRIG_POST (R361). Checks an operation block and posts it to the trigger list with a threshold. -/
  | trigPost (d : BitVec 8) (a : BitVec 8) (b : BitVec 8)
  /-- TRIG_CANCEL (R365). Frees a trigger-list entry and returns a status. -/
  | trigCancel (d : BitVec 8) (a : BitVec 8)
  /-- TRIG_QUERY (R365). Returns the state or threshold of a trigger-list entry. -/
  | trigQuery (d : BitVec 8) (a : BitVec 8) (b : BitVec 8)
  /-- COLL_ARM (R367). Checks an arm block and reserves the group's trellis entries all or nothing. -/
  | collArm (d : BitVec 8) (a : BitVec 8)
  /-- COLL_PUT (R368). Sends one scalar local contribution to a collective group. -/
  | collPut (d : BitVec 8) (a : BitVec 8) (b : BitVec 8)
  /-- COLL_GETR (R369). Reads a group's result latch or entry word. -/
  | collGetr (d : BitVec 8) (a : BitVec 8)
  /-- NQ_SEND (R370). Sends a word to a queue register of a named core, waiting for acceptance. -/
  | nqSend (a : BitVec 8) (b : BitVec 8)
  /-- NQ_RECV (R370). Takes a word from a full queue register or parks until one fills. -/
  | nqRecv (d : BitVec 8) (a : BitVec 8)
  /-- CPOST (R352). Waits for relaxed accesses and fills a mailbox with a copy parameter block. -/
  | cpost (a : BitVec 8) (b : BitVec 8)
  /-- CQUERY (R356). Returns the state of the copy last posted from a block offset. -/
  | cquery (d : BitVec 8) (a : BitVec 8)
  /-- CCANCEL (R356). Cancels a copy in a mailbox or stops it at its next chunk boundary. -/
  | ccancel (a : BitVec 8)
  /-- LSET (R340). Writes a loop register of the crew's bank. -/
  | lset (a : BitVec 8) (n : BitVec 3)
  /-- LGET (R340). Reads a loop register into d. -/
  | lget (d : BitVec 8) (n : BitVec 3)
  /-- MZERO (R348). Sets every element of an accumulator to +0.0. -/
  | mzero (a : BitVec 8)
  /-- MLOAD (R348). Loads an accumulator from the bower store. -/
  | mload (a : BitVec 8) (b : BitVec 8)
  /-- MSTORE (R348). Stores an accumulator to the bower store. -/
  | mstore (a : BitVec 8) (b : BitVec 8)
  /-- MDRAIN (R349). Drains accumulator rows through a drain strand, one handler per row. -/
  | mdrain (a : BitVec 8) (b : BitVec 8)
  /-- MCAPR (R348). Reads mcap into d. -/
  | mcapr (d : BitVec 8)
  /-- VADD (R318). Adds integer lanes, wrapping or saturating. -/
  | vadd (d : BitVec 4) (a : BitVec 4) (b : BitVec 4) (t : BitVec 4) (k : BitVec 2) (z : BitVec 1) (y : BitVec 1) (s : BitVec 1)
  /-- VSUB (R318). Subtracts integer lanes. -/
  | vsub (d : BitVec 4) (a : BitVec 4) (b : BitVec 4) (t : BitVec 4) (k : BitVec 2) (z : BitVec 1) (y : BitVec 1) (s : BitVec 1)
  /-- VMUL (R318). Multiplies integer lanes. -/
  | vmul (d : BitVec 4) (a : BitVec 4) (b : BitVec 4) (t : BitVec 4) (k : BitVec 2) (z : BitVec 1) (y : BitVec 1) (s : BitVec 1)
  /-- VMULH (R318). Writes the high half of integer lane products. -/
  | vmulh (d : BitVec 4) (a : BitVec 4) (b : BitVec 4) (t : BitVec 4) (k : BitVec 2) (z : BitVec 1) (y : BitVec 1)
  /-- VMIN (R318). Writes the lesser of integer lanes. -/
  | vmin (d : BitVec 4) (a : BitVec 4) (b : BitVec 4) (t : BitVec 4) (k : BitVec 2) (z : BitVec 1) (y : BitVec 1)
  /-- VMAX (R318). Writes the greater of integer lanes. -/
  | vmax (d : BitVec 4) (a : BitVec 4) (b : BitVec 4) (t : BitVec 4) (k : BitVec 2) (z : BitVec 1) (y : BitVec 1)
  /-- VAND (R318). ANDs integer lanes. -/
  | vand (d : BitVec 4) (a : BitVec 4) (b : BitVec 4) (t : BitVec 4) (k : BitVec 2) (z : BitVec 1) (y : BitVec 1)
  /-- VOR (R318). ORs integer lanes. -/
  | vor (d : BitVec 4) (a : BitVec 4) (b : BitVec 4) (t : BitVec 4) (k : BitVec 2) (z : BitVec 1) (y : BitVec 1)
  /-- VXOR (R318). XORs integer lanes. -/
  | vxor (d : BitVec 4) (a : BitVec 4) (b : BitVec 4) (t : BitVec 4) (k : BitVec 2) (z : BitVec 1) (y : BitVec 1)
  /-- VSHL (R318). Shifts integer lanes left. -/
  | vshl (d : BitVec 4) (a : BitVec 4) (b : BitVec 4) (t : BitVec 4) (k : BitVec 2) (z : BitVec 1) (y : BitVec 1)
  /-- VSHR (R318). Shifts integer lanes right logically. -/
  | vshr (d : BitVec 4) (a : BitVec 4) (b : BitVec 4) (t : BitVec 4) (k : BitVec 2) (z : BitVec 1) (y : BitVec 1)
  /-- VSRA (R318). Shifts integer lanes right arithmetically. -/
  | vsra (d : BitVec 4) (a : BitVec 4) (b : BitVec 4) (t : BitVec 4) (k : BitVec 2) (z : BitVec 1) (y : BitVec 1)
  /-- VABS (R318). Writes the absolute value of integer lanes. -/
  | vabs (d : BitVec 4) (a : BitVec 4) (t : BitVec 4) (k : BitVec 2) (z : BitVec 1) (s : BitVec 1)
  /-- VCMP (R319). Compares integer lanes into a mask. -/
  | vcmp (d : BitVec 2) (a : BitVec 4) (b : BitVec 4) (t : BitVec 4) (k : BitVec 2) (y : BitVec 1) (p : BitVec 3)
  /-- VSEL (R320). Selects lanes from a or b by mask. -/
  | vsel (d : BitVec 4) (a : BitVec 4) (b : BitVec 4) (t : BitVec 4) (k : BitVec 2) (y : BitVec 1)
  /-- VPOPC (R318). Counts the set bits of each lane. -/
  | vpopc (d : BitVec 4) (a : BitVec 4) (t : BitVec 4) (k : BitVec 2) (z : BitVec 1)
  /-- VFADD (R321). Adds floating-point lanes. -/
  | vfadd (d : BitVec 4) (a : BitVec 4) (b : BitVec 4) (t : BitVec 4) (k : BitVec 2) (z : BitVec 1) (y : BitVec 1) (r : BitVec 3)
  /-- VFSUB (R321). Subtracts floating-point lanes. -/
  | vfsub (d : BitVec 4) (a : BitVec 4) (b : BitVec 4) (t : BitVec 4) (k : BitVec 2) (z : BitVec 1) (y : BitVec 1) (r : BitVec 3)
  /-- VFMUL (R321). Multiplies floating-point lanes. -/
  | vfmul (d : BitVec 4) (a : BitVec 4) (b : BitVec 4) (t : BitVec 4) (k : BitVec 2) (z : BitVec 1) (y : BitVec 1) (r : BitVec 3)
  /-- VFMA (R321). Fused multiply-add of floating-point lanes with d as addend. -/
  | vfma (d : BitVec 4) (a : BitVec 4) (b : BitVec 4) (t : BitVec 4) (k : BitVec 2) (z : BitVec 1) (y : BitVec 1) (r : BitVec 3)
  /-- VFMS (R321). Fused d minus a times b on floating-point lanes. -/
  | vfms (d : BitVec 4) (a : BitVec 4) (b : BitVec 4) (t : BitVec 4) (k : BitVec 2) (z : BitVec 1) (y : BitVec 1) (r : BitVec 3)
  /-- VFMIN (R321). Writes the lesser floating-point lane. -/
  | vfmin (d : BitVec 4) (a : BitVec 4) (b : BitVec 4) (t : BitVec 4) (k : BitVec 2) (z : BitVec 1) (y : BitVec 1)
  /-- VFMAX (R321). Writes the greater floating-point lane. -/
  | vfmax (d : BitVec 4) (a : BitVec 4) (b : BitVec 4) (t : BitVec 4) (k : BitVec 2) (z : BitVec 1) (y : BitVec 1)
  /-- VFABS (R321). Clears the sign bit of floating-point lanes. -/
  | vfabs (d : BitVec 4) (a : BitVec 4) (t : BitVec 4) (k : BitVec 2) (z : BitVec 1)
  /-- VFCMP (R322). Compares floating-point lanes into a mask. -/
  | vfcmp (d : BitVec 2) (a : BitVec 4) (b : BitVec 4) (t : BitVec 4) (k : BitVec 2) (y : BitVec 1) (p : BitVec 3)
  /-- VCVT (R324). Converts lanes between types, widening or narrowing by part. -/
  | vcvt (d : BitVec 4) (a : BitVec 4) (b : BitVec 4) (t : BitVec 4) (k : BitVec 2) (q : BitVec 2) (s : BitVec 1) (r : BitVec 3)
  /-- VRCP (R323). Writes the correctly rounded reciprocal of lanes. -/
  | vrcp (d : BitVec 4) (a : BitVec 4) (t : BitVec 4) (k : BitVec 2) (z : BitVec 1) (r : BitVec 3)
  /-- VRSQ (R323). Writes the reciprocal square root of lanes. -/
  | vrsq (d : BitVec 4) (a : BitVec 4) (t : BitVec 4) (k : BitVec 2) (z : BitVec 1) (r : BitVec 3)
  /-- VEXP2 (R323). Writes 2 to the power of lanes. -/
  | vexp2 (d : BitVec 4) (a : BitVec 4) (t : BitVec 4) (k : BitVec 2) (z : BitVec 1) (r : BitVec 3)
  /-- VLOG2 (R323). Writes the base-2 logarithm of lanes. -/
  | vlog2 (d : BitVec 4) (a : BitVec 4) (t : BitVec 4) (k : BitVec 2) (z : BitVec 1) (r : BitVec 3)
  /-- VTANH (R323). Writes the hyperbolic tangent of lanes. -/
  | vtanh (d : BitVec 4) (a : BitVec 4) (t : BitVec 4) (k : BitVec 2) (z : BitVec 1) (r : BitVec 3)
  /-- VFSUM (R326). Sums floating-point lanes by a fixed tree into an anchor. -/
  | vfsum (d : BitVec 4) (a : BitVec 4) (b : BitVec 4) (t : BitVec 4) (k : BitVec 2) (r : BitVec 3)
  /-- VLD (R330). Loads 128 bytes into a vector register under a mask. -/
  | vld (d : BitVec 4) (a : BitVec 4) (t : BitVec 4) (k : BitVec 2) (z : BitVec 1) (g : BitVec 3)
  /-- VST (R330). Stores the active lanes of a vector register. -/
  | vst (d : BitVec 4) (a : BitVec 4) (t : BitVec 4) (k : BitVec 2) (g : BitVec 3)
  /-- VLDF (R331). Waits until a block of 8 granules is full and loads it, optionally emptying it. -/
  | vldf (d : BitVec 4) (a : BitVec 4) (t : BitVec 4) (c : BitVec 1) (g : BitVec 3)
  /-- VSTF (R331). Stores 128 bytes and sets all 8 granules full in one step. -/
  | vstf (d : BitVec 4) (a : BitVec 4) (t : BitVec 4) (g : BitVec 3)
  /-- VGATHER (R332). Loads each active lane from its own address. -/
  | vgather (d : BitVec 4) (a : BitVec 4) (b : BitVec 4) (t : BitVec 4) (k : BitVec 2) (z : BitVec 1) (g : BitVec 3)
  /-- VSCATTER (R332). Stores each active lane to its own address. -/
  | vscatter (d : BitVec 4) (a : BitVec 4) (b : BitVec 4) (t : BitVec 4) (k : BitVec 2) (g : BitVec 3)
  /-- VBCAST (R328). Broadcasts one lane of a vector to all active lanes. -/
  | vbcast (d : BitVec 4) (a : BitVec 4) (b : BitVec 4) (t : BitVec 4) (k : BitVec 2) (z : BitVec 1)
  /-- VEXT (R328). Extracts one lane into an anchor. -/
  | vext (d : BitVec 4) (a : BitVec 4) (b : BitVec 4) (t : BitVec 4)
  /-- VINS (R328). Inserts an anchor value into one lane. -/
  | vins (d : BitVec 4) (a : BitVec 4) (b : BitVec 4) (t : BitVec 4)
  /-- VPERM (R328). Permutes lanes by an index vector. -/
  | vperm (d : BitVec 4) (a : BitVec 4) (b : BitVec 4) (t : BitVec 4) (k : BitVec 2) (z : BitVec 1)
  /-- VRED (R325). Reduces integer lanes into an anchor. -/
  | vred (d : BitVec 4) (a : BitVec 4) (b : BitVec 4) (t : BitVec 4) (k : BitVec 2) (o : BitVec 3)
  /-- VSCAN (R327). Writes an inclusive prefix over active lanes. -/
  | vscan (d : BitVec 4) (a : BitVec 4) (b : BitVec 4) (t : BitVec 4) (k : BitVec 2) (z : BitVec 1) (o : BitVec 3)
  /-- MOP (R329). Combines masks. -/
  | mop (d : BitVec 2) (a : BitVec 2) (b : BitVec 2) (t : BitVec 4) (o : BitVec 3)
  /-- VSPLAT (R328). Writes an anchor value into every active lane. -/
  | vsplat (d : BitVec 4) (a : BitVec 4) (t : BitVec 4) (k : BitVec 2) (z : BitVec 1)
  /-- LI (R281). Loads a sign-extended 32-bit immediate. -/
  | li (d : BitVec 8) (imm : BitVec 32)
  /-- LIH (R281). Writes bits 63 to 32 of d from an immediate. -/
  | lih (d : BitVec 8) (imm : BitVec 32)
  /-- ADDL (R281). Adds a sign-extended 32-bit immediate. -/
  | addl (d : BitVec 8) (a : BitVec 8) (imm : BitVec 32)
  /-- GETC (R371). Reads a control register after number and privilege checks. -/
  | getc (d : BitVec 8) (n : BitVec 16)
  /-- SETC (R371). Writes a control register after number and privilege checks. -/
  | setc (a : BitVec 8) (n : BitVec 16)
  /-- MMA (R346). Multiplies operand tiles from the bower store into an accumulator, K-group by K-group. -/
  | mma (d : BitVec 8) (a : BitVec 8) (acc : BitVec 2) (k : BitVec 3) (x : BitVec 1) (tb : BitVec 4) (ta : BitVec 4) (m : BitVec 6)
  /-- MMA_IDX (R346). Multiplies with A rows gathered by an index vector. -/
  | mmaIdx (d : BitVec 8) (a : BitVec 8) (acc : BitVec 2) (k : BitVec 3) (x : BitVec 1) (vi : BitVec 4) (tb : BitVec 4) (ta : BitVec 4) (m : BitVec 6)
  /-- SEGSET (R304). Writes a segment register, checked against a source segment in user mode. -/
  | segset (d : BitVec 8) (a : BitVec 8) (st : BitVec 3) (sp : BitVec 3) (rights : BitVec 6)
  /-- LDL (R296). Loads with an unscaled 32-bit offset. -/
  | ldl (d : BitVec 8) (a : BitVec 8) (s : BitVec 3) (t : BitVec 3) (imm : BitVec 32)
  /-- STL (R296). Stores with an unscaled 32-bit offset. -/
  | stl (d : BitVec 8) (a : BitVec 8) (s : BitVec 3) (z : BitVec 2) (imm : BitVec 32)
  /-- TRIG_POSTL (R361). Posts a trigger entry with a 32-bit immediate threshold. -/
  | trigPostl (d : BitVec 8) (a : BitVec 8) (imm : BitVec 32)
  /-- ILLEGAL_INSTRUCTION (R263). A word that is not an instruction raises the illegal-instruction fault. -/
  | illegalInstruction (a : BitVec 24)
  /-- ABORT_COMPLETE (R189). Once every strand is STOPPED, the aborted gang's holdings are released and the entry freed. -/
  | abortComplete (v : Nat) (e : Nat)
  /-- LATE_FAULT_TAKEN (R292). A fault of a relaxed access arrives and is taken at the strand's next turn, withdrawing its wait. -/
  | lateFaultTaken (k : Nat)
  /-- RSP_DATA (R125). A data response arrives, writes the register, clears any pending bit and wakes the strand. -/
  | rspData (m : Nat)
  /-- RSP_ACKNOWLEDGE (R102). An acknowledgement arrives, completing a write or relaxed access. -/
  | rspAcknowledge (m : Nat)
  /-- RSP_DEFERRAL (R128). A full/empty deferral arrives; the operation is resent after 64 cycles. -/
  | rspDeferral (m : Nat)
  /-- FE_DEFERRAL_RESEND (R128). The deferred full/empty operation is sent again to its home. -/
  | feDeferralResend (t : Nat)
  /-- RSP_ERROR (R404). An error response arrives carrying a fault code for the request. -/
  | rspError (m : Nat)
  /-- RSP_MONITOR_FIRE (R134). A monitor fire arrives and marks the strand's monitor fired, waking mon.wait. -/
  | rspMonitorFire (m : Nat)
  /-- RSP_QUEUE_REFUSAL (R370). A queue refusal arrives; the message is resent after 64 network cycles. -/
  | rspQueueRefusal (m : Nat)
  /-- NQ_RESEND (R370). A refused network-queue message is sent again. -/
  | nqResend (t : Nat)
  /-- RSP_HOST_RETRY (R162). A host retry answer ends a stopping strand's read, which issues again after resumption. -/
  | rspHostRetry (m : Nat)
  /-- RSP_STATUS (R367). A status response of an arm or contribution arrives. -/
  | rspStatus (m : Nat)
  /-- ICACHE_FILL (R436). An instruction-cache line arrives and wakes the fetching strand. -/
  | icacheFill (m : Nat)
  /-- REQ_READ (R99). A read request is performed at its home in arrival order and answered. -/
  | reqRead (m : Nat)
  /-- REQ_WRITE (R99). A write request is performed at its home and acknowledged. -/
  | reqWrite (m : Nat)
  /-- REQ_WRITE_SET_FULL (R88). A write that sets the written granules full, serving their wait lists. -/
  | reqWriteSetFull (m : Nat)
  /-- REQ_LDF (R131). A waiting full load is performed or admitted to the granule's wait list. -/
  | reqLdf (m : Nat)
  /-- REQ_LDFC (R131). A consuming full load is performed or admitted to the wait list. -/
  | reqLdfc (m : Nat)
  /-- REQ_LDFN (R299). Reads data and full/empty bit in one step. -/
  | reqLdfn (m : Nat)
  /-- REQ_STEF (R131). A store-when-empty is performed or admitted to the wait list. -/
  | reqStef (m : Nat)
  /-- REQ_CLRE (R131). Sets the granule empty and serves its wait list. -/
  | reqClre (m : Nat)
  /-- REQ_SETF (R131). Sets the granule full and serves its wait list. -/
  | reqSetf (m : Nat)
  /-- REQ_VLDF (R331). A block full load is performed or its record placed in the list of the lowest empty granule. -/
  | reqVldf (m : Nat)
  /-- REQ_FE_WITHDRAW (R132). Withdraws a full/empty record at its home for a stopping strand. -/
  | reqFeWithdraw (m : Nat)
  /-- REQ_NIBBLE_WRITE (R330). Performs an indivisible read-modify-write of each byte a nibble enable names. -/
  | reqNibbleWrite (m : Nat)
  /-- REQ_AMO (R110). A non-fetching atomic is performed once at its home, raising a tagged counter where present. -/
  | reqAmo (m : Nat)
  /-- REQ_FAMO (R110). A fetching atomic is performed at its home and returns the old value. -/
  | reqFamo (m : Nat)
  /-- REQ_MONITOR_ARM (R133). The home records a watch, or fires the monitor when its table is full. -/
  | reqMonitorArm (m : Nat)
  /-- REQ_MONITOR_CLEAR (R133). The home removes the strand's watch. -/
  | reqMonitorClear (m : Nat)
  /-- REQ_NQ_WORD (R370). A network-queue word arrives, filling the register or refused if full. -/
  | reqNqWord (m : Nat)
  /-- DRAIN_MARKER_RETURN (R205). A drain marker returns; when all have returned the new setting applies and held messages go. -/
  | drainMarkerReturn (m : Nat)
  /-- ROUTER_MERGE_AMO (R111). A router merges queued amo requests into one with a combined operand and count. -/
  | routerMergeAmo (v : Nat) (m1 : Nat) (m2 : Nat)
  /-- MERGED_AMO_ANSWER (R410). After the home acknowledges a merged request, the merging router answers each contribution. -/
  | mergedAmoAnswer (m : Nat)
  /-- L1D_FILL (R86). A cached miss fills a line, evicting and writing back dirty bytes of another. -/
  | l1dFill (m : Nat)
  /-- STRIDE_PREFETCH (R92). The stride prefetcher issues a prefetch ahead of a detected stream. -/
  | stridePrefetch (c : Nat) (slot : Nat) (ahead : Nat)
  /-- SCRUB_PASS (R91). The scrubber reads every granule within 2 ms, correcting and reporting errors. -/
  | scrubPass (v : Nat) (u : Nat) (g : Nat) (lasting : Bool) (uncorrectable : Bool)
  /-- MEMORY_PORT_TRANSLATE (R137). A heap access reaches the memory port and is translated or held on a TLB miss. -/
  | memoryPortTranslate (v : Nat) (p : Nat)
  /-- MISS_DONE_INSTALL (R138). Installs ctl.miss_pte into the TLB and retries the held access. -/
  | missDoneInstall (k : Nat)
  /-- MISS_DONE_NOT_PRESENT (R139). Records a not-present fault, taking a replay entry where needed, and parks the strand. -/
  | missDoneNotPresent (k : Nat)
  /-- MISS_DONE_FAULT (R138). Delivers the written code to the strand as a precise fault. -/
  | missDoneFault (k : Nat)
  /-- MISS_DONE_IGNORED (R138). Outcome 0b11 removes the head message and does nothing else. -/
  | missDoneIgnored (k : Nat)
  /-- FQ_WAKE (R142). A wake word releases a replay entry or wakes a strand parked on a page fault. -/
  | fqWake (v : Nat) (w : BitVec 64)
  /-- REPLAY_ENTRY_END (R136). The last element of a replay entry is performed, completing its instruction or chunk. -/
  | replayEntryEnd (c : Nat) (r : Nat)
  /-- TLB_INV_ADDR (R200). Removes every TLB entry mapping an address and raises the epoch. -/
  | tlbInvAddr (v : Nat) (a : BitVec 64)
  /-- TLB_INV_ALL (R200). Removes every TLB entry and raises the epoch. -/
  | tlbInvAll (v : Nat)
  /-- TLB_BUSY_CLEAR (R200). BUSY clears once accesses translated by removed entries are performed. -/
  | tlbBusyClear (v : Nat)
  /-- SM_MAP_WRITE (R201). Writes site-map entries, ignored unless the site is marked unreachable. -/
  | smMapWrite (v : Nat) (ix : Nat) (w : BitVec 64)
  /-- SM_REFQ (R202). Counts trigger and trellis references to a virtual site. -/
  | smRefq (v : Nat) (w : BitVec 64)
  /-- NS_UPDATE (R205). Holds messages to a destination and sends drain markers before changing its mesh setting. -/
  | nsUpdate (v : Nat) (w : BitVec 64)
  /-- CFG_NSUPDATE (R206). Changes a memory site's network-select entry with the drain of ns.update. -/
  | cfgNsupdate (v : Nat) (w : BitVec 64)
  /-- BAND_WRITE (R207). Writes a banded-latency entry, clamping max and computing band. -/
  | bandWrite (v : Nat) (r : Nat) (w : BitVec 64)
  /-- TR_CLEAR (R210). Firmware frees a trellis entry. -/
  | trClear (v : Nat) (x : Mesh) (w : BitVec 64)
  /-- SLICE_PIN_WRITE (R87). Changes the pinned region, writing back and emptying the slice cache. -/
  | slicePinWrite (k : Nat)
  /-- PERMIT_WRITE (R62). Writes a permit register; lowering cap lowers count. -/
  | permitWrite (c : Nat) (p : Nat) (w : BitVec 64)
  /-- PERMIT_REFILL (R226). Each core cycle adds permits by rate up to cap. -/
  | permitRefill (c : Nat)
  /-- WATCHDOG_WRITE (R228). Writes the watchdog and resets its count. -/
  | watchdogWrite (k : Nat)
  /-- WATCHDOG_EXPIRY (R228). The count reaches the period, setting X and raising an event. -/
  | watchdogExpiry (v : Nat)
  /-- COUNTER_WINDOW_STORE (R215). A supervisor store sets a trigger counter. -/
  | counterWindowStore (v : Nat) (n : Nat) (w : BitVec 64)
  /-- REGISTER_WRITE (R57). A write to a register that has no behaviour of its own. -/
  | registerWrite (t : WriteTarget)
  /-- REQ_COUNTER_ADD (R216). A counter add arrives and is applied in the network cycle, after any set. -/
  | reqCounterAdd (m : Nat)
  /-- TRIGGER_FIRE (R219). The engine acquires the watched counter, issues the operation and frees or re-arms the entry. -/
  | triggerFire (v : Nat) (n : Nat)
  /-- TRIGGER_OP_COMPLETE (R363). A fired operation completes and raises its completion counters. -/
  | triggerOpComplete (v : Nat) (o : Nat)
  /-- TRIGGER_LAUNCH_RETRY (R363). A triggered launch that met a full queue is retried after 1,000 ticks. -/
  | triggerLaunchRetry (v : Nat) (o : Nat)
  /-- BARRIER_ARRIVAL (R221). The claim unit counts a crew arrival at the gang barrier. -/
  | barrierArrival (k : Nat)
  /-- NEST_CLAIM (R224). The claim unit serves a crew's chunk claim from the nest counter. -/
  | nestClaim (k : Nat)
  /-- VECTOR_QUEUE_TAKE (R316). The vector unit takes the head of a core's vector queue when its pipe has room. -/
  | vectorQueueTake (c : Nat)
  /-- VECTOR_RESULT (R312). The vector unit writes all destinations and wakes the strand. -/
  | vectorResult (k : Nat)
  /-- MATRIX_OP_BEGIN (R343). A queued matrix operation begins when its lane and accumulator are free. -/
  | matrixOpBegin (c : Nat) (drain : Bool)
  /-- MATRIX_KGROUP_STEP (R346). The engine performs one K-group, taking a permit or waiting for one. -/
  | matrixKgroupStep (c : Nat)
  /-- MATRIX_OP_COMPLETE (R346). The matrix operation ends and the strand is woken. -/
  | matrixOpComplete (c : Nat) (drain : Bool)
  /-- DRAIN_ROW_END (R349). A drain row's handler ends; the next row's handler starts or the drain completes. -/
  | drainRowEnd (c : Nat)
  /-- COPY_TAKE (R353). The copy strand takes a parameter block from a mailbox or trigger and checks it. -/
  | copyTake (c : Nat)
  /-- COPY_BEAT (R353). The copy strand issues one read or write beat of a chunk. -/
  | copyBeat (c : Nat) (i : Nat)
  /-- COPY_COMPLETE (R354). Every write of the last chunk is acknowledged; the counter is raised and the record freed. -/
  | copyComplete (c : Nat) (i : Nat)
  /-- COPY_FAULT_DELIVERY (R355). A copy's fault is delivered to the posting strand at its next turn. -/
  | copyFaultDelivery (c : Nat) (i : Nat)
  /-- HOST_CMD_LAUNCH (R148). The launch unit takes a launch command, checks the descriptor and starts the launch. -/
  | hostCmdLaunch (g : Nat) (q : Nat)
  /-- HOST_CMD_REPLAY (R157). The launch unit takes a graph replay command and waits for a free bank. -/
  | hostCmdReplay (g : Nat) (q : Nat)
  /-- HOST_CMD_PREEMPT (R161). The keeper core sends a pre-emption request for each named gang. -/
  | hostCmdPreempt (g : Nat) (q : Nat)
  /-- HOST_CMD_DRAIN (R148). Waits until every earlier command of the queue is complete. -/
  | hostCmdDrain (g : Nat) (q : Nat)
  /-- HOST_CMD_RESERVED (R147). A reserved op completes with status 1 and does nothing else. -/
  | hostCmdReserved (g : Nat) (q : Nat)
  /-- QTAIL_WRITE (R146). The host advances qtail and the launch unit takes commands, stopping the queue on overrun. -/
  | qtailWrite (g : Nat) (q : Nat) (w : BitVec 64)
  /-- QCTL_WRITE (R146). Writes queue control, clamping lsize and restarting a stopped queue with EN clear. -/
  | qctlWrite (g : Nat) (q : Nat) (w : BitVec 64)
  /-- CREAD_WRITE (R148). The host advances cread, letting held completion records be written. -/
  | creadWrite (g : Nat) (q : Nat) (w : BitVec 64)
  /-- COMPLETION_RECORD_WRITE (R148). A completion record is written to the host ring when there is room. -/
  | completionRecordWrite (g : Nat) (q : Nat)
  /-- REPLAY_START (R157). A bank is free; it is copied, patched and the replay's nodes start. -/
  | replayStart (g : Nat) (r : Nat)
  /-- GRAPH_NODE_START (R157). A graph node starts once every predecessor is complete. -/
  | graphNodeStart (g : Nat) (r : Nat) (i : Nat)
  /-- REQ_LAUNCH_SUBMISSION (R159). A gatehouse accepts a descriptor into its device-side queue. -/
  | reqLaunchSubmission (m : Nat)
  /-- GANG_OFFER (R152). A launch unit offers a gang to a pavilion's claim unit. -/
  | gangOffer (g : Nat) (l : Nat) (v : Nat)
  /-- PLACEMENT_RESERVATION (R154). A gang that has waited 1,000,000 ticks sets a priority reservation in its window's claim units. -/
  | placementReservation (g : Nat) (l : Nat)
  /-- PREEMPT_REQUEST (R161). A pre-emption request arrives, sets P, suspends trigger entries and starts the deadline. -/
  | preemptRequest (v : Nat) (launch : Nat) (gang : GangSave)
  /-- PSAVE_DEADLINE_EXPIRY (R162). The forced-save deadline expires and every strand of the gang stops. -/
  | psaveDeadlineExpiry (v : Nat) (e : Nat)
  /-- GANG_SAVE_COMPLETE (R163). The gang is saved to its context area and its holdings released. -/
  | gangSaveComplete (v : Nat) (e : Nat)
  /-- RESUMPTION (R164). A saved gang is resumed on its slots and its holdings reacquired. -/
  | resumption (i : Nat)
  /-- EVENT_HOLD_TO_RECORD (R165). A unit's held event moves into an event record when room allows. -/
  | eventHoldToRecord (v : Nat)
  /-- EVENT_FORWARD (R167). The pavilion sends an event record to its target gatehouse. -/
  | eventForward (v : Nat)
  /-- EVENT_RESEND (R167). A refused event record is sent again after 1,000 ticks. -/
  | eventResend (v : Nat)
  /-- REQ_ARM_RESERVE (R367). A router reserves a trellis entry and buffers for an arm. -/
  | reqArmReserve (m : Nat)
  /-- REQ_ARM_COMMIT (R367). A reserved trellis entry moves to COLLECT with its fields. -/
  | reqArmCommit (m : Nat)
  /-- REQ_ARM_RELEASE (R367). A router releases a reservation of a failed arm. -/
  | reqArmRelease (m : Nat)
  /-- REQ_CONTRIBUTION (R209). A contribution is combined into a COLLECT entry or refused. -/
  | reqContribution (m : Nat)
  /-- REQ_RESULT (R210). A result piece arrives from the parent, or is dropped if unexpected. -/
  | reqResult (m : Nat)
  /-- TRELLIS_DELIVER (R209). The result is forwarded to children, written at dest, rctr raised and the entry freed. -/
  | trellisDeliver (v : Nat) (x : Mesh) (g : Nat)
  /-- TICK (R65). The region's time counter advances by one tick. -/
  | tick (rx : Nat) (ry : Nat)
  /-- OFFSET_PROBE (R227). The region starts an offset probe to a neighbour. -/
  | offsetProbe (v : Nat) (d : Nat)
  /-- REQ_PROBE_TIMESTAMP (R227). The neighbour receives a probe timestamp and echoes it. -/
  | reqProbeTimestamp (m : Nat)
  /-- REQ_PROBE_ECHO (R227). The echo arrives and the offset is computed and stored. -/
  | reqProbeEcho (m : Nat)
  /-- CONTROL_INTERVAL (R424). Every 10,000 ticks each bower's level and caps are evaluated. -/
  | controlInterval (v : Nat)
  /-- LEVEL_CHANGE_COMPLETE (R422). A level change completes and ctl.op_granted.level takes it. -/
  | levelChangeComplete (b : Nat)
  /-- LIMITER_WINDOW (R427). At each 1 µs window the limiter compares current with the limit and changes stage. -/
  | limiterWindow (v : Nat) (meas : Nat)
  /-- THERMAL_TRIP (R425). The sensor reaches 110 degrees and every bower drops to level 0. -/
  | thermalTrip (v : Nat) (temp : Int)
  /-- LINK_CRC_ERROR (R407). A flit with a CRC error or seq gap is dropped and a retry requested. -/
  | linkCrcError (v : Nat) (d : Nat) (x : Mesh)
  /-- LINK_RETRY_TIMEOUT (R407). No acknowledgement in 256 network cycles; the sender resends. -/
  | linkRetryTimeout (v : Nat) (d : Nat) (x : Mesh)
  /-- FLIT_PROTOCOL_ERROR (R403). A flit with bad reserved fields or op is consumed and reported. -/
  | flitProtocolError (v : Nat) (d : Nat) (x : Mesh) (flit : List (BitVec 8))
  /-- REFERENCE_CLOCK_LOSS (R429). A forwarded reference is lost and the link goes down. -/
  | referenceClockLoss (v : Nat) (d : Nat)
  /-- GATEHOUSE_ZERO_LENGTH_READ (R119). The gatehouse issues a zero-length read behind a buffered write within 2 µs. -/
  | gatehouseZeroLengthRead (g : Nat)
  /-- HOST_WRITE_COMPLETE (R119). The zero-length read completes and the write leaves the buffer. -/
  | hostWriteComplete (g : Nat)
  /-- HOST_ATOMICOP_COMPLETE (R302). The host completes an AtomicOp and the gatehouse answers the strand. -/
  | hostAtomicopComplete (g : Nat) (t : Nat) (ok : Bool)
  /-- REQ_CONFIG_READ (R413). A site answers a configuration read. -/
  | reqConfigRead (m : Nat)
  /-- REQ_CONFIG_WRITE (R413). A site performs a configuration write. -/
  | reqConfigWrite (m : Nat)
  /-- CFG_WINDOW_ACCESS (R413). A keeper access sends a configuration read or write to the target site and parks. -/
  | cfgWindowAccess (g : Nat) (t : Nat)
  /-- CFG_ISOLATE (R414). The site goes to ISOLATED and takes its links down. -/
  | cfgIsolate (v : Nat)
  /-- POWER_GOOD (R415). Power is good and reset released; the site enters LISTEN. -/
  | powerGood (v : Nat)
  /-- MODULE_RESET (R415). Module reset returns the site to COLD. -/
  | moduleReset (v : Nat)
  /-- REFERENCE_LOCK (R415). An edge presents a reference and its link initialises; the site enters LOCK. -/
  | referenceLock (v : Nat) (d : Nat)
  /-- GATEHOUSE_REFERENCE_STABLE (R415). A gatehouse's own reference is stable and it enters LOCK. -/
  | gatehouseReferenceStable (v : Nat)
  /-- LISTEN_TIMEOUT (R415). No reference within 10 ms: ISOLATED, or FAILED for a gatehouse. -/
  | listenTimeout (v : Nat)
  /-- LINK_INIT_COMPLETE (R417). A link completes initialisation and starts sending hellos. -/
  | linkInitComplete (v : Nat) (d : Nat) (x : Mesh)
  /-- HELLO_RESEND (R417). A hello is sent again every 1,000 ticks until one is received. -/
  | helloResend (v : Nat) (d : Nat) (x : Mesh)
  /-- REQ_HELLO (R417). A hello arrives, settling coordinates or raising a conflict. -/
  | reqHello (m : Nat)
  /-- SELF_TEST_DONE (R415). Self-test ends: MAP with zeroed SRAM, or FAILED. -/
  | selfTestDone (v : Nat) (ok : Bool)
  /-- REQ_IMAGE_REQUEST (R418). An image request is answered in READY or relayed upstream. -/
  | reqImageRequest (m : Nat)
  /-- REQ_IMAGE_BLOCK (R419). An image block arrives; after the last the section is verified. -/
  | reqImageBlock (m : Nat)
  /-- MAP_IMAGE_TIMEOUT (R415). No image within 1,000,000,000 ticks; the site enters FAILED. -/
  | mapImageTimeout (v : Nat)
  /-- AT_GO (R435). Starts a signed quote over the nonce. -/
  | atGo (v : Nat)
  /-- QUOTE_DONE (R435). The quote is written and DONE set. -/
  | quoteDone (v : Nat)
  /-- IDLE_FLIT (R405). An idle flit arrives and only its link fields are taken: acknowledgement, credit return and retry request. -/
  | idleFlit (v : Nat) (d : Nat) (x : Mesh) (f : LinkFields)
  /-- REQ_DRAIN_MARKER (R205). A drain marker arrives at its destination, which returns it on the other mesh. -/
  | reqDrainMarker (m : Nat)
  /-- HOST_READ_COMPLETION (R119). A PCIe read completion arrives from the host, and the gatehouse answers the host-window read or fetch, or raises host-access on error. -/
  | hostReadCompletion (g : Nat) (t : Nat) (ok : Bool)
  /-- HOST_LINK_STATE_CHANGE (R420). The gatehouse's PCIe link goes down or comes up, deciding whether host-window accesses raise host-access. -/
  | hostLinkStateChange (g : Nat) (up : Bool)
  /-- FQ_HEAD_WRITE (R141). A write of fq.head, limited to fq.tail, frees fault-queue entries and wakes a walk strand parked with reason record-wait. -/
  | fqHeadWrite (v : Nat) (w : BitVec 64)
  /-- FAULT_QUEUE_NOTICE (R141). A fault-queue notice arrives at the keeper core of the gatehouse named in fq.notify. -/
  | faultQueueNotice (m : Nat)
  /-- GATEHOUSE_RETRY_ANSWER (R162). Within 2 µs after the forced-save deadline, a gatehouse answers a stopping gang's pending host-window request with data or a retry answer. -/
  | gatehouseRetryAnswer (g : Nat) (t : Nat)
deriving DecidableEq, Repr

end Sys2Proof
end

