-- ==== Sys2Proof/Machine/State.lean ====
section
/-! DEFINITION. The state of the module, as plain data (spec/01_machine.md to spec/09_counters.md, spec/15, spec/16, spec/20,
spec/21). Everything is kept by PHYSICAL place: a site is y * 256 + x, a bower site * 4 + b, a core site * 16 + c, a strand
site * 256 + core * 16 + slot, a gatehouse its site (R13, R35). A list of pairs is a sparse table: a key it does not list holds the default record, the one
whose fields have the values written here. -/

namespace Sys2Proof.Machine

/-! ## Strands -/

/-- The state of a slot (R143). -/
inductive SlotState where
  | free | ready | held | parked | stopped
deriving DecidableEq, Repr

/-- Why a strand is parked (R126), in the order of the codes 0x01 to 0x15. -/
inductive Park where
  | access | fetch | vector | matrix | pendingRegister | granuleOrder | relaxedFull | relaxedWait | fence | fullEmpty
  | monitor | barrier | counter | claim | join | mailbox | pageFault | missIdle | recordWait | queueIdle | copyIdle
deriving DecidableEq, Repr

/-- A segment register (R46): base, limit and the rights [5] P, [4] A, [3] F, [2] X, [1] W, [0] R. -/
structure Seg where
  base : Addr := 0
  limit : BitVec 48 := 0
  rights : BitVec 6 := 0
deriving DecidableEq, Repr

/-- What a load delivers (R293). -/
inductive LoadTy where
  | i8 | n8 | i16 | n16 | i32 | n32 | w64
deriving DecidableEq, Repr

/-- The non-fetching atomics (R300), in the order of the aop codes of R360. -/
inductive AmoOp where
  | add | fadd | minI | maxI | minN | maxN | and | or | xor
deriving DecidableEq, Repr

/-- The fetching atomics (R301). -/
inductive FamoOp where
  | add | fadd | or | swap | cas
deriving DecidableEq, Repr

/-- The requests a home performs (R404). -/
inductive ReqOp where
  | read | write | writeFull | ldf | ldfc | ldfn | stef | clre | setf
  | vldf (clear : Bool)
  | nibble
  | amo (op : AmoOp)
  | famo (op : FamoOp)
  | monArm | monClr
deriving DecidableEq, Repr

/-- On whose behalf an access is made, so that its reply finds its way (R404: the response carries the transaction back). -/
inductive Owner where
  /-- a plain scalar access: the strand's continuation says what the reply does -/
  | strand (k : Nat)
  /-- a relaxed access: entry `t` of the strand's tracker (R135) -/
  | relaxed (k t : Nat)
  /-- element `i` of the strand's vector access (R330-R333) -/
  | element (k i : Nat)
  /-- an instruction fetch of the line of `line` (R436) -/
  | fetch (k line : Nat)
  /-- the fill of a line by a prefetch (R92, R303) -/
  | prefetch (c line : Nat)
  /-- a write-back of dirty bytes; what waits for it names its transaction (R106, R114, R307) -/
  | writeBack
  /-- a source read of chunk `i` of copy `n` of core `c` -/
  | copyRead (c n i : Nat)
  /-- a destination write of chunk `i` of copy `n` of core `c` -/
  | copyWrite (c n i : Nat)
  /-- operation `o` of the trigger engine of site `v` (R363) -/
  | trigger (v o : Nat)
  /-- watch `n` that the strand's monitor has sent (R309) -/
  | monitor (k n : Nat)
  /-- the add that a gang end makes for a launch of a launch unit, by rim index and launch number (R155) -/
  | gangEnd (rim launch : Nat)
  /-- an arm operation of site `v` (R367) -/
  | arm (v o : Nat)
  /-- a configuration read that the host made through cfg.window of gatehouse `g` (R413, R420) -/
  | hostWindow (g : Nat)
  /-- an access of a strand of aborted gang `n` (`Gang.mark`) that the abort found outstanding: `o` owned it (R114, R144) -/
  | aborted (n : Nat) (o : Owner)
  /-- nothing waits for the reply -/
  | nobody
deriving DecidableEq, Repr

/-- An access that has passed the checks of its segment (R78): its address, what it does and for whom. -/
structure Acc where
  /-- the address, kind in bits 59 to 57 (R74); a placed address is absolute here (R76) -/
  addr : Addr := 0
  op : ReqOp := .read
  /-- bytes touched -/
  size : Nat := 8
  data : List Byte := []
  /-- byte enables of a write, bit j for data byte j (R401) -/
  en : Nat := 0
  /-- high-nibble enables of a nibble write (R401); with any, a write of whole bytes goes past the caches too, as an element of a store that
  writes half of some byte (R330) -/
  hi : Nat := 0
  /-- access kind of R140 -/
  kind : Nat := 0
  /-- the instruction that makes the access (R141) -/
  pc : Addr := 0
  /-- key of the strand on whose behalf it is made -/
  k : Nat := 0
  /-- number of the segment register that it was made through -/
  seg : Nat := 0
  /-- made with supervisor rights (R75) -/
  sup : Bool := false
  /-- completion-counter tag (R363) -/
  tag : Option Nat := none
  owner : Owner := .nobody
deriving DecidableEq, Repr

/-- One outstanding relaxed access (R135). -/
structure Track where
  id : Nat
  /-- 16-byte granules it touches, as addresses / 16 -/
  granule : Nat
  /-- destination specifier of an `ldr.64` -/
  dest : Option Nat := none
  /-- replay entry, once it has faulted -/
  replay : Option Nat := none
  pc : Addr := 0
deriving DecidableEq, Repr

/-- A fault on its way to a strand: code, address, faulting instruction and access kind (R59, R292, R355). -/
structure Late where
  code : Nat
  addr : Addr
  pc : Addr
  kind : Nat := 0
deriving DecidableEq, Repr

/-- A strand's monitor (R133, R134). -/
structure Monitor where
  /-- the granule watched and the home that holds the watch: site, unit, offset / 16 -/
  watch : Option (Nat × Nat × Nat) := none
  fired : Bool := false
  /-- watches still on their way to their homes (R309): number and address -/
  inFlight : List (Nat × Addr) := []
  /-- the one of them that the last `mon.arm` sent, unless `mon.clr` has come since; the removal of any other follows once its home is
  known (R133, R310) -/
  current : Option Nat := none
deriving DecidableEq, Repr

/-- What the reply to the operation a strand is parked for does; the number `adv` is what pc advances by when it completes. -/
inductive Cont where
  /-- nothing is outstanding: a woken strand issues its instruction again -/
  | reissue
  /-- the loaded value goes to register specifier `d` (R293) -/
  | load (ty : LoadTy) (d : Nat) (adv : Nat)
  /-- 16 bytes go to the pair at `d` (R293) -/
  | pair (d : Nat) (adv : Nat)
  /-- doubleword and full bit go to the pair at `d` (R298) -/
  | probe (d : Nat) (adv : Nat)
  /-- a 32-bit old value goes, zero extended, to `d` (R301) -/
  | old32 (d : Nat) (adv : Nat)
  /-- the reply only completes the instruction -/
  | done (adv : Nat)
  /-- a fence or range instruction waits for write-backs, named by their transactions (R106, R307), and, by bit 0 and bit 1 of `mode`, for
  the host writes of R120 and the gatehouse drain of R121 -/
  | flush (mode : Nat) (adv : Nat) (txns : List Nat)
  /-- a `getc` of register `n` waits for its reply (R371) -/
  | getc (n d : Nat)
  /-- a `setc` of register `n` waits to be performed (R371) -/
  | setc (n : Nat) (w : Word)
  /-- an arrival is on its way to the claim unit; `sync` then waits as `bar.wait` (R308) -/
  | arrive (sync : Bool)
  /-- `bar.wait` consults the claim unit (R308) -/
  | barAsk
  /-- waits for its crew's lead to be 0 (R221) -/
  | barWait
  /-- a fourth arrival ahead, not yet counted (R221) -/
  | fourth (sync : Bool)
  /-- a chunk claim of `next` to the loop body (R224) -/
  | next (target : Addr)
  /-- `acq.w` waits in its pool's list (R183) -/
  | claim (pool n : Nat)
  /-- `ctr.wait` on a counter (R217) -/
  | counter (n : Nat) (threshold : Word)
  /-- `nq.recv` waits for a queue register of the set (bit per register) (R370) -/
  | queue (d : Nat) (set : Nat)
  /-- `launch` waits for the write-backs of its release, named by their transactions (R341) -/
  | launchRelease (d : Nat) (addr : Addr) (txns : List Nat)
  /-- `launch` reads its descriptor, 64 bytes at a time; `buf` holds what has been read (R341) -/
  | launchRead (d : Nat) (addr : Addr) (buf : List Byte)
  /-- `launch` waits for the gatehouse's status (R341) -/
  | status (d : Nat)
  /-- `coll.arm` waits for its arm operation (R367) -/
  | arm (d : Nat)
  /-- a vector or engine operation holds the rest (R312, R343) -/
  | engine
  /-- the handler of a drain row has ended, or has yet to begin (R349) -/
  | rowEnd
  /-- the named registers must lose their pending bits (R43); the instruction then issues again -/
  | regs (l : List Nat)
  /-- no relaxed access and no watch in flight may remain on the granules of some ranges, each an address and bytes (R98); the instruction
  then issues again -/
  | granules (l : List (Addr × Nat))
  /-- `rel` waits until no relaxed access is outstanding, no register is pending and no engine operation uses an accumulator at or above
  `lo` of its crew (R185); it then gives up what it named as it was issued: pools and numbers -/
  | release (lo : Nat) (give : List (Nat × Nat))
  /-- `ccancel` waits until copy `n` has stopped (R356) -/
  | copyStop (n : Nat)
  /-- `cpost` waits for mailbox `n` (R352); it then issues again -/
  | mailbox (n : Nat)
  /-- `end` waits for the strand's copies (R337); it then issues again -/
  | ending
  /-- an instruction that would raise an event waits until the event hold of its unit is empty (R165); it then issues again -/
  | eventHold
  /-- `join` waits for the helper in a slot (R336) -/
  | join (n : Nat)
  /-- a fault that waits until the core's event hold is empty (R165) -/
  | stalled (f : Late)
  /-- a fault in supervisor mode that waits for the strand's relaxed accesses before it enters the trap (R374) -/
  | entry (f : Late)
deriving DecidableEq, Repr

/-- A strand: a slot and the registers of the strand in it (R39, R48, R57, R58, R374). The defaults are an empty slot's. -/
structure Strand where
  st : SlotState := .free
  why : Option Park := none
  pc : Addr := 0
  /-- a1-a7 and w0-w239 by register specifier 1 to 247 (R37); an unlisted register holds 0 -/
  regs : List (Nat × Word) := []
  /-- window granules held (R41) -/
  granules : Nat := 0
  /-- specifiers of the window registers whose pending bit is set (R43) -/
  pend : List Nat := []
  m1 : BitVec 256 := 0
  m2 : BitVec 256 := 0
  m3 : BitVec 256 := 0
  /-- s0-s7; an unlisted segment is the zero segment -/
  segs : List (Nat × Seg) := []
  i0 : BitVec 32 := 0
  i1 : BitVec 32 := 0
  i2 : BitVec 32 := 0
  i3 : BitVec 32 := 0
  crew : Nat := 0
  gang : BitVec 32 := 0
  launch : BitVec 32 := 0
  /-- id.org0-3 and id.ext0-3 by selector 0x08 to 0x0F (R48) -/
  shape : List (Nat × BitVec 32) := []
  /-- claim-table entry of the gang (R174) -/
  entry : Nat := 0
  sup : Bool := false
  control : Bool := false
  helpers : BitVec 13 := 0
  /-- slot of the strand that started this helper -/
  starter : Nat := 0
  /-- a handler strand of `mdrain` (R349) -/
  drain : Bool := false
  faultCode : Word := 0
  faultAddr : Addr := 0
  faultPc : Addr := 0
  rnd : BitVec 2 := 0
  seed : Word := 0
  trapPc : Addr := 0
  trapMode : Bool := false
  trapS0w0 : Word := 0
  trapS0w1 : Word := 0
  tracker : List Track := []
  monitor : Monitor := {}
  late : List Late := []
  cont : Cont := .reissue
  /-- live-range entry of the checkpoint it stopped at (R162) -/
  ckpt : Option Nat := none
deriving DecidableEq, Repr

/-! ## Cores -/

/-- One 128-byte line of a cache (R85, R86): the line's address / 128, its home, its bytes, dirty bits and write mark. -/
structure Line where
  /-- heap virtual address / 128 for the L1D and the slice; module address / 128 for the instruction cache -/
  line : Nat
  /-- home of the line: memory site and offset (class 0b00) -/
  site : Nat := 0
  off : Nat := 0
  data : List Byte := []
  dirty : Nat := 0
  mark : Bool := false
  /-- the line was filled through an entry that does not allow reads: a read is handled as a miss, whose translation raises the fault (R82) -/
  unread : Bool := false
  /-- an error strikes a line of the L1D or the slice: 1 correctable and transient, 2 uncorrectable, 3 correctable and lasting (R90, R91,
  R430): put there from outside (log 18) -/
  flaw : Nat := 0
  /-- words of a line of an instruction cache whose parity is wrong (R429): put there from outside (log 18) -/
  words : List Nat := []
  /-- the word for which the line was fetched again, until it has been read clean (R430) -/
  again : Option Nat := none
deriving DecidableEq, Repr

/-- A permit register (R62) with what the limiter recorded before it halved it (R427). -/
structure Permit where
  rate : Nat := 1024
  cap : Nat := 1024
  count : Nat := 1024
  saved : Option (Nat × Nat) := none
  /-- rate, cap and what was recorded before the first write of rate and cap in the instant under way (R62, R73) -/
  was : Option (Nat × Nat × Option (Nat × Nat)) := none
deriving DecidableEq, Repr

/-- A mailbox (R53, R352): block offset, slot and claim-table entry of the poster, the pc of its `cpost`, its segments and what else names
it. -/
structure Mail where
  off : Nat
  slot : Nat
  entry : Nat
  pc : Addr
  segs : List (Nat × Seg)
  /-- the poster's mode, launch and gang -/
  sup : Bool := false
  launch : BitVec 32 := 0
  gang : BitVec 32 := 0
  /-- order of the posts on the core (R356) -/
  seq : Nat := 0
deriving DecidableEq, Repr

/-- A network queue register (R50). -/
structure Queue where
  value : Word := 0
  full : Bool := false
deriving DecidableEq, Repr

/-- The classes of permits (R226). -/
inductive PClass where
  | matrix | vector | sfu | memory
deriving DecidableEq, Repr

/-- A miss message (R137, R138) with the port request that is held for it and the epoch it was recorded at (R200). -/
structure Miss where
  va : Nat
  slot : Nat
  kind : Nat
  port : Nat
  epoch : Nat
deriving DecidableEq, Repr

/-- A replay-queue entry (R136): the faulted elements, the instruction and whether a wake has released it. -/
structure Replay where
  ix : Nat
  slot : Nat
  kind : Nat
  pc : Addr
  accs : List Acc
  /-- waiting for a wake word (R142) -/
  waiting : Bool := true
  /-- elements issued again and not yet performed -/
  issued : List Owner := []
  /-- its strand's gang has aborted: it completes nothing, but is performed once a wake word releases it (R117, R142) -/
  dead : Bool := false
deriving DecidableEq, Repr

/-- What a vector instruction writes when it completes (R312): register words, a mask, the rounding seed. -/
structure VResult where
  regs : List (Nat × Word) := []
  mask : Option (Nat × BitVec 256) := none
  seed : Option Word := none
deriving DecidableEq, Repr

/-- The units of the vector unit (R316). -/
inductive VUnit where
  | pipe | sfu | mem
deriving DecidableEq, Repr

/-- One element of a vector access: its index, the access, the byte of the register that its first byte belongs to, and whether it is
performed. -/
structure VElem where
  ix : Nat
  acc : Acc
  pos : Nat
  done : Bool := false
deriving DecidableEq, Repr

/-- Where a vector load delivers: register, type, mask register and the Z modifier (R313, R330, R332). -/
structure VDest where
  vd : Nat
  ty : Nat
  mask : Nat
  zero : Bool
deriving DecidableEq, Repr

/-- A vector instruction in a core's vector queue or in the unit (R312, R316). -/
structure VOp where
  k : Nat
  unit : VUnit := .pipe
  taken : Bool := false
  result : VResult := {}
  elems : List VElem := []
  /-- bytes of the destination as loaded so far, by byte index -/
  buf : List (Nat × Byte) := []
  /-- destination of a load -/
  dest : Option VDest := none
  /-- first fault that arrived (R333) -/
  fault : Option Late := none
  /-- the lane of that fault, if it arrived in the instant under way: a lower lane's of the same cycle goes before it (R333) -/
  faultLane : Option Nat := none
deriving DecidableEq, Repr

/-- The parameters of `mma` and `mma.idx`, copied at issue (R344, R345). -/
structure Mma where
  ta : Nat
  tb : Nat
  x : Bool
  kk : Nat
  offA : Nat
  offB : Nat
  lda : Nat
  ldb : Nat
  ldsa : Nat
  ldsb : Nat
  offSA : Nat
  offSB : Nat
  /-- r(i) of R345 -/
  rowIx : List Nat
deriving DecidableEq, Repr

/-- What a matrix operation does (R343-R349). -/
inductive MKind where
  | mma (p : Mma)
  | zero
  | load (off : Nat)
  | store (off : Nat)
  /-- rows, drain slot, handler entry, a2, a3, counter to raise -/
  | drain (n slot : Nat) (entry : Addr) (a2 a3 : Word) (ctr : Option Nat)
deriving DecidableEq, Repr

/-- An operation in a lane of a matrix engine (R343). -/
structure MOp where
  /-- order of issue on the core -/
  seq : Nat
  k : Nat
  acc : Nat
  pc : Addr
  adv : Nat
  kind : MKind
  begun : Bool := false
  /-- K-groups done, or rows drained -/
  g : Nat := 0
  /-- a drain holds its two granules and its handler runs (R349) -/
  running : Bool := false
  fault : Option Late := none
deriving DecidableEq, Repr

/-- The fields of a copy parameter block (R351). -/
structure CopyBlock where
  ndim : Nat
  esz : Nat
  rop : Nat
  sf : Bool
  ce : Bool
  ctr : Nat
  chunk : Nat
  srcoff : Word
  dstoff : Word
  sseg : Nat
  dseg : Nat
  /-- source stride, destination stride and count of each dimension -/
  dims : List (Int × Int × Nat)
deriving DecidableEq, Repr

/-- Phase of a copy's chunk (R354); `finished` once every write of the last chunk has been issued. -/
inductive CopyPhase where
  | source | dest | finished
deriving DecidableEq, Repr

/-- A copy taken by the copy sequencer (R353-R356). -/
structure Copy where
  n : Nat
  block : CopyBlock
  segs : List (Nat × Seg)
  pc : Addr
  /-- key of the posting strand -/
  k : Nat
  entry : Nat
  /-- operation of the trigger engine that started it (R363) -/
  trig : Option Nat := none
  sup : Bool := false
  launch : BitVec 32 := 0
  gang : BitVec 32 := 0
  seq : Nat := 0
  /-- chunk under way -/
  chunk : Nat := 0
  phase : CopyPhase := .source
  /-- elements of the chunk whose beat of the phase has not been issued -/
  todo : List Nat := []
  /-- source reads issued and not yet answered -/
  reads : Nat := 0
  /-- chunk buffer: element to bytes -/
  buf : List (Nat × List Byte) := []
  /-- writes issued and not yet acknowledged, by chunk -/
  writes : List (Nat × Nat) := []
  cancel : Bool := false
  fault : Option Late := none
deriving DecidableEq, Repr

/-- The iteration fetcher's chunk of one crew (R224, R288). -/
structure Fetcher where
  f : Nat := 0
  h : Nat := 0
  joined : Bool := false
  fell : Bool := false
  /-- a claim of the crew is in flight; strands waiting behind it, in issue order -/
  claiming : Bool := false
  waiters : List Nat := []
deriving DecidableEq, Repr

/-- A stream of the stride prefetcher (R92). -/
structure Stream where
  slot : Nat
  last : Nat
  stride : Int
  hits : Nat
  /-- segment register of its accesses (R93) -/
  seg : Nat := 0
  /-- lines already asked for ahead of the stream -/
  ahead : Nat := 0
deriving DecidableEq, Repr

/-- A core (R23, R50, R57, R138). -/
structure Core where
  /-- loop registers, one bank of eight per claim-table entry: key entry * 8 + n (R51) -/
  loops : List (Nat × BitVec 32) := []
  mail : List (Nat × Mail) := []
  /-- the mailbox taken last (R353) -/
  lastMail : Nat := 3
  nq : List (Nat × Queue) := []
  /-- mcap.maxm (R52) -/
  maxm : Nat := 0
  pMatrix : Permit := {}
  pVector : Permit := {}
  pSfu : Permit := {}
  pMem : Permit := {}
  opRequest : Nat := 12
  perf : List (Nat × Word) := []
  perfSel : List (Nat × Nat) := []
  /-- events counted in the cycle under way, each with its number (R64) -/
  tally : List (Nat × Nat) := []
  /-- performance counters that a `setc` has written in the cycle under way, and what they count in the next (R73) -/
  perfSet : List Nat := []
  carry : List (Nat × Nat) := []
  starts : Nat := 0
  trapBase : Addr := 0
  trapSw0 : Word := 0
  trapSw1 : Word := 0
  missPte : Word := 0
  missPteAddr : Addr := 0
  misses : List Miss := []
  replays : List Replay := []
  icache : List Line := []
  /-- most recently used first within a set (R85) -/
  l1d : List Line := []
  streams : List Stream := []
  vq : List VOp := []
  /-- accumulators: key entry * 4 + n, 1,024 FP32 elements row by row; an unlisted element is +0.0 (R170) -/
  accs : List (Nat × List (Nat × BitVec 32)) := []
  /-- operations of the two lanes in issue order (R343) -/
  mul : List MOp := []
  drn : List MOp := []
  mseq : Nat := 0
  copies : List Copy := []
  /-- copies offered by trigger entries, ahead of the mailboxes (R363): operation (none for one that a save took out of a mailbox, R53) and the block -/
  offered : List (Option Nat × Mail) := []
  nextCopy : Nat := 0
  /-- posts made on the core, and the last post from each block offset: claim-table entry, offset, number (R356) -/
  mailSeq : Nat := 0
  posts : List (Nat × Nat × Nat) := []
  lastBeat : Nat := 0
  fetch : List (Nat × Fetcher) := []
  /-- cycles since READY (R122) -/
  cycle : Nat := 0
  /-- cycle in which the limiter reached stage 2, while it stands there (R428) -/
  limited : Option Nat := none
  /-- where the walk strand's code begins (R124, R198) -/
  walkEntry : Addr := 0
deriving DecidableEq, Repr

/-! ## Sites and their tables -/

/-- Bring-up states (R66, R415), in the order of the codes 0 to 7. -/
inductive SiteState where
  | cold | listen | lock | test | map | ready | failed | isolated
deriving DecidableEq, Repr

/-- One leaf in the memory-port TLB (R196, R199). -/
structure TlbEntry where
  /-- 0 for 64 KiB, 1 for 16 MiB, 2 for 4 GiB -/
  size : Nat
  /-- virtual page number -/
  vpn : Nat
  pte : Word
  pteAddr : Addr
  dirty : Bool
deriving DecidableEq, Repr

/-- An access in the memory port (R137). -/
structure PortReq where
  id : Nat
  acc : Acc
  /-- held for a miss (R137) -/
  missed : Bool := false
  /-- its miss waits for room in the core's miss mailbox (R137) -/
  queued : Bool := false
deriving DecidableEq, Repr

/-- A record of the fault queue (R141): words 0 to 3. -/
structure FaultRec where
  w0 : Word
  w1 : Word
  w2 : Word
  w3 : Word
deriving DecidableEq, Repr

/-- An event record (R166): words 0 to 3. -/
structure EventRec where
  w0 : Word
  w1 : Word
  w2 : Word
  w3 : Word
deriving DecidableEq, Repr

/-- States of a claim-table entry (R174). -/
inductive GangState where
  | free | running | stopping | aborting
deriving DecidableEq, Repr

/-- A gang's nest counter (R223). -/
structure Nest where
  isOpen : Bool := false
  e0 : Nat := 0
  e1 : Nat := 0
  e2 : Nat := 0
  e3 : Nat := 0
  c : Nat := 1
  total : Nat := 0
  left : Nat := 0
  gen : Nat := 0
deriving DecidableEq, Repr

/-- A launch descriptor (R149). -/
structure Desc where
  version : Nat := 0
  dims : Nat := 0
  crews : Nat := 0
  prio : Nat := 0
  gate : Nat := 0
  coremask : Nat := 0
  slotmask : Nat := 0
  entry : Addr := 0
  param : Addr := 0
  ext : List Nat := []
  tile : List Nat := []
  shape : List Nat := []
  sreg : Nat := 0
  creg : Nat := 0
  mslots : Nat := 0
  st : List Nat := []
  ctr : Nat := 0
  cx : Nat := 0
  cy : Nat := 0
  ce : Bool := false
  x0 : Nat := 0
  y0 : Nat := 0
  x1 : Nat := 0
  y1 : Nat := 0
  live : Addr := 0
  segs : List (Nat × Seg) := []
  /-- every reserved bit is 0 -/
  clean : Bool := true
deriving DecidableEq, Repr

/-- An entry of the claim table (R174, R175) with the gang's barrier (R221) and nest counter (R223). -/
structure Gang where
  st : GangState := .free
  launch : BitVec 32 := 0
  gang : BitVec 32 := 0
  prio : Nat := 0
  desc : Desc := {}
  /-- core of each crew, crew 0 first -/
  cores : List Nat := []
  /-- crews that have ended -/
  ended : List Nat := []
  /-- accumulator slots held by each crew: crew to count -/
  mats : List (Nat × Nat) := []
  /-- store granules held on each bower in list order (R170) -/
  stores : List (Nat × List Nat) := []
  phase : Nat := 0
  leads : List (Nat × Nat) := []
  nest : Nest := {}
  /-- slots reserved for drains: core, slot (R349) -/
  drains : List (Nat × Nat) := []
  /-- the abort was caused by a fault (R373) -/
  aborted : Bool := false
  /-- ticks left until the forced-save deadline, and the context area that the request named (R161) -/
  deadline : Nat := 0
  area : Addr := 0
  /-- the forced-save deadline has expired (R162) -/
  expired : Bool := false
  /-- graph node or queue it reports to: gatehouse (rim index) of its launch unit -/
  rim : Nat := 0
deriving DecidableEq, Repr

/-- A waiting `acq.w` (R186). -/
structure Waiter where
  pool : Nat
  k : Nat
  n : Nat
deriving DecidableEq, Repr

/-- States of a trigger-list entry (R218). -/
inductive TrigState where
  | free | armed | eligible | suspended
deriving DecidableEq, Repr

/-- A trigger-list entry (R218, R361, R365): the block's eight words and what the post recorded. -/
structure Trig where
  st : TrigState := .free
  block : List Word := []
  threshold : Nat := 0
  seq : Nat := 0
  /-- order in which it became ELIGIBLE (R219) -/
  due : Nat := 0
  fired : Nat := 0
  k : Nat := 0
  strand : Nat := 0
  launch : BitVec 32 := 0
  gang : BitVec 32 := 0
  entry : Nat := 0
  sup : Bool := false
  segs : List (Nat × Seg) := []
deriving DecidableEq, Repr

/-- An operation of a fired entry under way (R363). -/
structure TrigOp where
  id : Nat
  op : Nat
  block : List Word
  k : Nat
  strand : Nat
  launch : BitVec 32
  sup : Bool
  /-- writes still to be acknowledged -/
  left : Nat := 0
  /-- the tagged last granule of a put, sent once every other is acknowledged -/
  last : Option Acc := none
  /-- the operation has been performed -/
  done : Bool := false
  /-- it ended on a fault: code and address (R364) -/
  fault : Option (Nat × Addr) := none
  /-- a launch refused for a full queue waits 1,000 ticks (R363) -/
  retry : Bool := false
deriving DecidableEq, Repr

/-- States of a trellis entry (R209). -/
inductive TrellisState where
  | free | collect | wait | deliver
deriving DecidableEq, Repr

/-- The input flags of a floating-point combination (R251). -/
structure FFlags where
  nan : Bool := false
  pinf : Bool := false
  ninf : Bool := false
deriving DecidableEq, Repr

/-- A trellis entry (R208, R209). -/
structure Trellis where
  st : TrellisState := .free
  /-- a reservation of an arm in progress (R367) -/
  reserved : Option Nat := none
  parent : Nat := 0
  children : Nat := 0
  op : Nat := 0
  count : Nat := 0
  nlocal : Nat := 0
  glocal : Nat := 0
  gchild : Nat := 0
  bufs : Nat := 0
  mode : Nat := 0
  user : Bool := false
  bower : Nat := 0
  dest : Nat := 0
  launch : BitVec 32 := 0
  rctr : Nat := 0
  /-- elements combined so far by index, with their input flags -/
  elems : List (Nat × Word) := []
  flags : List (Nat × FFlags) := []
  /-- elements received of the pieces of each direction; 5 for the result -/
  pieces : List (Nat × Nat) := []
  latch : Word := 0
deriving DecidableEq, Repr

/-- An arm operation in progress (R367): the strand that armed and its d, the group's key, the entry each member router is to hold. -/
structure ArmOp where
  id : Nat
  k : Nat
  d : Nat
  key : Nat
  /-- physical site and entry of each member -/
  members : List (Nat × Trellis)
  /-- replies still awaited -/
  left : Nat
  failed : Bool := false
  /-- 0 reserving, 1 committing, 2 releasing -/
  stage : Nat := 0
  /-- members that hold a reservation -/
  reserved : List Nat := []
deriving DecidableEq, Repr

/-- A struck dirty line that has left a cache while the event that tells of it could not be held (R90, R91, R165): the unit whose hold it
waits for, the transaction that its write-back will have, and the line. -/
structure Leaving where
  unit : Nat
  txn : Nat
  line : Line
deriving DecidableEq, Repr

/-- What follows the release of a gang that has left its pavilion (R114, R155, R163), once the write-backs that it took are performed. -/
inductive Released where
  /-- the gang has ended or aborted: its completion add, and its launch unit is told -/
  | ended (g : Gang)
  /-- the gang's save is complete -/
  | saved (g : Gang)
  /-- the completion add of an ended gang has found its counter's site out of service: the event that tells of it, and then its launch unit, by rim
  index and launch number (R155, R165) -/
  | addFailed (rim launch : Nat)
deriving DecidableEq, Repr

/-- A release under way: the write-backs that it waits for, by their transactions. -/
structure Release where
  txns : List Nat
  what : Released
deriving DecidableEq, Repr

/-- What a neighbour's hello said (cfg.peer, R414). -/
structure Peer where
  /-- the peer's coordinates were held -/
  valid : Bool
  kind : Nat
  y : Nat
  x : Nat
deriving DecidableEq, Repr

/-- A wait record of a home (R127, R331). -/
structure WaitRec where
  unit : Nat
  /-- granule of the unit it stands for, offset / 16 -/
  granule : Nat
  /-- order of admission -/
  order : Nat
  /-- the request, with its source and transaction -/
  txn : Nat
  op : ReqOp
  src : Nat
  off : Nat
  data : List Byte
  /-- granules of its block that the home has inspected (R90, R91) -/
  seen : Nat := 0
deriving DecidableEq, Repr

/-- A watch record of a home (R133). -/
structure Watch where
  unit : Nat
  granule : Nat
  /-- key of the arming strand -/
  k : Nat
  src : Nat
deriving DecidableEq, Repr

/-! ## Messages -/

/-- What a message is (R404). -/
inductive MsgOp where
  | req (op : ReqOp)
  | feWithdraw (txn : Nat)
  | nqWord (core q : Nat)
  /-- a drain marker; one that comes back has been returned, or, with the message's full bit set, answered with error 0x0007 (R205, R421) -/
  | drainMarker (cls : Nat) (returned : Bool)
  | data | ack | deferral
  | error (code : Nat)
  | monFire (slot : Nat)
  | refusal | hostRetry
  | status (n : Nat)
  | counterAdd (n : Nat)
  | launchSub (desc : Desc) (status : Nat)
  | armReserve (g o : Nat) (e : Trellis)
  | armCommit (g o : Nat) (e : Trellis)
  | armRelease (g o : Nat)
  | contribution (g : Nat) (dir : Nat)
  | result (g : Nat) (dir : Nat)
  | cfgRead | cfgWrite
  | hello (kind y x : Nat) (valid : Bool)
  | imageRequest (n : Nat)
  | imageBlock (n : Nat) (last : Bool)
  | probeTs (t1 : Word)
  | probeEcho (t1 t2 t3 : Word)
  | faultNotice
deriving DecidableEq, Repr

/-- A message in flight (R402): mesh (none at the site itself), physical source and destination, ordering key (R100), address,
data, byte enables, count, tag, transaction. -/
structure Msg where
  id : Nat
  op : MsgOp
  mesh : Option Mesh := none
  src : Nat
  dst : Nat
  /-- ordering key of R100 -/
  key : Nat := 0
  host : Bool := false
  unit : Nat := 0
  off : Nat := 0
  len : Nat := 0
  data : List Byte := []
  en : Nat := 0
  hi : Nat := 0
  /-- the full/empty bit that an `ldfn.64` asked for, or F of a write -/
  full : Bool := false
  /-- F of a data response: the full/empty bit of the granule that was read (R402) -/
  bit : Bool := false
  count : Nat := 1
  tag : Option Nat := none
  flags : FFlags := {}
  /-- element values and flags of a collective piece -/
  words : List Word := []
  wflags : List FFlags := []
  txn : Nat := 0
  /-- edge by which a neighbour's configuration message arrives (R417-R419) -/
  edge : Nat := 0
  /-- held at the source by a network-select change (R205) -/
  held : Bool := false
  /-- links of its way that it has crossed; its flit for the next one has been sent (R405, R407) -/
  hops : Nat := 0
  sent : Bool := false
  /-- inputs by which it has come to the site where it stands: edges, and 4 for the site itself (R409); a merged request has those of its
  contributions (R410) -/
  via : List Nat := [4]
  /-- edge whose receive buffer its flit occupies there (R405) -/
  buf : Option Nat := none
  /-- granules of the request that its home has inspected (R90, R91) -/
  seen : Nat := 0
  /-- the step in which it was sent: messages sent in one step have one number (R100) -/
  batch : Nat := 0
deriving DecidableEq, Repr

/-! ## Links (R401-R408) -/

/-- A flit of a link direction (R402): sequence number, message, returned credits (class, number), the acknowledgement and the retry request with
which it was sent; `hit`: a sending of it has failed its check at the receiver (R408). -/
structure Flit where
  seq : Nat
  msg : Msg
  crd : Option (Nat × Nat) := none
  ack : Nat := 4095
  rq : Bool := false
  hit : Bool := false
deriving DecidableEq, Repr

/-- One end of a link, by edge and mesh (R405, R407, R408): the sender of one direction and the receiver of the other. -/
structure Link where
  up : Bool := false
  /-- the link has gone down since COLD and stays down (R408) -/
  dead : Bool := false
  /-- next sequence number to send, and the last acknowledged by the peer -/
  seq : Nat := 0
  acked : Nat := 4095
  /-- last sequence number received in order -/
  got : Nat := 4095
  /-- unacknowledged flits, oldest first (R407) -/
  retry : List Flit := []
  /-- flits on their way to the peer -/
  wire : List Flit := []
  /-- an error has been detected, and what comes is dropped until the flit that is due (R407) -/
  dropping : Bool := false
  /-- a retry request is to be sent -/
  rq : Bool := false
  /-- credits to return to the peer, by class -/
  owed : List (Nat × Nat) := []
  /-- credits held per class -/
  credits : List (Nat × Nat) := []
  helloGot : Bool := false
deriving DecidableEq, Repr

/-! ## Gatehouses and sites -/

/-- A posted write in a gatehouse's buffer (R119). -/
structure Posted where
  id : Nat
  off : Nat
  data : List Byte
  en : Nat
  /-- strand that issued it -/
  k : Nat
  /-- host memory shows it already: an AtomicOp issued behind it is complete -/
  atHost : Bool := false
deriving DecidableEq, Repr

/-- A host queue (R146). -/
structure HostQueue where
  base : Nat := 0
  en : Bool := false
  prio : Nat := 0
  lsize : Nat := 0
  tail : Nat := 0
  head : Nat := 0
  cbase : Nat := 0
  cdone : Nat := 0
  cread : Nat := 0
  stopped : Bool := false
  /-- completion records held in completion order: words 0 and 1 -/
  held : List (Word × Word) := []
  /-- commands taken and not complete: id -/
  open_ : List Nat := []
  /-- a drain command or a waiting replay blocks the queue -/
  blocked : Option Nat := none
deriving DecidableEq, Repr

/-- A launch held by a launch unit (R152-R155). -/
structure Launch where
  number : BitVec 32
  desc : Desc
  /-- host queue it came from, and the command's tag -/
  queue : Option Nat := none
  tag : BitVec 32 := 0
  prio : Nat := 0
  /-- order in which it started (R154) -/
  order : Nat := 0
  /-- next gang to offer, gangs in all, gangs ended, counter adds performed or dropped -/
  next : Nat := 0
  total : Nat := 0
  ended : Nat := 0
  /-- pavilions of the window that have refused the next gang since the last report of one of them (R152) -/
  scan : Nat := 0
  aborted : Bool := false
  /-- replay and node it belongs to (R157) -/
  node : Option (Nat × Nat) := none
deriving DecidableEq, Repr

/-- A graph replay (R157). -/
structure ReplayCmd where
  id : Nat
  object : Addr
  patch : Addr
  patchLen : Nat
  queue : Nat
  tag : BitVec 32
  /-- bank in use, once started: true is B -/
  bank : Option Bool := none
  /-- number its completion record carries -/
  number : Nat := 0
  nodes : Nat := 0
  started : List Nat := []
  complete : List Nat := []
  aborted : Bool := false
  /-- status of its completion record (R148) -/
  status : Nat := 0
  /-- every node is complete, or it was rejected; its record waits for those of earlier replays of the object -/
  done : Bool := false
deriving DecidableEq, Repr

/-- The banks of a graph object (R157): busy(A), busy(B), last used (true is B). -/
structure GraphObj where
  busyA : Bool := false
  busyB : Bool := false
  last : Option Bool := none
deriving DecidableEq, Repr

/-- What a gatehouse adds to a site (R25). -/
structure Gate where
  queues : List (Nat × HostQueue) := []
  launches : List Launch := []
  /-- launches started, modulo 2^28 (R152) -/
  count : Nat := 0
  order : Nat := 0
  replays : List ReplayCmd := []
  objects : List (Nat × GraphObj) := []
  /-- event queue records by index, head and tail (R168) -/
  events : List (Nat × EventRec) := []
  eqHead : Nat := 0
  eqTail : Nat := 0
  posted : List Posted := []
  /-- zero-length read issued and not complete: identifier of the write it stands behind -/
  probe : Option Nat := none
  linkUp : Bool := false
  cfgTarget : Nat := 0
  /-- MSI-X messages sent to the host, by vector: 0-63 completions of the launch queues, 64 the event queue, 65 fault notices (R420) -/
  interrupts : List (Nat × Nat) := []
  /-- notices delivered to the keeper core: fault-queue notices and event notices -/
  faultNotices : Nat := 0
  eventNotices : Nat := 0
  /-- pre-emption commands in progress: queue, command tag, launch and gang of every save outstanding -/
  preempts : List (Nat × BitVec 32 × List (BitVec 32 × BitVec 32)) := []
  /-- host requests waiting for a completion: the newest buffered write that it stands behind, and the request -/
  pending : List (Nat × Msg) := []
  /-- reads a sys-scope acquire must wait for: strand, and the last write that was buffered when it was served (R121) -/
  served : List (Nat × Nat) := []
  /-- the gatehouse's own copy of the signed image is present (R418) -/
  imageHere : Bool := false
  /-- the image of the keeper core's firmware (R432) -/
  firmware : List Byte := []
  /-- what the host's last read of cfg.window returned; none: an error, or no answer yet (R413, R420) -/
  hostData : Option Word := none
deriving DecidableEq, Repr

/-- The power and quote registers of a site (R423, R435). -/
structure Power where
  ilimit : Nat := 0
  imeas : Nat := 0
  temp : Int := 0
  stage : Nat := 0
  trip : Bool := false
  /-- greatest stage of the current control interval (R426) -/
  maxStage : Nat := 0
  nonce : List Byte := []
  busy : Bool := false
  done : Bool := false
  quote : List Byte := []
deriving DecidableEq, Repr

/-- A bower's operating point (R63, R423, R424). -/
structure Bower where
  boost : Bool := false
  icap : Nat := 15
  level : Nat := 0
  /-- level under way (R422) -/
  target : Nat := 0
  hc : Nat := 0
  bg : Bool := false
  pwTcap : Nat := 15
  /-- the level of the interval (R426) -/
  interval : Nat := 0
  /-- the cap fields as ctl.op_granted shows them -/
  shownTcap : Nat := 15
  shownIcap : Nat := 15
  /-- what ctl.op_granted shows as the level under way is reached: B and the caps of the evaluation (R424, log 66) -/
  dueBoost : Bool := false
  dueTcap : Nat := 15
  dueIcap : Nat := 15
deriving DecidableEq, Repr

/-- A site: a pavilion, a memory site or a gatehouse (R14, R21, R24, R25). -/
structure Site where
  -- bring-up (R66, R414-R419)
  state : SiteState := .cold
  prev : SiteState := .cold
  upstream : Option Nat := none
  coord : Option (Nat × Nat) := none
  /-- a hello has given the coordinates in the instant under way (R417) -/
  coordNow : Bool := false
  conflict : Bool := false
  peers : List (Nat × Peer) := []
  links : List (Nat × Link) := []
  image : List (Nat × List Byte) := []
  /-- image requests of neighbours that were relayed upstream (R418): edge, block and the site whose section is asked for -/
  imageReqs : List (Nat × Nat × Nat) := []
  section_ : List Byte := []
  imageVersion : Nat := 0
  /-- virtual sites that the image of an integrator's assembly lists (R76, R150, R197): x, y and the kind's code of cfg.ident; none on a
  module, whose grid is that of R14 -/
  listed : Option (List (Nat × Nat × Nat)) := none
  -- translation and fabric (R193, R199-R210)
  self : Option (Nat × Nat) := none
  /-- virtual site y * 256 + x to physical site; an unlisted pavilion has V clear -/
  smap : List (Nat × Nat) := []
  /-- the coordinates that an entry with V clear holds, as y * 256 + x (R201) -/
  smapClear : List (Nat × Nat) := []
  /-- virtual site to setting: 0 Oak, 1 Ash, 2 hashed, 3 unreachable -/
  ns : List (Nat × Nat) := []
  nsBusy : Option (Nat × Nat) := none
  nsMarkers : Nat := 0
  refs : Nat := 0
  band : List (Nat × (Nat × Nat)) := []
  ptRoot : Word := 0
  slicePin : Nat := 0
  slice : List Line := []
  tlb : List TlbEntry := []
  tlbEpoch : Nat := 0
  tlbBusy : Bool := false
  /-- accesses translated by a removed entry that are still to be performed, and the removed entries (R200) -/
  tlbWait : List Nat := []
  tlbGone : List TlbEntry := []
  tlbHeld : List Word := []
  port : List PortReq := []
  trellis : List (Nat × Trellis) := []
  /-- the contribution refused last (R210), by its transaction: key of the group * 8 + direction -/
  refused : List (Nat × Nat) := []
  arms : List ArmOp := []
  -- counters (R215-R228)
  tc : List (Nat × Word) := []
  trigs : List (Nat × Trig) := []
  trigSeq : Nat := 0
  trigDue : Nat := 0
  /-- entries fired in the instant under way (R219) -/
  fires : Nat := 0
  ops : List TrigOp := []
  time : Word := 0
  timeOffset : List (Nat × BitVec 16) := []
  psaveDeadline : Nat := 12000
  wdEn : Bool := false
  wdX : Bool := false
  wdPeriod : Nat := 0
  wdCount : Nat := 0
  retries : List (Nat × Word) := []
  -- claims (R169-R191)
  gangs : List (Nat × Gang) := []
  waiters : List Waiter := []
  /-- store granules that resumptions wait for: context, bower, granule (R180, R191) -/
  marks : List (Nat × Nat × Nat) := []
  /-- resumptions that have been offered here and wait, by context, each with whether it has been refused since the last report (R154, R180) -/
  resuming : List (Nat × Bool) := []
  /-- struck lines on their way out of a cache, in order -/
  leaving : List Leaving := []
  /-- releases of gangs that have left, under way (R114) -/
  releases : List Release := []
  reservation : Option (Nat × Nat × Nat) := none
  -- faults and events (R141, R165-R167)
  fq : List (Nat × FaultRec) := []
  fqHead : Nat := 0
  fqTail : Nat := 0
  fqEn : Bool := false
  fqRim : Nat := 0
  /-- notices still to send to the keeper core (R141) -/
  events : List EventRec := []
  /-- held events by unit (R165), in order: the first of a unit is in its hold, and any behind it belong to the same operation, which the unit
  stalls until they have followed (log 58). Units 0-3 bower stores, 4 slice, 5 HBM, 6 trigger engine, 7 router, 8 link layer, 9 claim unit,
  10 launch unit, 11 save engine, 12 limiter, 13 thermal trip, 14 scrubbers, 15 watchdog and bring-up, 16 + c core c -/
  evHolds : List (Nat × EventRec) := []
  evTarget : Nat := 0
  evSeq : Nat := 0
  evRefused : Bool := false
  -- homes (R127, R133)
  waits : List WaitRec := []
  waitOrder : Nat := 0
  /-- granules (unit, number) whose lists are still to be served: an event that the home cannot hold has stopped it (R131, R165) -/
  unserved : List (Nat × Nat) := []
  watches : List Watch := []
  power : Power := {}
  gate : Gate := {}
deriving DecidableEq, Repr

/-! ## Transactions -/

/-- A transaction: the request that was sent and the access it belongs to. -/
structure Txn where
  id : Nat
  acc : Acc
  /-- the request as sent, for a resend -/
  req : Msg
  /-- waiting to be sent again after a deferral or refusal (R128, R370) -/
  resend : Bool := false
  /-- the withdrawal of a full/empty operation has been sent (R132) -/
  withdrawn : Bool := false
  /-- the line it fills has been invalidated meanwhile in the cache of the core, or in the slice (R95, R104) -/
  stale : Bool := false
  staleSlice : Bool := false
  /-- transactions of the contributions of a merged request, with their sources and meshes (R410) -/
  parts : List Msg := []
  /-- the cache line it fills, without its bytes (R86, R436) -/
  fill : Option Line := none
deriving DecidableEq, Repr

/-! ## The module -/

/-- A gang that a save wrote to its context area (R163, R164): the gang, its strands by key, and what the core and the homes held
for it. The layout of a context area is firmware's, so the context is kept as a record. -/
structure Context where
  id : Nat
  /-- the context area that the request named (R161, R163) -/
  area : Addr := 0
  /-- virtual pavilion, y * 256 + x (R49) -/
  site : Nat
  entry : Nat
  gang : Gang
  strands : List (Nat × Strand)
  loops : List (Nat × BitVec 32)
  fetchers : List (Nat × Fetcher)
  accs : List (Nat × List (Nat × BitVec 32))
  copies : List (Nat × Copy)
  mail : List (Nat × Mail)
  posts : List (Nat × Nat × Nat)
  mul : List (Nat × MOp)
  drn : List (Nat × MOp)
  replays : List (Nat × Replay)
  vops : List (Nat × VOp)
  /-- bytes of the store granules: bower, list position, bytes that are not 0 -/
  bytes : List (Nat × Nat × Byte)
  /-- granules of the saved ranges whose full/empty bit is set: bower, list position / 16 (log 28) -/
  full : List (Nat × Nat)
  /-- granules of the saved ranges that the save found uncorrectable: bower, list position / 16 (R91, log 84) -/
  lost : List (Nat × Nat)
deriving DecidableEq, Repr

/-- The structures with a code of their own beside the caches and the homes (R429): the register store of a core, the router buffers, the combine
buffers and the trigger list of a site. -/
inductive Guarded where
  | registers (c : Nat)
  | router (v : Nat)
  | combine (v : Nat)
  | triggers (v : Nat)
deriving DecidableEq, Repr

/-- What comes next (log 1): an event of the device or of the outside, or a cycle of a core. -/
inductive Sched where
  | event (i : Instr)
  /-- the next cycle of a core (R122) -/
  | cycle (c : Nat)
  /-- message n goes on to the next link of its way (R405, R407) -/
  | send (n : Nat)
  /-- the receiver of site v's link of edge d on a mesh takes the next flit (R407) -/
  | recv (v d : Nat) (x : Mesh)
  /-- one instant: the next cycles of the cores `cs`, and the events `l`, all in one cycle (R73, R100, R216, R232) -/
  | together (cs : List Nat) (l : List Instr)
  /-- the launch unit withdraws a waiting resumption, by its context (R180, R191, log 74) -/
  | withdraw (n : Nat)
  /-- the host, or attached storage, has given gatehouse g its copy of the signed image (R418) -/
  | placeImage (g : Nat)
  /-- attached storage gives gatehouse g its keeper core's firmware image (R432, log 83) -/
  | placeFirmware (g : Nat) (l : List Byte)
  /-- an access to a structure meets a single-bit error, lasting or not (R429, R430, log 82) -/
  | mended (g : Guarded) (lasting : Bool)
  /-- the host reads a word of cfg.window through the window of gatehouse g (R413, R420) -/
  | hostConfigRead (g off : Nat)
deriving DecidableEq, Repr

/-- A change of a trigger counter in a cycle that is not over (R216): pavilion, counter, set or add, the operand. -/
structure TcChange where
  v : Nat
  n : Nat
  set : Bool
  w : Word
deriving DecidableEq, Repr

/-- The module. Memory is one list for every home: an address is a placed absolute address with physical coordinates, or a host
address with kind 0b011 and rim index 0 (R74, R75). -/
structure State where
  mem : List Host.Cell := []
  /-- granules (address / 16) whose full/empty bit is set, rising (R88) -/
  full : List Nat := []
  /-- granules that an error strikes (R90, R91, R430; log 18): 0 correctable and transient, 1 correctable and lasting,
  2 uncorrectable and transient, 3 uncorrectable and lasting -/
  flaws : List (Nat × Nat) := []
  strands : List (Nat × Strand) := []
  cores : List (Nat × Core) := []
  bowers : List (Nat × Bower) := []
  sites : List (Nat × Site) := []
  net : List Msg := []
  txns : List Txn := []
  contexts : List Context := []
  /-- the next message, transaction and identifier number -/
  nextId : Nat := 0
  /-- `nextId` as the step under way began: it marks the messages that the step sends (R100) -/
  batch : Nat := 0
  /-- free values drawn so far (log 11) -/
  freeIx : Nat := 0
  agenda : List Sched := []
  /-- the strand whose turn it is; when the agenda is empty its core runs on -/
  cur : Nat := 0
  /-- the changes of trigger counters in an instant under way (R216); none between steps -/
  instant : Option (List TcChange) := none
deriving DecidableEq, Repr

/-- The module before power is good: every site COLD, every memory without an entry, no strand, no message (R415, R66). -/
def State.reset : State := {}

/-- Why the machine stops with a fault of the model. No instruction and no event of the table raises one: what the part reports as
a fault is a next state, with the fault record written (R373). -/
inductive Fault where
  /-- raised by nothing in the model; kept so that the reasons are a closed type. Safe: a stop proves nothing -/
  | unreachable
deriving DecidableEq, Repr

/-- Why the machine refuses a step. -/
inductive Refusal where
  /-- raised by an arm of the dispatch whose instruction has no meaning yet. Safe -/
  | notModelled (mnemonic : String)
  /-- raised by an event of the table that the state does not make due: no such message, agent or condition. Such an event cannot
  occur in the part, so refusing it is safe -/
  | notDue (mnemonic : String)
deriving DecidableEq, Repr

end Sys2Proof.Machine
end

