-- ==== Sys2Proof/Machine/Ops.lean ====
section
/-! DEFINITION. The named operations over the state: sparse tables, bytes, memory, the records of strands, cores and sites, parking
and waking, permits, counted events, event records, and taking an exception and returning from one. -/

namespace Sys2Proof.Machine

/-- The outcome of a step. -/
abbrev Out := Host.Outcome State Fault Refusal

/-- An event of the table: the next state when the event is due, a refusal by name when it is not (log 1). -/
def due (name : String) : Option State → Out
  | some s => .next s
  | none => .refused (.notDue name)

/-! ## Sparse tables -/

/-- The record a table lists for a key. -/
def Tab.find {α : Type} (k : Nat) : List (Nat × α) → Option α
  | [] => none
  | (j, x) :: t => if j = k then some x else Tab.find k t

/-- The record of a key, or the default record. -/
def Tab.get {α : Type} (d : α) (k : Nat) (t : List (Nat × α)) : α := (Tab.find k t).getD d

/-- A table with the record of a key written, keys rising. -/
def Tab.put {α : Type} (k : Nat) (x : α) : List (Nat × α) → List (Nat × α)
  | [] => [(k, x)]
  | (j, y) :: t => if k < j then (k, x) :: (j, y) :: t else if k = j then (k, x) :: t else (j, y) :: Tab.put k x t

/-- A table without a key. -/
def Tab.del {α : Type} (k : Nat) (t : List (Nat × α)) : List (Nat × α) := t.filter (fun p => p.1 != k)

/-- The position of a value in a list. -/
def indexIn (x : Nat) : List Nat → Option Nat
  | [] => none
  | y :: t => if y = x then some 0 else (indexIn x t).map (· + 1)

/-- Apply a state change for each element of a list, in order. -/
def each {α : Type} (l : List α) (f : State → α → State) (s : State) : State := l.foldl f s

/-! ## Bytes, little-endian (R4) -/

/-- Bits hi to lo of a number. -/
def bits (w hi lo : Nat) : Nat := w / 2 ^ lo % 2 ^ (hi - lo + 1)

/-- Bit i of a number. -/
def bitOn (w i : Nat) : Bool := w / 2 ^ i % 2 = 1

/-- The number with one bit set. -/
def setBit (w i : Nat) : Nat := if bitOn w i then w else w + 2 ^ i

/-- The number with one bit clear. -/
def clrBit (w i : Nat) : Nat := if bitOn w i then w - 2 ^ i else w

/-- The number of set bits among the low n. -/
def popCount (w n : Nat) : Nat := ((List.range n).filter (fun i => bitOn w i)).length

/-- The low n bytes of a number, lowest first. -/
def leBytes (n w : Nat) : List Byte := (List.range n).map fun i => BitVec.ofNat 8 (w / 2 ^ (8 * i))

/-- The number a list of bytes holds, lowest first. -/
def leNat : List Byte → Nat
  | [] => 0
  | b :: t => b.toNat + 256 * leNat t

/-- A word from eight bytes. -/
def leWord (l : List Byte) : Word := BitVec.ofNat 64 (leNat l)

/-- A number sign-extended from n bits. -/
def sextNat (n w : Nat) : Int := if bitOn w (n - 1) then (w % 2 ^ n : Int) - 2 ^ n else (w % 2 ^ n : Int)

/-- An integer modulo 2^n. -/
def wrap (n : Nat) (i : Int) : Nat := (i % (2 ^ n : Int)).toNat

/-! ## Memory: one list for every home, in canonical form (log 2) -/

/-- What an address that the list does not hold reads as: bring-up TEST zeroes the on-chip memories (R88, R415); for HBM and host
memory see log 2. -/
def Memory.empty : Byte := 0

/-- The byte at an address. -/
def Memory.read (m : List Host.Cell) (a : Nat) : Byte := Tab.get Memory.empty a m

/-- A byte written; the form stays canonical. -/
def Memory.write (a : Nat) (b : Byte) : List Host.Cell → List Host.Cell
  | [] => if b = Memory.empty then [] else [(a, b)]
  | (j, y) :: t =>
    if a < j then if b = Memory.empty then (j, y) :: t else (a, b) :: (j, y) :: t
    else if a = j then if b = Memory.empty then t else (a, b) :: t
    else (j, y) :: Memory.write a b t

/-- Every address in the list is above a bound, the addresses rise, and no entry equals what an unlisted address reads as. -/
def Memory.wfAbove : Option Nat → List Host.Cell → Bool
  | _, [] => true
  | none, (a, b) :: t => b != Memory.empty && Memory.wfAbove (some a) t
  | some k, (a, b) :: t => decide (k < a) && b != Memory.empty && Memory.wfAbove (some a) t

/-- The canonical form of a memory. -/
def Memory.wf (m : List Host.Cell) : Bool := Memory.wfAbove none m

/-- n bytes from an address. -/
def Memory.readN (m : List Host.Cell) (a n : Nat) : List Byte := (List.range n).map fun i => Memory.read m (a + i)

/-- Bytes written from an address; bit j of the enables decides byte j (R401). -/
def Memory.writeN (m : List Host.Cell) (a : Nat) (en : Nat) (l : List Byte) : List Host.Cell :=
  l.zipIdx.foldl (fun m (b, j) => if bitOn en j then Memory.write (a + j) b m else m) m

/-- Enables of n bytes. -/
def allOn (n : Nat) : Nat := 2 ^ n - 1

/-- A set of numbers, rising, with one more. -/
def NatSet.add (x : Nat) : List Nat → List Nat
  | [] => [x]
  | y :: t => if x < y then x :: y :: t else if x = y then y :: t else y :: NatSet.add x t

/-- A set of numbers without one. -/
def NatSet.del (x : Nat) (l : List Nat) : List Nat := l.filter (· != x)

/-! ## Places (R13, R14, R35) -/

/-- The kinds of sites (R14). -/
inductive SiteKind where
  | pavilion | memory | gatehouse
deriving DecidableEq, Repr

/-- The kind of the site at a position (R14). -/
def siteKind (x y : Nat) : SiteKind :=
  let lattice := [1, 3, 6, 8, 11, 13, 16, 18]
  let gates := [2, 7, 12, 17]
  if lattice.contains x && lattice.contains y then .memory
  else if ((x = 0 || x = 19) && gates.contains y) || ((y = 0 || y = 19) && gates.contains x) then .gatehouse
  else .pavilion

/-- Physical x of a site key. -/
def xOf (v : Nat) : Nat := v % 256
/-- Physical y of a site key. -/
def yOf (v : Nat) : Nat := v / 256
/-- Key of the site at (x, y). -/
def siteAt (x y : Nat) : Nat := y * 256 + x
/-- The kind of a site by its key. -/
def kindOf (v : Nat) : SiteKind := siteKind (xOf v) (yOf v)
/-- Both coordinates lie on the grid (R13). -/
def onGrid (x y : Nat) : Bool := decide (x < 20 ∧ y < 20)
/-- Site of a strand key. -/
def siteOfK (k : Nat) : Nat := k / 256
/-- Core key of a strand key. -/
def coreOfK (k : Nat) : Nat := k / 16
/-- Slot of a strand key. -/
def slotOf (k : Nat) : Nat := k % 16
/-- Core number 0 to 15 of a strand key. -/
def coreNo (k : Nat) : Nat := k / 16 % 16
/-- Key of slot n of a core. -/
def slotKey (c n : Nat) : Nat := c * 16 + n
/-- Site of a core key. -/
def siteOfC (c : Nat) : Nat := c / 16

/-- The gatehouse of each rim index (R14). -/
def rimSite (r : Nat) : Nat :=
  let g := [2, 7, 12, 17][r % 4]?.getD 0
  if r < 4 then siteAt 0 g else if r < 8 then siteAt 19 g else if r < 12 then siteAt g 0 else siteAt g 19

/-- The rim index of a gatehouse (R14). -/
def rimOf (v : Nat) : Nat := (indexIn v ((List.range 16).map rimSite)).getD 0

/-- The memory key of byte `off` of unit `u` of a site: a placed absolute address with physical coordinates (R74). -/
def homeKey (v u off : Nat) : Nat := 2 ^ 57 + xOf v * 2 ^ 49 + yOf v * 2 ^ 41 + u * 2 ^ 36 + off

/-- Bytes of a bower store (R22). -/
def storeBytes : Nat := 4194304

/-- The memory key of a byte of host memory. -/
def hostKey (a : Nat) : Nat := 3 * 2 ^ 57 + a

/-! ## Records of the state -/

/-- The strand with a key. -/
def State.strand (s : State) (k : Nat) : Strand := Tab.get {} k s.strands
/-- The state with a strand written. -/
def State.setStrand (s : State) (k : Nat) (x : Strand) : State := { s with strands := Tab.put k x s.strands }
/-- The state with a strand changed. -/
def State.modStrand (s : State) (k : Nat) (f : Strand → Strand) : State := s.setStrand k (f (s.strand k))
/-- The core with a key. -/
def State.core (s : State) (c : Nat) : Core := Tab.get {} c s.cores
/-- The state with a core written. -/
def State.setCore (s : State) (c : Nat) (x : Core) : State := { s with cores := Tab.put c x s.cores }
/-- The state with a core changed. -/
def State.modCore (s : State) (c : Nat) (f : Core → Core) : State := s.setCore c (f (s.core c))
/-- The bower with a key. -/
def State.bower (s : State) (b : Nat) : Bower := Tab.get {} b s.bowers
/-- The state with a bower changed. -/
def State.modBower (s : State) (b : Nat) (f : Bower → Bower) : State := { s with bowers := Tab.put b (f (s.bower b)) s.bowers }
/-- The site with a key. -/
def State.site (s : State) (v : Nat) : Site := Tab.get {} v s.sites
/-- The state with a site written. -/
def State.setSite (s : State) (v : Nat) (x : Site) : State := { s with sites := Tab.put v x s.sites }
/-- The state with a site changed. -/
def State.modSite (s : State) (v : Nat) (f : Site → Site) : State := s.setSite v (f (s.site v))
/-- The gatehouse registers of a site. -/
def State.gate (s : State) (v : Nat) : Gate := (s.site v).gate
/-- The state with the gatehouse registers of a site changed. -/
def State.modGate (s : State) (v : Nat) (f : Gate → Gate) : State := s.modSite v fun x => { x with gate := f x.gate }
/-- An MSI-X message of a vector goes to the host, while the link is up (R420). DESIGN CHOICE (log 60): the spec names the cause of each vector and
not the moment; the message goes with the record or notice that it tells of. -/
def Gate.interrupt (g : Gate) (n : Nat) : Gate :=
  if g.linkUp then { g with interrupts := Tab.put n (Tab.get 0 n g.interrupts + 1) g.interrupts } else g
/-- The claim-table entry e of a pavilion (R174). -/
def State.gang (s : State) (v e : Nat) : Gang := Tab.get {} e (s.site v).gangs
/-- The state with a claim-table entry changed. -/
def State.modGang (s : State) (v e : Nat) (f : Gang → Gang) : State :=
  s.modSite v fun x => { x with gangs := Tab.put e (f (Tab.get {} e x.gangs)) x.gangs }
/-- The next free value (log 11). -/
def State.free (s : State) : Word × State := (Config.freeWord s.freeIx, { s with freeIx := s.freeIx + 1 })
/-- A new identifier. -/
def State.fresh (s : State) : Nat × State := (s.nextId, { s with nextId := s.nextId + 1 })
/-- The keys of the strands that the state lists. -/
def State.strandKeys (s : State) : List Nat := s.strands.map (·.1)
/-- The keys of the strands of a gang that are not FREE. -/
def State.gangStrands (s : State) (v e : Nat) : List Nat :=
  (s.strands.filter fun (k, x) => siteOfK k == v && x.entry == e && x.st != .free && slotOf k < 13).map (·.1)
/-- The keys of the strands of a crew that are not FREE: the crew is named by its core (R29). -/
def State.crewStrands (s : State) (c e : Nat) : List Nat :=
  (s.strands.filter fun (k, x) => coreOfK k == c && x.entry == e && x.st != .free && slotOf k < 13).map (·.1)
/-- The site's time counter (R65). -/
def State.time (s : State) (v : Nat) : Word := (s.site v).time

/-- Virtual coordinates of a site (R15, R201): a pavilion's are in sm.self, every other site's are its physical ones. DESIGN CHOICE (log 46):
a pavilion whose sm.self has V clear uses its physical ones, where the spec is silent. -/
def State.virt (s : State) (v : Nat) : Nat × Nat :=
  if kindOf v = .pavilion then (s.site v).self.getD (xOf v, yOf v) else (xOf v, yOf v)

/-- The placed absolute address, with virtual coordinates, of a byte of a unit of a site (R74). -/
def State.homeAddr (s : State) (v u off : Nat) : Addr :=
  let (x, y) := s.virt v
  BitVec.ofNat 60 (homeKey (y * 256 + x) u off)

/-- The kind of the virtual site (x, y) as site v knows it (R14, R76): the module's grid, or what the image of an integrator's assembly
lists. None where there is no such site. -/
def State.kindAt (s : State) (v x y : Nat) : Option SiteKind :=
  match (s.site v).listed with
  | none => if onGrid x y then some (siteKind x y) else none
  | some l => (l.find? fun p => p.1 == x && p.2.1 == y).map fun p => if p.2.2 = 1 then .pavilion else if p.2.2 = 2 then .memory else .gatehouse

/-- The global strand number of a strand (R35). -/
def State.number (s : State) (k : Nat) : Nat :=
  let (x, y) := s.virt (siteOfK k)
  y * 2 ^ 16 + x * 2 ^ 8 + k % 256

/-! ## Counted events (R230) -/

/-- How often an event stands in a list of counted events. -/
def talliedIn (l : List (Nat × Nat)) (n : Nat) : Nat := (l.map fun q => if q.1 = n then q.2 else 0).sum

/-- Event n occurs m times on a core: every performance counter that selects it counts, one that a `setc` has written in this cycle in the next
(R64, R73). -/
def Core.tallied (x : Core) (n m : Nat) : Core :=
  let hit := (x.perfSel.filter fun q => q.2 == n).map (·.1)
  { x with
    perf := (hit.filter fun q => !x.perfSet.contains q).foldl (fun p q => Tab.put q (Tab.get 0 q p + BitVec.ofNat 64 m) p) x.perf
    carry := (hit.filter x.perfSet.contains).foldl (fun p q => Tab.put q (Tab.get 0 q p + m) p) x.carry
    tally := x.tally ++ [(n, m)] }

/-- Event n of a core occurs m times (R230). -/
def State.count (s : State) (c n m : Nat) : State := s.modCore c fun x => x.tallied n m

/-- What ctl.perfN reads: its value as the cycle under way began, since an instruction sees the end of the cycle before (R73, R371). -/
def Core.perfValue (x : Core) (i : Nat) : Word :=
  let w := Tab.get 0 i x.perf
  let sel := Tab.get 0 i x.perfSel
  if x.perfSet.contains i ∨ sel = 0 then w else w - BitVec.ofNat 64 (talliedIn x.tally sel)

/-- A `setc` of ctl.perfN: its value stands, and what the cycle counts is counted in the next (R73). -/
def Core.setPerf (x : Core) (i : Nat) (w : Word) : Core :=
  let sel := Tab.get 0 i x.perfSel
  let n := if sel = 0 ∨ x.perfSet.contains i then 0 else talliedIn x.tally sel
  { x with perf := Tab.put i w x.perf, perfSet := NatSet.add i x.perfSet, carry := Tab.put i (Tab.get 0 i x.carry + n) x.carry }

/-- A `setc` of ctl.perf_selN: the events of the cycle are counted under the new setting (R64). -/
def Core.setPerfSel (x : Core) (i n : Nat) : Core :=
  let old := Tab.get 0 i x.perfSel
  let was := if old = 0 then 0 else talliedIn x.tally old
  let now := if n = 0 then 0 else talliedIn x.tally n
  let perf := if x.perfSet.contains i then x.perf else Tab.put i (Tab.get 0 i x.perf - BitVec.ofNat 64 was + BitVec.ofNat 64 now) x.perf
  { x with perfSel := Tab.put i n x.perfSel, perf }

/-- The end of a cycle: what an earlier cycle left to this one is counted (R73). -/
def Core.endTally (x : Core) : Core :=
  let due := x.carry.filter fun q => !x.perfSet.contains q.1
  { x with
    perf := due.foldl (fun p q => Tab.put q.1 (Tab.get 0 q.1 p + BitVec.ofNat 64 q.2) p) x.perf
    carry := x.carry.filter fun q => x.perfSet.contains q.1
    perfSet := [], tally := [] }

/-! ## Event records (R165, R166) -/

/-- Severity of an event (R166). -/
def sevNotice : Nat := 0
/-- Severity corrected (R166). -/
def sevCorrected : Nat := 1
/-- Severity uncorrected (R166). -/
def sevUncorrected : Nat := 2
/-- Severity fatal (R166). -/
def sevFatal : Nat := 3

/-- The event hold of a unit is taken (R165). -/
def State.holdFull (s : State) (v u : Nat) : Bool := (Tab.find u (s.site v).evHolds).isSome

/-- A unit of a site raises an event: its record enters the unit's hold, or waits behind the one that an operation has already put there (R165, R166,
log 58). -/
def State.raise (s : State) (v u sev code : Nat) (strand : Option Nat) (addr : Addr) : State :=
  let (x, y) := s.virt v
  let t := s.site v
  let r : EventRec :=
    { w0 := BitVec.ofNat 64 (strand.getD 0xFFFFFF * 2 ^ 40 + sev * 2 ^ 16 + code)
      w1 := addr.setWidth 64
      w2 := t.time
      w3 := BitVec.ofNat 64 ((y * 256 + x) * 2 ^ 32 + t.evSeq) }
  s.setSite v { t with evHolds := t.evHolds ++ [(u, r)], evSeq := (t.evSeq + 1) % 2 ^ 32 }

/-! ## Parking and waking (R125, R126, R144) -/

/-- The code of a park reason (R126). -/
def Park.code : Park → Nat
  | .access => 1 | .fetch => 2 | .vector => 3 | .matrix => 4 | .pendingRegister => 5 | .granuleOrder => 6 | .relaxedFull => 7
  | .relaxedWait => 8 | .fence => 9 | .fullEmpty => 10 | .monitor => 11 | .barrier => 12 | .counter => 13 | .claim => 14
  | .join => 15 | .mailbox => 16 | .pageFault => 17 | .missIdle => 18 | .recordWait => 19 | .queueIdle => 20 | .copyIdle => 21

/-- The strand parks for a reason; `c` is what the event it waits for does. -/
def State.park (s : State) (k : Nat) (r : Park) (c : Cont) : State :=
  (s.modStrand k fun x => { x with st := .parked, why := some r, cont := c }).count (coreOfK k) (0x040 + r.code) 1

/-- The park reason of a parked strand changes (R126: a wait that the home admits turns access into full/empty). -/
def State.repark (s : State) (k : Nat) (r : Park) : State :=
  if (s.strand k).st = .parked then
    (s.modStrand k fun x => { x with why := some r }).count (coreOfK k) (0x040 + r.code) 1
  else s

/-- A gang whose strands stop as soon as they can: it aborts, or its forced-save deadline has expired (R144, R162). -/
def Gang.halting (g : Gang) : Bool := g.st == .aborting || g.expired

/-- A fault other than a page fault waits for the strand's next turn (R292). -/
def Strand.lateDue (x : Strand) : Bool := x.late.any fun f => f.code != 0x0B

/-- The waking event of a parked strand: it rejoins the rotation, or stops if its gang is halting (R144, R145). A fault that waits for its turn is
taken before it stops for a save (R164, R292). -/
def State.wake (s : State) (k : Nat) : State :=
  let x := s.strand k
  if x.st = .parked then
    let g := s.gang (siteOfK k) x.entry
    let stops := g.halting && decide (slotOf k < 13) && (g.st == .aborting || !x.lateDue)
    s.setStrand k { x with st := if stops then .stopped else .ready, why := none, cont := .reissue }
  else s

/-- pc moves on by n bytes. -/
def State.advance (s : State) (k n : Nat) : State := s.modStrand k fun x => { x with pc := x.pc + BitVec.ofNat 60 n }

/-! ## Permits (R62, R226) -/

/-- The permit register of a class. -/
def Core.permit (c : Core) : PClass → Permit
  | .matrix => c.pMatrix | .vector => c.pVector | .sfu => c.pSfu | .memory => c.pMem

/-- A core with the permit register of a class written. -/
def Core.setPermit (c : Core) (p : PClass) (x : Permit) : Core :=
  match p with
  | .matrix => { c with pMatrix := x } | .vector => { c with pVector := x }
  | .sfu => { c with pSfu := x } | .memory => { c with pMem := x }

/-- The four permit registers of a core changed. -/
def Core.modPermits (c : Core) (f : Permit → Permit) : Core :=
  { c with pMatrix := f c.pMatrix, pVector := f c.pVector, pSfu := f c.pSfu, pMem := f c.pMem }

/-- A permit of the class is at hand. -/
def State.hasPermit (s : State) (c : Nat) (p : PClass) : Bool := decide (0 < ((s.core c).permit p).count)

/-- One permit of the class is taken (R226); vector and special-function permits are counted (R230). -/
def State.takePermit (s : State) (c : Nat) (p : PClass) : State :=
  let s := s.modCore c fun x => x.setPermit p { x.permit p with count := (x.permit p).count - 1 }
  match p with
  | .vector => s.count c 0x014 1
  | .sfu => s.count c 0x015 1
  | _ => s

/-- The strand finds no permit of its instruction's class: a held bubble (R123, R144). -/
def State.held (s : State) (k : Nat) : State :=
  (s.modStrand k fun x => { x with st := .held }).count (coreOfK k) 0x004 1

/-! ## Messages (R402, R404, R409) -/

/-- The class of a message: 0 request, 1 response, 2 trigger, 3 collective, 4 configuration (R402, R404). -/
def MsgOp.cls : MsgOp → Nat
  | .req _ | .feWithdraw _ | .nqWord .. | .faultNotice => 0
  | .drainMarker c _ => c
  | .data | .ack | .deferral | .error _ | .monFire _ | .refusal | .hostRetry | .status _ => 1
  | .counterAdd _ | .launchSub .. => 2
  | .armReserve .. | .armCommit .. | .armRelease .. | .contribution .. | .result .. => 3
  | .cfgRead | .cfgWrite | .hello .. | .imageRequest _ | .imageBlock .. | .probeTs _ | .probeEcho .. => 4

/-- Key of a link of a site: edge d (0 N, 1 E, 2 S, 3 W) and mesh. -/
def linkKey (d : Nat) (x : Mesh) : Nat := match x with | .oak => 2 * d | .ash => 2 * d + 1

/-- The link of an edge on a mesh. -/
def Site.link (t : Site) (d : Nat) (x : Mesh) : Link := Tab.get {} (linkKey d x) t.links

/-- A link of a site changed. -/
def State.modLink (s : State) (v d : Nat) (x : Mesh) (f : Link → Link) : State :=
  s.modSite v fun t => { t with links := Tab.put (linkKey d x) (f (t.link d x)) t.links }

/-- The links that a message crosses, by the site it leaves and the edge (R18): on Oak along x first, on Ash along y first. -/
def route : Nat → Mesh → Nat → Nat → List (Nat × Nat)
  | 0, _, _, _ => []
  | n + 1, x, v, w =>
    if v = w then []
    else
      let dx : Nat := if xOf v < xOf w then 1 else 3
      let dy : Nat := if yOf v < yOf w then 0 else 2
      let d := match x with
        | .oak => if xOf v ≠ xOf w then dx else dy
        | .ash => if yOf v ≠ yOf w then dy else dx
      let u := if d = 0 then v + 256 else if d = 1 then v + 1 else if d = 2 then v - 256 else v - 1
      (v, d) :: route n x u w

/-- The links of a message's way; none at the site itself. -/
def Msg.links (m : Msg) : List (Nat × Nat) := match m.mesh with | some x => route 40 x m.src m.dst | none => []

/-- The link that a message crosses next; none at its destination. -/
def Msg.next (m : Msg) : Option (Nat × Nat) := m.links[m.hops]?

/-- The site where a message stands. -/
def Msg.place (m : Msg) : Nat := match m.next with | some p => p.1 | none => m.dst

/-- Two messages stand in one queue of a site: class, mesh and output agree, and they have come by one input (R20, R409). -/
def Msg.queued (a b : Msg) : Bool :=
  a.op.cls == b.op.cls && decide (a.mesh = b.mesh) && a.place == b.place && decide (a.next = b.next) && a.via.any b.via.contains

/-- The message with a number, if it stands at a site, is not held at its source, and is the first of its queues there. -/
def State.headOf (s : State) (n : Nat) : Option Msg :=
  match s.net.find? (fun m => m.id == n) with
  | none => none
  | some m =>
    if m.held || m.sent then none
    else match s.net.find? (fun a => !a.held && !a.sent && a.queued m) with
      | some a => if a.id = n then some m else none
      | none => none

/-- The message is answered by a reply of its class, or by nothing. -/
def MsgOp.answered : MsgOp → Bool
  | .req _ | .feWithdraw _ | .nqWord .. | .counterAdd _ | .launchSub .. | .armReserve .. | .armCommit .. | .armRelease .. | .cfgRead | .cfgWrite => true
  | _ => false

/-- The other mesh: a reply travels on it (R204). -/
def otherMesh : Option Mesh → Option Mesh
  | some .oak => some .ash
  | some .ash => some .oak
  | none => none

/-- A credit of a class is at hand on a link (R405). -/
def Link.hasCredit (l : Link) (c : Nat) : Bool := decide (0 < Tab.get 0 c l.credits)

/-- The first link of a reply has a response credit, or the reply crosses none that is up: a home holds a request while it lacks the credit
(R406). -/
def State.canAnswer (s : State) (m : Msg) : Bool :=
  !m.op.answered || (match otherMesh m.mesh with
    | none => true
    | some x => match (route 40 x m.dst m.src).head? with
      | none => true
      | some p =>
        let l := (s.site p.1).link p.2 x
        !l.up || l.hasCredit 1)

/-- The message with a number, if it stands at its destination as the first of its queue and can be answered: it can be taken now. -/
def State.arriving (s : State) (n : Nat) : Option Msg :=
  match s.headOf n with
  | none => none
  | some m => if m.next.isSome || !s.canAnswer m then none else some m

/-- A message leaves the receive buffer that it occupies: the credit goes back (R405). -/
def State.unbuffer (s : State) (m : Msg) : State :=
  match m.mesh, m.buf with
  | some x, some d => s.modLink m.place d x fun l => { l with owed := Tab.put m.op.cls (Tab.get 0 m.op.cls l.owed + 1) l.owed }
  | _, _ => s

/-- The state without a message that its destination, or a router, has taken out of its buffer. -/
def State.consume (s : State) (n : Nat) : State :=
  match s.net.find? (fun m => m.id == n) with
  | none => s
  | some m => { s.unbuffer m with net := s.net.filter (fun m => m.id != n) }

/-- A message enters the network with a new number. -/
def State.post (s : State) (m : Msg) : State :=
  let (n, s) := s.fresh
  { s with net := s.net ++ [{ m with id := n, batch := s.batch }] }

/-- The transaction with a number. -/
def State.txn (s : State) (t : Nat) : Option Txn := s.txns.find? (fun x => x.id == t)
/-- The state without a transaction. -/
def State.dropTxn (s : State) (t : Nat) : State := { s with txns := s.txns.filter (fun x => x.id != t) }

/-- The full/empty bit of the first granule that a request reads at its home: F of its data response (R402). -/
def State.bitOf (s : State) (m : Msg) : Bool :=
  match m.op with
  | .req _ => !m.host && s.full.contains (homeKey m.dst m.unit 0 / 16 + m.off / 16)
  | _ => false

/-- The reply to a request: it goes back to the request's source on the other mesh and carries its transaction (R204, R404). -/
def State.reply (s : State) (m : Msg) (op : MsgOp) (data : List Byte) (full : Bool) : State :=
  s.post { id := 0, op, mesh := otherMesh m.mesh, src := m.dst, dst := m.src, key := m.key, data, full, bit := s.bitOf m, txn := m.txn }

/-! ## Abort and exceptions (R189, R372-R374) -/

/-- Fault codes (R372). -/
inductive Code where
  | illegal | privilege | segment | addressKind | addressRange | alignment | unreachableSite | unheldWindow | unheldAccumulator
  | unheldStore | pageFault | pageProtection | pageFormat | feHome | uncorrectable | hostAccess | overclaim | claimProtocol
  | nestShape | slot | illegalShape | copyParameter | halt | blockParameter | trapUnset
deriving DecidableEq, Repr

/-- The number of a fault code (R372). -/
def Code.num : Code → Nat
  | .illegal => 0x01 | .privilege => 0x02 | .segment => 0x03 | .addressKind => 0x04 | .addressRange => 0x05 | .alignment => 0x06
  | .unreachableSite => 0x07 | .unheldWindow => 0x08 | .unheldAccumulator => 0x09 | .unheldStore => 0x0A | .pageFault => 0x0B
  | .pageProtection => 0x0C | .pageFormat => 0x0D | .feHome => 0x0E | .uncorrectable => 0x0F | .hostAccess => 0x10
  | .overclaim => 0x11 | .claimProtocol => 0x12 | .nestShape => 0x13 | .slot => 0x14 | .illegalShape => 0x15
  | .copyParameter => 0x16 | .halt => 0x17 | .blockParameter => 0x18 | .trapUnset => 0x19

/-- The fault code with a number. -/
def Code.ofNum (n : Nat) : Code :=
  ([Code.illegal, .privilege, .segment, .addressKind, .addressRange, .alignment, .unreachableSite, .unheldWindow, .unheldAccumulator,
    .unheldStore, .pageFault, .pageProtection, .pageFormat, .feHome, .uncorrectable, .hostAccess, .overclaim, .claimProtocol, .nestShape,
    .slot, .illegalShape, .copyParameter, .halt, .blockParameter, .trapUnset].find? fun c => c.num == n).getD .illegal

/-- The site is FAILED or ISOLATED: it answers every request but a configuration read with error 0x0007 (R416). -/
def Site.outOfService (t : Site) : Bool := t.state == .failed || t.state == .isolated

/-- A request is turned away with error 0x0007 (R416). -/
def State.turnAway (s : State) (m : Msg) : State := (s.consume m.id).reply m (.error Code.unreachableSite.num) [] false

/-- The owner of an access is the strand. -/
def Owner.isOf (k : Nat) : Owner → Bool
  | .strand j | .relaxed j _ | .element j _ | .fetch j _ | .monitor j _ => j == k
  | _ => false

/-- No strand waits for the access: it belongs to nobody, or to an aborted gang. -/
def Owner.gone : Owner → Bool
  | .nobody | .aborted _ _ => true
  | _ => false

/-- The access was left outstanding by the aborted gang with a mark. -/
def Owner.leftBy (n : Nat) : Owner → Bool
  | .aborted m _ => m == n
  | _ => false

/-- What tells the accesses of one gang from those of another: its launch number and its number in the launch (R32). -/
def Gang.mark (g : Gang) : Nat := g.launch.toNat * 2 ^ 32 + g.gang.toNat

/-- The owners of the accesses of a pavilion replaced: of transactions and of port requests. -/
def State.reown (s : State) (v : Nat) (f : Owner → Owner) : State :=
  let s : State := { s with txns := s.txns.map fun (t : Txn) => { t with acc := { t.acc with owner := f t.acc.owner } } }
  s.modSite v fun x => { x with port := x.port.map fun (q : PortReq) => { q with acc := { q.acc with owner := f q.acc.owner } } }

/-- Accesses of a pavilion whose owners meet a test return to nobody. -/
def State.disown (s : State) (v : Nat) (p : Owner → Bool) : State := s.reown v fun o => if p o then .nobody else o

/-- The owner of an access of strand k, once its gang with mark n has aborted. -/
def Owner.abandon (k n : Nat) (o : Owner) : Owner := if o.isOf k then .aborted n o else o

/-- Nothing that is still outstanding returns to the strand; the release of its gang waits for it (R114). -/
def State.orphan (s : State) (k n : Nat) : State := s.reown (siteOfK k) (Owner.abandon k n)

/-- A strand stops where it stands (R144). A fault that it has yet to take stays with it. -/
def State.stop (s : State) (k : Nat) : State :=
  s.modStrand k fun x => if x.st = .free then x else { x with st := .stopped, why := none, cont := .reissue }

/-! ## Replay entries (R136, R139) -/

/-- The walk strand's slot (R27). -/
def walkSlot : Nat := 13

/-- A strand at rest for a reason is woken (R124, R126). -/
def State.rouse (s : State) (k : Nat) (r : Park) : State :=
  if (s.strand k).st = .parked ∧ (s.strand k).why = some r then s.wake k else s

/-- The fault queue is full (R141). -/
def Site.fqFull (t : Site) : Bool := (t.fqTail + 2 ^ 32 - t.fqHead) % 2 ^ 32 ≥ 256

/-- Kinds of accesses that take a replay entry (R139): relaxed, vector, tile and copy accesses. -/
def replayable (k : Nat) : Bool := (4 ≤ k && k ≤ 6) || (10 ≤ k && k ≤ 18)

/-- Two accesses belong to one replay entry: elements of one vector access, or of one chunk of a copy (R136). -/
def Owner.joins : Owner → Owner → Bool
  | .element j _, .element k _ => j == k
  | .copyRead c n i, .copyRead d m j => c == d && n == m && i == j
  | .copyWrite c n i, .copyWrite d m j => c == d && n == m && i == j
  | .aborted n o, .aborted m p => n == m && o.joins p
  | _, _ => false

/-- The replay entry that an access already has (R136). -/
def Core.replayOf (x : Core) (o : Owner) : Option Replay :=
  x.replays.find? fun r => r.issued.contains o || r.accs.any (fun a => o.joins a.owner) || r.issued.any (fun p => o.joins p)

/-- A free replay entry: the lowest number not in use (R136). -/
def Core.freeReplay (x : Core) : Option Nat := (List.range 32).find? fun i => !x.replays.any (fun r => r.ix == i)

/-- A fault-queue entry, and a replay entry if the head miss of the core needs one, are free (R139). -/
def State.recordFree (s : State) (c : Nat) : Bool :=
  let x := s.core c
  match x.misses with
  | [] => true
  | m :: _ =>
    let held := match (s.site (siteOfC c)).port.find? (fun p => p.id == m.port) with
      | some p => (x.replayOf p.acc.owner).isSome
      | none => true
    !(s.site (siteOfC c)).fqFull && (!replayable m.kind || held || x.freeReplay.isSome)

/-- The walk strand of a core is woken from record-wait once what it needs is free (R126, R139). -/
def State.wakeRecord (s : State) (c : Nat) : State := if s.recordFree c then s.rouse (slotKey c walkSlot) .recordWait else s

/-- Replay entries of a core that meet a test are freed without being issued again, and a walk strand that waits for one goes on (R125,
R139). -/
def State.dropReplays (s : State) (c : Nat) (p : Replay → Bool) : State :=
  (s.modCore c fun x => { x with replays := x.replays.filter fun r => !p r }).wakeRecord c

/-- The waiting requests of a strand for claims are withdrawn (R162, R183). -/
def State.dropWaiter (s : State) (k : Nat) : State :=
  s.modSite (siteOfK k) fun v => { v with waiters := v.waiters.filter (fun w => w.k != k) }

/-- What waits elsewhere for the strand is withdrawn: its wait records and watches at their homes, with the transactions of the records, and the
operations it would send again (log 45). -/
def State.forget (s : State) (k : Nat) : State :=
  let mine := (s.txns.filter fun (t : Txn) => t.acc.owner.isOf k).map (·.id)
  let waits := s.sites.flatMap fun (_, v) => (v.waits.filter fun (r : WaitRec) => mine.contains r.txn).map (·.txn)
  let tidy (v : Site) : Site :=
    { v with waits := v.waits.filter (fun r => !mine.contains r.txn), watches := v.watches.filter (fun w => w.k != k) }
  { s with
    sites := s.sites.map fun (n, v) => (n, tidy v)
    txns := s.txns.filter fun (t : Txn) => !(mine.contains t.id && (t.resend || waits.contains t.id)) }

/-- A replay entry of strand k, once its gang with mark n has aborted: it stands until a wake word releases it and its accesses are performed
(R117, R142). -/
def Replay.abandon (k n : Nat) (r : Replay) : Replay :=
  if r.slot = slotOf k ∧ r.kind < 16 ∧ !r.dead then
    { r with dead := true, accs := r.accs.map (fun a => { a with owner := a.owner.abandon k n }), issued := r.issued.map (Owner.abandon k n) }
  else r

/-- A strand of an aborting gang stops: its waits, its vector operation and its matrix operations end with it; its accesses on their way, those
in the replay queue, and the copies that it posted go on (R117, R142, R144, log 32). Its crew's iteration fetcher claims no more (R288). -/
def State.abortStrand (s : State) (k : Nat) : State :=
  let e := (s.strand k).entry
  let n := (s.gang (siteOfK k) e).mark
  let s := (((s.forget k).orphan k n).dropWaiter k).stop k
  s.modCore (coreOfK k) fun c =>
    { c with vq := c.vq.filter (fun o => o.k != k), mul := c.mul.filter (fun o => o.k != k), drn := c.drn.filter (fun o => o.k != k),
             replays := c.replays.map (Replay.abandon k n), fetch := Tab.del e c.fetch }

/-- The gang of a claim-table entry aborts: every strand stops, and its trigger entries are freed (R373, R174, R218). -/
def State.abortGang (s : State) (v e : Nat) : State :=
  let g := s.gang v e
  let s := s.modGang v e fun g => { g with st := .aborting, aborted := true }
  let s := s.modSite v fun x =>
    { x with trigs := x.trigs.map fun (n, t) => if t.st != .free && t.launch == g.launch && t.gang == g.gang then (n, {}) else (n, t) }
  each (s.gangStrands v e) State.abortStrand s

/-- A fault for a strand: code, address (none where the spec gives it no address), faulting instruction, access kind. -/
structure Trouble where
  code : Code
  addr : Option Addr
  pc : Addr
  kind : Nat := 0
deriving DecidableEq, Repr

/-- A fault writes the three fault registers in one cycle (R59). An address that the spec does not state is a free value (log 13). -/
def State.faultRecord (s : State) (k : Nat) (f : Trouble) : State :=
  let (a, s) := match f.addr with
    | some a => (a, s)
    | none => let (w, s) := s.free; (w.setWidth 60, s)
  (s.modStrand k fun x =>
    { x with faultCode := BitVec.ofNat 64 (f.kind * 2 ^ 16 + f.code.num), faultAddr := a, faultPc := f.pc }).count (coreOfK k) 0x018 1

/-- The segment of two words (R46). -/
def Seg.ofWords (w0 w1 : Word) : Seg :=
  { base := w0.setWidth 60, limit := w1.setWidth 48, rights := (w1 >>> 48).setWidth 6 }
/-- The first word of a segment (R46). -/
def Seg.word0 (g : Seg) : Word := g.base.setWidth 64
/-- The second word of a segment (R46). -/
def Seg.word1 (g : Seg) : Word := g.rights.setWidth 64 <<< 48 ||| g.limit.setWidth 64

/-- The trap registers of a core hold no entry (R374). -/
def Core.trapUnset (c : Core) : Bool := c.trapBase >>> 2 == 0 || (c.trapSw1.setWidth 48 : BitVec 48) == 0

/-- Trap entry: pc, mode and s0 are saved and the handler entered at an offset from the trap base (R374). -/
def State.trapEntry (s : State) (k : Nat) (ret : Addr) (off : Nat) : State :=
  let c := s.core (coreOfK k)
  s.modStrand k fun x =>
    let s0 := Tab.get {} 0 x.segs
    { x with
      trapPc := ret, trapMode := x.sup, trapS0w0 := s0.word0, trapS0w1 := s0.word1,
      segs := Tab.put 0 (Seg.ofWords c.trapSw0 c.trapSw1) x.segs,
      sup := true, st := .ready, why := none, cont := .reissue,
      pc := (c.trapBase >>> 2) <<< 2 + BitVec.ofNat 60 off }

/-- The return from a trap: s0, the mode and pc as the trap registers hold them (R374). -/
def State.trapReturn (s : State) (k : Nat) : State :=
  s.modStrand k fun x =>
    { x with segs := Tab.put 0 (Seg.ofWords x.trapS0w0 x.trapS0w1) x.segs, sup := x.trapMode, pc := (x.trapPc >>> 2) <<< 2 }

/-- A fault in supervisor mode enters the trap at the fault entry, once the strand's relaxed accesses are performed; with the trap
registers unset it raises a fatal event and the strand stops until the site is reset (R373, R374). -/
def State.faultTrap (s : State) (k : Nat) (f : Late) : State :=
  let v := siteOfK k
  let u := 16 + coreNo k
  let c := s.core (coreOfK k)
  if c.trapUnset then
    if s.holdFull v u then s.park k .access (.stalled f)
    else (s.raise v u sevFatal 0x0113 (some (s.number k)) f.addr).stop k
  else if (s.strand k).tracker.isEmpty then s.trapEntry k f.pc 0x1000
  else s.park k .relaxedWait (.entry f)

/-- What a fault other than a page fault does after its record: trap entry in supervisor mode, an abort of the gang in user mode
with one notice event; while the core's event hold is full the strand stays parked with reason access (R165, R373). -/
def State.faultAct (s : State) (k : Nat) (f : Late) : State :=
  let v := siteOfK k
  let u := 16 + coreNo k
  let x := s.strand k
  if x.sup then s.faultTrap k f
  else if s.holdFull v u then s.park k .access (.stalled f)
  else (s.raise v u sevNotice f.code (some (s.number k)) x.faultAddr).abortGang v x.entry

/-- The walk of the head miss ends on a fault of one of its loads: see `endWalk` in Machine/Access.lean; here the strand's part:
the walk strand takes no fault of its own and begins again at its entry (R198, log 14). -/
def State.restartWalk (s : State) (k : Nat) : State :=
  s.modStrand k fun x => { x with pc := (s.core (coreOfK k)).walkEntry, st := .ready, why := none, cont := .reissue }

/-- TAKING AN EXCEPTION: the fault is recorded and handled by its code and the mode (R373). A page fault parks the strand. -/
def State.takeFault (s : State) (k : Nat) (f : Trouble) : State :=
  let s := s.faultRecord k f
  if f.code = .pageFault then s.park k .pageFault .reissue
  else s.faultAct k { code := f.code.num, addr := (s.strand k).faultAddr, pc := f.pc, kind := f.kind }

/-- The fault of the instruction that the strand issues now, without an address that the spec states. -/
def State.raiseFault (s : State) (k : Nat) (c : Code) : State :=
  s.takeFault k { code := c, addr := none, pc := (s.strand k).pc }

end Sys2Proof.Machine
end

