-- ==== Sys2Proof/Machine/Crypto.lean ====
section
/-! DEFINITION. SHA-256 (FIPS 180-4) and ECDSA over P-256 (FIPS 186-5), as the signed images and the quotes use them (R432-R435). -/

namespace Sys2Proof.Machine

/-! ## SHA-256 -/

/-- The round constants. -/
def shaK : List Nat :=
  [0x428a2f98, 0x71374491, 0xb5c0fbcf, 0xe9b5dba5, 0x3956c25b, 0x59f111f1, 0x923f82a4, 0xab1c5ed5] ++
  [0xd807aa98, 0x12835b01, 0x243185be, 0x550c7dc3, 0x72be5d74, 0x80deb1fe, 0x9bdc06a7, 0xc19bf174] ++
  [0xe49b69c1, 0xefbe4786, 0x0fc19dc6, 0x240ca1cc, 0x2de92c6f, 0x4a7484aa, 0x5cb0a9dc, 0x76f988da] ++
  [0x983e5152, 0xa831c66d, 0xb00327c8, 0xbf597fc7, 0xc6e00bf3, 0xd5a79147, 0x06ca6351, 0x14292967] ++
  [0x27b70a85, 0x2e1b2138, 0x4d2c6dfc, 0x53380d13, 0x650a7354, 0x766a0abb, 0x81c2c92e, 0x92722c85] ++
  [0xa2bfe8a1, 0xa81a664b, 0xc24b8b70, 0xc76c51a3, 0xd192e819, 0xd6990624, 0xf40e3585, 0x106aa070] ++
  [0x19a4c116, 0x1e376c08, 0x2748774c, 0x34b0bcb5, 0x391c0cb3, 0x4ed8aa4a, 0x5b9cca4f, 0x682e6ff3] ++
  [0x748f82ee, 0x78a5636f, 0x84c87814, 0x8cc70208, 0x90befffa, 0xa4506ceb, 0xbef9a3f7, 0xc67178f2]

/-- The initial hash value. -/
def shaInit : List Nat := [0x6a09e667, 0xbb67ae85, 0x3c6ef372, 0xa54ff53a, 0x510e527f, 0x9b05688c, 0x1f83d9ab, 0x5be0cd19]

/-- A 32-bit word rotated right. -/
def ror32 (x n : Nat) : Nat := (x / 2 ^ n + x * 2 ^ (32 - n)) % 2 ^ 32

/-- The number that bytes hold, highest first. -/
def beNat (l : List Byte) : Nat := l.foldl (fun a b => a * 256 + b.toNat) 0

/-- n bytes of a number, highest first. -/
def beBytes (n w : Nat) : List Byte := (leBytes n w).reverse

/-- The message padded to whole blocks. -/
def shaPad (m : List Byte) : List Byte := m ++ 0x80 :: (List.replicate ((119 - m.length % 64) % 64) 0 ++ beBytes 8 (8 * m.length))

/-- The message schedule, its latest word first. -/
def shaSchedule : Nat → List Nat → List Nat
  | 0, w => w
  | n + 1, w =>
    let g (i : Nat) : Nat := w.getD i 0
    let s0 := ror32 (g 14) 7 ^^^ ror32 (g 14) 18 ^^^ (g 14 / 2 ^ 3)
    let s1 := ror32 (g 1) 17 ^^^ ror32 (g 1) 19 ^^^ (g 1 / 2 ^ 10)
    shaSchedule n ((g 15 + s0 + g 6 + s1) % 2 ^ 32 :: w)

/-- One round: the working variables a to h, with a constant and a word of the schedule. -/
def shaRound (v : List Nat) (kw : Nat × Nat) : List Nat :=
  let g (i : Nat) : Nat := v.getD i 0
  let s1 := ror32 (g 4) 6 ^^^ ror32 (g 4) 11 ^^^ ror32 (g 4) 25
  let ch := (g 4 &&& g 5) ^^^ ((2 ^ 32 - 1 - g 4) &&& g 6)
  let t1 := g 7 + s1 + ch + kw.1 + kw.2
  let s0 := ror32 (g 0) 2 ^^^ ror32 (g 0) 13 ^^^ ror32 (g 0) 22
  let maj := (g 0 &&& g 1) ^^^ (g 0 &&& g 2) ^^^ (g 1 &&& g 2)
  [(t1 + s0 + maj) % 2 ^ 32, g 0, g 1, g 2, (g 3 + t1) % 2 ^ 32, g 4, g 5, g 6]

/-- The compression of one block of 64 bytes. -/
def shaBlock (h : List Nat) (b : List Byte) : List Nat :=
  let w := (List.range 16).map fun i => beNat ((b.drop (4 * i)).take 4)
  let v := (shaK.zip (shaSchedule 48 w.reverse).reverse).foldl shaRound h
  (h.zip v).map fun (x, y) => (x + y) % 2 ^ 32

/-- The blocks of a padded message. -/
def shaBlocks : Nat → List Nat → List Byte → List Nat
  | 0, h, _ => h
  | n + 1, h, m => shaBlocks n (shaBlock h (m.take 64)) (m.drop 64)

/-- The SHA-256 digest of a message. -/
def sha256 (m : List Byte) : List Byte :=
  let p := shaPad m
  (shaBlocks (p.length / 64) shaInit p).flatMap (beBytes 4)

/-! ## P-256 -/

/-- The field's prime. -/
def p256P : Nat := 0xffffffff00000001000000000000000000000000ffffffffffffffffffffffff
/-- The order of the base point. -/
def p256N : Nat := 0xffffffff00000000ffffffffffffffffbce6faada7179e84f3b9cac2fc632551
/-- The base point G. -/
def p256G : Nat × Nat :=
  (0x6b17d1f2e12c4247f8bce6e563a440f277037d812deb33a0f4a13945d898c296,
   0x4fe342e2fe1a7f9b8ee7eb4a7c0f9e162bce33576b315ececbb6406837bf51f5)

/-- b to the power e modulo m, by the bits of e from the n-th down. -/
def powMod (b m : Nat) : Nat → Nat → Nat
  | 0, _ => 1 % m
  | n + 1, e => let r := powMod b m n (e / 2); if e % 2 = 1 then r * r % m * b % m else r * r % m

/-- The inverse modulo a prime. -/
def invMod (a m : Nat) : Nat := powMod (a % m) m 256 (m - 2)

/-- The sum of two points; none is the point at infinity. -/
def pointAdd : Option (Nat × Nat) → Option (Nat × Nat) → Option (Nat × Nat)
  | none, q => q
  | p, none => p
  | some (x1, y1), some (x2, y2) =>
    if x1 = x2 ∧ (y1 + y2) % p256P = 0 then none
    else
      let l := if x1 = x2 then (3 * x1 * x1 + (p256P - 3)) * invMod (2 * y1) p256P % p256P
        else (y2 + p256P - y1) * invMod (x2 + p256P - x1) p256P % p256P
      let x := (l * l + 2 * p256P - x1 - x2) % p256P
      some (x, (l * (x1 + p256P - x) + p256P - y1) % p256P)

/-- A multiple of a point, by the bits of the factor. -/
def pointMul : Nat → Nat → Option (Nat × Nat) → Option (Nat × Nat)
  | 0, _, _ => none
  | n + 1, k, p =>
    let h := pointMul n (k / 2) p
    let d := pointAdd h h
    if k % 2 = 1 then pointAdd d p else d

/-- k times a point. -/
def times (k : Nat) (p : Nat × Nat) : Option (Nat × Nat) := pointMul 256 k (some p)

/-- The signature (r, s) of a message verifies under a public key: r and s lie in 1 to n - 1 (R432). -/
def ecdsaVerify (q : Nat × Nat) (m : List Byte) (r s : Nat) : Bool :=
  if r = 0 ∨ s = 0 ∨ p256N ≤ r ∨ p256N ≤ s then false
  else
    let w := invMod s p256N
    let z := beNat (sha256 m)
    match pointAdd (times (z * w % p256N) p256G) (times (r * w % p256N) q) with
    | some (x, _) => x % p256N == r
    | none => false

/-- The signature of a message by a private key d with the number k that the signer draws. -/
def ecdsaSign (d k : Nat) (m : List Byte) : List Byte :=
  let r := match times k p256G with | some (x, _) => x % p256N | none => 0
  let s := invMod k p256N * (beNat (sha256 m) + r * d) % p256N
  beBytes 32 r ++ beBytes 32 s

end Sys2Proof.Machine
end

