-- ==== Sys2Proof/WellFormed.lean ====
section
/-! DEFINITION. Which instructions are well formed: every operand field holds a value that the formats and the instruction's
entry define (R37, R254, R255, R257, R263). A word whose fields break this is an illegal instruction. For an event: its
arguments name an agent of the module (R13, R21, R23). -/

namespace Sys2Proof

/-- An ordinary scalar specifier: z, a1-a7, w0-w239 (R37, R254). -/
def scalarOk (r : BitVec 8) : Bool := decide (r.toNat ≤ 247)
/-- A window register: w0-w239 (R254, destination of `ldr.64`). -/
def windowOk (r : BitVec 8) : Bool := decide (8 ≤ r.toNat) && decide (r.toNat ≤ 247)
/-- A register pair w(2k), w(2k + 1) (R254). -/
def pairOk (r : BitVec 8) : Bool := windowOk r && decide (r.toNat % 2 = 0)
/-- A vector register v0-v14 (R255). -/
def vecOk (v : BitVec 4) : Bool := decide (v ≠ 15)
/-- A scalar operand of the V format: z or an anchor (R255). -/
def anchorOk (v : BitVec 4) : Bool := decide (v.toNat ≤ 7)
/-- Operand b of the V format: with the B modifier an anchor, otherwise a vector (R313). -/
def operandB (y : BitVec 1) (b : BitVec 4) : Bool := if y = 1 then anchorOk b else vecOk b
/-- Integer lane types 0x9 to 0xE (R257, R318). -/
def intTy (t : BitVec 4) : Bool := decide (9 ≤ t.toNat) && decide (t.toNat ≤ 14)
/-- .f32, .bf16 and .f16 (R321). -/
def fp16or32 (t : BitVec 4) : Bool := decide (t.toNat ≤ 2)
/-- Lanes of 16 or 32 bits (R332). -/
def gatherTy (t : BitVec 4) : Bool :=
  t == 0x0 || t == 0x1 || t == 0x2 || t == 0xA || t == 0xB || t == 0xD || t == 0xE
/-- A static or dynamic rounding code, SR excluded (R315). -/
def roundOk (r : BitVec 3) : Bool := decide (r.toNat ≤ 4)
/-- A rounding code of `vcvt`, SR included (R315). -/
def roundCvtOk (r : BitVec 3) : Bool := decide (r.toNat ≤ 5)

/-- Lanes per vector of a type code (R257); 0 for the reserved code. -/
def lanesOf (t : BitVec 4) : Nat :=
  match t.toNat with
  | 0x0 | 0xB | 0xE => 32
  | 0x1 | 0x2 | 0xA | 0xD => 64
  | 0x3 | 0x4 | 0x5 | 0x6 | 0x8 | 0x9 | 0xC => 128
  | 0x7 => 256
  | _ => 0

/-- The destination type t, source type b and part q that `vcvt` admits (R324). -/
def cvtTy (t b : BitVec 4) (q : BitVec 2) : Bool :=
  let ls := lanesOf b
  let ld := lanesOf t
  decide (ls ≠ 0) && decide (ld ≠ 0) &&
  !(t == 0x8 && intTy b) && !(b == 0x8 && intTy t) &&
  (if ls = ld then decide (q = 0)
   else if ls = 2 * ld || ld = 2 * ls then decide (q.toNat < 2)
   else ls == 4 * ld || ld == 4 * ls)

/-- The pool selector of the claim instructions: kind 0b11 belongs to `rel.all`, a bower only to a store pool (R181). -/
def poolOk (k b : BitVec 2) : Bool := decide (k ≠ 3) && (decide (k = 1) || decide (b = 0))

/-- The selectors of `idget` (R48). -/
def idSelOk (i : BitVec 8) : Bool :=
  decide (i.toNat ≤ 6) || (decide (0x08 ≤ i.toNat) && decide (i.toNat ≤ 0x13))

/-- The type pairs of `mma` and the loop register of its scales (R344). -/
def mmaTy (ta tb : BitVec 4) (x : BitVec 1) (k : BitVec 3) : Bool :=
  let fp8 := (ta == 3 || ta == 4) && (tb == 3 || tb == 4)
  let fp6 := (ta == 5 || ta == 6 || ta == 7) && (tb == 5 || tb == 6 || tb == 7)
  let bf := ta == 1 && tb == 1
  let hf := ta == 2 && tb == 2
  let i8 := (ta == 9 || ta == 12) && (tb == 9 || tb == 12)
  (fp8 || fp6 || bf || hf || (i8 && x == 0)) && (x == 0 || decide (k.toNat ≤ 5))

/-- A site of the grid: key y * 256 + x with x and y in 0..19 (R13). -/
def siteOk (v : Nat) : Bool := decide (v % 256 < 20) && decide (v / 256 < 20)
/-- A core key: site * 16 + core (R35). -/
def coreOk (c : Nat) : Bool := siteOk (c / 16)
/-- A strand key: site * 256 + core * 16 + slot (R35). -/
def strandOk (k : Nat) : Bool := siteOk (k / 256)
/-- A bower key: site * 4 + bower (R22). -/
def bowerOk (b : Nat) : Bool := siteOk (b / 4)

/-- Every field of the instruction holds a value its entry defines (R263); an event names agents of the module. -/
def Instr.wf : Instr → Bool
  | .add d a b => scalarOk d && scalarOk a && scalarOk b
  | .sub d a b => scalarOk d && scalarOk a && scalarOk b
  | .mul d a b => scalarOk d && scalarOk a && scalarOk b
  | .mulhI d a b => scalarOk d && scalarOk a && scalarOk b
  | .mulhN d a b => scalarOk d && scalarOk a && scalarOk b
  | .divI d a b => scalarOk d && scalarOk a && scalarOk b
  | .divN d a b => scalarOk d && scalarOk a && scalarOk b
  | .remI d a b => scalarOk d && scalarOk a && scalarOk b
  | .remN d a b => scalarOk d && scalarOk a && scalarOk b
  | .and d a b => scalarOk d && scalarOk a && scalarOk b
  | .or d a b => scalarOk d && scalarOk a && scalarOk b
  | .xor d a b => scalarOk d && scalarOk a && scalarOk b
  | .shl d a b => scalarOk d && scalarOk a && scalarOk b
  | .shr d a b => scalarOk d && scalarOk a && scalarOk b
  | .sra d a b => scalarOk d && scalarOk a && scalarOk b
  | .minI d a b => scalarOk d && scalarOk a && scalarOk b
  | .maxI d a b => scalarOk d && scalarOk a && scalarOk b
  | .minN d a b => scalarOk d && scalarOk a && scalarOk b
  | .maxN d a b => scalarOk d && scalarOk a && scalarOk b
  | .seq d a b => scalarOk d && scalarOk a && scalarOk b
  | .sltI d a b => scalarOk d && scalarOk a && scalarOk b
  | .sltN d a b => scalarOk d && scalarOk a && scalarOk b
  | .sel d a b => scalarOk d && scalarOk a && scalarOk b
  | .clz d a => scalarOk d && scalarOk a
  | .popc d a => scalarOk d && scalarOk a
  | .sext d a b => scalarOk d && scalarOk a && scalarOk b
  | .zext d a b => scalarOk d && scalarOk a && scalarOk b
  | .addW d a b => scalarOk d && scalarOk a && scalarOk b
  | .mulW d a b => scalarOk d && scalarOk a && scalarOk b
  | .bfx d a b => scalarOk d && scalarOk a && scalarOk b
  | .bfi d a b => scalarOk d && scalarOk a && scalarOk b
  | .addi d a _ => scalarOk d && scalarOk a
  | .andi d a _ => scalarOk d && scalarOk a
  | .ori d a _ => scalarOk d && scalarOk a
  | .xori d a _ => scalarOk d && scalarOk a
  | .shli d a _ => scalarOk d && scalarOk a
  | .shri d a _ => scalarOk d && scalarOk a
  | .srai d a _ => scalarOk d && scalarOk a
  | .seqi d a _ => scalarOk d && scalarOk a
  | .sltiI d a _ => scalarOk d && scalarOk a
  | .sltiN d a _ => scalarOk d && scalarOk a
  | .miniI d a _ => scalarOk d && scalarOk a
  | .maxiI d a _ => scalarOk d && scalarOk a
  | .bz a _ => scalarOk a
  | .bnz a _ => scalarOk a
  | .blt a _ => scalarOk a
  | .bge a _ => scalarOk a
  | .j _ => true
  | .call _ => true
  | .jr a => scalarOk a
  | .callr d a => scalarOk d && scalarOk a
  | .nest _ => true
  | .next _ => true
  | .trap _ => true
  | .eret => true
  | .ldI8 d x _ _ => scalarOk d && scalarOk x
  | .ldN8 d x _ _ => scalarOk d && scalarOk x
  | .ldI16 d x _ _ => scalarOk d && scalarOk x
  | .ldN16 d x _ _ => scalarOk d && scalarOk x
  | .ldI32 d x _ _ => scalarOk d && scalarOk x
  | .ldN32 d x _ _ => scalarOk d && scalarOk x
  | .ld64 d x _ _ => scalarOk d && scalarOk x
  | .ld128 d x _ _ => pairOk d && scalarOk x
  | .ldr64 d x _ _ => windowOk d && scalarOk x
  | .ldf64 d x _ _ => scalarOk d && scalarOk x
  | .ldfc64 d x _ _ => scalarOk d && scalarOk x
  | .ldfn64 d x _ _ => pairOk d && scalarOk x
  | .pref x _ _ => scalarOk x
  | .st8 d x _ _ => scalarOk d && scalarOk x
  | .st16 d x _ _ => scalarOk d && scalarOk x
  | .st32 d x _ _ => scalarOk d && scalarOk x
  | .st64 d x _ _ => scalarOk d && scalarOk x
  | .st128 d x _ _ => pairOk d && scalarOk x
  | .str64 d x _ _ => scalarOk d && scalarOk x
  | .stf64 d x _ _ => scalarOk d && scalarOk x
  | .stef64 d x _ _ => scalarOk d && scalarOk x
  | .clre x _ _ => scalarOk x
  | .setf x _ _ => scalarOk x
  | .amoAdd d x _ _ => scalarOk d && scalarOk x
  | .amoFadd d x _ _ => scalarOk d && scalarOk x
  | .amoMinI d x _ _ => scalarOk d && scalarOk x
  | .amoMaxI d x _ _ => scalarOk d && scalarOk x
  | .amoMinN d x _ _ => scalarOk d && scalarOk x
  | .amoMaxN d x _ _ => scalarOk d && scalarOk x
  | .amoAnd d x _ _ => scalarOk d && scalarOk x
  | .amoOr d x _ _ => scalarOk d && scalarOk x
  | .amoXor d x _ _ => scalarOk d && scalarOk x
  | .famoAdd d x _ _ => scalarOk d && scalarOk x
  | .famoFadd d x _ _ => scalarOk d && scalarOk x
  | .famoOr d x _ _ => scalarOk d && scalarOk x
  | .famoSwap d x _ _ => scalarOk d && scalarOk x
  | .famoCas d x _ _ => pairOk d && scalarOk x
  | .fenceAcq s => decide (s.toNat ≤ 4)
  | .fenceRel s => decide (s.toNat ≤ 4)
  | .fenceAr s => decide (s.toNat ≤ 4)
  | .barArr => true
  | .barWait => true
  | .barSync => true
  | .monArm x _ _ => scalarOk x
  | .monWait => true
  | .monClr => true
  | .waitR => true
  | .inv d x _ _ => scalarOk d && scalarOk x
  | .wb d x _ _ => scalarOk d && scalarOk x
  | .start d a n => scalarOk d && scalarOk a && decide (1 ≤ n.toNat) && decide (n.toNat ≤ 12)
  | .join n => decide (1 ≤ n.toNat) && decide (n.toNat ≤ 12)
  | .endStrand => true
  | .halt => true
  | .idget d i => scalarOk d && idSelOk i
  | .acqW a k b => scalarOk a && poolOk k b
  | .acqF d a k b => scalarOk d && scalarOk a && poolOk k b
  | .rel a k b => scalarOk a && poolOk k b
  | .relAll => true
  | .claimqHeld d a k b => scalarOk d && scalarOk a && poolOk k b
  | .claimqRem d a k b => scalarOk d && scalarOk a && poolOk k b
  | .claimqFree d a k b => scalarOk d && scalarOk a && poolOk k b
  | .claimqGran d a _ => scalarOk d && scalarOk a
  | .launch d a => scalarOk d && scalarOk a
  | .ckpt _ => true
  | .ctrAdd a b => scalarOk a && scalarOk b
  | .ctrSet a b => scalarOk a && scalarOk b
  | .ctrRead d a => scalarOk d && scalarOk a
  | .ctrWait a b => scalarOk a && scalarOk b
  | .ctrAddr a b => scalarOk a && scalarOk b
  | .trigPost d a b => scalarOk d && scalarOk a && scalarOk b
  | .trigCancel d a => scalarOk d && scalarOk a
  | .trigQuery d a b => scalarOk d && scalarOk a && scalarOk b
  | .collArm d a => scalarOk d && scalarOk a
  | .collPut d a b => scalarOk d && scalarOk a && scalarOk b
  | .collGetr d a => scalarOk d && scalarOk a
  | .nqSend a b => scalarOk a && scalarOk b
  | .nqRecv d a => scalarOk d && scalarOk a
  | .cpost a b => scalarOk a && scalarOk b
  | .cquery d a => scalarOk d && scalarOk a
  | .ccancel a => scalarOk a
  | .lset a _ => scalarOk a
  | .lget d _ => scalarOk d
  | .mzero a => scalarOk a
  | .mload a b => scalarOk a && scalarOk b
  | .mstore a b => scalarOk a && scalarOk b
  | .mdrain a b => scalarOk a && scalarOk b
  | .mcapr d => scalarOk d
  | .vadd d a b t _ _ y _ => intTy t && vecOk d && vecOk a && operandB y b
  | .vsub d a b t _ _ y _ => intTy t && vecOk d && vecOk a && operandB y b
  | .vmul d a b t _ _ y _ => intTy t && vecOk d && vecOk a && operandB y b
  | .vmulh d a b t _ _ y => intTy t && vecOk d && vecOk a && operandB y b
  | .vmin d a b t _ _ y => intTy t && vecOk d && vecOk a && operandB y b
  | .vmax d a b t _ _ y => intTy t && vecOk d && vecOk a && operandB y b
  | .vand d a b t _ _ y => intTy t && vecOk d && vecOk a && operandB y b
  | .vor d a b t _ _ y => intTy t && vecOk d && vecOk a && operandB y b
  | .vxor d a b t _ _ y => intTy t && vecOk d && vecOk a && operandB y b
  | .vshl d a b t _ _ y => intTy t && vecOk d && vecOk a && operandB y b
  | .vshr d a b t _ _ y => intTy t && vecOk d && vecOk a && operandB y b
  | .vsra d a b t _ _ y => intTy t && vecOk d && vecOk a && operandB y b
  | .vabs d a t _ _ _ => intTy t && vecOk d && vecOk a
  | .vcmp d a b t _ y p => intTy t && decide (d ≠ 0) && vecOk a && operandB y b && decide (p.toNat < 6)
  | .vsel d a b t _ y => decide (t.toNat < 15) && vecOk d && vecOk a && operandB y b
  | .vpopc d a t _ _ => intTy t && vecOk d && vecOk a
  | .vfadd d a b t _ _ y r => fp16or32 t && vecOk d && vecOk a && operandB y b && roundOk r
  | .vfsub d a b t _ _ y r => fp16or32 t && vecOk d && vecOk a && operandB y b && roundOk r
  | .vfmul d a b t _ _ y r => fp16or32 t && vecOk d && vecOk a && operandB y b && roundOk r
  | .vfma d a b t _ _ y r => fp16or32 t && vecOk d && vecOk a && operandB y b && roundOk r
  | .vfms d a b t _ _ y r => fp16or32 t && vecOk d && vecOk a && operandB y b && roundOk r
  | .vfmin d a b t _ _ y => fp16or32 t && vecOk d && vecOk a && operandB y b
  | .vfmax d a b t _ _ y => fp16or32 t && vecOk d && vecOk a && operandB y b
  | .vfabs d a t _ _ => fp16or32 t && vecOk d && vecOk a
  | .vfcmp d a b t _ y _ => fp16or32 t && decide (d ≠ 0) && vecOk a && operandB y b
  | .vcvt d a b t _ q _ r => cvtTy t b q && vecOk d && vecOk a && roundCvtOk r
  | .vrcp d a t _ _ r => fp16or32 t && vecOk d && vecOk a && roundOk r
  | .vrsq d a t _ _ r => fp16or32 t && vecOk d && vecOk a && roundOk r
  | .vexp2 d a t _ _ r => fp16or32 t && vecOk d && vecOk a && roundOk r
  | .vlog2 d a t _ _ r => fp16or32 t && vecOk d && vecOk a && roundOk r
  | .vtanh d a t _ _ r => fp16or32 t && vecOk d && vecOk a && roundOk r
  | .vfsum d a b t _ r => fp16or32 t && anchorOk d && vecOk a && decide (b = 0) && roundOk r
  | .vld d a t _ _ _ => decide (t.toNat < 15) && vecOk d && anchorOk a
  | .vst d a t _ _ => decide (t.toNat < 15) && vecOk d && anchorOk a
  | .vldf d a t _ _ => decide (t.toNat < 15) && vecOk d && anchorOk a
  | .vstf d a t _ => decide (t.toNat < 15) && vecOk d && anchorOk a
  | .vgather d a b t _ _ _ => gatherTy t && vecOk d && anchorOk a && vecOk b
  | .vscatter d a b t _ _ => gatherTy t && vecOk d && anchorOk a && vecOk b
  | .vbcast d a b t _ _ => decide (t.toNat < 15) && vecOk d && vecOk a && anchorOk b
  | .vext d a b t => decide (t.toNat < 15) && anchorOk d && vecOk a && anchorOk b
  | .vins d a b t => decide (t.toNat < 15) && vecOk d && anchorOk a && anchorOk b
  | .vperm d a b t _ _ => (decide (t.toNat < 15) && decide (t.toNat ≠ 7)) && vecOk d && vecOk a && vecOk b
  | .vred d a b t _ o => intTy t && anchorOk d && vecOk a && decide (b = 0) && decide (o.toNat < 6)
  | .vscan d a b t _ _ o => (fp16or32 t || intTy t) && vecOk d && vecOk a && decide (b = 0) && (if intTy t then decide (o.toNat < 3) else roundOk o)
  | .mop d _ b t o => decide (t.toNat < 15) && decide (d ≠ 0) && decide (o.toNat < 5) && (decide (o.toNat ≠ 4) || decide (b = 0))
  | .vsplat d a t _ _ => decide (t.toNat < 15) && vecOk d && anchorOk a
  | .li d _ => scalarOk d
  | .lih d _ => scalarOk d
  | .addl d a _ => scalarOk d && scalarOk a
  | .getc d _ => scalarOk d
  | .setc a _ => scalarOk a
  | .mma d a _ k x tb ta m => scalarOk d && scalarOk a && mmaTy ta tb x k && decide (1 ≤ m.toNat) && decide (m.toNat ≤ 32)
  | .mmaIdx d a _ k x vi tb ta m => scalarOk d && scalarOk a && mmaTy ta tb x k && decide (1 ≤ m.toNat) && decide (m.toNat ≤ 32) && decide (vi ≠ 15)
  | .segset d a _ _ _ => scalarOk d && scalarOk a
  | .ldl d a _ t _ => scalarOk d && scalarOk a && decide (t.toNat < 7)
  | .stl d a _ _ _ => scalarOk d && scalarOk a
  | .trigPostl d a _ => scalarOk d && scalarOk a
  | .illegalInstruction _ => true
  | .abortComplete v e => siteOk v && decide (e < 32)
  | .lateFaultTaken k => strandOk k
  | .rspData _ => true
  | .rspAcknowledge _ => true
  | .rspDeferral _ => true
  | .feDeferralResend _ => true
  | .rspError _ => true
  | .rspMonitorFire _ => true
  | .rspQueueRefusal _ => true
  | .nqResend _ => true
  | .rspHostRetry _ => true
  | .rspStatus _ => true
  | .icacheFill _ => true
  | .reqRead _ => true
  | .reqWrite _ => true
  | .reqWriteSetFull _ => true
  | .reqLdf _ => true
  | .reqLdfc _ => true
  | .reqLdfn _ => true
  | .reqStef _ => true
  | .reqClre _ => true
  | .reqSetf _ => true
  | .reqVldf _ => true
  | .reqFeWithdraw _ => true
  | .reqNibbleWrite _ => true
  | .reqAmo _ => true
  | .reqFamo _ => true
  | .reqMonitorArm _ => true
  | .reqMonitorClear _ => true
  | .reqNqWord _ => true
  | .drainMarkerReturn _ => true
  | .routerMergeAmo v _ _ => siteOk v
  | .mergedAmoAnswer _ => true
  | .l1dFill _ => true
  | .stridePrefetch c slot _ => coreOk c && decide (slot < 16)
  | .scrubPass v _ _ _ _ => siteOk v
  | .memoryPortTranslate v _ => siteOk v
  | .missDoneInstall k => strandOk k
  | .missDoneNotPresent k => strandOk k
  | .missDoneFault k => strandOk k
  | .missDoneIgnored k => strandOk k
  | .fqWake v _ => siteOk v
  | .replayEntryEnd c r => coreOk c && decide (r < 32)
  | .tlbInvAddr v _ => siteOk v
  | .tlbInvAll v => siteOk v
  | .tlbBusyClear v => siteOk v
  | .smMapWrite v ix _ => siteOk v && decide (ix < 100)
  | .smRefq v _ => siteOk v
  | .nsUpdate v _ => siteOk v
  | .cfgNsupdate v _ => siteOk v
  | .bandWrite v r _ => siteOk v && decide (r < 100)
  | .trClear v _ _ => siteOk v
  | .slicePinWrite k => strandOk k
  | .permitWrite c p _ => coreOk c && decide (p < 4)
  | .permitRefill c => coreOk c
  | .watchdogWrite k => strandOk k
  | .watchdogExpiry v => siteOk v
  | .counterWindowStore v n _ => siteOk v && decide (n < 1024)
  | .registerWrite _ => true
  | .reqCounterAdd _ => true
  | .triggerFire v n => siteOk v && decide (n < 512)
  | .triggerOpComplete v _ => siteOk v
  | .triggerLaunchRetry v _ => siteOk v
  | .barrierArrival k => strandOk k
  | .nestClaim k => strandOk k
  | .vectorQueueTake c => coreOk c
  | .vectorResult k => strandOk k
  | .matrixOpBegin c _ => coreOk c
  | .matrixKgroupStep c => coreOk c
  | .matrixOpComplete c _ => coreOk c
  | .drainRowEnd c => coreOk c
  | .copyTake c => coreOk c
  | .copyBeat c _ => coreOk c
  | .copyComplete c _ => coreOk c
  | .copyFaultDelivery c _ => coreOk c
  | .hostCmdLaunch g q => siteOk g && decide (q < 64)
  | .hostCmdReplay g q => siteOk g && decide (q < 64)
  | .hostCmdPreempt g q => siteOk g && decide (q < 64)
  | .hostCmdDrain g q => siteOk g && decide (q < 64)
  | .hostCmdReserved g q => siteOk g && decide (q < 64)
  | .qtailWrite g q _ => siteOk g && decide (q < 64)
  | .qctlWrite g q _ => siteOk g && decide (q < 64)
  | .creadWrite g q _ => siteOk g && decide (q < 64)
  | .completionRecordWrite g q => siteOk g && decide (q < 64)
  | .replayStart g _ => siteOk g
  | .graphNodeStart g _ _ => siteOk g
  | .reqLaunchSubmission _ => true
  | .gangOffer g _ v => siteOk g && siteOk v
  | .placementReservation g _ => siteOk g
  | .preemptRequest v _ _ => siteOk v
  | .psaveDeadlineExpiry v e => siteOk v && decide (e < 32)
  | .gangSaveComplete v e => siteOk v && decide (e < 32)
  | .resumption _ => true
  | .eventHoldToRecord v => siteOk v
  | .eventForward v => siteOk v
  | .eventResend v => siteOk v
  | .reqArmReserve _ => true
  | .reqArmCommit _ => true
  | .reqArmRelease _ => true
  | .reqContribution _ => true
  | .reqResult _ => true
  | .trellisDeliver v _ g => siteOk v && decide (g < 256)
  | .tick rx ry => decide (rx < 10) && decide (ry < 10)
  | .offsetProbe v d => siteOk v && decide (d < 4)
  | .reqProbeTimestamp _ => true
  | .reqProbeEcho _ => true
  | .controlInterval v => siteOk v
  | .levelChangeComplete b => bowerOk b
  | .limiterWindow v _ => siteOk v
  | .thermalTrip v _ => siteOk v
  | .linkCrcError v d _ => siteOk v && decide (d < 4)
  | .linkRetryTimeout v d _ => siteOk v && decide (d < 4)
  | .flitProtocolError v d _ l => siteOk v && decide (d < 4) && l.length == 256
  | .referenceClockLoss v d => siteOk v && decide (d < 4)
  | .gatehouseZeroLengthRead g => siteOk g
  | .hostWriteComplete g => siteOk g
  | .hostAtomicopComplete g _ _ => siteOk g
  | .reqConfigRead _ => true
  | .reqConfigWrite _ => true
  | .cfgWindowAccess g _ => siteOk g
  | .cfgIsolate v => siteOk v
  | .powerGood v => siteOk v
  | .moduleReset v => siteOk v
  | .referenceLock v d => siteOk v && decide (d < 4)
  | .gatehouseReferenceStable v => siteOk v
  | .listenTimeout v => siteOk v
  | .linkInitComplete v d _ => siteOk v && decide (d < 4)
  | .helloResend v d _ => siteOk v && decide (d < 4)
  | .reqHello _ => true
  | .selfTestDone v _ => siteOk v
  | .reqImageRequest _ => true
  | .reqImageBlock _ => true
  | .mapImageTimeout v => siteOk v
  | .atGo v => siteOk v
  | .quoteDone v => siteOk v
  | .idleFlit v d _ _ => siteOk v && decide (d < 4)
  | .reqDrainMarker _ => true
  | .hostReadCompletion g _ _ => siteOk g
  | .hostLinkStateChange g _ => siteOk g
  | .fqHeadWrite v _ => siteOk v
  | .faultQueueNotice _ => true
  | .gatehouseRetryAnswer g _ => siteOk g

end Sys2Proof
end

