-- ==== Sys2Proof/Decode.lean ====
section
/-! DEFINITION. The decoder and the encoder of Kwarax instruction words (R252-R263). The decoder reads the opcode byte,
takes the fields of the format and refuses, by name, a word whose reserved fields are not zero. -/

namespace Sys2Proof

/-- Why a word is not an instruction (R263). -/
inductive DecodeError where
  /-- fewer bytes than the instruction has -/
  | truncated
  /-- the opcode is reserved in the opcode map (R258) -/
  | reservedOpcode
  /-- a field marked 0 is nonzero, or a selector value is reserved (R263) -/
  | reservedField
deriving DecidableEq, Repr

/-- Opcodes 0xE0 to 0xEA have two words (R252). -/
def isLong (w : BitVec 32) : Bool :=
  decide (0xE0 ≤ (w.extractLsb' 24 8).toNat) && decide ((w.extractLsb' 24 8).toNat ≤ 0xEA)

/-- Opcodes 0x00 to 0x0F: the illegal word and integer operations (R258), by the low digit of the opcode. -/
def decodeGroup0 (w : BitVec 32) : Option Instr :=
  match (w.extractLsb' 24 4).toNat with
  | 0x0 => some (.illegalInstruction (w.extractLsb' 0 24))
  | 0x1 => some (.add (w.extractLsb' 16 8) (w.extractLsb' 8 8) (w.extractLsb' 0 8))
  | 0x2 => some (.sub (w.extractLsb' 16 8) (w.extractLsb' 8 8) (w.extractLsb' 0 8))
  | 0x3 => some (.mul (w.extractLsb' 16 8) (w.extractLsb' 8 8) (w.extractLsb' 0 8))
  | 0x4 => some (.mulhI (w.extractLsb' 16 8) (w.extractLsb' 8 8) (w.extractLsb' 0 8))
  | 0x5 => some (.mulhN (w.extractLsb' 16 8) (w.extractLsb' 8 8) (w.extractLsb' 0 8))
  | 0x6 => some (.divI (w.extractLsb' 16 8) (w.extractLsb' 8 8) (w.extractLsb' 0 8))
  | 0x7 => some (.divN (w.extractLsb' 16 8) (w.extractLsb' 8 8) (w.extractLsb' 0 8))
  | 0x8 => some (.remI (w.extractLsb' 16 8) (w.extractLsb' 8 8) (w.extractLsb' 0 8))
  | 0x9 => some (.remN (w.extractLsb' 16 8) (w.extractLsb' 8 8) (w.extractLsb' 0 8))
  | 0xA => some (.and (w.extractLsb' 16 8) (w.extractLsb' 8 8) (w.extractLsb' 0 8))
  | 0xB => some (.or (w.extractLsb' 16 8) (w.extractLsb' 8 8) (w.extractLsb' 0 8))
  | 0xC => some (.xor (w.extractLsb' 16 8) (w.extractLsb' 8 8) (w.extractLsb' 0 8))
  | 0xD => some (.shl (w.extractLsb' 16 8) (w.extractLsb' 8 8) (w.extractLsb' 0 8))
  | 0xE => some (.shr (w.extractLsb' 16 8) (w.extractLsb' 8 8) (w.extractLsb' 0 8))
  | 0xF => some (.sra (w.extractLsb' 16 8) (w.extractLsb' 8 8) (w.extractLsb' 0 8))
  | _ => none

/-- Opcodes 0x10 to 0x1F: integer operations (R258), by the low digit of the opcode. -/
def decodeGroup1 (w : BitVec 32) : Option Instr :=
  match (w.extractLsb' 24 4).toNat with
  | 0x0 => some (.minI (w.extractLsb' 16 8) (w.extractLsb' 8 8) (w.extractLsb' 0 8))
  | 0x1 => some (.maxI (w.extractLsb' 16 8) (w.extractLsb' 8 8) (w.extractLsb' 0 8))
  | 0x2 => some (.minN (w.extractLsb' 16 8) (w.extractLsb' 8 8) (w.extractLsb' 0 8))
  | 0x3 => some (.maxN (w.extractLsb' 16 8) (w.extractLsb' 8 8) (w.extractLsb' 0 8))
  | 0x4 => some (.seq (w.extractLsb' 16 8) (w.extractLsb' 8 8) (w.extractLsb' 0 8))
  | 0x5 => some (.sltI (w.extractLsb' 16 8) (w.extractLsb' 8 8) (w.extractLsb' 0 8))
  | 0x6 => some (.sltN (w.extractLsb' 16 8) (w.extractLsb' 8 8) (w.extractLsb' 0 8))
  | 0x7 => some (.sel (w.extractLsb' 16 8) (w.extractLsb' 8 8) (w.extractLsb' 0 8))
  | 0x8 => some (.clz (w.extractLsb' 16 8) (w.extractLsb' 8 8))
  | 0x9 => some (.popc (w.extractLsb' 16 8) (w.extractLsb' 8 8))
  | 0xA => some (.sext (w.extractLsb' 16 8) (w.extractLsb' 8 8) (w.extractLsb' 0 8))
  | 0xB => some (.zext (w.extractLsb' 16 8) (w.extractLsb' 8 8) (w.extractLsb' 0 8))
  | 0xC => some (.addW (w.extractLsb' 16 8) (w.extractLsb' 8 8) (w.extractLsb' 0 8))
  | 0xD => some (.mulW (w.extractLsb' 16 8) (w.extractLsb' 8 8) (w.extractLsb' 0 8))
  | 0xE => some (.bfx (w.extractLsb' 16 8) (w.extractLsb' 8 8) (w.extractLsb' 0 8))
  | 0xF => some (.bfi (w.extractLsb' 16 8) (w.extractLsb' 8 8) (w.extractLsb' 0 8))
  | _ => none

/-- Opcodes 0x20 to 0x2F: immediate operations (R258), by the low digit of the opcode. -/
def decodeGroup2 (w : BitVec 32) : Option Instr :=
  match (w.extractLsb' 24 4).toNat with
  | 0x0 => some (.addi (w.extractLsb' 16 8) (w.extractLsb' 8 8) (w.extractLsb' 0 8))
  | 0x1 => some (.andi (w.extractLsb' 16 8) (w.extractLsb' 8 8) (w.extractLsb' 0 8))
  | 0x2 => some (.ori (w.extractLsb' 16 8) (w.extractLsb' 8 8) (w.extractLsb' 0 8))
  | 0x3 => some (.xori (w.extractLsb' 16 8) (w.extractLsb' 8 8) (w.extractLsb' 0 8))
  | 0x4 => some (.shli (w.extractLsb' 16 8) (w.extractLsb' 8 8) (w.extractLsb' 0 6))
  | 0x5 => some (.shri (w.extractLsb' 16 8) (w.extractLsb' 8 8) (w.extractLsb' 0 6))
  | 0x6 => some (.srai (w.extractLsb' 16 8) (w.extractLsb' 8 8) (w.extractLsb' 0 6))
  | 0x7 => some (.seqi (w.extractLsb' 16 8) (w.extractLsb' 8 8) (w.extractLsb' 0 8))
  | 0x8 => some (.sltiI (w.extractLsb' 16 8) (w.extractLsb' 8 8) (w.extractLsb' 0 8))
  | 0x9 => some (.sltiN (w.extractLsb' 16 8) (w.extractLsb' 8 8) (w.extractLsb' 0 8))
  | 0xA => some (.miniI (w.extractLsb' 16 8) (w.extractLsb' 8 8) (w.extractLsb' 0 8))
  | 0xB => some (.maxiI (w.extractLsb' 16 8) (w.extractLsb' 8 8) (w.extractLsb' 0 8))
  | _ => none

/-- Opcodes 0x30 to 0x3F: control (R258), by the low digit of the opcode. -/
def decodeGroup3 (w : BitVec 32) : Option Instr :=
  match (w.extractLsb' 24 4).toNat with
  | 0x0 => some (.bz (w.extractLsb' 16 8) (w.extractLsb' 0 16))
  | 0x1 => some (.bnz (w.extractLsb' 16 8) (w.extractLsb' 0 16))
  | 0x2 => some (.blt (w.extractLsb' 16 8) (w.extractLsb' 0 16))
  | 0x3 => some (.bge (w.extractLsb' 16 8) (w.extractLsb' 0 16))
  | 0x4 => some (.j (w.extractLsb' 0 24))
  | 0x5 => some (.call (w.extractLsb' 0 24))
  | 0x6 => some (.jr (w.extractLsb' 8 8))
  | 0x7 => some (.callr (w.extractLsb' 16 8) (w.extractLsb' 8 8))
  | 0x8 => some (.nest (w.extractLsb' 0 2))
  | 0x9 => some (.next (w.extractLsb' 0 16))
  | 0xA => some (.trap (w.extractLsb' 0 8))
  | 0xB => some (.eret)
  | _ => none

/-- Opcodes 0x40 to 0x4F: loads (R258), by the low digit of the opcode. -/
def decodeGroup4 (w : BitVec 32) : Option Instr :=
  match (w.extractLsb' 24 4).toNat with
  | 0x0 => some (.ldI8 (w.extractLsb' 16 8) (w.extractLsb' 8 8) (w.extractLsb' 5 3) (w.extractLsb' 0 5))
  | 0x1 => some (.ldN8 (w.extractLsb' 16 8) (w.extractLsb' 8 8) (w.extractLsb' 5 3) (w.extractLsb' 0 5))
  | 0x2 => some (.ldI16 (w.extractLsb' 16 8) (w.extractLsb' 8 8) (w.extractLsb' 5 3) (w.extractLsb' 0 5))
  | 0x3 => some (.ldN16 (w.extractLsb' 16 8) (w.extractLsb' 8 8) (w.extractLsb' 5 3) (w.extractLsb' 0 5))
  | 0x4 => some (.ldI32 (w.extractLsb' 16 8) (w.extractLsb' 8 8) (w.extractLsb' 5 3) (w.extractLsb' 0 5))
  | 0x5 => some (.ldN32 (w.extractLsb' 16 8) (w.extractLsb' 8 8) (w.extractLsb' 5 3) (w.extractLsb' 0 5))
  | 0x6 => some (.ld64 (w.extractLsb' 16 8) (w.extractLsb' 8 8) (w.extractLsb' 5 3) (w.extractLsb' 0 5))
  | 0x7 => some (.ld128 (w.extractLsb' 16 8) (w.extractLsb' 8 8) (w.extractLsb' 5 3) (w.extractLsb' 0 5))
  | 0x8 => some (.ldr64 (w.extractLsb' 16 8) (w.extractLsb' 8 8) (w.extractLsb' 5 3) (w.extractLsb' 0 5))
  | 0x9 => some (.ldf64 (w.extractLsb' 16 8) (w.extractLsb' 8 8) (w.extractLsb' 5 3) (w.extractLsb' 0 5))
  | 0xA => some (.ldfc64 (w.extractLsb' 16 8) (w.extractLsb' 8 8) (w.extractLsb' 5 3) (w.extractLsb' 0 5))
  | 0xB => some (.ldfn64 (w.extractLsb' 16 8) (w.extractLsb' 8 8) (w.extractLsb' 5 3) (w.extractLsb' 0 5))
  | 0xC => some (.pref (w.extractLsb' 8 8) (w.extractLsb' 5 3) (w.extractLsb' 0 5))
  | _ => none

/-- Opcodes 0x50 to 0x5F: stores (R258), by the low digit of the opcode. -/
def decodeGroup5 (w : BitVec 32) : Option Instr :=
  match (w.extractLsb' 24 4).toNat with
  | 0x0 => some (.st8 (w.extractLsb' 16 8) (w.extractLsb' 8 8) (w.extractLsb' 5 3) (w.extractLsb' 0 5))
  | 0x1 => some (.st16 (w.extractLsb' 16 8) (w.extractLsb' 8 8) (w.extractLsb' 5 3) (w.extractLsb' 0 5))
  | 0x2 => some (.st32 (w.extractLsb' 16 8) (w.extractLsb' 8 8) (w.extractLsb' 5 3) (w.extractLsb' 0 5))
  | 0x3 => some (.st64 (w.extractLsb' 16 8) (w.extractLsb' 8 8) (w.extractLsb' 5 3) (w.extractLsb' 0 5))
  | 0x4 => some (.st128 (w.extractLsb' 16 8) (w.extractLsb' 8 8) (w.extractLsb' 5 3) (w.extractLsb' 0 5))
  | 0x5 => some (.str64 (w.extractLsb' 16 8) (w.extractLsb' 8 8) (w.extractLsb' 5 3) (w.extractLsb' 0 5))
  | 0x6 => some (.stf64 (w.extractLsb' 16 8) (w.extractLsb' 8 8) (w.extractLsb' 5 3) (w.extractLsb' 0 5))
  | 0x7 => some (.stef64 (w.extractLsb' 16 8) (w.extractLsb' 8 8) (w.extractLsb' 5 3) (w.extractLsb' 0 5))
  | 0x8 => some (.clre (w.extractLsb' 8 8) (w.extractLsb' 5 3) (w.extractLsb' 0 5))
  | 0x9 => some (.setf (w.extractLsb' 8 8) (w.extractLsb' 5 3) (w.extractLsb' 0 5))
  | _ => none

/-- Opcodes 0x60 to 0x6F: atomics (R258), by the low digit of the opcode. -/
def decodeGroup6 (w : BitVec 32) : Option Instr :=
  match (w.extractLsb' 24 4).toNat with
  | 0x0 => some (.amoAdd (w.extractLsb' 16 8) (w.extractLsb' 8 8) (w.extractLsb' 5 3) (w.extractLsb' 0 5))
  | 0x1 => some (.amoFadd (w.extractLsb' 16 8) (w.extractLsb' 8 8) (w.extractLsb' 5 3) (w.extractLsb' 0 5))
  | 0x2 => some (.amoMinI (w.extractLsb' 16 8) (w.extractLsb' 8 8) (w.extractLsb' 5 3) (w.extractLsb' 0 5))
  | 0x3 => some (.amoMaxI (w.extractLsb' 16 8) (w.extractLsb' 8 8) (w.extractLsb' 5 3) (w.extractLsb' 0 5))
  | 0x4 => some (.amoMinN (w.extractLsb' 16 8) (w.extractLsb' 8 8) (w.extractLsb' 5 3) (w.extractLsb' 0 5))
  | 0x5 => some (.amoMaxN (w.extractLsb' 16 8) (w.extractLsb' 8 8) (w.extractLsb' 5 3) (w.extractLsb' 0 5))
  | 0x6 => some (.amoAnd (w.extractLsb' 16 8) (w.extractLsb' 8 8) (w.extractLsb' 5 3) (w.extractLsb' 0 5))
  | 0x7 => some (.amoOr (w.extractLsb' 16 8) (w.extractLsb' 8 8) (w.extractLsb' 5 3) (w.extractLsb' 0 5))
  | 0x8 => some (.amoXor (w.extractLsb' 16 8) (w.extractLsb' 8 8) (w.extractLsb' 5 3) (w.extractLsb' 0 5))
  | 0x9 => some (.famoAdd (w.extractLsb' 16 8) (w.extractLsb' 8 8) (w.extractLsb' 5 3) (w.extractLsb' 0 5))
  | 0xA => some (.famoFadd (w.extractLsb' 16 8) (w.extractLsb' 8 8) (w.extractLsb' 5 3) (w.extractLsb' 0 5))
  | 0xB => some (.famoOr (w.extractLsb' 16 8) (w.extractLsb' 8 8) (w.extractLsb' 5 3) (w.extractLsb' 0 5))
  | 0xC => some (.famoSwap (w.extractLsb' 16 8) (w.extractLsb' 8 8) (w.extractLsb' 5 3) (w.extractLsb' 0 5))
  | 0xD => some (.famoCas (w.extractLsb' 16 8) (w.extractLsb' 8 8) (w.extractLsb' 5 3) (w.extractLsb' 0 5))
  | _ => none

/-- Opcodes 0x70 to 0x7F: ordering (R258), by the low digit of the opcode. -/
def decodeGroup7 (w : BitVec 32) : Option Instr :=
  match (w.extractLsb' 24 4).toNat with
  | 0x0 => (match (w.extractLsb' 4 2).toNat with
    | 1 => some (.fenceAcq (w.extractLsb' 0 3))
    | 2 => some (.fenceRel (w.extractLsb' 0 3))
    | 3 => some (.fenceAr (w.extractLsb' 0 3))
    | _ => none)
  | 0x1 => some (.barArr)
  | 0x2 => some (.barWait)
  | 0x3 => some (.barSync)
  | 0x4 => some (.monArm (w.extractLsb' 8 8) (w.extractLsb' 5 3) (w.extractLsb' 0 5))
  | 0x5 => some (.monWait)
  | 0x6 => some (.monClr)
  | 0x7 => some (.waitR)
  | 0x8 => some (.inv (w.extractLsb' 16 8) (w.extractLsb' 8 8) (w.extractLsb' 5 3) (w.extractLsb' 0 5))
  | 0x9 => some (.wb (w.extractLsb' 16 8) (w.extractLsb' 8 8) (w.extractLsb' 5 3) (w.extractLsb' 0 5))
  | _ => none

/-- Opcodes 0x80 to 0x8F: strands and claims (R258), by the low digit of the opcode. -/
def decodeGroup8 (w : BitVec 32) : Option Instr :=
  match (w.extractLsb' 24 4).toNat with
  | 0x0 => some (.start (w.extractLsb' 16 8) (w.extractLsb' 8 8) (w.extractLsb' 0 8))
  | 0x1 => some (.join (w.extractLsb' 0 8))
  | 0x2 => some (.endStrand)
  | 0x3 => some (.halt)
  | 0x4 => some (.idget (w.extractLsb' 16 8) (w.extractLsb' 0 8))
  | 0x5 => some (.acqW (w.extractLsb' 8 8) (w.extractLsb' 6 2) (w.extractLsb' 0 2))
  | 0x6 => some (.acqF (w.extractLsb' 16 8) (w.extractLsb' 8 8) (w.extractLsb' 6 2) (w.extractLsb' 0 2))
  | 0x7 => (if w.extractLsb' 6 2 = 3 then some (.relAll) else some (.rel (w.extractLsb' 8 8) (w.extractLsb' 6 2) (w.extractLsb' 0 2)))
  | 0x8 => (match (w.extractLsb' 4 2).toNat with
    | 0 => some (.claimqHeld (w.extractLsb' 16 8) (w.extractLsb' 8 8) (w.extractLsb' 6 2) (w.extractLsb' 0 2))
    | 1 => some (.claimqRem (w.extractLsb' 16 8) (w.extractLsb' 8 8) (w.extractLsb' 6 2) (w.extractLsb' 0 2))
    | 2 => some (.claimqFree (w.extractLsb' 16 8) (w.extractLsb' 8 8) (w.extractLsb' 6 2) (w.extractLsb' 0 2))
    | _ => some (.claimqGran (w.extractLsb' 16 8) (w.extractLsb' 8 8) (w.extractLsb' 0 2)))
  | 0x9 => some (.launch (w.extractLsb' 16 8) (w.extractLsb' 8 8))
  | 0xA => some (.ckpt (w.extractLsb' 0 16))
  | _ => none

/-- Opcodes 0x90 to 0x9F: counters, triggers, collectives and queues (R258), by the low digit of the opcode. -/
def decodeGroup9 (w : BitVec 32) : Option Instr :=
  match (w.extractLsb' 24 4).toNat with
  | 0x0 => some (.ctrAdd (w.extractLsb' 8 8) (w.extractLsb' 0 8))
  | 0x1 => some (.ctrSet (w.extractLsb' 8 8) (w.extractLsb' 0 8))
  | 0x2 => some (.ctrRead (w.extractLsb' 16 8) (w.extractLsb' 8 8))
  | 0x3 => some (.ctrWait (w.extractLsb' 8 8) (w.extractLsb' 0 8))
  | 0x4 => some (.ctrAddr (w.extractLsb' 8 8) (w.extractLsb' 0 8))
  | 0x5 => some (.trigPost (w.extractLsb' 16 8) (w.extractLsb' 8 8) (w.extractLsb' 0 8))
  | 0x6 => some (.trigCancel (w.extractLsb' 16 8) (w.extractLsb' 8 8))
  | 0x7 => some (.trigQuery (w.extractLsb' 16 8) (w.extractLsb' 8 8) (w.extractLsb' 0 8))
  | 0x8 => some (.collArm (w.extractLsb' 16 8) (w.extractLsb' 8 8))
  | 0x9 => some (.collPut (w.extractLsb' 16 8) (w.extractLsb' 8 8) (w.extractLsb' 0 8))
  | 0xA => some (.collGetr (w.extractLsb' 16 8) (w.extractLsb' 8 8))
  | 0xB => some (.nqSend (w.extractLsb' 8 8) (w.extractLsb' 0 8))
  | 0xC => some (.nqRecv (w.extractLsb' 16 8) (w.extractLsb' 8 8))
  | _ => none

/-- Opcodes 0xA0 to 0xAF: engines (R258), by the low digit of the opcode. -/
def decodeGroupA (w : BitVec 32) : Option Instr :=
  match (w.extractLsb' 24 4).toNat with
  | 0x0 => some (.cpost (w.extractLsb' 8 8) (w.extractLsb' 0 8))
  | 0x1 => some (.cquery (w.extractLsb' 16 8) (w.extractLsb' 8 8))
  | 0x2 => some (.ccancel (w.extractLsb' 8 8))
  | 0x3 => some (.lset (w.extractLsb' 8 8) (w.extractLsb' 0 3))
  | 0x4 => some (.lget (w.extractLsb' 16 8) (w.extractLsb' 0 3))
  | 0x5 => some (.mzero (w.extractLsb' 8 8))
  | 0x6 => some (.mload (w.extractLsb' 8 8) (w.extractLsb' 0 8))
  | 0x7 => some (.mstore (w.extractLsb' 8 8) (w.extractLsb' 0 8))
  | 0x8 => some (.mdrain (w.extractLsb' 8 8) (w.extractLsb' 0 8))
  | 0x9 => some (.mcapr (w.extractLsb' 16 8))
  | _ => none

/-- Opcodes 0xB0 to 0xBF: vector integer (R258), by the low digit of the opcode. -/
def decodeGroupB (w : BitVec 32) : Option Instr :=
  match (w.extractLsb' 24 4).toNat with
  | 0x0 => some (.vadd (w.extractLsb' 20 4) (w.extractLsb' 16 4) (w.extractLsb' 12 4) (w.extractLsb' 8 4) (w.extractLsb' 6 2) (w.extractLsb' 5 1) (w.extractLsb' 4 1) (w.extractLsb' 3 1))
  | 0x1 => some (.vsub (w.extractLsb' 20 4) (w.extractLsb' 16 4) (w.extractLsb' 12 4) (w.extractLsb' 8 4) (w.extractLsb' 6 2) (w.extractLsb' 5 1) (w.extractLsb' 4 1) (w.extractLsb' 3 1))
  | 0x2 => some (.vmul (w.extractLsb' 20 4) (w.extractLsb' 16 4) (w.extractLsb' 12 4) (w.extractLsb' 8 4) (w.extractLsb' 6 2) (w.extractLsb' 5 1) (w.extractLsb' 4 1) (w.extractLsb' 3 1))
  | 0x3 => some (.vmulh (w.extractLsb' 20 4) (w.extractLsb' 16 4) (w.extractLsb' 12 4) (w.extractLsb' 8 4) (w.extractLsb' 6 2) (w.extractLsb' 5 1) (w.extractLsb' 4 1))
  | 0x4 => some (.vmin (w.extractLsb' 20 4) (w.extractLsb' 16 4) (w.extractLsb' 12 4) (w.extractLsb' 8 4) (w.extractLsb' 6 2) (w.extractLsb' 5 1) (w.extractLsb' 4 1))
  | 0x5 => some (.vmax (w.extractLsb' 20 4) (w.extractLsb' 16 4) (w.extractLsb' 12 4) (w.extractLsb' 8 4) (w.extractLsb' 6 2) (w.extractLsb' 5 1) (w.extractLsb' 4 1))
  | 0x6 => some (.vand (w.extractLsb' 20 4) (w.extractLsb' 16 4) (w.extractLsb' 12 4) (w.extractLsb' 8 4) (w.extractLsb' 6 2) (w.extractLsb' 5 1) (w.extractLsb' 4 1))
  | 0x7 => some (.vor (w.extractLsb' 20 4) (w.extractLsb' 16 4) (w.extractLsb' 12 4) (w.extractLsb' 8 4) (w.extractLsb' 6 2) (w.extractLsb' 5 1) (w.extractLsb' 4 1))
  | 0x8 => some (.vxor (w.extractLsb' 20 4) (w.extractLsb' 16 4) (w.extractLsb' 12 4) (w.extractLsb' 8 4) (w.extractLsb' 6 2) (w.extractLsb' 5 1) (w.extractLsb' 4 1))
  | 0x9 => some (.vshl (w.extractLsb' 20 4) (w.extractLsb' 16 4) (w.extractLsb' 12 4) (w.extractLsb' 8 4) (w.extractLsb' 6 2) (w.extractLsb' 5 1) (w.extractLsb' 4 1))
  | 0xA => some (.vshr (w.extractLsb' 20 4) (w.extractLsb' 16 4) (w.extractLsb' 12 4) (w.extractLsb' 8 4) (w.extractLsb' 6 2) (w.extractLsb' 5 1) (w.extractLsb' 4 1))
  | 0xB => some (.vsra (w.extractLsb' 20 4) (w.extractLsb' 16 4) (w.extractLsb' 12 4) (w.extractLsb' 8 4) (w.extractLsb' 6 2) (w.extractLsb' 5 1) (w.extractLsb' 4 1))
  | 0xC => some (.vabs (w.extractLsb' 20 4) (w.extractLsb' 16 4) (w.extractLsb' 8 4) (w.extractLsb' 6 2) (w.extractLsb' 5 1) (w.extractLsb' 3 1))
  | 0xD => some (.vcmp (w.extractLsb' 20 2) (w.extractLsb' 16 4) (w.extractLsb' 12 4) (w.extractLsb' 8 4) (w.extractLsb' 6 2) (w.extractLsb' 4 1) (w.extractLsb' 0 3))
  | 0xE => some (.vsel (w.extractLsb' 20 4) (w.extractLsb' 16 4) (w.extractLsb' 12 4) (w.extractLsb' 8 4) (w.extractLsb' 6 2) (w.extractLsb' 4 1))
  | 0xF => some (.vpopc (w.extractLsb' 20 4) (w.extractLsb' 16 4) (w.extractLsb' 8 4) (w.extractLsb' 6 2) (w.extractLsb' 5 1))
  | _ => none

/-- Opcodes 0xC0 to 0xCF: vector floating point (R258), by the low digit of the opcode. -/
def decodeGroupC (w : BitVec 32) : Option Instr :=
  match (w.extractLsb' 24 4).toNat with
  | 0x0 => some (.vfadd (w.extractLsb' 20 4) (w.extractLsb' 16 4) (w.extractLsb' 12 4) (w.extractLsb' 8 4) (w.extractLsb' 6 2) (w.extractLsb' 5 1) (w.extractLsb' 4 1) (w.extractLsb' 0 3))
  | 0x1 => some (.vfsub (w.extractLsb' 20 4) (w.extractLsb' 16 4) (w.extractLsb' 12 4) (w.extractLsb' 8 4) (w.extractLsb' 6 2) (w.extractLsb' 5 1) (w.extractLsb' 4 1) (w.extractLsb' 0 3))
  | 0x2 => some (.vfmul (w.extractLsb' 20 4) (w.extractLsb' 16 4) (w.extractLsb' 12 4) (w.extractLsb' 8 4) (w.extractLsb' 6 2) (w.extractLsb' 5 1) (w.extractLsb' 4 1) (w.extractLsb' 0 3))
  | 0x3 => some (.vfma (w.extractLsb' 20 4) (w.extractLsb' 16 4) (w.extractLsb' 12 4) (w.extractLsb' 8 4) (w.extractLsb' 6 2) (w.extractLsb' 5 1) (w.extractLsb' 4 1) (w.extractLsb' 0 3))
  | 0x4 => some (.vfms (w.extractLsb' 20 4) (w.extractLsb' 16 4) (w.extractLsb' 12 4) (w.extractLsb' 8 4) (w.extractLsb' 6 2) (w.extractLsb' 5 1) (w.extractLsb' 4 1) (w.extractLsb' 0 3))
  | 0x5 => some (.vfmin (w.extractLsb' 20 4) (w.extractLsb' 16 4) (w.extractLsb' 12 4) (w.extractLsb' 8 4) (w.extractLsb' 6 2) (w.extractLsb' 5 1) (w.extractLsb' 4 1))
  | 0x6 => some (.vfmax (w.extractLsb' 20 4) (w.extractLsb' 16 4) (w.extractLsb' 12 4) (w.extractLsb' 8 4) (w.extractLsb' 6 2) (w.extractLsb' 5 1) (w.extractLsb' 4 1))
  | 0x7 => some (.vfabs (w.extractLsb' 20 4) (w.extractLsb' 16 4) (w.extractLsb' 8 4) (w.extractLsb' 6 2) (w.extractLsb' 5 1))
  | 0x8 => some (.vfcmp (w.extractLsb' 20 2) (w.extractLsb' 16 4) (w.extractLsb' 12 4) (w.extractLsb' 8 4) (w.extractLsb' 6 2) (w.extractLsb' 4 1) (w.extractLsb' 0 3))
  | 0x9 => some (.vcvt (w.extractLsb' 20 4) (w.extractLsb' 16 4) (w.extractLsb' 12 4) (w.extractLsb' 8 4) (w.extractLsb' 6 2) (w.extractLsb' 4 2) (w.extractLsb' 3 1) (w.extractLsb' 0 3))
  | 0xA => some (.vrcp (w.extractLsb' 20 4) (w.extractLsb' 16 4) (w.extractLsb' 8 4) (w.extractLsb' 6 2) (w.extractLsb' 5 1) (w.extractLsb' 0 3))
  | 0xB => some (.vrsq (w.extractLsb' 20 4) (w.extractLsb' 16 4) (w.extractLsb' 8 4) (w.extractLsb' 6 2) (w.extractLsb' 5 1) (w.extractLsb' 0 3))
  | 0xC => some (.vexp2 (w.extractLsb' 20 4) (w.extractLsb' 16 4) (w.extractLsb' 8 4) (w.extractLsb' 6 2) (w.extractLsb' 5 1) (w.extractLsb' 0 3))
  | 0xD => some (.vlog2 (w.extractLsb' 20 4) (w.extractLsb' 16 4) (w.extractLsb' 8 4) (w.extractLsb' 6 2) (w.extractLsb' 5 1) (w.extractLsb' 0 3))
  | 0xE => some (.vtanh (w.extractLsb' 20 4) (w.extractLsb' 16 4) (w.extractLsb' 8 4) (w.extractLsb' 6 2) (w.extractLsb' 5 1) (w.extractLsb' 0 3))
  | 0xF => some (.vfsum (w.extractLsb' 20 4) (w.extractLsb' 16 4) (w.extractLsb' 12 4) (w.extractLsb' 8 4) (w.extractLsb' 6 2) (w.extractLsb' 0 3))
  | _ => none

/-- Opcodes 0xD0 to 0xDF: vector memory, movement and masks (R258), by the low digit of the opcode. -/
def decodeGroupD (w : BitVec 32) : Option Instr :=
  match (w.extractLsb' 24 4).toNat with
  | 0x0 => some (.vld (w.extractLsb' 20 4) (w.extractLsb' 16 4) (w.extractLsb' 8 4) (w.extractLsb' 6 2) (w.extractLsb' 5 1) (w.extractLsb' 0 3))
  | 0x1 => some (.vst (w.extractLsb' 20 4) (w.extractLsb' 16 4) (w.extractLsb' 8 4) (w.extractLsb' 6 2) (w.extractLsb' 0 3))
  | 0x2 => some (.vldf (w.extractLsb' 20 4) (w.extractLsb' 16 4) (w.extractLsb' 8 4) (w.extractLsb' 3 1) (w.extractLsb' 0 3))
  | 0x3 => some (.vstf (w.extractLsb' 20 4) (w.extractLsb' 16 4) (w.extractLsb' 8 4) (w.extractLsb' 0 3))
  | 0x4 => some (.vgather (w.extractLsb' 20 4) (w.extractLsb' 16 4) (w.extractLsb' 12 4) (w.extractLsb' 8 4) (w.extractLsb' 6 2) (w.extractLsb' 5 1) (w.extractLsb' 0 3))
  | 0x5 => some (.vscatter (w.extractLsb' 20 4) (w.extractLsb' 16 4) (w.extractLsb' 12 4) (w.extractLsb' 8 4) (w.extractLsb' 6 2) (w.extractLsb' 0 3))
  | 0x6 => some (.vbcast (w.extractLsb' 20 4) (w.extractLsb' 16 4) (w.extractLsb' 12 4) (w.extractLsb' 8 4) (w.extractLsb' 6 2) (w.extractLsb' 5 1))
  | 0x7 => some (.vext (w.extractLsb' 20 4) (w.extractLsb' 16 4) (w.extractLsb' 12 4) (w.extractLsb' 8 4))
  | 0x8 => some (.vins (w.extractLsb' 20 4) (w.extractLsb' 16 4) (w.extractLsb' 12 4) (w.extractLsb' 8 4))
  | 0x9 => some (.vperm (w.extractLsb' 20 4) (w.extractLsb' 16 4) (w.extractLsb' 12 4) (w.extractLsb' 8 4) (w.extractLsb' 6 2) (w.extractLsb' 5 1))
  | 0xA => some (.vred (w.extractLsb' 20 4) (w.extractLsb' 16 4) (w.extractLsb' 12 4) (w.extractLsb' 8 4) (w.extractLsb' 6 2) (w.extractLsb' 0 3))
  | 0xB => some (.vscan (w.extractLsb' 20 4) (w.extractLsb' 16 4) (w.extractLsb' 12 4) (w.extractLsb' 8 4) (w.extractLsb' 6 2) (w.extractLsb' 5 1) (w.extractLsb' 0 3))
  | 0xC => some (.mop (w.extractLsb' 20 2) (w.extractLsb' 16 2) (w.extractLsb' 12 2) (w.extractLsb' 8 4) (w.extractLsb' 0 3))
  | 0xD => some (.vsplat (w.extractLsb' 20 4) (w.extractLsb' 16 4) (w.extractLsb' 8 4) (w.extractLsb' 6 2) (w.extractLsb' 5 1))
  | _ => none

/-- Opcodes 0xE0 to 0xEF: long forms (R258), by the low digit of the opcode. -/
def decodeGroupE (w w2 : BitVec 32) : Option Instr :=
  match (w.extractLsb' 24 4).toNat with
  | 0x0 => some (.li (w.extractLsb' 16 8) (w2.extractLsb' 0 32))
  | 0x1 => some (.lih (w.extractLsb' 16 8) (w2.extractLsb' 0 32))
  | 0x2 => some (.addl (w.extractLsb' 16 8) (w.extractLsb' 8 8) (w2.extractLsb' 0 32))
  | 0x3 => some (.getc (w.extractLsb' 16 8) (w2.extractLsb' 0 16))
  | 0x4 => some (.setc (w.extractLsb' 8 8) (w2.extractLsb' 0 16))
  | 0x5 => some (.mma (w.extractLsb' 16 8) (w.extractLsb' 8 8) (w.extractLsb' 6 2) (w.extractLsb' 3 3) (w.extractLsb' 2 1) (w2.extractLsb' 12 4) (w2.extractLsb' 8 4) (w2.extractLsb' 0 6))
  | 0x6 => some (.mmaIdx (w.extractLsb' 16 8) (w.extractLsb' 8 8) (w.extractLsb' 6 2) (w.extractLsb' 3 3) (w.extractLsb' 2 1) (w2.extractLsb' 28 4) (w2.extractLsb' 12 4) (w2.extractLsb' 8 4) (w2.extractLsb' 0 6))
  | 0x7 => some (.segset (w.extractLsb' 16 8) (w.extractLsb' 8 8) (w.extractLsb' 5 3) (w.extractLsb' 2 3) (w2.extractLsb' 0 6))
  | 0x8 => some (.ldl (w.extractLsb' 16 8) (w.extractLsb' 8 8) (w.extractLsb' 5 3) (w.extractLsb' 0 3) (w2.extractLsb' 0 32))
  | 0x9 => some (.stl (w.extractLsb' 16 8) (w.extractLsb' 8 8) (w.extractLsb' 5 3) (w.extractLsb' 0 2) (w2.extractLsb' 0 32))
  | 0xA => some (.trigPostl (w.extractLsb' 16 8) (w.extractLsb' 8 8) (w2.extractLsb' 0 32))
  | _ => none

/-- The fields of an instruction word and, for a long form, of its second word (R253, R258, R259, R262). -/
def decodeFields (w w2 : BitVec 32) : Option Instr :=
  match (w.extractLsb' 28 4).toNat with
  | 0x0 => decodeGroup0 w
  | 0x1 => decodeGroup1 w
  | 0x2 => decodeGroup2 w
  | 0x3 => decodeGroup3 w
  | 0x4 => decodeGroup4 w
  | 0x5 => decodeGroup5 w
  | 0x6 => decodeGroup6 w
  | 0x7 => decodeGroup7 w
  | 0x8 => decodeGroup8 w
  | 0x9 => decodeGroup9 w
  | 0xA => decodeGroupA w
  | 0xB => decodeGroupB w
  | 0xC => decodeGroupC w
  | 0xD => decodeGroupD w
  | 0xE => decodeGroupE w w2
  | _ => none

/-- The words of an instruction, written from the encoding tables (R253, R259, R262); an event has none. -/
def encode : Instr → List (BitVec 32)
  | .add d a b => [0x1#8 ++ d ++ a ++ b]
  | .sub d a b => [0x2#8 ++ d ++ a ++ b]
  | .mul d a b => [0x3#8 ++ d ++ a ++ b]
  | .mulhI d a b => [0x4#8 ++ d ++ a ++ b]
  | .mulhN d a b => [0x5#8 ++ d ++ a ++ b]
  | .divI d a b => [0x6#8 ++ d ++ a ++ b]
  | .divN d a b => [0x7#8 ++ d ++ a ++ b]
  | .remI d a b => [0x8#8 ++ d ++ a ++ b]
  | .remN d a b => [0x9#8 ++ d ++ a ++ b]
  | .and d a b => [0xA#8 ++ d ++ a ++ b]
  | .or d a b => [0xB#8 ++ d ++ a ++ b]
  | .xor d a b => [0xC#8 ++ d ++ a ++ b]
  | .shl d a b => [0xD#8 ++ d ++ a ++ b]
  | .shr d a b => [0xE#8 ++ d ++ a ++ b]
  | .sra d a b => [0xF#8 ++ d ++ a ++ b]
  | .minI d a b => [0x10#8 ++ d ++ a ++ b]
  | .maxI d a b => [0x11#8 ++ d ++ a ++ b]
  | .minN d a b => [0x12#8 ++ d ++ a ++ b]
  | .maxN d a b => [0x13#8 ++ d ++ a ++ b]
  | .seq d a b => [0x14#8 ++ d ++ a ++ b]
  | .sltI d a b => [0x15#8 ++ d ++ a ++ b]
  | .sltN d a b => [0x16#8 ++ d ++ a ++ b]
  | .sel d a b => [0x17#8 ++ d ++ a ++ b]
  | .clz d a => [0x18#8 ++ d ++ a ++ 0x0#8]
  | .popc d a => [0x19#8 ++ d ++ a ++ 0x0#8]
  | .sext d a b => [0x1A#8 ++ d ++ a ++ b]
  | .zext d a b => [0x1B#8 ++ d ++ a ++ b]
  | .addW d a b => [0x1C#8 ++ d ++ a ++ b]
  | .mulW d a b => [0x1D#8 ++ d ++ a ++ b]
  | .bfx d a b => [0x1E#8 ++ d ++ a ++ b]
  | .bfi d a b => [0x1F#8 ++ d ++ a ++ b]
  | .addi d a i => [0x20#8 ++ d ++ a ++ i]
  | .andi d a i => [0x21#8 ++ d ++ a ++ i]
  | .ori d a i => [0x22#8 ++ d ++ a ++ i]
  | .xori d a i => [0x23#8 ++ d ++ a ++ i]
  | .shli d a i => [0x24#8 ++ d ++ a ++ 0x0#2 ++ i]
  | .shri d a i => [0x25#8 ++ d ++ a ++ 0x0#2 ++ i]
  | .srai d a i => [0x26#8 ++ d ++ a ++ 0x0#2 ++ i]
  | .seqi d a i => [0x27#8 ++ d ++ a ++ i]
  | .sltiI d a i => [0x28#8 ++ d ++ a ++ i]
  | .sltiN d a i => [0x29#8 ++ d ++ a ++ i]
  | .miniI d a i => [0x2A#8 ++ d ++ a ++ i]
  | .maxiI d a i => [0x2B#8 ++ d ++ a ++ i]
  | .bz a i => [0x30#8 ++ a ++ i]
  | .bnz a i => [0x31#8 ++ a ++ i]
  | .blt a i => [0x32#8 ++ a ++ i]
  | .bge a i => [0x33#8 ++ a ++ i]
  | .j i => [0x34#8 ++ i]
  | .call i => [0x35#8 ++ i]
  | .jr a => [0x36#8 ++ 0x0#8 ++ a ++ 0x0#8]
  | .callr d a => [0x37#8 ++ d ++ a ++ 0x0#8]
  | .nest i => [0x38#8 ++ 0x0#22 ++ i]
  | .next i => [0x39#8 ++ 0x0#8 ++ i]
  | .trap i => [0x3A#8 ++ 0x0#16 ++ i]
  | .eret => [0x3B#8 ++ 0x0#24]
  | .ldI8 d x s o => [0x40#8 ++ d ++ x ++ s ++ o]
  | .ldN8 d x s o => [0x41#8 ++ d ++ x ++ s ++ o]
  | .ldI16 d x s o => [0x42#8 ++ d ++ x ++ s ++ o]
  | .ldN16 d x s o => [0x43#8 ++ d ++ x ++ s ++ o]
  | .ldI32 d x s o => [0x44#8 ++ d ++ x ++ s ++ o]
  | .ldN32 d x s o => [0x45#8 ++ d ++ x ++ s ++ o]
  | .ld64 d x s o => [0x46#8 ++ d ++ x ++ s ++ o]
  | .ld128 d x s o => [0x47#8 ++ d ++ x ++ s ++ o]
  | .ldr64 d x s o => [0x48#8 ++ d ++ x ++ s ++ o]
  | .ldf64 d x s o => [0x49#8 ++ d ++ x ++ s ++ o]
  | .ldfc64 d x s o => [0x4A#8 ++ d ++ x ++ s ++ o]
  | .ldfn64 d x s o => [0x4B#8 ++ d ++ x ++ s ++ o]
  | .pref x s o => [0x4C#8 ++ 0x0#8 ++ x ++ s ++ o]
  | .st8 d x s o => [0x50#8 ++ d ++ x ++ s ++ o]
  | .st16 d x s o => [0x51#8 ++ d ++ x ++ s ++ o]
  | .st32 d x s o => [0x52#8 ++ d ++ x ++ s ++ o]
  | .st64 d x s o => [0x53#8 ++ d ++ x ++ s ++ o]
  | .st128 d x s o => [0x54#8 ++ d ++ x ++ s ++ o]
  | .str64 d x s o => [0x55#8 ++ d ++ x ++ s ++ o]
  | .stf64 d x s o => [0x56#8 ++ d ++ x ++ s ++ o]
  | .stef64 d x s o => [0x57#8 ++ d ++ x ++ s ++ o]
  | .clre x s o => [0x58#8 ++ 0x0#8 ++ x ++ s ++ o]
  | .setf x s o => [0x59#8 ++ 0x0#8 ++ x ++ s ++ o]
  | .amoAdd d x s o => [0x60#8 ++ d ++ x ++ s ++ o]
  | .amoFadd d x s o => [0x61#8 ++ d ++ x ++ s ++ o]
  | .amoMinI d x s o => [0x62#8 ++ d ++ x ++ s ++ o]
  | .amoMaxI d x s o => [0x63#8 ++ d ++ x ++ s ++ o]
  | .amoMinN d x s o => [0x64#8 ++ d ++ x ++ s ++ o]
  | .amoMaxN d x s o => [0x65#8 ++ d ++ x ++ s ++ o]
  | .amoAnd d x s o => [0x66#8 ++ d ++ x ++ s ++ o]
  | .amoOr d x s o => [0x67#8 ++ d ++ x ++ s ++ o]
  | .amoXor d x s o => [0x68#8 ++ d ++ x ++ s ++ o]
  | .famoAdd d x s o => [0x69#8 ++ d ++ x ++ s ++ o]
  | .famoFadd d x s o => [0x6A#8 ++ d ++ x ++ s ++ o]
  | .famoOr d x s o => [0x6B#8 ++ d ++ x ++ s ++ o]
  | .famoSwap d x s o => [0x6C#8 ++ d ++ x ++ s ++ o]
  | .famoCas d x s o => [0x6D#8 ++ d ++ x ++ s ++ o]
  | .fenceAcq s => [0x70#8 ++ 0x2#21 ++ s]
  | .fenceRel s => [0x70#8 ++ 0x4#21 ++ s]
  | .fenceAr s => [0x70#8 ++ 0x6#21 ++ s]
  | .barArr => [0x71#8 ++ 0x0#24]
  | .barWait => [0x72#8 ++ 0x0#24]
  | .barSync => [0x73#8 ++ 0x0#24]
  | .monArm x s o => [0x74#8 ++ 0x0#8 ++ x ++ s ++ o]
  | .monWait => [0x75#8 ++ 0x0#24]
  | .monClr => [0x76#8 ++ 0x0#24]
  | .waitR => [0x77#8 ++ 0x0#24]
  | .inv d x s o => [0x78#8 ++ d ++ x ++ s ++ o]
  | .wb d x s o => [0x79#8 ++ d ++ x ++ s ++ o]
  | .start d a n => [0x80#8 ++ d ++ a ++ n]
  | .join n => [0x81#8 ++ 0x0#16 ++ n]
  | .endStrand => [0x82#8 ++ 0x0#24]
  | .halt => [0x83#8 ++ 0x0#24]
  | .idget d i => [0x84#8 ++ d ++ 0x0#8 ++ i]
  | .acqW a k b => [0x85#8 ++ 0x0#8 ++ a ++ k ++ 0x0#4 ++ b]
  | .acqF d a k b => [0x86#8 ++ d ++ a ++ k ++ 0x0#4 ++ b]
  | .rel a k b => [0x87#8 ++ 0x0#8 ++ a ++ k ++ 0x0#4 ++ b]
  | .relAll => [0x87#8 ++ 0xC0#24]
  | .claimqHeld d a k b => [0x88#8 ++ d ++ a ++ k ++ 0x0#4 ++ b]
  | .claimqRem d a k b => [0x88#8 ++ d ++ a ++ k ++ 0x4#4 ++ b]
  | .claimqFree d a k b => [0x88#8 ++ d ++ a ++ k ++ 0x8#4 ++ b]
  | .claimqGran d a b => [0x88#8 ++ d ++ a ++ 0x1C#6 ++ b]
  | .launch d a => [0x89#8 ++ d ++ a ++ 0x0#8]
  | .ckpt e => [0x8A#8 ++ 0x0#8 ++ e]
  | .ctrAdd a b => [0x90#8 ++ 0x0#8 ++ a ++ b]
  | .ctrSet a b => [0x91#8 ++ 0x0#8 ++ a ++ b]
  | .ctrRead d a => [0x92#8 ++ d ++ a ++ 0x0#8]
  | .ctrWait a b => [0x93#8 ++ 0x0#8 ++ a ++ b]
  | .ctrAddr a b => [0x94#8 ++ 0x0#8 ++ a ++ b]
  | .trigPost d a b => [0x95#8 ++ d ++ a ++ b]
  | .trigCancel d a => [0x96#8 ++ d ++ a ++ 0x0#8]
  | .trigQuery d a b => [0x97#8 ++ d ++ a ++ b]
  | .collArm d a => [0x98#8 ++ d ++ a ++ 0x0#8]
  | .collPut d a b => [0x99#8 ++ d ++ a ++ b]
  | .collGetr d a => [0x9A#8 ++ d ++ a ++ 0x0#8]
  | .nqSend a b => [0x9B#8 ++ 0x0#8 ++ a ++ b]
  | .nqRecv d a => [0x9C#8 ++ d ++ a ++ 0x0#8]
  | .cpost a b => [0xA0#8 ++ 0x0#8 ++ a ++ b]
  | .cquery d a => [0xA1#8 ++ d ++ a ++ 0x0#8]
  | .ccancel a => [0xA2#8 ++ 0x0#8 ++ a ++ 0x0#8]
  | .lset a n => [0xA3#8 ++ 0x0#8 ++ a ++ 0x0#5 ++ n]
  | .lget d n => [0xA4#8 ++ d ++ 0x0#13 ++ n]
  | .mzero a => [0xA5#8 ++ 0x0#8 ++ a ++ 0x0#8]
  | .mload a b => [0xA6#8 ++ 0x0#8 ++ a ++ b]
  | .mstore a b => [0xA7#8 ++ 0x0#8 ++ a ++ b]
  | .mdrain a b => [0xA8#8 ++ 0x0#8 ++ a ++ b]
  | .mcapr d => [0xA9#8 ++ d ++ 0x0#16]
  | .vadd d a b t k z y s => [0xB0#8 ++ d ++ a ++ b ++ t ++ k ++ z ++ y ++ s ++ 0x0#3]
  | .vsub d a b t k z y s => [0xB1#8 ++ d ++ a ++ b ++ t ++ k ++ z ++ y ++ s ++ 0x0#3]
  | .vmul d a b t k z y s => [0xB2#8 ++ d ++ a ++ b ++ t ++ k ++ z ++ y ++ s ++ 0x0#3]
  | .vmulh d a b t k z y => [0xB3#8 ++ d ++ a ++ b ++ t ++ k ++ z ++ y ++ 0x0#4]
  | .vmin d a b t k z y => [0xB4#8 ++ d ++ a ++ b ++ t ++ k ++ z ++ y ++ 0x0#4]
  | .vmax d a b t k z y => [0xB5#8 ++ d ++ a ++ b ++ t ++ k ++ z ++ y ++ 0x0#4]
  | .vand d a b t k z y => [0xB6#8 ++ d ++ a ++ b ++ t ++ k ++ z ++ y ++ 0x0#4]
  | .vor d a b t k z y => [0xB7#8 ++ d ++ a ++ b ++ t ++ k ++ z ++ y ++ 0x0#4]
  | .vxor d a b t k z y => [0xB8#8 ++ d ++ a ++ b ++ t ++ k ++ z ++ y ++ 0x0#4]
  | .vshl d a b t k z y => [0xB9#8 ++ d ++ a ++ b ++ t ++ k ++ z ++ y ++ 0x0#4]
  | .vshr d a b t k z y => [0xBA#8 ++ d ++ a ++ b ++ t ++ k ++ z ++ y ++ 0x0#4]
  | .vsra d a b t k z y => [0xBB#8 ++ d ++ a ++ b ++ t ++ k ++ z ++ y ++ 0x0#4]
  | .vabs d a t k z s => [0xBC#8 ++ d ++ a ++ 0x0#4 ++ t ++ k ++ z ++ 0x0#1 ++ s ++ 0x0#3]
  | .vcmp d a b t k y p => [0xBD#8 ++ 0x0#2 ++ d ++ a ++ b ++ t ++ k ++ 0x0#1 ++ y ++ 0x0#1 ++ p]
  | .vsel d a b t k y => [0xBE#8 ++ d ++ a ++ b ++ t ++ k ++ 0x0#1 ++ y ++ 0x0#4]
  | .vpopc d a t k z => [0xBF#8 ++ d ++ a ++ 0x0#4 ++ t ++ k ++ z ++ 0x0#5]
  | .vfadd d a b t k z y r => [0xC0#8 ++ d ++ a ++ b ++ t ++ k ++ z ++ y ++ 0x0#1 ++ r]
  | .vfsub d a b t k z y r => [0xC1#8 ++ d ++ a ++ b ++ t ++ k ++ z ++ y ++ 0x0#1 ++ r]
  | .vfmul d a b t k z y r => [0xC2#8 ++ d ++ a ++ b ++ t ++ k ++ z ++ y ++ 0x0#1 ++ r]
  | .vfma d a b t k z y r => [0xC3#8 ++ d ++ a ++ b ++ t ++ k ++ z ++ y ++ 0x0#1 ++ r]
  | .vfms d a b t k z y r => [0xC4#8 ++ d ++ a ++ b ++ t ++ k ++ z ++ y ++ 0x0#1 ++ r]
  | .vfmin d a b t k z y => [0xC5#8 ++ d ++ a ++ b ++ t ++ k ++ z ++ y ++ 0x0#4]
  | .vfmax d a b t k z y => [0xC6#8 ++ d ++ a ++ b ++ t ++ k ++ z ++ y ++ 0x0#4]
  | .vfabs d a t k z => [0xC7#8 ++ d ++ a ++ 0x0#4 ++ t ++ k ++ z ++ 0x0#5]
  | .vfcmp d a b t k y p => [0xC8#8 ++ 0x0#2 ++ d ++ a ++ b ++ t ++ k ++ 0x0#1 ++ y ++ 0x0#1 ++ p]
  | .vcvt d a b t k q s r => [0xC9#8 ++ d ++ a ++ b ++ t ++ k ++ q ++ s ++ r]
  | .vrcp d a t k z r => [0xCA#8 ++ d ++ a ++ 0x0#4 ++ t ++ k ++ z ++ 0x0#2 ++ r]
  | .vrsq d a t k z r => [0xCB#8 ++ d ++ a ++ 0x0#4 ++ t ++ k ++ z ++ 0x0#2 ++ r]
  | .vexp2 d a t k z r => [0xCC#8 ++ d ++ a ++ 0x0#4 ++ t ++ k ++ z ++ 0x0#2 ++ r]
  | .vlog2 d a t k z r => [0xCD#8 ++ d ++ a ++ 0x0#4 ++ t ++ k ++ z ++ 0x0#2 ++ r]
  | .vtanh d a t k z r => [0xCE#8 ++ d ++ a ++ 0x0#4 ++ t ++ k ++ z ++ 0x0#2 ++ r]
  | .vfsum d a b t k r => [0xCF#8 ++ d ++ a ++ b ++ t ++ k ++ 0x0#3 ++ r]
  | .vld d a t k z g => [0xD0#8 ++ d ++ a ++ 0x0#4 ++ t ++ k ++ z ++ 0x0#2 ++ g]
  | .vst d a t k g => [0xD1#8 ++ d ++ a ++ 0x0#4 ++ t ++ k ++ 0x0#3 ++ g]
  | .vldf d a t c g => [0xD2#8 ++ d ++ a ++ 0x0#4 ++ t ++ 0x0#4 ++ c ++ g]
  | .vstf d a t g => [0xD3#8 ++ d ++ a ++ 0x0#4 ++ t ++ 0x0#5 ++ g]
  | .vgather d a b t k z g => [0xD4#8 ++ d ++ a ++ b ++ t ++ k ++ z ++ 0x0#2 ++ g]
  | .vscatter d a b t k g => [0xD5#8 ++ d ++ a ++ b ++ t ++ k ++ 0x0#3 ++ g]
  | .vbcast d a b t k z => [0xD6#8 ++ d ++ a ++ b ++ t ++ k ++ z ++ 0x0#5]
  | .vext d a b t => [0xD7#8 ++ d ++ a ++ b ++ t ++ 0x0#8]
  | .vins d a b t => [0xD8#8 ++ d ++ a ++ b ++ t ++ 0x0#8]
  | .vperm d a b t k z => [0xD9#8 ++ d ++ a ++ b ++ t ++ k ++ z ++ 0x0#5]
  | .vred d a b t k o => [0xDA#8 ++ d ++ a ++ b ++ t ++ k ++ 0x0#3 ++ o]
  | .vscan d a b t k z o => [0xDB#8 ++ d ++ a ++ b ++ t ++ k ++ z ++ 0x0#2 ++ o]
  | .mop d a b t o => [0xDC#8 ++ 0x0#2 ++ d ++ 0x0#2 ++ a ++ 0x0#2 ++ b ++ t ++ 0x0#5 ++ o]
  | .vsplat d a t k z => [0xDD#8 ++ d ++ a ++ 0x0#4 ++ t ++ k ++ z ++ 0x0#5]
  | .illegalInstruction a => [0x0#8 ++ a]
  | .li d imm => [0xE0#8 ++ d ++ 0x0#16, imm]
  | .lih d imm => [0xE1#8 ++ d ++ 0x0#16, imm]
  | .addl d a imm => [0xE2#8 ++ d ++ a ++ 0x0#8, imm]
  | .getc d n => [0xE3#8 ++ d ++ 0x0#16, 0x0#16 ++ n]
  | .setc a n => [0xE4#8 ++ 0x0#8 ++ a ++ 0x0#8, 0x0#16 ++ n]
  | .mma d a acc k x tb ta m => [0xE5#8 ++ d ++ a ++ acc ++ k ++ x ++ 0x0#2, 0x0#16 ++ tb ++ ta ++ 0x0#2 ++ m]
  | .mmaIdx d a acc k x vi tb ta m => [0xE6#8 ++ d ++ a ++ acc ++ k ++ x ++ 0x0#2, vi ++ 0x0#12 ++ tb ++ ta ++ 0x0#2 ++ m]
  | .segset d a st sp rights => [0xE7#8 ++ d ++ a ++ st ++ sp ++ 0x0#2, 0x0#26 ++ rights]
  | .ldl d a s t imm => [0xE8#8 ++ d ++ a ++ s ++ 0x0#2 ++ t, imm]
  | .stl d a s z imm => [0xE9#8 ++ d ++ a ++ s ++ 0x0#3 ++ z, imm]
  | .trigPostl d a imm => [0xEA#8 ++ d ++ a ++ 0x0#8, imm]
  | .abortComplete _ _ => []
  | .lateFaultTaken _ => []
  | .rspData _ => []
  | .rspAcknowledge _ => []
  | .rspDeferral _ => []
  | .feDeferralResend _ => []
  | .rspError _ => []
  | .rspMonitorFire _ => []
  | .rspQueueRefusal _ => []
  | .nqResend _ => []
  | .rspHostRetry _ => []
  | .rspStatus _ => []
  | .icacheFill _ => []
  | .reqRead _ => []
  | .reqWrite _ => []
  | .reqWriteSetFull _ => []
  | .reqLdf _ => []
  | .reqLdfc _ => []
  | .reqLdfn _ => []
  | .reqStef _ => []
  | .reqClre _ => []
  | .reqSetf _ => []
  | .reqVldf _ => []
  | .reqFeWithdraw _ => []
  | .reqNibbleWrite _ => []
  | .reqAmo _ => []
  | .reqFamo _ => []
  | .reqMonitorArm _ => []
  | .reqMonitorClear _ => []
  | .reqNqWord _ => []
  | .drainMarkerReturn _ => []
  | .routerMergeAmo _ _ _ => []
  | .mergedAmoAnswer _ => []
  | .l1dFill _ => []
  | .stridePrefetch _ _ _ => []
  | .scrubPass _ _ _ _ _ => []
  | .memoryPortTranslate _ _ => []
  | .missDoneInstall _ => []
  | .missDoneNotPresent _ => []
  | .missDoneFault _ => []
  | .missDoneIgnored _ => []
  | .fqWake _ _ => []
  | .replayEntryEnd _ _ => []
  | .tlbInvAddr _ _ => []
  | .tlbInvAll _ => []
  | .tlbBusyClear _ => []
  | .smMapWrite _ _ _ => []
  | .smRefq _ _ => []
  | .nsUpdate _ _ => []
  | .cfgNsupdate _ _ => []
  | .bandWrite _ _ _ => []
  | .trClear _ _ _ => []
  | .slicePinWrite _ => []
  | .permitWrite _ _ _ => []
  | .permitRefill _ => []
  | .watchdogWrite _ => []
  | .watchdogExpiry _ => []
  | .counterWindowStore _ _ _ => []
  | .registerWrite _ => []
  | .reqCounterAdd _ => []
  | .triggerFire _ _ => []
  | .triggerOpComplete _ _ => []
  | .triggerLaunchRetry _ _ => []
  | .barrierArrival _ => []
  | .nestClaim _ => []
  | .vectorQueueTake _ => []
  | .vectorResult _ => []
  | .matrixOpBegin _ _ => []
  | .matrixKgroupStep _ => []
  | .matrixOpComplete _ _ => []
  | .drainRowEnd _ => []
  | .copyTake _ => []
  | .copyBeat _ _ => []
  | .copyComplete _ _ => []
  | .copyFaultDelivery _ _ => []
  | .hostCmdLaunch _ _ => []
  | .hostCmdReplay _ _ => []
  | .hostCmdPreempt _ _ => []
  | .hostCmdDrain _ _ => []
  | .hostCmdReserved _ _ => []
  | .qtailWrite _ _ _ => []
  | .qctlWrite _ _ _ => []
  | .creadWrite _ _ _ => []
  | .completionRecordWrite _ _ => []
  | .replayStart _ _ => []
  | .graphNodeStart _ _ _ => []
  | .reqLaunchSubmission _ => []
  | .gangOffer _ _ _ => []
  | .placementReservation _ _ => []
  | .preemptRequest _ _ _ => []
  | .psaveDeadlineExpiry _ _ => []
  | .gangSaveComplete _ _ => []
  | .resumption _ => []
  | .eventHoldToRecord _ => []
  | .eventForward _ => []
  | .eventResend _ => []
  | .reqArmReserve _ => []
  | .reqArmCommit _ => []
  | .reqArmRelease _ => []
  | .reqContribution _ => []
  | .reqResult _ => []
  | .trellisDeliver _ _ _ => []
  | .tick _ _ => []
  | .offsetProbe _ _ => []
  | .reqProbeTimestamp _ => []
  | .reqProbeEcho _ => []
  | .controlInterval _ => []
  | .levelChangeComplete _ => []
  | .limiterWindow _ _ => []
  | .thermalTrip _ _ => []
  | .linkCrcError _ _ _ => []
  | .linkRetryTimeout _ _ _ => []
  | .flitProtocolError _ _ _ _ => []
  | .referenceClockLoss _ _ => []
  | .gatehouseZeroLengthRead _ => []
  | .hostWriteComplete _ => []
  | .hostAtomicopComplete _ _ _ => []
  | .reqConfigRead _ => []
  | .reqConfigWrite _ => []
  | .cfgWindowAccess _ _ => []
  | .cfgIsolate _ => []
  | .powerGood _ => []
  | .moduleReset _ => []
  | .referenceLock _ _ => []
  | .gatehouseReferenceStable _ => []
  | .listenTimeout _ => []
  | .linkInitComplete _ _ _ => []
  | .helloResend _ _ _ => []
  | .reqHello _ => []
  | .selfTestDone _ _ => []
  | .reqImageRequest _ => []
  | .reqImageBlock _ => []
  | .mapImageTimeout _ => []
  | .atGo _ => []
  | .quoteDone _ => []
  | .idleFlit _ _ _ _ => []
  | .reqDrainMarker _ => []
  | .hostReadCompletion _ _ _ => []
  | .hostLinkStateChange _ _ => []
  | .fqHeadWrite _ _ => []
  | .faultQueueNotice _ => []
  | .gatehouseRetryAnswer _ _ => []

/-- Decode a first word and, for a long form, its second: the fields must account for every bit of the words, so that a
nonzero reserved field is refused (R263). -/
def decodeWords (w w2 : BitVec 32) : Except DecodeError Instr :=
  match decodeFields w w2 with
  | none => .error .reservedOpcode
  | some i => if encode i = (if isLong w then [w, w2] else [w]) then .ok i else .error .reservedField

/-- The 32-bit little-endian word of four bytes (R4, R252). -/
def wordOfBytes (b0 b1 b2 b3 : Byte) : BitVec 32 := b3 ++ b2 ++ b1 ++ b0

/-- The four bytes of a word in ascending addresses (R4). -/
def bytesOfWord (w : BitVec 32) : List Byte :=
  [w.extractLsb' 0 8, w.extractLsb' 8 8, w.extractLsb' 16 8, w.extractLsb' 24 8]

/-- Decode the instruction at the head of a list of bytes; the rest of the list follows it. -/
def decode : List Byte → Except DecodeError (Instr × List Byte)
  | b0 :: b1 :: b2 :: b3 :: rest =>
    let w := wordOfBytes b0 b1 b2 b3
    if isLong w then
      match rest with
      | c0 :: c1 :: c2 :: c3 :: rest' =>
        match decodeWords w (wordOfBytes c0 c1 c2 c3) with
        | .ok i => .ok (i, rest')
        | .error e => .error e
      | _ => .error .truncated
    else
      match decodeWords w 0 with
      | .ok i => .ok (i, rest)
      | .error e => .error e
  | _ => .error .truncated

/-- The bytes of the two words whose bits are `w`, first word lowest (R4). -/
def tableBytes (w : Nat) : List Byte :=
  bytesOfWord (BitVec.ofNat 32 w) ++ bytesOfWord (BitVec.ofNat 32 (w / 2 ^ 32))

/-- The instruction the decoder reads from a word numbered as spec/opcode_table.json numbers it; the bits above `nbits` are 0. -/
def decodeTableWord (nbits w : Nat) : Option Instr :=
  match decode (tableBytes (w % 2 ^ nbits)) with
  | .ok (i, _) => some i
  | .error _ => none

end Sys2Proof
end

