-- ==== Sys2Proof/Machine/Float.lean ====
section
/-! DEFINITION. Number formats and arithmetic (R233-R251): decoding, exact arithmetic on dyadic numbers, rounding, conversions and
the combination of R251. A finite value is (-1)^neg * m * 2^e with m a natural number. -/

namespace Sys2Proof.Machine

/-- A value of a floating-point format (R235). -/
inductive FVal where
  | nan
  | inf (neg : Bool)
  | fin (neg : Bool) (m : Nat) (e : Int)
deriving DecidableEq, Repr

/-- A rounding mode (R239); stochastic rounding carries its 24 random bits (R240). -/
inductive Rnd where
  | rne | rz | ru | rd
  | sr (r : Nat)
deriving DecidableEq, Repr

/-- A floating-point format (R234, R236): width, mantissa bits, bias, greatest finite code, infinity and canonical NaN codes. -/
structure Fmt where
  width : Nat
  mb : Nat
  bias : Int
  maxCode : Nat
  infCode : Option Nat
  nanCode : Option Nat
deriving DecidableEq, Repr

/-- FP32 (R234, R236). -/
def fp32 : Fmt := { width := 32, mb := 23, bias := 127, maxCode := 0x7F7FFFFF, infCode := some 0x7F800000, nanCode := some 0x7FC00000 }
/-- BF16. -/
def bf16 : Fmt := { width := 16, mb := 7, bias := 127, maxCode := 0x7F7F, infCode := some 0x7F80, nanCode := some 0x7FC0 }
/-- FP16. -/
def fp16 : Fmt := { width := 16, mb := 10, bias := 15, maxCode := 0x7BFF, infCode := some 0x7C00, nanCode := some 0x7E00 }
/-- E4M3: no infinity, one NaN magnitude. -/
def e4m3 : Fmt := { width := 8, mb := 3, bias := 7, maxCode := 0x7E, infCode := none, nanCode := some 0x7F }
/-- E5M2. -/
def e5m2 : Fmt := { width := 8, mb := 2, bias := 15, maxCode := 0x7B, infCode := some 0x7C, nanCode := some 0x7E }
/-- E3M2: no infinity, no NaN. -/
def e3m2 : Fmt := { width := 6, mb := 2, bias := 3, maxCode := 0x1F, infCode := none, nanCode := none }
/-- E2M3. -/
def e2m3 : Fmt := { width := 6, mb := 3, bias := 1, maxCode := 0x1F, infCode := none, nanCode := none }
/-- E2M1. -/
def e2m1 : Fmt := { width := 4, mb := 1, bias := 1, maxCode := 0x7, infCode := none, nanCode := none }

/-- The value of an encoding (R235). -/
def Fmt.decode (f : Fmt) (w : Nat) : FVal :=
  let neg := bitOn w (f.width - 1)
  let c := w % 2 ^ (f.width - 1)
  if c > f.maxCode then if f.infCode = some c then .inf neg else .nan
  else
    let e := c / 2 ^ f.mb
    let m := c % 2 ^ f.mb
    if e = 0 then .fin neg m (1 - f.bias - f.mb) else .fin neg (2 ^ f.mb + m) (e - f.bias - f.mb)

/-- The code of a magnitude with a sign. -/
def Fmt.signed (f : Fmt) (neg : Bool) (c : Nat) : Nat := if neg then c + 2 ^ (f.width - 1) else c

/-- A magnitude m * 2^-d rounded to a natural number (R239, R240). -/
def roundNat (md : Rnd) (neg : Bool) (m d : Nat) : Nat :=
  let q := m / 2 ^ d
  let r := m % 2 ^ d
  if r = 0 then q
  else match md with
    | .rne => if 2 * r > 2 ^ d ∨ (2 * r = 2 ^ d ∧ q % 2 = 1) then q + 1 else q
    | .rz => q
    | .ru => if neg then q else q + 1
    | .rd => if neg then q + 1 else q
    | .sr x => if r * 2 ^ 24 / 2 ^ d + x ≥ 2 ^ 24 then q + 1 else q

/-- Rounding goes away from zero on overflow (R242). -/
def Rnd.away (md : Rnd) (neg : Bool) : Bool :=
  match md with
  | .rne | .sr _ => true
  | .rz => false
  | .ru => !neg
  | .rd => neg

/-- The code of the rounded magnitude m * 2^e with an unbounded exponent range above the format (R239). -/
def Fmt.roundCode (f : Fmt) (md : Rnd) (neg : Bool) (m : Nat) (e : Int) : Nat :=
  if m = 0 then 0
  else
    let top : Int := Nat.log2 m + e
    let q : Int := max (top - f.mb) (1 - f.bias - f.mb)
    let n := if e ≥ q then m * 2 ^ (e - q).toNat else roundNat md neg m (q - e).toNat
    ((q + f.mb + f.bias - 1) * 2 ^ f.mb + n : Int).toNat

/-- A finite value converted to a format: rounded, overflow settled by the saturation bit and the mode (R241, R242). -/
def Fmt.ofFin (f : Fmt) (md : Rnd) (sat : Bool) (neg : Bool) (m : Nat) (e : Int) : Nat :=
  let c := f.roundCode md neg m e
  if c ≤ f.maxCode then f.signed neg c
  else if sat || !md.away neg then f.signed neg f.maxCode
  else match f.infCode with
    | some i => f.signed neg i
    | none => match f.nanCode with
      | some n => n
      | none => f.signed neg f.maxCode

/-- A value converted to a format (R242). -/
def Fmt.encode (f : Fmt) (md : Rnd) (sat : Bool) : FVal → Nat
  | .nan => f.nanCode.getD 0
  | .inf neg => if sat then f.signed neg f.maxCode
      else match f.infCode with
        | some i => f.signed neg i
        | none => match f.nanCode with
          | some n => n
          | none => f.signed neg f.maxCode
  | .fin neg m e => f.ofFin md sat neg m e

/-- The canonical NaN of a format that has one. -/
def Fmt.canon (f : Fmt) : Nat := f.nanCode.getD 0

/-- The sign of a value. -/
def FVal.neg : FVal → Bool
  | .nan => false
  | .inf n => n
  | .fin n _ _ => n

/-- The value with its sign changed. -/
def FVal.negate : FVal → FVal
  | .nan => .nan
  | .inf n => .inf (!n)
  | .fin n m e => .fin (!n) m e

/-- The signed mantissa of a finite value at a lower exponent. -/
def atExp (neg : Bool) (m : Nat) (e lo : Int) : Int :=
  let w : Int := m * 2 ^ (e - lo).toNat
  if neg then -w else w

/-- The exact sum; an exact zero has sign + but under RD, and a sum of two zeros of equal sign keeps it (R247). -/
def FVal.add (rd : Bool) : FVal → FVal → FVal
  | .nan, _ => .nan
  | _, .nan => .nan
  | .inf a, .inf b => if a = b then .inf a else .nan
  | .inf a, _ => .inf a
  | _, .inf b => .inf b
  | .fin na ma ea, .fin nb mb eb =>
    let lo := min ea eb
    let t := atExp na ma ea lo + atExp nb mb eb lo
    if t = 0 then .fin (if ma = 0 ∧ mb = 0 ∧ na = nb then na else rd) 0 lo
    else .fin (decide (t < 0)) t.natAbs lo

/-- The exact product (R247). -/
def FVal.mul : FVal → FVal → FVal
  | .nan, _ => .nan
  | _, .nan => .nan
  | .inf a, .inf b => .inf (a != b)
  | .inf a, .fin b m _ => if m = 0 then .nan else .inf (a != b)
  | .fin a m _, .inf b => if m = 0 then .nan else .inf (a != b)
  | .fin a ma ea, .fin b mb eb => .fin (a != b) (ma * mb) (ea + eb)

/-- Comparison of two values that are not NaN: less, equal or greater as -1, 0, 1; the zeros are equal. -/
def FVal.cmp : FVal → FVal → Int
  | .nan, _ => 0
  | _, .nan => 0
  | .inf a, .inf b => if a = b then 0 else if a then -1 else 1
  | .inf a, _ => if a then -1 else 1
  | _, .inf b => if b then 1 else -1
  | .fin na ma ea, .fin nb mb eb =>
    let lo := min ea eb
    let x := atExp na ma ea lo
    let y := atExp nb mb eb lo
    if x < y then -1 else if x = y then 0 else 1

/-- Order for minimum and maximum: -0 lies below +0 (R247, R251). -/
def FVal.below (a b : FVal) : Bool :=
  let c := a.cmp b
  decide (c < 0) || (decide (c = 0) && a.neg && !b.neg)

/-- A floating-point operation rounded once in a format: NaN results are canonical, overflow follows the mode (R247). -/
def Fmt.result (f : Fmt) (md : Rnd) (v : FVal) : Nat := f.encode md false v

/-- Sum in a format. -/
def Fmt.addR (f : Fmt) (md : Rnd) (a b : Nat) : Nat := f.result md (FVal.add (md == .rd) (f.decode a) (f.decode b))

/-- Minimum of two encodings (R247). -/
def Fmt.minR (f : Fmt) (a b : Nat) : Nat :=
  match f.decode a, f.decode b with
  | .nan, _ => f.canon
  | _, .nan => f.canon
  | x, y => if x.below y then a else b

/-- Maximum of two encodings (R247). -/
def Fmt.maxR (f : Fmt) (a b : Nat) : Nat :=
  match f.decode a, f.decode b with
  | .nan, _ => f.canon
  | _, .nan => f.canon
  | x, y => if x.below y then b else a

/-! ## Integers in conversions (R243) -/

/-- The range of an integer type. -/
def intMin (signed : Bool) (w : Nat) : Int := if signed then -(2 ^ (w - 1)) else 0
/-- The greatest integer of a type. -/
def intMax (signed : Bool) (w : Nat) : Int := if signed then 2 ^ (w - 1) - 1 else 2 ^ w - 1

/-- An integer clamped to the range of a type. -/
def clampInt (signed : Bool) (w : Nat) (i : Int) : Int := max (intMin signed w) (min (intMax signed w) i)

/-- A floating-point value rounded to an integer and clamped; NaN gives 0 (R243). -/
def FVal.toInt (md : Rnd) (signed : Bool) (w : Nat) : FVal → Int
  | .nan => 0
  | .inf n => if n then intMin signed w else intMax signed w
  | .fin n m e =>
    let a : Int := if e ≥ 0 then m * 2 ^ e.toNat else roundNat md n m (-e).toNat
    clampInt signed w (if n then -a else a)

/-- The value of an integer. -/
def FVal.ofInt (i : Int) : FVal := .fin (decide (i < 0)) i.natAbs 0

/-- A conversion to the scale format .x8 (R244). -/
def toScale : FVal → Nat
  | .nan => 0xFF
  | .inf _ => 0xFF
  | .fin _ m e => if m = 0 then 0 else (min (max ((Nat.log2 m : Int) + e + 127) 0) 254).toNat

/-- The value of a scale (R235, R244). -/
def ofScale (w : Nat) : FVal := if w = 0xFF then .nan else .fin false 1 ((w : Int) - 127)

/-! ## One step of the stochastic generator (R240) -/

/-- The generator's next state. -/
def srNext (s : Word) : Word := s * 0x5851F42D4C957F2D#64 + 0x14057B7EF767814F#64
/-- The 24 bits a state yields. -/
def srBits (s : Word) : Nat := (s >>> 40).toNat

/-! ## Combination (R251) -/

/-- The input flags of one encoding. -/
def Fmt.flags (f : Fmt) (w : Nat) : FFlags :=
  match f.decode w with
  | .nan => { nan := true }
  | .inf n => { pinf := !n, ninf := n }
  | .fin .. => {}

/-- Flags of two sets of inputs. -/
def FFlags.or (a b : FFlags) : FFlags := { nan := a.nan || b.nan, pinf := a.pinf || b.pinf, ninf := a.ninf || b.ninf }

/-- The result of a sum by the input flags and the value the additions gave (R251). -/
def Fmt.sumBy (f : Fmt) (g : FFlags) (w : Nat) : Nat :=
  if g.nan || (g.pinf && g.ninf) then f.canon
  else if g.pinf then f.infCode.getD 0
  else if g.ninf then f.signed true (f.infCode.getD 0)
  else w

/-- The FP32 sum that a home forms for an atomic from the value it holds and the operand with its flags (R112, R251). -/
def homeFadd (old operand : Nat) (g : FFlags) : Nat :=
  fp32.sumBy ((fp32.flags old).or g) (fp32.addR .rne old operand)

end Sys2Proof.Machine
end

