-- ==== Sys2Proof/Machine/Flags.lean ====
section
/-! DEFINITION. The computed registers: ctl.status, ctl.slot_state, ctl.site_state and the other words built from fields (R58, R143).
The instructions keep no flags (R274). -/

namespace Sys2Proof.Machine

/-- A Bool as a bit at a place. -/
def bitAt (b : Bool) (i : Nat) : Nat := if b then 2 ^ i else 0

/-- ctl.status (R58). -/
def Strand.status (x : Strand) (p : Bool) : Word :=
  BitVec.ofNat 64 (x.helpers.toNat * 2 ^ 32 + x.granules * 2 ^ 16 + x.tracker.length * 2 ^ 8
    + bitAt x.control 3 + bitAt ((x.faultCode.setWidth 16 : BitVec 16) != 0) 2 + bitAt p 1 + bitAt x.sup 0)

/-- A pre-emption request is pending for the strand's gang: its claim-table entry is STOPPING (R58, R161). -/
def State.preempted (s : State) (k : Nat) : Bool :=
  decide (slotOf k < 13) && (s.gang (siteOfK k) (s.strand k).entry).st == .stopping

/-- The number of a slot's state (R143). -/
def SlotState.num : SlotState → Nat
  | .free => 0 | .ready => 1 | .held => 2 | .parked => 3 | .stopped => 4

/-- Position p of a core is withdrawn (R428): in stage 2, by the rotation counted from the entry to it; position 15 never is. -/
def Core.isWithdrawn (x : Core) (p : Nat) : Bool :=
  match x.limited with
  | some t => decide (p < 15) && (((x.cycle / 16 - t / 16) / 32 + p) % 2 == 0)
  | none => false

/-- The copy strand has no copy in flight, no full mailbox and no offered copy (R124). -/
def Core.copyIdle (x : Core) : Bool := x.mail.isEmpty && x.offered.isEmpty && x.copies.isEmpty

/-- ctl.slot_stateN of a core (R143). The copy strand, which issues no words, is parked for copy-idle exactly while it has no work (R124). -/
def State.slotState (s : State) (c n : Nat) : Word :=
  let x := s.strand (slotKey c n)
  let y := s.core c
  let (st, r) :=
    if n = 14 ∧ x.st ≠ .free then (if y.copyIdle then (SlotState.parked.num, Park.copyIdle.code) else (SlotState.ready.num, 0))
    else match x.st, x.why with
      | .parked, some w => (x.st.num, w.code)
      | _, _ => (x.st.num, 0)
  BitVec.ofNat 64 (bitAt (y.isWithdrawn n) 16 + r * 2 ^ 8 + st)

/-- A permit register (R62). -/
def Permit.word (p : Permit) : Word := BitVec.ofNat 64 (p.rate * 2 ^ 32 + p.cap * 2 ^ 16 + p.count)

/-- mcap (R52): four slots, 32 columns, maxm rows. -/
def Core.mcapWord (c : Core) : Word := BitVec.ofNat 64 (4 * 2 ^ 16 + 32 * 2 ^ 8 + c.maxm)

/-- ctl.op_granted (R63). -/
def Bower.granted (b : Bower) : Word :=
  BitVec.ofNat 64 (bitAt b.boost 24 + b.shownIcap * 2 ^ 16 + b.shownTcap * 2 ^ 8 + b.level)

/-- The number of a bring-up state (R66). -/
def SiteState.num : SiteState → Nat
  | .cold => 0 | .listen => 1 | .lock => 2 | .test => 3 | .map => 4 | .ready => 5 | .failed => 6 | .isolated => 7

/-- The bit of edge d: each of its links sets it as it comes up (R66, R415), and a link that goes down clears it (R408). -/
def Site.edgeUp (t : Site) (d : Nat) : Bool :=
  ((t.link d .oak).up || (t.link d .ash).up) && !(t.link d .oak).dead && !(t.link d .ash).dead

/-- ctl.site_state and cfg.state (R66). -/
def Site.stateWord (t : Site) : Word :=
  BitVec.ofNat 64 (((List.range 4).map fun d => bitAt (t.edgeUp d) (8 + d)).sum + t.prev.num * 2 ^ 4 + t.state.num)

/-- ctl.watchdog (R68). -/
def Site.watchdogWord (t : Site) : Word := BitVec.ofNat 64 (bitAt t.wdEn 63 + bitAt t.wdX 62 + t.wdPeriod)

/-- The least n with 2^n not below m. -/
def ceilLog2 (m : Nat) : Nat := if m ≤ 1 then 0 else Nat.log2 (m - 1) + 1

/-- The band of a pair (R207). -/
def bandOf (mn mx : Nat) : Nat :=
  if mn = 0xFFFF ∧ mx = 0xFFFF then 7 else if mx ≤ mn then 0 else min 7 (ceilLog2 (mx - mn + 1))

/-- ctl.bandk (R207). -/
def Site.bandWord (t : Site) (k : Nat) : Word :=
  let (mn, mx) := Tab.get (0xFFFF, 0xFFFF) k t.band
  BitVec.ofNat 64 (mx * 2 ^ 32 + mn * 2 ^ 16 + bandOf mn mx)

end Sys2Proof.Machine
end

