-- ==== Sys2Proof/Machine/Operands.lean ====
section
/-! DEFINITION. Operands: scalar, vector and mask registers, what a strand holds, pending registers, the issue of an instruction,
and the check of an access against its segment (R37-R47, R78, R79, R264). -/

namespace Sys2Proof.Machine

/-! ## Scalar registers (R37, R38) -/

/-- The value of a scalar specifier; z reads 0 (R38). -/
def Strand.reg (x : Strand) (r : Nat) : Word := if r = 0 then 0 else Tab.get 0 r x.regs

/-- A scalar register written; a write to z is discarded (R38). -/
def Strand.setReg (x : Strand) (r : Nat) (w : Word) : Strand := if r = 0 then x else { x with regs := Tab.put r w x.regs }

/-- The strand holds the register: anchors and z always, w(j) while j lies below 16 times the granules held (R40-R42). -/
def Strand.holds (x : Strand) (r : Nat) : Bool := decide (r < 8 + 16 * x.granules)

/-- The first window specifier of granule N, w(16 N). -/
def granuleReg (n : Nat) : Nat := 8 + 16 * n

/-- The sixteen specifiers of a vector register (R44). -/
def vecRegs (n : Nat) : List Nat := (List.range 16).map (granuleReg n + ·)

/-- vN as one number of 1,024 bits (R44). -/
def Strand.vec (x : Strand) (n : Nat) : Nat :=
  ((List.range 16).map fun j => (x.reg (granuleReg n + j)).toNat * 2 ^ (64 * j)).sum

/-- vN written whole (R44). -/
def Strand.setVec (x : Strand) (n v : Nat) : Strand :=
  (List.range 16).foldl (fun x j => x.setReg (granuleReg n + j) (BitVec.ofNat 64 (v / 2 ^ (64 * j)))) x

/-- A mask register; m0 reads as all ones (R45). -/
def Strand.mask (x : Strand) (m : Nat) : BitVec 256 :=
  if m = 1 then x.m1 else if m = 2 then x.m2 else if m = 3 then x.m3 else BitVec.allOnes 256

/-- m1-m3 written (R45). -/
def Strand.setMask (x : Strand) (m : Nat) (w : BitVec 256) : Strand :=
  if m = 1 then { x with m1 := w } else if m = 2 then { x with m2 := w } else if m = 3 then { x with m3 := w } else x

/-- A segment register (R46). -/
def Strand.seg (x : Strand) (n : Nat) : Seg := Tab.get {} n x.segs

/-- The strand whose turn it is. -/
def State.me (s : State) : Strand := s.strand s.cur

/-- The value that the issuing strand reads from a scalar specifier. -/
def State.val (s : State) (r : BitVec 8) : Word := s.me.reg r.toNat

/-! ## Issue (R42, R43, R264) -/

/-- An instruction that names registers issues: an unheld one faults before anything else, a pending one parks the strand, and
otherwise the body runs (R42, R43, R264). -/
def State.issue (s : State) (names : List Nat) (body : State → State) : State :=
  if names.all s.me.holds then
    if names.any s.me.pend.contains then s.park s.cur .pendingRegister (.regs (names.filter s.me.pend.contains))
    else body s
  else s.raiseFault s.cur .unheldWindow

/-- The body of an instruction that takes a permit of a class at issue; with none at hand the strand holds its position (R226). -/
def State.withPermit (s : State) (p : PClass) (body : State → State) : State :=
  if s.hasPermit (coreOfK s.cur) p then body (s.takePermit (coreOfK s.cur) p) else s.held s.cur

/-- An instruction that writes one scalar register in its turn: d gets the value and pc moves on by n bytes (R274). -/
def State.finish (s : State) (d : Nat) (w : Word) (n : Nat) : State :=
  s.modStrand s.cur fun x => { x.setReg d w with pc := x.pc + BitVec.ofNat 60 n }

/-- An instruction that writes nothing but pc. -/
def State.pass (s : State) (n : Nat) : State := s.modStrand s.cur fun x => { x with pc := x.pc + BitVec.ofNat 60 n }

/-- An instruction of the integer chapter: it names the given registers and writes d with the value (R274). -/
def State.compute (s : State) (names : List (BitVec 8)) (d : BitVec 8) (n : Nat) (f : State → Word) : State :=
  s.issue (names.map (·.toNat)) fun s => s.finish d.toNat (f s) n

/-! ## The segment check (R78, R79) -/

/-- Right to read. -/
def rR : Nat := 1
/-- Right to write. -/
def rW : Nat := 2
/-- Right to execute. -/
def rX : Nat := 4
/-- Right to full/empty operations. -/
def rF : Nat := 8
/-- Right to atomics. -/
def rA : Nat := 16

/-- Every needed right is among the rights. -/
def subRights (need have_ : Nat) : Bool := (List.range 6).all fun i => !bitOn need i || bitOn have_ i

/-- The kind of an address (R74). -/
def kindBits (a : Nat) : Nat := a / 2 ^ 57 % 8

/-- A fault of a check, with the address if one was formed. -/
abbrev Checked (α : Type) := Except (Code × Option Addr) α

/-- Width of the offset in an address of a kind (R74, R78). -/
def offsetBits (kind : Nat) : Nat := if kind = 1 ∨ kind = 2 then 36 else if kind = 3 then 53 else 57

/-- The address at an offset of a segment, where the base's kind has one (R78). -/
def Seg.form (g : Seg) (off : Nat) : Option Addr :=
  let b := g.base.toNat
  let n := offsetBits (kindBits b)
  if kindBits b ≥ 4 ∨ b % 2 ^ n + off ≥ 2 ^ n then none else some (BitVec.ofNat 60 (b + off))

/-- The check of an access of `size` bytes at offset `off` of a segment, and the address it forms (R78). A check that fails before the address
is formed names the address that the access would have had, if there is one (R59, log 13). -/
def Seg.check (g : Seg) (sup : Bool) (off size need align : Nat) : Checked Addr :=
  if bitOn g.rights.toNat 5 && !sup then .error (.privilege, g.form off)
  else if !subRights need g.rights.toNat then .error (.segment, g.form off)
  else if off ≥ g.limit.toNat ∨ off + size > g.limit.toNat then .error (.segment, g.form off)
  else if kindBits g.base.toNat ≥ 4 then .error (.addressKind, none)
  else match g.form off with
    | none => .error (.addressRange, none)
    | some a => if a.toNat % align ≠ 0 then .error (.alignment, some a) else .ok a

/-! ## Sites, units and meshes (R20, R75, R76, R201, R204) -/

/-- Where a request goes: the physical site, the unit and offset or the host address there, and the mesh (none at the site itself). -/
structure Route where
  dst : Nat
  unit : Nat := 0
  off : Nat := 0
  host : Bool := false
  mesh : Option Mesh := none
deriving DecidableEq, Repr

/-- Parity of bits 15 to 7 (R204). -/
def hashOdd (off : Nat) : Bool := popCount (bits off 15 7) 9 % 2 = 1

/-- The mesh of a network-select setting (R204). -/
def meshOf (setting off : Nat) : Mesh := if setting = 1 then .ash else if setting = 2 then (if hashOdd off then .ash else .oak) else .oak

/-- The offset whose hash a message that carries a counter number and no address uses (R204): the parity of the number's ten bits. A
message with neither has hash 0 (log 24). -/
def counterHash (n : Nat) : Nat := if popCount n 10 % 2 = 1 then 128 else 0

/-- The physical site of a virtual one as the site map of v has it (R201): only pavilions are mapped. -/
def State.physical (s : State) (v x y : Nat) : Option Nat :=
  if s.kindAt v x y = some .pavilion then Tab.find (y * 256 + x) (s.site v).smap else some (siteAt x y)

/-- The destination of a message from site v to virtual (x, y), and its mesh; none where it is unreachable (R20, R76, R201, R204).
A message to the site's own coordinates uses no mesh. -/
def State.resolve (s : State) (v x y off : Nat) : Option (Nat × Option Mesh) :=
  if (s.kindAt v x y).isNone then none
  else if s.virt v = (x, y) then some (v, none)
  else
    let n := Tab.get 0 (y * 256 + x) (s.site v).ns
    if n = 3 then none
    else (s.physical v x y).map fun p => (p, some (meshOf n off))

/-- A placed relative address made absolute at site v; none where a coordinate leaves the grid (R76). -/
def State.absolute (s : State) (v : Nat) (a : Addr) : Option Addr :=
  if kindBits a.toNat = 2 then
    let (x, y) := s.virt v
    let nx := (x : Int) + sextNat 8 (bits a.toNat 56 49)
    let ny := (y : Int) + sextNat 8 (bits a.toNat 48 41)
    if 0 ≤ nx ∧ nx < 20 ∧ 0 ≤ ny ∧ ny < 20 then
      some (BitVec.ofNat 60 (2 ^ 57 + nx.toNat * 2 ^ 49 + ny.toNat * 2 ^ 41 + a.toNat % 2 ^ 41))
    else none
  else some a

/-- The units of a site of a kind (R75): whether unit u exists, is the supervisor's alone, and its bytes; `pin` is the size of the pinned
region. -/
def unitOf (kind : SiteKind) (pin u : Nat) : Bool × Bool × Nat :=
  match kind with
  | .pavilion => if u < 4 then (true, false, 4194304) else if u = 4 then (true, false, pin) else (decide (u = 16), true, 1048576)
  | .memory => (decide (u = 0), true, 36000000000)
  | .gatehouse => (decide (u = 16), true, 1048576)

/-- The route of a placed or host-window access of `size` bytes from site v: the site first, then its units (R74-R78). The size of unit 4 is
what the site's ctl.slice_pin states (log 15). -/
def State.route (s : State) (v : Nat) (sup : Bool) (a : Addr) (size : Nat) : Checked Route :=
  if 4 ≤ kindBits a.toNat then .error (.addressKind, some a)
  else if kindBits a.toNat = 3 then
    let g := rimSite (bits a.toNat 56 53)
    let h := a.toNat % 2 ^ 53
    match s.resolve v (xOf g) (yOf g) h with
    | none => .error (.unreachableSite, some a)
    | some (p, x) => .ok { dst := p, off := h, host := true, mesh := x }
  else match s.absolute v a with
    | none => .error (.unreachableSite, some a)
    | some b =>
      let x := bits b.toNat 56 49
      let y := bits b.toNat 48 41
      let u := bits b.toNat 40 36
      let o := b.toNat % 2 ^ 36
      match s.resolve v x y o with
      | none => .error (.unreachableSite, some a)
      | some (p, m) =>
        let (ok, supOnly, cap) := unitOf ((s.kindAt v x y).getD .pavilion) ((s.site p).slicePin * 2 ^ 20) u
        if !ok then .error (.addressKind, some a)
        else if supOnly && !sup then .error (.privilege, some a)
        else if o + size > cap then .error (.addressRange, some a)
        else .ok { dst := p, unit := u, off := o, mesh := m }

/-- Every check that an access meets before it leaves the core (R78, R290 stages 2 and 3). -/
def State.checkAccess (s : State) (k : Nat) (seg : Seg) (off size need align : Nat) : Checked Addr :=
  let sup := (s.strand k).sup
  match seg.check sup off size need align with
  | .error e => .error e
  | .ok a =>
    if kindBits a.toNat = 0 then .ok a
    else match s.route (siteOfK k) sup a size with
      | .error e => .error e
      | .ok _ => .ok a

/-- The 16-byte granules that an access touches, placed relative addresses made absolute (R98). -/
def State.granulesOf (s : State) (v : Nat) (a : Addr) (size : Nat) : List Nat :=
  let b := ((s.absolute v a).getD a).toNat
  (List.range ((b + size - 1) / 16 + 1 - b / 16)).map (b / 16 + ·)

end Sys2Proof.Machine
end

