-- ==== Sys2Proof/Machine/Cache.lean ====
section
/-! DEFINITION. Requests to homes and the caches: lines, hits, fills, evictions, write-backs and invalidations (R86, R104-R107). -/

namespace Sys2Proof.Machine

/-! ## Requests (R402, R404) -/

/-- New messages from site v to physical site d are held while a network-select change drains (R205). -/
def State.nsHolds (s : State) (v d : Nat) : Bool :=
  match (s.site v).nsBusy with
  | some (w, _) => decide (s.physical v (w % 256) (w / 256) = some d)
  | none => false

/-- A request or trigger message leaves its source (R204, R205). -/
def State.sendOut (s : State) (m : Msg) : State := s.post { m with held := m.mesh.isSome && s.nsHolds m.src m.dst }

/-- The offset whose hash a message uses (R204). -/
def Msg.hash (m : Msg) : Nat := match m.op with | .counterAdd n => counterHash n | .req _ => m.off | _ => 0

/-- The virtual site that the tables of site v map to physical site d (R201). -/
def State.virtualOf (s : State) (v d : Nat) : Option Nat :=
  if kindOf d = .pavilion then ((s.site v).smap.find? fun p => p.2 == d).map (·.1) else some d

/-- A message that was kept at its source leaves under the network-select table as it stands; to a site that is unreachable one that has an answer
is answered with that fault, and another is not sent (R20, R205). A collective one stays on the mesh of its trellis table, which the network-select table does not steer (R204). -/
def State.sendAgain (s : State) (m : Msg) : State :=
  if m.mesh.isNone ∨ m.op.cls = 3 then s.sendOut m
  else
    let n := match s.virtualOf m.src m.dst with | some k => Tab.get 0 k (s.site m.src).ns | none => 3
    if n = 3 then if m.op.answered then s.post { id := 0, op := .error 0x0007, src := m.src, dst := m.src, key := m.key, txn := m.txn } else s
    else s.sendOut { m with mesh := some (meshOf n m.hash) }

/-- A new transaction number, unless one has been given already. -/
def State.txnNo (s : State) (id : Option Nat) : Nat × State := match id with | some t => (t, s) | none => s.fresh

/-- The request that carries an access to its home, under a new transaction or the one given (R404); `key` is its ordering key (R100). -/
def State.requestAs (s : State) (id : Option Nat) (v key : Nat) (a : Acc) (r : Route) (fill : Option Line) (len : Nat) : State :=
  let (t, s) := s.txnNo id
  let m : Msg := { id := 0, op := .req a.op, mesh := r.mesh, src := v, dst := r.dst, key, host := r.host, unit := r.unit, off := r.off,
                   len, data := a.data, en := a.en, hi := a.hi, tag := a.tag, txn := t }
  let s : State := { s with txns := s.txns ++ [{ id := t, acc := a, req := m, fill }] }
  s.sendOut m

/-- The request that carries an access to its home, under a new transaction (R404). -/
def State.request (s : State) (v key : Nat) (a : Acc) (r : Route) (fill : Option Line) (len : Nat) : State := s.requestAs none v key a r fill len

/-- The request for a whole line from its home on behalf of an access (R86): the access itself goes on when the line arrives. -/
def State.requestLine (s : State) (v key : Nat) (a : Acc) (r : Route) (l : Line) : State :=
  let (t, s) := s.fresh
  let m : Msg := { id := 0, op := .req .read, mesh := r.mesh, src := v, dst := r.dst, key, unit := r.unit, off := r.off, len := 128, txn := t }
  let s : State := { s with txns := s.txns ++ [{ id := t, acc := a, req := m, fill := some l }] }
  s.sendOut m

/-- Ordering key of a write-back or of the memory port of a pavilion (R100): class bit and low byte. -/
def State.engineKey (s : State) (v low : Nat) : Nat :=
  let (x, y) := s.virt v
  2 ^ 24 + y * 2 ^ 16 + x * 2 ^ 8 + low

/-! ## Lines (R86) -/

/-- Bytes of a line. -/
def Line.read (l : Line) (o n : Nat) : List Byte := (l.data.drop o).take n

/-- Bytes written into a line, with their dirty bits (R86); enables as in R401. -/
def Line.write (l : Line) (o en : Nat) (d : List Byte) : Line :=
  let put (q : List Byte × Nat) (e : Byte × Nat) :=
    if bitOn en e.2 then (q.1.set (o + e.2) e.1, setBit q.2 (o + e.2)) else q
  let r := d.zipIdx.foldl put (l.data, l.dirty)
  { l with data := r.1, dirty := r.2 }

/-- The line of an address in a list of lines. -/
def lineOf (n : Nat) (c : List Line) : Option Line := c.find? (fun l => l.line == n)

/-- A line brought to the front, most recently used. -/
def toFront (l : Line) (c : List Line) : List Line := l :: c.filter (fun x => x.line != l.line)

/-! ## The stride prefetcher (R92) -/

/-- A strand's stream after a miss at line n: misses with one stride are counted. -/
def Stream.miss (t : Stream) (n : Nat) : Stream :=
  let d : Int := (n : Int) - t.last
  if d = 0 then t
  else if 2 ≤ t.hits ∧ d = t.stride then { t with last := n, hits := t.hits + 1, ahead := t.ahead - 1 }
  else { t with last := n, stride := d, hits := 2, ahead := 0 }

/-- A miss of the L1D by the strand in a slot, through a segment register: its stream, one for each slot (log 34). -/
def Core.streamMiss (x : Core) (slot n seg : Nat) : Core :=
  match x.streams.find? (fun t => t.slot == slot) with
  | some _ => { x with streams := x.streams.map fun t => if t.slot = slot then { t.miss n with seg } else t }
  | none => { x with streams := x.streams ++ [{ slot, last := n, stride := 0, hits := 1, seg }] }

/-- A hit by the strand in a slot on the next line of its stream: the stream moves on. -/
def Core.streamHit (x : Core) (slot n : Nat) : Core :=
  { x with streams := x.streams.map fun t =>
      if t.slot = slot ∧ 3 ≤ t.hits ∧ (n : Int) = t.last + t.stride then { t with last := n, ahead := t.ahead - 1 } else t }

/-- The L1D has 512 sets of 10 ways (R85); the set is the low bits of the line number (log 16). -/
def l1dSets : Nat := 512
/-- Ways of an L1D set (R85). -/
def l1dWays : Nat := 10
/-- The slice's cache part holds 32 MiB less the pinned region in 16 ways (R85, R87). -/
def sliceSets (pin : Nat) : Nat := (32 - pin) * 512
/-- Ways of a slice set (R85). -/
def sliceWays : Nat := 16

/-- The lines that stay and the line that leaves when a set would exceed its ways: the least recently used goes (R85, log 16). -/
def evict (sets ways n : Nat) (c : List Line) : List Line × Option Line :=
  let mine := c.filter (fun l => l.line % sets == n % sets)
  match mine.drop ways with
  | [] => (c, none)
  | l :: _ => (c.filter (fun x => x.line != l.line), some l)

/-- Fills under way for a core of lines that meet a test: what arrives does not stay in its L1D (R95, R104). -/
def State.staleL1d (s : State) (c : Nat) (p : Nat → Bool) : State :=
  let f (t : Txn) : Txn := match t.fill with
    | some l => if coreOfK t.acc.k = c ∧ p l.line then { t with stale := true } else t
    | none => t
  { s with txns := s.txns.map f }

/-- Fills under way at a pavilion of lines that meet a test: what arrives does not stay in its slice (R95, R104). -/
def State.staleSlice (s : State) (v : Nat) (p : Nat → Bool) : State :=
  let f (t : Txn) : Txn := match t.fill with
    | some l => if siteOfK t.acc.k = v ∧ p l.line then { t with staleSlice := true } else t
    | none => t
  { s with txns := s.txns.map f }

/-- A write-back of the dirty bytes of a line to its home memory site (R86), from the L1D of a core (`low` 0x10 to 0x1F) or the slice (0x20). A
write-back whose home is unreachable stays at its source (log 17). -/
def State.writeHome (s : State) (v low : Nat) (id : Option Nat) (l : Line) : State :=
  let a : Acc := { addr := BitVec.ofNat 60 (l.line * 128), op := .write, size := 128, data := l.data, en := l.dirty, k := v * 256, sup := true,
                   owner := .writeBack }
  match s.resolve v (xOf l.site) (yOf l.site) l.off with
  | some (d, m) => s.requestAs id v (s.engineKey v low) a { dst := d, off := l.off, mesh := m } none 128
  | none =>
    let (t, s) := s.txnNo id
    let m : Msg := { id := 0, op := .req .write, mesh := some .oak, src := v, dst := l.site, key := s.engineKey v low, off := l.off, len := 128,
                     data := l.data, en := l.dirty, txn := t, held := true }
    let s : State := { s with txns := s.txns ++ [{ id := t, acc := a, req := m }] }
    s.post m

/-- The dirty bytes of an L1D line go to the slice, or to the home when the slice does not hold the line (R86); a fill of the slice that is
under way is then older than they are. Bytes that have waited for an event's hold, under a transaction, are those of a write-back that a fence may
be waiting for: the slice's line goes on home with them (R106). -/
def State.writeSlice (s : State) (c : Nat) (id : Option Nat) (l : Line) : State :=
  let v := siteOfC c
  match lineOf l.line (s.site v).slice, id with
  | some w, none => s.modSite v fun t => { t with slice := t.slice.map fun x => if x.line = w.line then w.write 0 l.dirty l.data else x }
  | some w, some _ =>
    let s := s.modSite v fun t => { t with slice := t.slice.filter fun x => x.line != w.line }
    if w.flaw = 2 then (s.modSite v fun t => { t with slice := t.slice ++ [w] }).writeHome v (0x10 + c % 16) id l
    else
      let m := w.write 0 l.dirty l.data
      (s.modSite v fun t => { t with slice := toFront { m with dirty := 0 } t.slice }).writeHome v 0x20 id m
  | none, _ => (s.staleSlice v (· == l.line)).writeHome v (0x10 + c % 16) id l

/-- The dirty bytes of a line go on from the cache of unit u: 4 the slice, 16 + c the L1D of core c. -/
def State.lineOut (s : State) (v u : Nat) (id : Option Nat) (l : Line) : State :=
  if u = 4 then s.writeHome v 0x20 id l else s.writeSlice (v * 16 + (u - 16)) id l

/-- The event of a struck line (R90, R91, R430): corrected, a lasting error corrected, refetched from its home, or dirty bytes lost. -/
def State.lineEvent (s : State) (v u : Nat) (l : Line) : State :=
  if l.flaw = 1 then s.raise v u sevCorrected 0x0100 none 0
  else if l.flaw = 3 then s.raise v u sevCorrected 0x0101 none 0
  else if l.dirty = 0 then s.raise v u sevCorrected 0x0102 none 0
  else s.raise v u sevUncorrected 0x000F none (BitVec.ofNat 60 (l.line * 128))

/-- A struck line leaves its cache with dirty bytes: a correctable error is corrected and the bytes go on; uncorrectable data is never delivered,
and the loss is told by the event (R90, R91, R105, log 47). -/
def State.lineStruck (s : State) (v u : Nat) (id : Option Nat) (l : Line) : State :=
  let s := s.lineEvent v u l
  if l.flaw = 2 then s else s.lineOut v u id { l with flaw := 0 }

/-- A line that is on its way out of a cache of a pavilion. -/
def Site.isLeaving (t : Site) (n : Nat) : Bool := t.leaving.any fun q => q.line.line == n

/-- A line leaves a cache, or its dirty bytes do (R86, R105): a struck one waits until its event can be held (R165), and bytes of a line that waits
so follow it, so that older bytes never overtake newer ones on their way home (R104). -/
def State.lineLeaves (s : State) (v u : Nat) (l : Line) : State :=
  if l.dirty = 0 then s
  else if (s.site v).isLeaving l.line ∨ (l.flaw ≠ 0 ∧ s.holdFull v u) then
    let (t, s) := s.fresh
    s.modSite v fun x => { x with leaving := x.leaving ++ [{ unit := u, txn := t, line := l }] }
  else if l.flaw = 0 then s.lineOut v u none l
  else s.lineStruck v u none l

/-- The first line on its way out that waits for nothing any more: no earlier one of its address, and no hold that is taken. -/
def State.readyLine (s : State) (v : Nat) : List Leaving → List Nat → Option Leaving
  | [], _ => none
  | q :: t, seen =>
    if !seen.contains q.line.line && (q.line.flaw == 0 || !s.holdFull v q.unit) then some q else s.readyLine v t (q.line.line :: seen)

/-- The lines that have waited for the hold of a unit go on, once it is empty, each followed by the later bytes of its address (R104, R165). -/
def State.goLeaving (v : Nat) : Nat → State → State
  | 0, s => s
  | n + 1, s =>
    match s.readyLine v (s.site v).leaving [] with
    | none => s
    | some q =>
      let s := s.modSite v fun x => { x with leaving := x.leaving.erase q }
      State.goLeaving v n (if q.line.flaw = 0 then s.lineOut v q.unit (some q.txn) q.line else s.lineStruck v q.unit (some q.txn) q.line)

/-- What waits on its way out of the caches of a pavilion goes on as far as it can (R165). -/
def State.nextLeaving (s : State) (v : Nat) : State := State.goLeaving v (s.site v).leaving.length s

/-- A line filled into the L1D of a core; what leaves is written back (R86). A line that is there already is newer and stays (R104). -/
def State.fillL1d (s : State) (c : Nat) (l : Line) : State :=
  let x := s.core c
  match lineOf l.line x.l1d with
  | some w => s.setCore c { x with l1d := toFront w x.l1d }
  | none =>
    let (rest, out) := evict l1dSets l1dWays l.line (toFront l x.l1d)
    let s := s.setCore c { x with l1d := rest }
    match out with
    | some w => s.lineLeaves (siteOfC c) (16 + c % 16) w
    | none => s

/-- A line filled into the slice's cache part, if it has one; what leaves is written back to its home (R86, R87). -/
def State.fillSlice (s : State) (v : Nat) (l : Line) : State :=
  let t := s.site v
  if sliceSets t.slicePin = 0 then s
  else match lineOf l.line t.slice with
    | some w => s.setSite v { t with slice := toFront w t.slice }
    | none =>
      let (rest, out) := evict (sliceSets t.slicePin) sliceWays l.line (toFront l t.slice)
      let s := s.setSite v { t with slice := rest }
      match out with
      | some w => s.lineLeaves v 4 w
      | none => s

/-- The lines of a cache after a flush of those that meet a test: their dirty bytes have left; with `drop`, and a line whose bytes are lost, they
are gone (R91, R105, R106). -/
def flushed (p : Nat → Bool) (drop : Bool) (ls : List Line) : List Line :=
  (ls.filter fun l => !(p l.line && (drop || (l.dirty != 0 && l.flaw == 2)))).map fun l =>
    if p l.line && l.dirty != 0 then { l with dirty := 0, flaw := 0 } else l

/-- Write back the dirty bytes of the L1D lines of a core that meet a test; with `drop` the lines are invalidated too (R105, R106). -/
def State.flushL1d (s : State) (c : Nat) (p : Nat → Bool) (drop : Bool) : State :=
  let ls := (s.core c).l1d.filter fun l => p l.line && l.dirty != 0
  let s := s.modCore c fun x => { x with l1d := flushed p drop x.l1d }
  let s := each ls (fun s l => s.lineLeaves (siteOfC c) (16 + c % 16) l) s
  if drop then s.staleL1d c p else s

/-- The same for the slice of a pavilion: dirty bytes go to their homes (R106). -/
def State.flushSlice (s : State) (v : Nat) (p : Nat → Bool) (drop : Bool) : State :=
  let ls := (s.site v).slice.filter fun l => p l.line && l.dirty != 0
  let s := s.modSite v fun x => { x with slice := flushed p drop x.slice }
  let s := each ls (fun s l => s.lineLeaves v 4 l) s
  if drop then s.staleSlice v p else s

/-! ## Waiting for write-backs (R106, R113, R114, R307) -/

/-- Write-backs under way at pavilion v, as transactions: from the L1Ds of the cores with numbers `cs` and, with `sl`, from the slice, of lines
that meet a test. -/
def State.writeBacks (s : State) (v : Nat) (cs : List Nat) (sl : Bool) (p : Nat → Bool) : List Nat :=
  let from_ (low : Nat) : Bool := if low = 0x20 then sl else cs.any fun c => low == 0x10 + c
  ((s.site v).leaving.filter fun q => p q.line.line && from_ (if q.unit = 4 then 0x20 else q.unit)).map (·.txn) ++
    (s.txns.filter fun t => decide (t.acc.owner = .writeBack) && t.req.src == v && from_ (t.req.key % 256) && p (t.acc.addr.toNat / 128)).map (·.id)

/-- One of some write-backs of a pavilion is still to be performed. -/
def State.unwritten (s : State) (v : Nat) (l : List Nat) : Bool :=
  s.txns.any (fun t => l.contains t.id) || (s.site v).leaving.any fun q => l.contains q.txn

end Sys2Proof.Machine
end

