-- ==== Sys2Proof/Machine/Counters.lean ====
section
/-! DEFINITION. Trigger counters, their waits and the states of the trigger list (R215-R220). -/

namespace Sys2Proof.Machine

/-- The operation a strand is parked for is complete: pc moves on and the strand rejoins the rotation. -/
def State.completed (s : State) (k n : Nat) : State := if (s.strand k).st = .parked then (s.advance k n).wake k else s

/-- Trigger counter n of a pavilion (R215). -/
def State.tc (s : State) (v n : Nat) : Word := Tab.get 0 n (s.site v).tc

/-- The counter that a trigger entry watches (R360). -/
def Trig.watch (t : Trig) : Nat := bits ((t.block[0]?).getD 0).toNat 25 16

/-- The strands of a pavilion that wait for counter n at a threshold that the value has reached (R217). -/
def State.counterWaiters (s : State) (v n : Nat) (w : Word) : List Nat :=
  (s.strands.filter fun (k, x) => siteOfK k == v && x.st == .parked &&
    (match x.cont with | .counter m t => m == n && decide (t.toNat ≤ w.toNat) | _ => false)).map (·.1)

/-- The test, at the end of a cycle, of the trigger entries that watch one of some counters (R218, R219): reached entries become ELIGIBLE,
in one order with each other, and entries set below their threshold ARMED again. -/
def Site.testTrigs (t : Site) (ns : List Nat) : Site :=
  let f (e : Nat × Trig) : Nat × Trig :=
    let w := (Tab.get 0 e.2.watch t.tc).toNat
    if !ns.contains e.2.watch then e
    else if e.2.st == .armed && decide (e.2.threshold ≤ w) then (e.1, { e.2 with st := .eligible, due := t.trigDue })
    else if e.2.st == .eligible && decide (w < e.2.threshold) then (e.1, { e.2 with st := .armed })
    else e
  { t with trigs := t.trigs.map f, trigDue := t.trigDue + 1 }

/-- The test of the trigger entries that watch some counters, for a change in a cycle of its own; what meets in an instant is tested once, at its
end (R219, R220). -/
def State.testWatched (s : State) (v : Nat) (ns : List Nat) : State :=
  if s.instant.isSome then s else s.modSite v fun t => t.testTrigs ns

/-- Counters take values. Each change is a pavilion, a counter and its value. -/
def State.putTc (s : State) (l : List (Nat × Nat × Word)) : State :=
  each l (fun s p => s.modSite p.1 fun t => { t with tc := Tab.put p.2.1 p.2.2 t.tc }) s

/-- The strands that wait for counters at the values they have reached are woken (R217). -/
def State.wakeTc (s : State) (l : List (Nat × Nat × Word)) : State :=
  each l (fun s p => each (s.counterWaiters p.1 p.2.1 p.2.2) (fun s k => s.completed k 4) s) s

/-- Counters take values at the end of a cycle: then the entries that watch them are tested and the strands that wait for them are woken
(R216-R219). -/
def State.applyTc (s : State) (l : List (Nat × Nat × Word)) : State :=
  let s := s.putTc l
  let s := each ((l.map (·.1)).eraseDups) (fun s v => s.modSite v fun t => t.testTrigs ((l.filter fun p => p.1 == v).map (·.2.1))) s
  s.wakeTc l

/-- A counter is set; within an instant the change waits for its end (R216). -/
def State.setTc (s : State) (v n : Nat) (w : Word) : State :=
  match s.instant with
  | some l => { s with instant := some (l ++ [{ v, n, set := true, w }]) }
  | none => s.applyTc [(v, n, w)]

/-- An add to a counter, modulo 2^64 (R215, R216). -/
def State.addTc (s : State) (v n : Nat) (a : Word) : State :=
  match s.instant with
  | some l => { s with instant := some (l ++ [{ v, n, set := false, w := a }]) }
  | none => s.applyTc [(v, n, s.tc v n + a)]

/-- What a counter holds after the changes of a cycle: a set first, then the sum of the adds (R216). -/
def tcAfter (l : List TcChange) (v n : Nat) (old : Word) : Word :=
  let mine := l.filter fun c => c.v == v && c.n == n
  let base := match (mine.filter (·.set)).getLast? with | some c => c.w | none => old
  (mine.filter (!·.set)).foldl (fun w c => w + c.w) base

/-- A site at the end of an instant: every trigger entry is tested once, so that the entries that become ELIGIBLE in it have one place in the order of
firing (R219, R220). -/
def Site.endInstant (t : Site) : Site :=
  let t := { t with coordNow := false, fires := 0 }
  if t.trigs.isEmpty then t else t.testTrigs (t.trigs.map (·.2.watch))

/-- A core at the end of an instant: no first write and no first fault of the cycle is under way any more (R73, R333). -/
def Core.endInstant (x : Core) : Core :=
  { x.modPermits fun p => { p with was := none } with vq := x.vq.map fun o => { o with faultLane := none } }

/-- The end of an instant: the changes of the counters are applied, each counter once, the trigger entries tested, the waiting strands woken
(R216-R220), and what the cores counted is settled (R64, R73). -/
def State.endInstant (s : State) : State :=
  match s.instant with
  | none => s
  | some l =>
    let cs := ((l.map fun c => (c.v, c.n)).eraseDups).map fun p => (p.1, p.2, tcAfter l p.1 p.2 (s.tc p.1 p.2))
    let s := ({ s with instant := none } : State).putTc cs
    let s : State := { s with sites := s.sites.map fun (v, t) => (v, t.endInstant), cores := s.cores.map fun (c, x) => (c, x.endInstant) }
    let s := s.wakeTc cs
    { s with cores := s.cores.map fun (c, x) => (c, x.endTally) }

end Sys2Proof.Machine
end

