-- ==== Sys2Proof/Machine/Halt.lean ====
section
/-! DEFINITION. How a parked strand stops for a save (R132, R144, R162): at the forced-save deadline, and whenever it parks anew after it. -/

namespace Sys2Proof.Machine

/-- The full/empty operation a strand waited for is gone: its vector operation, if it is one, leaves the unit, and the strand is woken (R132). -/
def State.endFe (s : State) (k : Nat) : State := (s.modCore (coreOfK k) fun c => { c with vq := c.vq.filter fun o => o.k != k }).wake k

/-- A transaction changed. -/
def State.modTxn (s : State) (n : Nat) (f : Txn → Txn) : State := { s with txns := s.txns.map fun t => if t.id = n then f t else t }

/-- The full/empty operation a strand waits for is withdrawn (R132): the home is told, or a deferred operation is not sent again. -/
def State.withdrawFe (s : State) (k : Nat) : State :=
  match s.txns.find? (fun t => decide (t.acc.owner = .strand k)) with
  | none => s
  | some t =>
    if t.withdrawn then s
    else if t.resend then (s.dropTxn t.id).endFe k
    else
      let (w, s) := (s.modTxn t.id fun t => { t with withdrawn := true }).fresh
      let q : Msg := { id := 0, op := .feWithdraw t.id, mesh := t.req.mesh, src := t.req.src, dst := t.req.dst, key := t.req.key,
                       unit := t.req.unit, off := t.req.off, txn := w }
      let s : State := { s with txns := s.txns ++ [{ id := w, acc := { k, size := 0, owner := .nobody }, req := q }] }
      s.sendAgain q

/-- A parked strand stops at the forced-save deadline and keeps its reason and wait, with which it parks again (R144, R162). -/
def State.halt (s : State) (k : Nat) : State := s.modStrand k fun x => { x with st := .stopped }

/-- A fence waits for the host only: its earlier actions are done (R162). -/
def State.hostWait (s : State) (k : Nat) (c : Cont) : Bool :=
  match c with
  | .flush mode _ l => !s.unwritten (siteOfK k) l && mode != 0
  | _ => false

/-- What the forced-save deadline does to a parked strand (R162): some waits end at once, the others when the reply or action completes. -/
def State.deadlineStrand (s : State) (k : Nat) : State :=
  let x := s.strand k
  match x.st, x.why with
  | .parked, some r =>
    if r = .fullEmpty then s.withdrawFe k
    else if r = .barrier ∨ r = .pageFault ∨ r = .pendingRegister then s.halt k
    else if r = .monitor ∨ r = .counter ∨ r = .join ∨ r = .mailbox ∨ r = .claim ∨ r = .relaxedFull then (s.dropWaiter k).stop k
    else if x.cont = .ending || s.hostWait k x.cont then s.stop k
    else s
  | _, _ => s

/-- A strand that has parked anew while its gang's deadline has expired stops as the deadline would have stopped it (R132, R144, R162). -/
def State.testHalt (s : State) (k : Nat) : State :=
  if slotOf k < 13 ∧ (s.gang (siteOfK k) (s.strand k).entry).expired then s.deadlineStrand k else s

end Sys2Proof.Machine
end

