-- ==== Sys2Proof/Machine/Home.lean ====
section
/-! DEFINITION. What a home does with the requests that reach it: bytes, full/empty bits and wait lists, watches, atomics, integrity
(R80, R85, R88-R91, R99, R110, R127-R134, R404). -/

namespace Sys2Proof.Machine

/-- The unit number of a home for its event hold (R165): 0-4 the SRAM units of a pavilion, 5 an HBM controller. -/
def holdUnit (v u : Nat) : Nat := if kindOf v = .pavilion then u else 5

/-- The memory keys of the granules that an access of `n` bytes at an offset touches, divided by 16. -/
def granuleKeys (v u off n : Nat) : List Nat :=
  (List.range ((off + n - 1) / 16 + 1 - off / 16)).map fun i => homeKey v u 0 / 16 + off / 16 + i

/-! ## Integrity (R90, R91, R430) -/

/-- The struck granules among those that an access touches, with the nature of the error. -/
def State.flawed (s : State) (gs : List Nat) : List (Nat × Nat) :=
  gs.filterMap fun g => (Tab.find g s.flaws).map fun n => (g, n)

/-- A home reads a struck granule (R90, R91, R430): a correctable error is corrected and raises a corrected event, a transient uncorrectable one
is delivered on the second read, and a lasting uncorrectable one gives the fault. The answer says whether the data are good. -/
def State.inspect (s : State) (v u : Nat) (f : Nat × Nat) : Bool × State :=
  let code := if f.2 = 1 then 0x0101 else if f.2 = 3 then 0x000F else 0x0100
  let s := s.raise v (holdUnit v u) (if f.2 = 3 then sevUncorrected else sevCorrected) code none 0
  (f.2 != 3, if f.2 = 0 ∨ f.2 = 2 then { s with flaws := Tab.del f.1 s.flaws } else s)

/-- The home must raise an event but its hold is taken: the access stays where it is (R165). -/
def State.stalled (s : State) (v u : Nat) (gs : List Nat) : Bool := !(s.flawed gs).isEmpty && s.holdFull v (holdUnit v u)

/-- What a home's reading of granules comes to, from the `n`th on: all good; one struck granule was read well, and the number of the next to read;
one cannot be delivered; or the event that one calls for cannot be held yet (R165). -/
inductive Inspected where
  | clean
  | mended (s : State) (next : Nat)
  | lost (s : State)
  | stalls

/-- A home reads granules in order, one event at a time (R90, R91, R165). -/
def State.readOver (s : State) (v u : Nat) (gs : List Nat) (n : Nat) : Inspected :=
  match (gs.zipIdx.drop n).find? fun p => (Tab.find p.1 s.flaws).isSome with
  | none => .clean
  | some (g, i) =>
    if s.holdFull v (holdUnit v u) then .stalls
    else
      let (good, t) := s.inspect v u (g, Tab.get 0 g s.flaws)
      if good then .mended t (i + 1) else .lost t

/-- An engine of the pavilion reads granules of its store as one operation: struck ones are read in order until one is lost (R90, R91, log 58). -/
def State.inspectAll (s : State) (v u : Nat) (gs : List Nat) : Bool × State :=
  (s.flawed gs).foldl (fun q f => if q.1 then q.2.inspect v u f else q) (true, s)

/-- Granules that are written with fresh check bits are struck no more (R91). -/
def State.freshen (s : State) (gs : List Nat) : State := { s with flaws := s.flaws.filter fun f => !gs.contains f.1 }

/-! ## Watches (R133, R134) -/

/-- A write to a granule fires the monitors that watch it, save the writer's own (R134). A network-select change of the home holds the message
(R205, R206). -/
def State.fire (s : State) (v u g key : Nat) : State :=
  let ws := (s.site v).watches.filter fun w => w.unit == u && w.granule == g && s.number w.k != key
  each ws (fun s w =>
    let m := (s.resolve v (s.virt w.src).1 (s.virt w.src).2 0).bind (·.2)
    s.sendOut { id := 0, op := .monFire (slotOf w.k), mesh := m, src := v, dst := w.src, key := s.number w.k }) s

/-- The granules of a byte range fire their watches, in order. -/
def State.fireAll (s : State) (v u off n key : Nat) : State :=
  each ((List.range ((off + n - 1) / 16 + 1 - off / 16)).map (off / 16 + ·)) (fun s g => s.fire v u g key) s

/-- A home writes bytes: data, and the watches of the granules written (R94, R134). -/
def State.store (s : State) (v u off en : Nat) (d : List Byte) (key : Nat) : State :=
  ({ s with mem := Memory.writeN s.mem (homeKey v u off) en d }).fireAll v u off d.length key

/-- The granules that a write of n bytes writes only in part, and so reads (R91). -/
def partGranules (v u off n : Nat) : List Nat :=
  (granuleKeys v u off n).filter fun g => decide (16 * g < homeKey v u off ∨ homeKey v u off + n < 16 * g + 16)

/-- An engine of the pavilion writes bytes to its store: a granule written whole carries fresh check bits, one written in part is read first, and an
uncorrectable one keeps its bytes, with its event alone, since no strand made the access (R90, R91, log 84). -/
def State.engineStore (s : State) (v u off : Nat) (d : List Byte) (key : Nat) : State :=
  let part := partGranules v u off d.length
  let lost := ((s.flawed part).filter fun f => f.2 == 3).map (·.1)
  let en := (List.range d.length).foldl (fun m j => if lost.contains ((homeKey v u off + j) / 16) then m else setBit m j) 0
  let s := (s.flawed part).foldl (fun s f => (s.inspect v u f).2) s
  (s.freshen ((granuleKeys v u off d.length).filter fun g => !part.contains g)).store v u off (if lost.isEmpty then allOn d.length else en) d key

/-- A home reads bytes. -/
def State.fetchBytes (s : State) (v u off n : Nat) : List Byte := Memory.readN s.mem (homeKey v u off) n

/-! ## Full/empty bits and wait lists (R88, R127-R132, R331) -/

/-- The bit of a granule of a unit. -/
def State.isFull (s : State) (v u g : Nat) : Bool := s.full.contains (homeKey v u 0 / 16 + g)
/-- The bit of a granule set full. -/
def State.fill (s : State) (v u g : Nat) : State := { s with full := NatSet.add (homeKey v u 0 / 16 + g) s.full }
/-- The bit of a granule set empty. -/
def State.drain (s : State) (v u g : Nat) : State := { s with full := NatSet.del (homeKey v u 0 / 16 + g) s.full }

/-- The wait list of a granule, in admission order (R127). -/
def Site.waitList (t : Site) (u g : Nat) : List WaitRec := t.waits.filter fun r => r.unit == u && r.granule == g

/-- The granules of a 128-byte block. -/
def blockOf (off : Nat) : List Nat := (List.range 8).map (off / 16 + ·)

/-- The answer to a record goes out and the record is gone. -/
def State.answerRec (s : State) (v : Nat) (r : WaitRec) (op : MsgOp) (d : List Byte) : State :=
  let s := s.modSite v fun t => { t with waits := t.waits.filter (fun q => q.order != r.order) }
  match s.txn r.txn with
  | some t => s.reply t.req op d false
  | none => s

/-- The records of a home are kept in admission order, whatever list they stand in. -/
def insertRec (r : WaitRec) : List WaitRec → List WaitRec
  | [] => [r]
  | q :: t => if r.order < q.order then r :: q :: t else q :: insertRec r t

/-- The ordering key of the strand a record stands for (R100, R127). -/
def State.recKey (s : State) (r : WaitRec) : Nat := match s.txn r.txn with | some t => t.req.key | none => 2 ^ 25

/-- The list of a granule is served later, once the home can hold the event that it calls for (R165). -/
def State.leaveUnserved (s : State) (v u g : Nat) : State :=
  s.modSite v fun t => { t with unserved := if t.unserved.contains (u, g) then t.unserved else t.unserved ++ [(u, g)] }

/-- A waiting `ldf.64` or `ldfc.64` is served on a full granule (R88, R131). -/
def State.serveLoad (s : State) (v u g : Nat) (r : WaitRec) : State :=
  let key := s.recKey r
  let s := s.answerRec v r .data (s.fetchBytes v u r.off 8)
  if r.op = .ldfc then (s.drain v u g).fire v u g key else s

/-- A home serves the wait lists of granules in turn (R131, R331): the head of a list is served while its condition holds; a record for
a block that is not all full moves to the list of its lowest empty granule. -/
def State.serve : Nat → List Nat → Nat → Nat → State → State
  | 0, _, _, _, s => s
  | _ + 1, [], _, _, s => s
  | n + 1, g :: gs, v, u, s =>
    match (s.site v).waitList u g with
    | [] => State.serve n gs v u s
    | r :: _ =>
      let f := s.isFull v u g
      match r.op with
      | .ldf | .ldfc =>
        if !f then State.serve n gs v u s
        else match s.readOver v u (granuleKeys v u r.off 8) 0 with
          | .stalls => State.serve n gs v u (s.leaveUnserved v u g)
          | .lost t => State.serve n (g :: gs) v u (t.answerRec v r (.error Code.uncorrectable.num) [])
          | .mended t _ => State.serve n (g :: gs) v u (t.serveLoad v u g r)
          | .clean => State.serve n (g :: gs) v u (s.serveLoad v u g r)
      | .stef =>
        if f then State.serve n gs v u s
        else State.serve n (g :: gs) v u ((((s.freshen [homeKey v u 0 / 16 + g]).store v u r.off (allOn 8) r.data (s.recKey r)).fill v u g).answerRec v r .ack [])
      | .vldf c =>
        match (blockOf r.off).find? (fun h => !s.isFull v u h) with
        | none =>
          match s.readOver v u (granuleKeys v u r.off 128) r.seen with
          | .stalls => State.serve n gs v u (s.leaveUnserved v u g)
          | .lost t => State.serve n (g :: gs) v u (t.answerRec v r (.error Code.uncorrectable.num) [])
          | .mended t i => State.serve n (g :: gs) v u (t.modSite v fun x => { x with waits := x.waits.map fun q => if q.order = r.order then { q with seen := i } else q })
          | .clean =>
            let t := s.answerRec v r .data (s.fetchBytes v u r.off 128)
            if c then
              State.serve n (g :: (blockOf r.off ++ gs)) v u (each (blockOf r.off) (fun s h => (s.drain v u h).fire v u h (t.recKey r)) t)
            else State.serve n (g :: gs) v u t
        | some h =>
          if h = g then State.serve n gs v u s
          else
            let s := s.modSite v fun t =>
              { t with waits := insertRec { r with granule := h } (t.waits.filter (fun q => q.order != r.order)) }
            State.serve n (g :: gs) v u s
      | _ => State.serve n gs v u s

/-- Enough passes for 256 records: each is served once and moved at most eight times, and of its block at most eight granules are mended. -/
def serveFuel : Nat := 8192

/-- The home serves the lists of granules whose bit has changed (R131). -/
def State.serveLists (s : State) (v u : Nat) (gs : List Nat) : State := State.serve serveFuel gs v u s

/-- Other operations than requests have changed the bits of granules of a unit: the lists of these granules are served in ascending order
(R129, R131). -/
def State.serveChanged (s before : State) (v u : Nat) : State :=
  let gs := ((s.site v).waits.filter fun r => r.unit == u && s.isFull v u r.granule != before.isFull v u r.granule).map (·.granule)
  s.serveLists v u (gs.foldl (fun l g => NatSet.add g l) [])

/-- A unit's hold is empty again: the lists that waited for it are served (R131, R165). -/
def State.serveRest (s : State) (v u : Nat) : State :=
  let gs := ((s.site v).unserved.filter fun p => p.1 == u).map (·.2)
  if gs.isEmpty then s else (s.modSite v fun t => { t with unserved := t.unserved.filter fun p => p.1 != u }).serveLists v u gs

/-- The records of a unit's wait table (R127). -/
def Site.tableLoad (t : Site) (u : Nat) : Nat := (t.waits.filter (fun r => r.unit == u)).length

/-- An operation whose condition fails is admitted to a wait list, or deferred when the table is full (R127, R128). The strand's park
reason becomes full/empty (R126), and it stops with that reason if its gang's deadline has expired (R132). One whose strand's gang has
aborted is not admitted (log 45). Every deferral is counted (R229). -/
def State.enlist (s : State) (m : Msg) (g : Nat) (op : ReqOp) : State :=
  let v := m.dst
  let k? := (s.txn m.txn).bind fun t => if t.acc.owner.gone then none else some t.acc.k
  let s : State := match k? with
    | some k => if (s.strand k).why = some Park.access ∨ (s.strand k).why = some Park.vector then (s.repark k .fullEmpty).count (coreOfK k) 0x00E 1 else s
    | none => s
  let t := s.site v
  let s :=
    if k?.isSome && decide (t.tableLoad m.unit < 256) then
      s.setSite v { t with
        waits := insertRec { unit := m.unit, granule := g, order := t.waitOrder, txn := m.txn, op, src := m.src, off := m.off, data := m.data, seen := 0 } t.waits,
        waitOrder := t.waitOrder + 1 }
    else
      (s.setSite v { t with retries := Tab.put 0xC3100 (Tab.get 0 0xC3100 t.retries + 1) t.retries }).reply m .deferral [] false
  match k? with
  | some k => s.testHalt k
  | none => s

/-! ## The request at its home -/

/-- The access that a request belongs to was made in user mode (R75, R80). -/
def State.userAccess (s : State) (m : Msg) : Bool := match s.txn m.txn with | some t => !t.acc.sup | none => false

/-- Some resident gang holds store granule n of bower b (R80). -/
def Site.storeHeld (t : Site) (b n : Nat) : Bool := t.gangs.any fun (_, g) => g.st != .free && (Tab.get [] b g.stores).contains n

/-- What a home answers with an error before it looks at n bytes of its memory (R80, R197, R298, R411, R416): the code. -/
def State.placeError (s : State) (user fe : Bool) (d u off n : Nat) : Option Code :=
  let t := s.site d
  if t.state = .failed ∨ t.state = .isolated then some .unreachableSite
  else match kindOf d with
    | .memory => if fe then some .feHome else if u ≠ 0 ∨ 36000000000 < off + n then some .addressRange else none
    | .gatehouse => if fe then some .feHome else none
    | .pavilion =>
      if u = 4 then if off + n > t.slicePin * 2 ^ 20 then some .addressRange else none
      else if u < 4 && user && (List.range ((off + n - 1) / 16384 + 1 - off / 16384)).any (fun i => !t.storeHeld u (off / 16384 + i)) then some .unheldStore
      else none

/-- The error that a home answers a request of n bytes with. -/
def State.homeError (s : State) (m : Msg) (fe : Bool) (n : Nat) : Option Code := s.placeError (s.userAccess m) fe m.dst m.unit m.off n

/-- A request that has arrived, on a memory unit. -/
def State.arrivingReq (s : State) (n : Nat) (p : ReqOp → Bool) : Option Msg :=
  match s.arriving n with
  | some m => match m.op with
    | .req op => if p op then some m else none
    | _ => none
  | none => none

/-- The message stays at its home, which has inspected its first granules. -/
def State.inspectedTo (s : State) (n i : Nat) : State := { s with net := s.net.map fun q => if q.id = n then { q with seen := i } else q }

/-- A completion tag that a memory site discards, with an event (R411). -/
def Msg.strayTag (m : Msg) : Bool := m.tag.isSome && decide (kindOf m.dst = .memory)

/-- A granule of a request waits for its list to be served first (R131). -/
def State.unservedFor (s : State) (m : Msg) (n : Nat) : Bool :=
  (s.site m.dst).unserved.any fun p => p.1 == m.unit && decide (m.off / 16 ≤ p.2 ∧ p.2 ≤ (m.off + n - 1) / 16)

/-- The home performs a request of `n` bytes (R99): the errors it answers at once, the integrity of the granules `gs` that it reads, one event at a
time, then the operation itself. An event that cannot be held keeps the request waiting (R165). DESIGN CHOICE (log 84): a request of several granules
of which one is uncorrectable is refused whole, a write-back with it, where R91 says nothing of the others. -/
def State.atHome (s : State) (m : Msg) (fe : Bool) (n : Nat) (gs : List Nat) (act : State → Msg → State) : Option State :=
  match s.homeError m fe n with
  | some c => some ((s.consume m.id).reply m (.error c.num) [] false)
  | none =>
    if s.unservedFor m n then none
    else match s.readOver m.dst m.unit gs m.seen with
      | .stalls => none
      | .lost t => some ((t.consume m.id).reply m (.error Code.uncorrectable.num) [] false)
      | .mended t i =>
        match t.readOver m.dst m.unit gs i, m.strayTag with
        | .clean, false => some (act (t.consume m.id) m)
        | _, _ => some (t.inspectedTo m.id i)
      | .clean => if m.strayTag && s.holdFull m.dst 5 then none else some (act (s.consume m.id) m)

/-- The completion tag of a request that the home has performed: the counter rises by the contributions carried, or, at a memory site,
the tag is discarded with a notice event (R216, R363, R411). -/
def State.raiseTag (s : State) (m : Msg) : State :=
  match m.tag with
  | none => s
  | some n => if kindOf m.dst = .pavilion then s.addTc m.dst n (BitVec.ofNat 64 m.count) else s.raise m.dst 5 sevNotice 0x010B none 0

/-- A read (R99). -/
def State.performRead (s : State) (m : Msg) : State := s.reply m .data (s.fetchBytes m.dst m.unit m.off m.len) false

/-- Granules that an access of n bytes touches, by number in the unit. -/
def granuleNos (off n : Nat) : List Nat := (List.range ((off + n - 1) / 16 + 1 - off / 16)).map (off / 16 + ·)

/-- The halves of byte `a` of the unit that a write names, low half first (R330, R401). -/
def Msg.halves (m : Msg) (a : Nat) : Bool × Bool :=
  if m.off ≤ a ∧ a < m.off + m.len then
    let j := a - m.off
    (bitOn m.en j, if m.op = .req .nibble then bitOn m.hi j else bitOn m.en j)
  else (false, false)

/-- A write names both halves of every byte of a granule: it writes the granule whole (R91). -/
def Msg.wholly (m : Msg) (g : Nat) : Bool := (List.range 16).all fun i => let h := m.halves (g * 16 + i); h.1 && h.2

/-- A write names some half of a byte of a granule. -/
def Msg.partly (m : Msg) (g : Nat) : Bool := (List.range 16).any fun i => let h := m.halves (g * 16 + i); h.1 || h.2

/-- Memory keys of granules, divided by 16. -/
def Msg.keys (m : Msg) (gs : List Nat) : List Nat := gs.map (homeKey m.dst m.unit 0 / 16 + ·)

/-- The granules that a write reads: those that it writes in part (R91). -/
def Msg.mixed (m : Msg) : List Nat := m.keys ((granuleNos m.off m.len).filter fun g => m.partly g && !m.wholly g)

/-- Granules written whole carry fresh check bits (R91). -/
def State.repair (s : State) (m : Msg) : State := s.freshen (m.keys ((granuleNos m.off m.len).filter m.wholly))

/-- A write (R88, R99). -/
def State.performWrite (s : State) (m : Msg) : State :=
  (((s.repair m).store m.dst m.unit m.off m.en m.data m.key).raiseTag m).reply m .ack [] false

/-- A write that sets its granules full, with fresh check bits, and serves their lists in ascending order (R88, R91, R131, R331). DESIGN CHOICE
(log 84): a granule that it repairs keeps the bytes that the write does not name as they were, where R91 says nothing of them. -/
def State.performWriteFull (s : State) (m : Msg) : State :=
  let gs := granuleNos m.off m.len
  let s := (s.freshen (granuleKeys m.dst m.unit m.off m.len)).store m.dst m.unit m.off m.en m.data m.key
  let s := each gs (fun s g => s.fill m.dst m.unit g) s
  ((s.raiseTag m).reply m .ack [] false).serveLists m.dst m.unit gs

/-- `ldf.64` (R88, R129). -/
def State.performLdf (s : State) (m : Msg) : State :=
  if s.isFull m.dst m.unit (m.off / 16) then s.reply m .data (s.fetchBytes m.dst m.unit m.off 8) false
  else s.enlist m (m.off / 16) .ldf

/-- `ldfc.64` (R88, R129). -/
def State.performLdfc (s : State) (m : Msg) : State :=
  let g := m.off / 16
  if s.isFull m.dst m.unit g then
    (((s.reply m .data (s.fetchBytes m.dst m.unit m.off 8) false).drain m.dst m.unit g).fire m.dst m.unit g m.key).serveLists m.dst m.unit [g]
  else s.enlist m g .ldfc

/-- `ldfn.64` (R88, R130, R299). -/
def State.performLdfn (s : State) (m : Msg) : State :=
  s.reply m .data (s.fetchBytes m.dst m.unit m.off 8) (s.isFull m.dst m.unit (m.off / 16))

/-- `stef.64` (R88, R129): it sets the granule full and so writes fresh check bits (R91). -/
def State.performStef (s : State) (m : Msg) : State :=
  let g := m.off / 16
  if s.isFull m.dst m.unit g then s.enlist m g .stef
  else ((((s.freshen (granuleKeys m.dst m.unit m.off 8)).store m.dst m.unit m.off (allOn 8) m.data m.key).fill m.dst m.unit g).reply m .ack [] false).serveLists m.dst m.unit [g]

/-- `clre` (R88). -/
def State.performClre (s : State) (m : Msg) : State :=
  let g := m.off / 16
  (((s.drain m.dst m.unit g).fire m.dst m.unit g m.key).reply m .ack [] false).serveLists m.dst m.unit [g]

/-- `setf` (R88). -/
def State.performSetf (s : State) (m : Msg) : State :=
  let g := m.off / 16
  (((s.fill m.dst m.unit g).fire m.dst m.unit g m.key).reply m .ack [] false).serveLists m.dst m.unit [g]

/-- `vldf` (R331): a block that is not all full waits in the list of its lowest empty granule. -/
def State.performVldf (s : State) (m : Msg) (c : Bool) : State :=
  match (blockOf m.off).find? (fun h => !s.isFull m.dst m.unit h) with
  | some h => s.enlist m h (.vldf c)
  | none =>
    let s := s.reply m .data (s.fetchBytes m.dst m.unit m.off 128) false
    if c then
      (each (blockOf m.off) (fun s h => (s.drain m.dst m.unit h).fire m.dst m.unit h m.key) s).serveLists m.dst m.unit (blockOf m.off)
    else s

/-- One byte of a nibble write: the enabled halves are replaced (R330, R401). -/
def nibbleByte (old new : Byte) (lo hi : Bool) : Byte :=
  BitVec.ofNat 8 ((if lo then new.toNat % 16 else old.toNat % 16) + 16 * (if hi then new.toNat / 16 else old.toNat / 16))

/-- A nibble write: one indivisible read-modify-write of each byte that an enable names (R330); a granule written whole carries fresh check
bits (R91). -/
def State.performNibble (s : State) (m : Msg) : State :=
  let s := s.repair m
  let d := (m.data.zip (s.fetchBytes m.dst m.unit m.off m.len)).zipIdx.map fun ((n, o), j) => nibbleByte o n (bitOn m.en j) (bitOn m.hi j)
  (s.store m.dst m.unit m.off (m.en ||| m.hi) d m.key).reply m .ack [] false

/-- The value that a non-fetching atomic leaves (R300): 64-bit operands, 32-bit for fadd. -/
def amoApply (op : AmoOp) (old x : Nat) (g : FFlags) : Nat :=
  let a := BitVec.ofNat 64 old
  let b := BitVec.ofNat 64 x
  match op with
  | .add => (a + b).toNat
  | .fadd => homeFadd old x g
  | .minI => if a.toInt ≤ b.toInt then old else x
  | .maxI => if a.toInt ≤ b.toInt then x else old
  | .minN => if old ≤ x then old else x
  | .maxN => if old ≤ x then x else old
  | .and => (a &&& b).toNat
  | .or => (a ||| b).toNat
  | .xor => (a ^^^ b).toNat

/-- Operand bytes of an atomic. -/
def AmoOp.size : AmoOp → Nat
  | .fadd => 4
  | _ => 8

/-- The input flags of the operand of an `amo.fadd` (R112, R251): a merged request carries those of its contributions, any other operand is classed
by its encoding. -/
def Msg.addFlags (m : Msg) (op : AmoOp) (x : Nat) : FFlags :=
  if op = .fadd then (if 1 < m.count then m.flags else fp32.flags x) else {}

/-- The key of the writer for the watches (R134): a merged atomic carries a part of another source, whatever strand has armed. -/
def Msg.writer (m : Msg) : Nat := if 1 < m.count then 2 ^ 25 else m.key

/-- A non-fetching atomic, performed once whatever it carries (R110, R111, R300). -/
def State.performAmo (s : State) (m : Msg) (op : AmoOp) : State :=
  let n := op.size
  let old := leNat (s.fetchBytes m.dst m.unit m.off n)
  let x := leNat (m.data.take n)
  let w := amoApply op old x (m.addFlags op x)
  ((s.store m.dst m.unit m.off (allOn n) (leBytes n w) m.writer).raiseTag m).reply m .ack [] false

/-- Operand bytes of a fetching atomic. -/
def FamoOp.size : FamoOp → Nat
  | .fadd => 4
  | _ => 8

/-- The value that a fetching atomic leaves; a compare-and-swap carries the compare value, then the new one (R301). -/
def famoApply (op : FamoOp) (old : Nat) (d : List Byte) : Nat :=
  let x := leNat (d.take 8)
  match op with
  | .add => (BitVec.ofNat 64 old + BitVec.ofNat 64 x).toNat
  | .fadd => homeFadd old (leNat (d.take 4)) (fp32.flags (leNat (d.take 4)))
  | .or => (BitVec.ofNat 64 old ||| BitVec.ofNat 64 x).toNat
  | .swap => x
  | .cas => if old = x then leNat ((d.drop 8).take 8) else old

/-- A fetching atomic returns the old value; a compare that fails still counts as a write for monitors (R110, R301). -/
def State.performFamo (s : State) (m : Msg) (op : FamoOp) : State :=
  let n := op.size
  let old := leNat (s.fetchBytes m.dst m.unit m.off n)
  (s.store m.dst m.unit m.off (allOn n) (leBytes n (famoApply op old m.data)) m.key).reply m .data (leBytes n old) false

end Sys2Proof.Machine
end

