-- ==== Sys2Proof/Machine/Access.lean ====
section
/-! DEFINITION. The accesses of strands: the L1D within the turn, plain accesses that park, relaxed accesses and their tracker, late
faults (R98, R102, R135, R290-R297). -/

namespace Sys2Proof.Machine

/-! ## Page-table entries (R196) and the TLB (R199) -/

/-- Home class of an entry (R196). -/
def pteClass (p : Word) : Nat := bits p.toNat 62 61
/-- Size field of an entry. -/
def pteSize (p : Word) : Nat := bits p.toNat 60 59
/-- Bits of the page offset of a size field (R194). -/
def pageBits (z : Nat) : Nat := if z = 0 then 16 else if z = 1 then 24 else 32
/-- x of an entry's site. -/
def pteX (p : Word) : Nat := bits p.toNat 54 47
/-- y of an entry's site. -/
def pteY (p : Word) : Nat := bits p.toNat 46 39
/-- Home offset of the page (R196). -/
def pteFrame (p : Word) : Nat := bits p.toNat 35 16 * 2 ^ 16

/-- A TLB entry maps a virtual address (R199). -/
def TlbEntry.maps (e : TlbEntry) (va : Nat) : Bool := e.vpn == va / 2 ^ pageBits e.size

/-- The entry that translates an address: all arrays are searched, and the smallest page is used (R199). -/
def tlbFind (t : List TlbEntry) (va : Nat) : Option TlbEntry :=
  (t.find? fun e => e.size == 0 && e.maps va).or
    ((t.find? fun e => e.size == 1 && e.maps va).or (t.find? fun e => e.size == 2 && e.maps va))

/-! ## Sending -/

/-- The ordering key of an access (R100): the copy strand's for a copy, the engine's for a trigger operation, else the strand's. -/
def State.accKey (s : State) (a : Acc) : Nat :=
  match a.owner with
  | .copyRead c _ _ | .copyWrite c _ _ => s.number (slotKey c 14)
  | .trigger v _ => s.engineKey v 0
  | _ => s.number a.k

/-- A reply formed inside a pavilion: it reaches the owner like any other, by its own transaction. -/
def State.localReply (s : State) (v : Nat) (a : Acc) (op : MsgOp) (d : List Byte) (fill : Option Line) : State :=
  let (t, s) := s.fresh
  let q : Msg := { id := 0, op := .req a.op, src := v, dst := v, txn := t }
  let s : State := { s with txns := s.txns ++ [{ id := t, acc := a, req := q, fill }] }
  s.post { id := 0, op, src := v, dst := v, data := d, txn := t }

/-- An access enters the memory port of its pavilion (R137). -/
def State.toPort (s : State) (v : Nat) (a : Acc) : State :=
  let (n, s) := s.fresh
  s.modSite v fun t => { t with port := t.port ++ [{ id := n, acc := a }] }

/-- An access that has passed its checks is sent: a heap access to the memory port, any other to its home; one whose site has become
unreachable since is answered with that fault (R20, R290). -/
def State.sendAccess (s : State) (a : Acc) : State :=
  let v := siteOfK a.k
  if kindBits a.addr.toNat = 0 then s.toPort v a
  else match s.route v a.sup a.addr a.size with
    | .ok r => s.request v (s.accKey a) a r none a.size
    | .error (c, _) => s.localReply v a (.error c.num) [] none

/-! ## The L1D within the turn (R291, R295, R91) -/

/-- The access may be served by the caches: a plain or relaxed load or store of whole bytes at a heap address (R86, R291). -/
def Acc.cacheable (a : Acc) : Bool :=
  decide (kindBits a.addr.toNat = 0) && a.hi == 0 && (match a.op with | .read => true | .write => true | _ => false)

/-- The L1D line of an access is struck and the event that tells of it cannot be held: the strand or the port waits (R165). -/
def State.l1dStalled (s : State) (c : Nat) (a : Acc) : Bool :=
  a.cacheable && (match lineOf (a.addr.toNat / 128) (s.core c).l1d with | some l => l.flaw != 0 | none => false) && s.holdFull (siteOfC c) (16 + c % 16)

/-- A line with a correctable error after it has been corrected and read once more: a lasting error strikes it again (R430). -/
def Line.reread (l : Line) : Line := if l.flaw = 1 then { l with flaw := 0 } else l

/-- The struck line of an access in the L1D of a core is read (R90, R91): a correctable error is corrected, a line with an uncorrectable one goes. -/
def State.mendL1d (s : State) (c n : Nat) : State :=
  match lineOf n (s.core c).l1d with
  | none => s
  | some l =>
    if l.flaw = 0 then s
    else
      let ls (x : Core) : List Line := if l.flaw = 2 then x.l1d.filter fun q => q.line != n else x.l1d.map fun q => if q.line = n then q.reread else q
      (s.modCore c fun x => { x with l1d := ls x }).lineEvent (siteOfC c) (16 + c % 16) l

/-- A line with dirty bytes is lost to an uncorrectable error (R91). -/
def lineLost (n : Nat) (ls : List Line) : Bool := match lineOf n ls with | some l => l.flaw == 2 && l.dirty != 0 | none => false

/-- What an L1D lookup gives: nothing there (or only a struck clean line, which goes), the bytes, or a fault. -/
inductive L1dAnswer where
  | miss (s : State)
  | hit (s : State) (d : List Byte)
  | bad (s : State)

/-- The L1D of core c is looked in (R86, R291): a store needs the write mark (R295), a load a page that allows reads (R82). A struck line is dropped; with dirty bytes it gives
the uncorrectable-data fault (R91). -/
def State.lookL1d (s : State) (c : Nat) (a : Acc) : L1dAnswer :=
  let n := a.addr.toNat / 128
  let lost := lineLost n (s.core c).l1d
  let s := s.mendL1d c n
  let x := s.core c
  if lost then .bad s
  else match lineOf n x.l1d with
  | none => .miss s
  | some l =>
    if a.op = .write then
      if l.mark then
        let w := l.write (a.addr.toNat % 128) a.en a.data
        .hit ((s.setCore c ({ x with l1d := toFront w x.l1d }.streamHit (slotOf a.k) n)).count c 0x006 1) []
      else .miss s
    else if l.unread then .miss s
    else .hit ((s.setCore c ({ x with l1d := toFront l x.l1d }.streamHit (slotOf a.k) n)).count c 0x006 1) (l.read (a.addr.toNat % 128) a.size)

/-! ## What a reply does to its strand (R293, R298, R301) -/

/-- The value a load delivers (R293). -/
def LoadTy.value (ty : LoadTy) (d : List Byte) : Word :=
  let n := leNat d
  match ty with
  | .i8 => BitVec.signExtend 64 (BitVec.ofNat 8 n)
  | .n8 => BitVec.ofNat 64 (n % 2 ^ 8)
  | .i16 => BitVec.signExtend 64 (BitVec.ofNat 16 n)
  | .n16 => BitVec.ofNat 64 (n % 2 ^ 16)
  | .i32 => BitVec.signExtend 64 (BitVec.ofNat 32 n)
  | .n32 => BitVec.ofNat 64 (n % 2 ^ 32)
  | .w64 => BitVec.ofNat 64 n

/-- Bytes a load touches. -/
def LoadTy.size : LoadTy → Nat
  | .i8 | .n8 => 1
  | .i16 | .n16 => 2
  | .i32 | .n32 => 4
  | .w64 => 8

/-- pc moved on by n bytes. -/
def Strand.step (x : Strand) (n : Nat) : Strand := { x with pc := x.pc + BitVec.ofNat 60 n }

/-- The effect of a reply on the strand's registers and pc: the instruction completes. -/
def Strand.finish (x : Strand) (c : Cont) (d : List Byte) (full : Bool) : Strand :=
  match c with
  | .load ty r n => (x.setReg r (ty.value d)).step n
  | .pair r n => ((x.setReg r (leWord (d.take 8))).setReg (r + 1) (leWord (d.drop 8))).step n
  | .probe r n => ((x.setReg r (leWord d)).setReg (r + 1) (if full then 1 else 0)).step n
  | .old32 r n => (x.setReg r (BitVec.ofNat 64 (leNat d % 2 ^ 32))).step n
  | .done n => x.step n
  | _ => x

/-! ## Relaxed accesses (R98, R102, R135) -/

/-- The granules of an address range at their homes, as far as pavilion v can say (R98, R109): a placed address names its home, a heap address has
one once the TLB holds its page. -/
def State.homeGranules (s : State) (v : Nat) (a : Addr) (n : Nat) : Option (List Nat) :=
  if kindBits a.toNat ≠ 0 then some (s.granulesOf v a n)
  else (tlbFind (s.site v).tlb (a.toNat % 2 ^ 57)).map fun e =>
    let off := pteFrame e.pte + a.toNat % 2 ^ pageBits e.size
    granuleKeys (siteAt (pteX e.pte) (pteY e.pte)) (if pteClass e.pte < 2 then 0 else if pteClass e.pte = 2 then 4 else bits e.pte.toNat 38 37) off n

/-- Two ranges touch one granule: as they are named, or at their homes. -/
def State.oneGranule (s : State) (v : Nat) (a b : Addr) (n m : Nat) : Bool :=
  let gs := s.granulesOf v a n
  (s.granulesOf v b m).any gs.contains ||
    (match s.homeGranules v a n, s.homeGranules v b m with
      | some l, some r => r.any l.contains
      | _, _ => false)

/-- A heap access of the strand is still in the memory port, its home not known (log 48). -/
def State.unplaced (s : State) (v : Nat) (a : Addr) (p : Owner → Bool) : Bool :=
  decide (kindBits a.toNat = 0) && (s.homeGranules v a 1).isNone && (s.site v).port.any fun q => p q.acc.owner

/-- The strand has a relaxed access, or a watch on its way, on a granule of an address range (R98, R309). A placed address also waits for a heap
access whose home is not yet known (log 48). -/
def State.granuleBusy (s : State) (k : Nat) (r : Addr × Nat) : Bool :=
  let v := siteOfK k
  let x := s.strand k
  let hit (a : Addr) (p : Owner → Bool) : Bool :=
    s.oneGranule v r.1 a r.2 1 || (decide (kindBits r.1.toNat ≠ 0) && s.unplaced v a p)
  x.tracker.any (fun t => hit (BitVec.ofNat 60 (t.granule * 16)) fun o => decide (o = .relaxed k t.id))
    || x.monitor.inFlight.any fun m => hit m.2 fun o => decide (o = .monitor k m.1)

/-- An engine operation of the strand's crew uses an accumulator at or above a number (R185). -/
def State.accBusy (s : State) (k lo : Nat) : Bool :=
  let x := s.core (coreOfK k)
  (x.mul ++ x.drn).any fun o => (s.strand o.k).entry == (s.strand k).entry && decide (lo ≤ o.acc)

/-- A copy of the strand is in a mailbox, offered or under way (R337); one that an aborted gang's strand of the slot left behind is not its own. -/
def State.copying (s : State) (k : Nat) : Bool :=
  let x := s.core (coreOfK k)
  let y := s.strand k
  let mine (m : Mail) : Bool := m.slot == slotOf k && m.entry == y.entry && m.launch == y.launch && m.gang == y.gang
  x.mail.any (fun q => mine q.2) || x.offered.any (fun q => q.1.isNone && mine q.2)
    || x.copies.any fun q => q.k == k && q.trig.isNone && q.launch == y.launch && q.gang == y.gang

/-- A strand whose waits of `rel` are over issues again, and then gives up what the instruction named (R185). -/
def State.wakeRelease (s : State) (k : Nat) (c : Cont) : State :=
  let t := s.wake k
  if (t.strand k).st = .ready then t.modStrand k fun x => { x with cont := c } else t

/-- After a change of the strand's tracker, pending bits or watch: if what it is parked for has come about, it is woken (R126). -/
def State.settle (s : State) (k : Nat) : State :=
  let x := s.strand k
  if x.st = .parked then
    match x.cont with
    | .granules l => if l.any (s.granuleBusy k) then s else s.wake k
    | .regs l => if l.any x.pend.contains then s else s.wake k
    | .release lo _ => if x.tracker.isEmpty && x.pend.isEmpty && !s.accBusy k lo then s.wakeRelease k x.cont else s
    | .ending => if s.copying k then s else s.wake k
    | .entry f => if x.tracker.isEmpty then s.trapEntry k f.pc 0x1000 else s
    | .done n => if x.why = some Park.relaxedWait then if x.tracker.isEmpty then s.completed k n else s else s
    | .reissue =>
      if x.why = some Park.relaxedFull then if x.tracker.length < 8 then s.wake k else s
      else if x.why = some Park.relaxedWait then if x.tracker.isEmpty then s.wake k else s
      else s
    | _ => s
  else s

/-- Relaxed access t of a strand is performed: its entry is freed and, for a load, the value written and the pending bit cleared
(R43, R102, R135). -/
def State.relaxedDone (s : State) (k t : Nat) (d : Option (List Byte)) : State :=
  let f (x : Strand) : Strand :=
    match x.tracker.find? (fun e => e.id == t) with
    | none => x
    | some e =>
      let x := { x with tracker := x.tracker.filter (fun e => e.id != t) }
      match e.dest with
      | none => x
      | some r =>
        let x := { x with pend := x.pend.filter (· != r) }
        match d with
        | some b => x.setReg r (leWord b)
        | none => x
  (s.modStrand k f).settle k

/-- The reasons whose wait a late fault withdraws (R292, R355); the copy wait of `end` yields too. -/
def Park.yields : Park → Bool
  | .fullEmpty | .monitor | .counter | .join | .mailbox | .claim | .relaxedFull | .granuleOrder | .pendingRegister | .relaxedWait | .fence => true
  | _ => false

/-- The first of the faults that a strand has yet to take is taken (R292). -/
def State.takeLate (s : State) (k : Nat) : State :=
  match (s.strand k).late with
  | [] => s
  | f :: rest =>
    (s.modStrand k fun x => { x with late := rest }).takeFault k { code := Code.ofNum f.code, addr := some f.addr, pc := f.pc, kind := f.kind }

/-- A fault that reaches the strand after its instruction has gone on: it is taken at the strand's next turn, and a wait that yields to
it is withdrawn (R292, R355); a trap entry under way goes on (R374). A strand that has stopped for a save, with no park to resume, takes it there
(R164). -/
def State.lateFault (s : State) (k : Nat) (f : Late) : State :=
  let x := s.strand k
  let s := s.modStrand k fun x => { x with late := x.late ++ [f] }
  match x.st, x.why with
  | .parked, some r =>
    if r = .fullEmpty then s.withdrawFe k
    else match x.cont with
      | .entry _ => s
      | _ => if r.yields || x.cont == .ending then (s.dropWaiter k).wake k else s
  | .stopped, r =>
    if (s.gang (siteOfK k) x.entry).st = .stopping ∧ slotOf k < 13 ∧ (r = none ∨ r = some .pendingRegister) then s.takeLate k else s
  | _, _ => s

/-! ## The instruction's part -/

/-- An instruction's access at an offset of a segment. -/
structure Reach where
  seg : Nat
  off : Nat
  size : Nat
  need : Nat
  align : Nat
deriving DecidableEq, Repr

/-- A full/empty operation or monitor arm that leaves the core for a home without the bits (R298, R309): memory-site units, host windows
and gatehouse units; and a control window (log 19). `mon` admits memory sites. -/
def State.feCore (s : State) (v : Nat) (a : Addr) (mon : Bool) : Bool :=
  let k := kindBits a.toNat
  if k = 0 then false
  else if k = 3 then true
  else match s.absolute v a with
    | none => false
    | some b => match siteKind (bits b.toNat 56 49) (bits b.toNat 48 41) with
      | .pavilion => decide (4 < bits b.toNat 40 36)
      | .memory => !mon
      | .gatehouse => true

/-- The operation needs a full/empty home (R84). -/
def ReqOp.isFe : ReqOp → Bool
  | .writeFull | .ldf | .ldfc | .ldfn | .stef | .clre | .setf | .vldf _ => true
  | _ => false

/-! ## Requests held in the memory port (R137, R138, R198) -/

/-- The request with a number in a port. -/
def Site.portReq (t : Site) (n : Nat) : Option PortReq := t.port.find? (fun p => p.id == n)
/-- The port without a request. -/
def State.dropPort (s : State) (v n : Nat) : State := s.modSite v fun t => { t with port := t.port.filter (fun p => p.id != n) }

/-- Two requests are elements of one access on one page, 64 KiB being the smallest: they share a miss message and a record (R136, R137,
R333). -/
def PortReq.shares (p q : PortReq) : Bool :=
  p.id == q.id || (p.acc.owner.joins q.acc.owner && p.acc.addr.toNat / 65536 == q.acc.addr.toNat / 65536)

/-- The requests that share the miss of a request in the port, that request first. -/
def Site.sharers (t : Site) (n : Nat) : List PortReq :=
  match t.portReq n with
  | none => []
  | some p => p :: t.port.filter fun q => q.id != n && p.shares q

/-- Every request of a miss is answered with an error. -/
def State.failMiss (s : State) (v n code : Nat) : State :=
  each ((s.site v).sharers n) (fun s p => (s.dropPort v p.id).localReply v p.acc (.error code) [] none) s

/-- The head of the core's miss mailbox is removed. -/
def State.popMiss (s : State) (c : Nat) : State := s.modCore c fun x => { x with misses := x.misses.drop 1 }

/-- Outcome 0b10: the code is delivered to the held access as a precise fault (R138). -/
def State.missFault (s : State) (c code : Nat) : State :=
  match (s.core c).misses with
  | [] => s
  | m :: _ => (s.popMiss c).failMiss (siteOfC c) m.port code

/-- A walk that meets a fault ends the miss with that code, and the walk strand goes back to its entry (R198, log 14). -/
def State.endWalk (s : State) (k code : Nat) : State := ((s.missFault (coreOfK k) code).restartWalk k).settle k

/-! ## The instruction's access -/

/-- A fault of the instruction that issues now at a formed address. A table load of the walk strand that fails its site checks ends the walk with
the code, and the walk strand takes no fault (R198). -/
def State.faultAt (s : State) (c : Code) (a : Option Addr) (kind : Nat) : State :=
  if slotOf s.cur = walkSlot ∧ !(s.core (coreOfK s.cur)).misses.isEmpty ∧ (c = .unreachableSite ∨ c = .addressRange) then s.endWalk s.cur c.num
  else s.takeFault s.cur { code := c, addr := a, pc := s.me.pc, kind }

/-- The part that every access instruction shares (R290): permit, segment and site checks, the order of the strand's granules, and the waits of its
own kind, which take no permit because the instruction has not issued (R162, R226); then the body, with the address formed. -/
def State.reach (s : State) (r : Reach) (kind : Nat) (waits : State → Addr → Option State) (body : State → Addr → State) : State :=
  let k := s.cur
  let c := coreOfK k
  if !s.hasPermit c .memory then s.held k
  else match s.checkAccess k (s.me.seg r.seg) r.off r.size r.need r.align with
    | .error (e, a) => (s.takePermit c .memory).faultAt e a kind
    | .ok a =>
      if s.granuleBusy k (a, r.size) then s.park k .granuleOrder (.granules [(a, r.size)])
      else match waits s a with
        | some t => t
        | none => body (s.takePermit c .memory) a

/-- The wait of an access whose L1D line is struck, until the event can be held (R165). -/
def State.eventWait (s : State) (q : Acc) : Option State :=
  if s.l1dStalled (coreOfK s.cur) q then some (s.park s.cur .access .eventHold) else none

/-- A plain access (R99, R290, R291): an L1D hit completes in the turn, any other parks the strand until the reply. -/
def State.plain (s : State) (r : Reach) (q : Acc) (c : Cont) : State :=
  s.reach r q.kind (fun s a => s.eventWait { q with addr := a }) fun s a =>
    let k := s.cur
    let q := { q with addr := a, size := r.size, pc := s.me.pc, k, seg := r.seg, sup := s.me.sup, owner := .strand k }
    if q.op.isFe && s.feCore (siteOfK k) a false then s.faultAt .feHome (some a) q.kind
    else if q.cacheable then
      match s.lookL1d (coreOfK k) q with
      | .hit s d => s.modStrand k fun x => x.finish c d false
      | .bad s => s.faultAt .uncorrectable (some a) q.kind
      | .miss s => (s.park k .access c).sendAccess q
    else (s.park k .access c).sendAccess q

/-- A relaxed access hits the L1D, and so is performed in its turn (R291). -/
def State.hitsL1d (s : State) (q : Acc) : Bool :=
  q.cacheable && (match s.lookL1d (coreOfK s.cur) q with | .miss _ => false | _ => true)

/-- A relaxed access (R102, R297): it takes a tracker entry and does not park; an L1D hit is performed in the turn. With eight outstanding it waits,
not issued (R102, R162). -/
def State.relaxedAccess (s : State) (r : Reach) (q : Acc) (dest : Option Nat) : State :=
  let waits (s : State) (a : Addr) : Option State :=
    match s.eventWait { q with addr := a } with
    | some t => some t
    | none => if 8 ≤ s.me.tracker.length ∧ !s.hitsL1d { q with addr := a, size := r.size } then some (s.park s.cur .relaxedFull .reissue) else none
  s.reach r q.kind waits fun s0 a =>
    let k := s0.cur
    let q := { q with addr := a, size := r.size, pc := s0.me.pc, k, seg := r.seg, sup := s0.me.sup }
    let go (s : State) : State :=
      let (t, s) := s.fresh
      let e : Track := { id := t, granule := (s.granulesOf (siteOfK k) a r.size).headD 0, dest, pc := s.me.pc }
      let s := s.modStrand k fun x =>
        { x with tracker := x.tracker ++ [e], pend := (match dest with | some d => d :: x.pend | none => x.pend) }
      (s.modStrand k fun x => x.step 4).sendAccess { q with owner := .relaxed k t }
    if q.cacheable then
      match s0.lookL1d (coreOfK k) q with
      | .hit s d => s.modStrand k fun x => (match dest with | some g => x.setReg g (leWord d) | none => x).step 4
      | .bad s => s.faultAt .uncorrectable (some a) q.kind
      | .miss s => go s
    else go s0

end Sys2Proof.Machine
end

