-- ==== Sys2Proof/Machine/Translate.lean ====
section
/-! DEFINITION. Translation at the memory port: TLB, misses, the fault queue, the replay queue and wake words (R81-R84, R136-R142,
R193-R200). -/

namespace Sys2Proof.Machine

/-! ## Page-table entries (R196, R197) -/

/-- An installed leaf is malformed (R197, R199) as pavilion v judges its site; one that is not present is treated so too (log 20). -/
def State.pteMalformed (s : State) (v : Nat) (p : Word) : Bool :=
  let w := p.toNat
  let c := pteClass p
  let z := pteSize p
  let x := pteX p
  let y := pteY p
  let n := 2 ^ pageBits z
  let kindOk := decide (s.kindAt v x y = some (if c < 2 then .memory else .pavilion))
  let cap := if c < 2 then 36000000000 else if c = 2 then 2 ^ 25 else 2 ^ 22
  !bitOn w 63 || bitOn w 36 || bits w 15 0 != 0 || decide (z = 3) || (decide (c = 2) && decide (z = 2)) || (decide (c = 3) && z != 0)
    || !kindOk || (decide (c ≠ 3) && bits w 38 37 != 0) || pteFrame p % n != 0 || decide (pteFrame p + n > cap)

/-- The TLB with an entry most recently used; what exceeds its array's ways goes: 256 sets of 4, 64 and 16 (R199). -/
def tlbPut (t : List TlbEntry) (e : TlbEntry) : List TlbEntry :=
  let rest := t.filter fun q => !(q.size == e.size && q.vpn == e.vpn)
  let peer (q : TlbEntry) : Bool := q.size == e.size && (e.size != 0 || q.vpn % 256 == e.vpn % 256)
  let ways := if e.size = 0 then 4 else if e.size = 1 then 64 else 16
  let mine := rest.filter peer
  match mine.drop (ways - 1) with
  | [] => e :: rest
  | l :: _ => e :: rest.filter fun q => !(q.size == l.size && q.vpn == l.vpn)

/-- A store, atomic or other change of memory, for the page's W right and dirty bit (R82, R83). -/
def ReqOp.writes : ReqOp → Bool
  | .write | .writeFull | .stef | .clre | .setf | .nibble | .amo _ | .famo _ => true
  | _ => false

/-- The memory site and the offset there of a TLB entry's leaf (R196, R198). -/
def TlbEntry.leaf (e : TlbEntry) : Nat × Nat := (siteAt (bits e.pteAddr.toNat 56 49) (bits e.pteAddr.toNat 48 41), e.pteAddr.toNat % 2 ^ 36)

/-- The memory port need not change the entry at its home (R83). -/
def TlbEntry.marked (e : TlbEntry) (w : Bool) : Bool := bitOn e.pte.toNat 56 && (!w || e.dirty)

/-- The OR of the accessed bit, and for a store or atomic of the dirty bit, into the entry at its home (R83). -/
def State.orLeaf (s : State) (v : Nat) (e : TlbEntry) (w : Bool) : State :=
  let (h, off) := e.leaf
  let old := leNat (s.fetchBytes h 0 off 8)
  let new := if w then setBit (setBit old 56) 55 else setBit old 56
  s.store h 0 off (allOn 8) (leBytes 8 new) (s.engineKey v 0x30)

/-- The memory port's OR of the accessed bit, and for a store or atomic the dirty bit, into the entry at its home, before the access
(R83, R95); the TLB entry remembers it. -/
def State.orEntry (s : State) (v : Nat) (e : TlbEntry) (w : Bool) : State :=
  let p := e.pte.toNat
  if e.marked w then s.modSite v fun t => { t with tlb := tlbPut t.tlb e }
  else
    let s := s.orLeaf v e w
    let e := { e with pte := BitVec.ofNat 64 (if w then setBit (setBit p 56) 55 else setBit p 56), dirty := e.dirty || w }
    s.modSite v fun t => { t with tlb := tlbPut t.tlb e }

/-! ## The port (R137) -/

/-- The access is a prefetch (R92, R303). -/
def Acc.isPrefetch (a : Acc) : Bool := match a.owner with | .prefetch _ _ => true | _ => false

/-- Copies and trigger operations never use the caches (R116). -/
def Acc.isEngine (a : Acc) : Bool := match a.owner with | .copyRead .. | .copyWrite .. | .trigger .. => true | _ => false

/-- A heap access that misses the TLB joins the message of its access's miss on the same page, or its own message enters the core's miss mailbox, and
the walk strand is woken (R137, R200). While the mailbox is full the misses of the core wait in the port's hold, in arrival order. -/
def State.sendMiss (s : State) (v : Nat) (p : PortReq) : Option State :=
  let c := coreOfK p.acc.k
  let x := s.core c
  let hold (s : State) : State :=
    s.modSite v fun t => { t with port := t.port.map fun (q : PortReq) => if q.id = p.id then { q with missed := true, queued := false } else q }
  let before := ((s.site v).port.takeWhile fun q => q.id != p.id).any fun q => q.queued && coreOfK q.acc.k == c
  if x.misses.any (fun m => match (s.site v).portReq m.port with | some q => q.shares p | none => false) then some (hold s)
  else if 16 ≤ x.misses.length ∨ before then
    if p.queued then none
    else some (s.modSite v fun t => { t with port := t.port.map fun (q : PortReq) => if q.id = p.id then { q with queued := true } else q })
  else
    let m : Miss := { va := p.acc.addr.toNat % 2 ^ 57, slot := slotOf p.acc.k, kind := p.acc.kind, port := p.id, epoch := (s.site v).tlbEpoch }
    let s := s.setCore c { x with misses := x.misses ++ [m] }
    some (((hold s).count c 0x00C 1).rouse (slotKey c walkSlot) .missIdle)

/-- A prefetch is dropped (R93): counted, nothing else. -/
def State.dropPrefetch (s : State) (v : Nat) (p : PortReq) : State := (s.dropPort v p.id).count (coreOfK p.acc.k) 0x009 1

/-- The struck line of an access in the slice of a pavilion is read (R90, R91). -/
def State.mendSlice (s : State) (v n : Nat) : State :=
  match lineOf n (s.site v).slice with
  | none => s
  | some l =>
    if l.flaw = 0 then s
    else
      let ls (t : Site) : List Line :=
        if l.flaw = 2 then t.slice.filter fun q => q.line != n else t.slice.map fun q => if q.line = n then q.reread else q
      (s.modSite v fun t => { t with slice := ls t }).lineEvent v 4 l

/-- The caches are read for a line (R90, R91): a correctable error is corrected, a struck clean line goes and is refetched; the answer says whether
dirty bytes are lost, which is the uncorrectable-data fault. -/
def State.readStruck (s : State) (v c n : Nat) : Bool × State :=
  if (lineOf n (s.core c).l1d).isSome then (lineLost n (s.core c).l1d, s.mendL1d c n) else (lineLost n (s.site v).slice, s.mendSlice v n)

/-- The event of a struck line cannot be held: the access waits in the port (R165). -/
def State.portStalled (s : State) (v c n : Nat) : Bool :=
  match lineOf n (s.core c).l1d with
  | some l => l.flaw != 0 && s.holdFull v (16 + c % 16)
  | none => match lineOf n (s.site v).slice with
    | some l => l.flaw != 0 && s.holdFull v 4
    | none => false

/-- A fill of the line is under way at the pavilion, or the line is on its way out of a cache: an access to it waits in the port, so that what it
finds is no older than what the pavilion's cores have written (R104). -/
def State.lineMoves (s : State) (v n : Nat) : Bool :=
  (s.site v).isLeaving n || s.txns.any fun t => (match t.fill with | some l => l.line == n && siteOfK t.acc.k == v | none => false)

/-- The lines of an access that goes past the caches cannot leave them yet: a line is on its way out or being filled, or its dirty bytes are
struck and the event cannot be held: the access waits in the port until they have left before it (R107, R165). -/
def State.bypassWaits (s : State) (v c : Nat) (a : Acc) : Bool :=
  let n := a.addr.toNat / 128
  let m := (a.addr.toNat + a.size - 1) / 128
  let struck (ls : List Line) (i u : Nat) : Bool :=
    (match lineOf i ls with | some l => l.flaw != 0 && l.dirty != 0 | none => false) && s.holdFull v u
  ((List.range (m + 1 - n)).map (n + ·)).any fun i =>
    (s.site v).isLeaving i || struck (s.core c).l1d i (16 + c % 16) || struck (s.site v).slice i 4

/-- An earlier relaxed access of the strand on the same granule at its home is still outstanding, or may be, its home not being known: the access
waits in the port (R98, log 48). -/
def State.granuleWaits (s : State) (v : Nat) (a : Acc) : Bool :=
  let own (o : Owner) (t : Nat) : Bool := match o with | .relaxed _ u => t == u | _ => false
  let k := match a.owner with | .relaxed k _ | .strand k | .element k _ => some k | _ => none
  match k with
  | none => false
  | some k =>
    ((s.strand k).tracker.takeWhile fun t => !own a.owner t.id).any fun t =>
      let b : Addr := BitVec.ofNat 60 (t.granule * 16)
      !(s.granulesOf v a.addr a.size).contains t.granule &&
        (s.oneGranule v a.addr b a.size 1 || s.unplaced v b fun o => decide (o = .relaxed k t.id))

/-- A cached access after translation: the L1D, the slice, then the home (R86, R295). `mark`: the entry allows writes and holds dirty
set; `unread`: it does not allow reads. -/
def State.cachedAccess (s : State) (v : Nat) (a : Acc) (site off : Nat) (mark unread : Bool) : State :=
  let c := coreOfK a.k
  let n := a.addr.toNat / 128
  let (lost, s) := s.readStruck v c n
  if lost then s.localReply v a (.error Code.uncorrectable.num) [] none
  else
  let l : Line := { line := n, site, off := off / 128 * 128, mark, unread }
  match lineOf n (s.core c).l1d with
  | some w =>
    if a.op = .write then
      let w := { w.write (a.addr.toNat % 128) a.en a.data with mark := true, unread }
      (s.modCore c fun x => { x with l1d := toFront w x.l1d }).localReply v a .ack [] none
    else s.localReply v a .data (w.read (a.addr.toNat % 128) a.size) none
  | none =>
    let s := if a.isPrefetch then s else (s.modCore c fun x => x.streamMiss (slotOf a.k) n a.seg).count c 0x007 1
    match lineOf n (s.site v).slice with
    | some w => ((s.modSite v fun t => { t with slice := toFront w t.slice }).count c 0x00A 1).localReply v a .data w.data (some l)
    | none =>
      let s := s.count c 0x00B 1
      match s.resolve v (xOf site) (yOf site) l.off with
      | some (d, m) => s.requestLine v (s.accKey a) a { dst := d, off := l.off, mesh := m } l
      | none => s.localReply v a (.error Code.unreachableSite.num) [] none

/-- The lines of an address range leave the core's L1D and the pavilion's slice before an access goes to its home past the caches
(R107, R330). -/
def State.bypass (s : State) (c : Nat) (a : Acc) : State :=
  let n := a.addr.toNat / 128
  let m := (a.addr.toNat + a.size - 1) / 128
  let p (l : Nat) : Bool := decide (n ≤ l ∧ l ≤ m)
  (s.flushL1d c p true).flushSlice (siteOfC c) p true

/-- A translated access goes on by its home class (R81, R84, R86, R107). -/
def State.translated (s : State) (v : Nat) (a : Acc) (e : TlbEntry) : State :=
  let c := pteClass e.pte
  let off := pteFrame e.pte + a.addr.toNat % 2 ^ pageBits e.size
  let x := pteX e.pte
  let y := pteY e.pte
  if c = 0 ∧ a.cacheable ∧ !a.isEngine then s.cachedAccess v a (siteAt x y) off (bitOn e.pte.toNat 57 && e.dirty) (!bitOn e.pte.toNat 58)
  else
    let s := if c = 0 ∧ !a.isEngine then s.bypass (coreOfK a.k) a else s
    match s.resolve v x y off with
    | some (d, m) =>
      s.request v (s.accKey a) a { dst := d, unit := if c < 2 then 0 else if c = 2 then 4 else bits e.pte.toNat 38 37, off, mesh := m } none a.size
    | none => s.localReply v a (.error Code.unreachableSite.num) [] none

/-- The memory port translates a heap access (R83, R84, R137): a miss is held, a prefetch that fails is dropped, the rights and the
home class are checked, the entry's bits are set, and the access goes on. -/
def State.portTranslate (s : State) (v n : Nat) : Option State :=
  match (s.site v).portReq n with
  | none => none
  | some p =>
    let n128 := p.acc.addr.toNat / 128
    if p.missed ∨ (p.acc.cacheable ∧ (s.portStalled v (coreOfK p.acc.k) n128 ∨ s.lineMoves v n128)) then none
    else
      let a := p.acc
      match tlbFind (s.site v).tlb (a.addr.toNat % 2 ^ 57) with
      | none => if a.isPrefetch then some (s.dropPrefetch v p) else s.sendMiss v p
      | some e =>
        let w := e.pte.toNat
        let (h, off) := e.leaf
        let entry := s.readOver h 0 (if e.marked a.op.writes then [] else [homeKey h 0 off / 16]) 0
        if a.isPrefetch && (!bitOn w 58 || pteClass e.pte != 0) then some (s.dropPrefetch v p)
        else if pteClass e.pte ≠ 0 ∧ s.granuleWaits v a then none
        else if pteClass e.pte = 0 ∧ !a.cacheable ∧ !a.isEngine ∧ s.bypassWaits v (coreOfK a.k) a then none
        else
          let s := s.dropPort v n
          let bad (c : Code) : Option State := some (s.localReply v a (.error c.num) [] none)
          if (a.op.writes && !bitOn w 57) || (!a.op.writes && !bitOn w 58) then bad .pageProtection
          else if a.op.isFe && decide (pteClass e.pte < 2) then bad .feHome
          else if decide (a.op = .monArm) && decide (pteClass e.pte = 0) then bad .feHome
          else
            let go (s : State) : State := (s.orEntry v e a.op.writes).translated v a { e with dirty := e.dirty || a.op.writes }
            match entry with
            | .clean => some (go s)
            | .mended t _ => some (go (t.dropPort v n))
            | .lost t => some ((t.dropPort v n).localReply v a (.error Code.uncorrectable.num) [] none)
            | .stalls => none

/-! ## The fault queue (R141) -/

/-- Word 1 of a record (R141). -/
def faultWord (strand : Nat) (replay : Option Nat) (kind code : Nat) : Word :=
  BitVec.ofNat 64 (strand * 2 ^ 30 + (match replay with | some r => r * 2 ^ 25 + 2 ^ 24 | none => 0) + kind * 2 ^ 16 + code)

/-- A record is appended; with EN set the named gatehouse's keeper core gets one notice (R141). The notice is no flit of R404 (log 59). -/
def State.fqAppend (s : State) (v va : Nat) (w1 : Word) : State :=
  let t := s.site v
  let r : FaultRec := { w0 := BitVec.ofNat 64 va, w1, w2 := BitVec.ofNat 64 t.fqTail, w3 := t.time }
  let s := s.setSite v { t with fq := Tab.put (t.fqTail % 256) r t.fq, fqTail := (t.fqTail + 1) % 2 ^ 32 }
  if t.fqEn then
    let g := rimSite t.fqRim
    match s.resolve v (xOf g) (yOf g) 0 with
    | some (d, _) => s.sendOut { id := 0, op := .faultNotice, src := v, dst := d }
    | none => s
  else s

/-! ## The end of a miss (R138, R139) -/

/-- The strand's monitor fires (R134). -/
def State.monitorFired (s : State) (k : Nat) : State :=
  let s := s.modStrand k fun x => { x with monitor := { x.monitor with fired := true } }
  let x := s.strand k
  if x.monitor.inFlight.isEmpty ∧ x.st = .parked ∧ x.why = some Park.monitor then
    match x.cont with
    | .done n => s.completed k n
    | _ => s.wake k
  else s

/-- Outcome 0b00: the entry of ctl.miss_pte is installed and the access retried; an install whose miss is older than an invalidation is
discarded; a malformed one gives the page-format fault, or page-protection where the entry's rights refuse the access (R138, R199, R200, R290). -/
def State.missInstall (s : State) (c : Nat) : State :=
  match (s.core c).misses with
  | [] => s
  | m :: _ =>
    let v := siteOfC c
    let x := s.core c
    let s := s.popMiss c
    let retry (s : State) : State :=
      s.modSite v fun t =>
        let l := (t.sharers m.port).map (·.id)
        { t with port := t.port.map fun (q : PortReq) => if l.contains q.id then { q with missed := false } else q }
    if (s.site v).tlbEpoch ≠ m.epoch then retry s
    else if s.pteMalformed v x.missPte then
      let code (a : Acc) : Code :=
        if bitOn x.missPte.toNat 63 && !bitOn x.missPte.toNat (if a.op.writes then 57 else 58) then .pageProtection else .pageFormat
      each ((s.site v).sharers m.port) (fun s p => (s.dropPort v p.id).localReply v p.acc (.error (code p.acc).num) [] none) s
    else
      let e : TlbEntry := { size := pteSize x.missPte, vpn := m.va / 2 ^ pageBits (pteSize x.missPte), pte := x.missPte,
                            pteAddr := x.missPteAddr, dirty := bitOn x.missPte.toNat 55 }
      retry (s.modSite v fun t => { t with tlb := tlbPut t.tlb e })

/-- A copy that a trigger entry started (R363). -/
def State.triggered (s : State) (o : Owner) : Bool :=
  match o with
  | .copyRead c n _ | .copyWrite c n _ => (s.core c).copies.any fun p => p.n == n && p.trig.isSome
  | _ => false

/-- The address that a fault of an access names: of a fetch, the word fetched (R252, R285). -/
def State.namedAddr (s : State) (a : Acc) : Addr :=
  match a.owner with
  | .fetch k line =>
    let b := (s.absolute (siteOfK k) a.pc).getD a.pc
    if b.toNat / 128 = line then a.pc else a.pc + 4
  | _ => a.addr

/-- The strand on whose behalf an access was made still lives: not one of an aborted gang, nor, for a copy that goes on, a strand that has taken
its slot since (R141). -/
def State.strandLives (s : State) (a : Acc) : Bool :=
  let x := s.strand a.k
  match a.owner with
  | .copyRead c n _ | .copyWrite c n _ =>
    (s.core c).copies.any fun p => p.n == n && x.st != .free && x.entry == p.entry && x.launch == p.launch && x.gang == p.gang
  | o => !o.gone

/-- A page-fault record for an access: the queue, and the fault registers of its strand, save for a triggered copy and for a strand that lives no
longer (R141). -/
def State.pageRecord (s : State) (v : Nat) (a : Acc) (replay : Option Nat) : State :=
  let va := (s.namedAddr a).toNat % 2 ^ 57
  let w1 := faultWord (s.number a.k) replay a.kind Code.pageFault.num
  let s := (s.fqAppend v va w1).count (coreOfK a.k) 0x00D 1
  if s.triggered a.owner ∨ !s.strandLives a then s
  else (s.modStrand a.k fun x => { x with faultCode := w1 &&& 0x3FFFFFFF#64, faultAddr := BitVec.ofNat 60 va, faultPc := a.pc }).count (coreOfK a.k) 0x018 1

/-- The arm of a monitor is dropped: its watch is recorded nowhere (R139, R309). -/
def State.armDropped (s : State) (o : Owner) : State :=
  match o with
  | .monitor k n => s.modStrand k fun x =>
    { x with monitor := { x.monitor with inFlight := x.monitor.inFlight.filter (fun m => m.1 != n),
                                         current := if x.monitor.current = some n then none else x.monitor.current } }
  | _ => s

/-- Outcome 0b01: not present (R139). None when a record or a replay entry is lacking, and the write is refused. An access that an aborted gang left
behind parks no strand, and what nobody waits for any more is dropped (R117, R142). -/
def State.missAbsent (s : State) (c : Nat) : Option State :=
  match (s.core c).misses with
  | [] => some s
  | m :: _ =>
    let v := siteOfC c
    match (s.site v).portReq m.port with
    | none => some (s.popMiss c)
    | some p =>
      let a := p.acc
      if m.kind = 0x13 then
        let s := (s.popMiss c).dropPort v m.port
        some (if a.owner.gone then s else (((s.armDropped a.owner).monitorFired a.k).settle a.k))
      else if a.owner = .nobody then some ((s.popMiss c).dropPort v m.port)
      else if (s.site v).fqFull then none
      else if replayable m.kind then
        match (match (s.core c).replayOf a.owner with | some r => some r.ix | none => (s.core c).freeReplay) with
        | none => none
        | some ix =>
          let l := (s.site v).sharers m.port
          let as := l.map (·.acc)
          let s := each l (fun s (q : PortReq) => s.dropPort v q.id) (s.popMiss c)
          let add (r : Replay) : Replay :=
            { r with accs := r.accs ++ as, waiting := true, issued := r.issued.filter fun o => !as.any (fun b => decide (b.owner = o)) }
          let s := s.modCore c fun x =>
            if x.replays.any (fun r => r.ix == ix) then { x with replays := x.replays.map fun r => if r.ix = ix then add r else r }
            else { x with replays := x.replays ++ [{ ix, slot := slotOf a.k, kind := m.kind, pc := a.pc, accs := as, dead := a.owner.gone }] }
          let s := s.pageRecord v a (some ix)
          match a.owner with
          | .relaxed k t =>
            some (s.modStrand k fun x =>
              { x with tracker := x.tracker.map (fun e => if e.id = t then { e with replay := some ix } else e),
                       late := x.late ++ [{ code := Code.pageFault.num, addr := a.addr, pc := a.pc, kind := m.kind }] })
          | .element k _ => some ((s.repark k .pageFault).testHalt k)
          | .strand k => some ((s.repark k .pageFault).testHalt k)
          | _ => some s
      else
        let s := ((s.popMiss c).dropPort v m.port).pageRecord v a none
        some (if a.owner.gone then s else (((s.repark a.k .pageFault).modStrand a.k fun x => { x with cont := .reissue }).testHalt a.k))

/-! ## Wake words (R142) and the replay queue (R136) -/

/-- A replay entry is released: its elements are issued again (R142). -/
def State.releaseReplay (s : State) (c ix : Nat) : State :=
  match (s.core c).replays.find? (fun r => r.ix == ix && r.waiting) with
  | none => s
  | some r =>
    let s := s.modCore c fun x =>
      { x with replays := x.replays.map fun q => if q.ix = ix then { q with accs := [], waiting := false, issued := q.issued ++ r.accs.map (·.owner) } else q }
    each r.accs State.sendAccess s

/-- A wake word (R142). With V clear a strand parked with reason page-fault issues its instruction again: a vector access starts afresh, and what it
had in the replay queue goes. -/
def State.wakeWord (s : State) (v : Nat) (w : Word) : State :=
  let n := bits w.toNat 53 30
  let (x, y) := s.virt v
  if n / 256 ≠ y * 256 + x then s
  else if bitOn w.toNat 24 then s.releaseReplay (v * 16 + bits n 7 4) (bits w.toNat 29 25)
  else
    let k := v * 256 + n % 256
    let t := s.strand k
    if t.st = .parked ∧ t.why = some Park.pageFault then
      let c := coreOfK k
      let s := s.modStrand k fun x => { x with late := x.late.filter fun f => f.code != Code.pageFault.num }
      if (s.core c).vq.any (fun o => o.k == k) then
        (((s.disown v fun o => match o with | .element j _ => j == k | _ => false).modCore c fun x => { x with vq := x.vq.filter fun o => o.k != k }).dropReplays c fun r => slotKey c r.slot == k && !r.dead && decide (10 ≤ r.kind ∧ r.kind < 14)).wake k
      else s.wake k
    else s

end Sys2Proof.Machine
end

