-- ==== Sys2Proof/Machine/Turn.lean ====
section
/-! DEFINITION. The turn of a strand: the instruction fetch, what the position comes to, and the core cycle (R79, R122-R124, R226, R252,
R285, R436). -/

namespace Sys2Proof.Machine

/-! ## The instruction fetch (R79, R436) -/

/-- Lines of an instruction cache: 64 KiB of 128 bytes (R23, R436). -/
def icacheLines : Nat := 512

/-- A line enters the instruction cache; the oldest leaves when it is full (log 16). The word for which it was fetched again stays marked (R430). -/
def Core.fillIcache (x : Core) (l : Line) : Core :=
  let again := (lineOf l.line x.icache).bind fun q => if q.data.isEmpty then q.again else none
  { x with icache := ({ l with again } :: x.icache.filter (fun q => q.line != l.line)).take icacheLines }

/-- The line of a word in the instruction cache; one that a parity error took is absent until it has been refetched (R430). -/
def Core.icacheLine (x : Core) (a : Nat) : Option Line :=
  match lineOf (a / 128) x.icache with
  | some l => if l.data.isEmpty then none else some l
  | none => none

/-- A line of the instruction cache changed. -/
def Core.modIcache (x : Core) (n : Nat) (f : Line → Line) : Core := { x with icache := x.icache.map fun q => if q.line = n then f q else q }

/-- A parity error at a word takes the bytes of its line (R430): the line is to be fetched again for that word, unless it has been. -/
def Line.parityError (l : Line) (w : Nat) : Line := { l with data := [], words := [], again := if l.again = some w then none else some w }

/-- The word at an address has been read clean: a later error there is a first one (R430). -/
def State.readClean (s : State) (c a : Nat) : State :=
  match (s.core c).icacheLine a with
  | some l => if l.again = some (a % 128 / 4) then s.modCore c fun x => x.modIcache l.line fun q => { q with again := none } else s
  | none => s

/-- What the fetch of a word gives. -/
inductive Fetched where
  /-- the bytes at an absolute address -/
  | word (a : Nat) (b : List Byte)
  /-- the word's address, absent from the instruction cache -/
  | absent (a : Addr)
  /-- the word at `a` fails its parity (R430) -/
  | parity (a : Addr) (l : Line)
  | fault (c : Code) (a : Option Addr)

/-- The fetch of the word at `pc` through s0 with need X (R79, R436); a placed relative address is made absolute. -/
def State.fetchWord (s : State) (k : Nat) (pc : Addr) : Fetched :=
  let x := s.strand k
  let g := x.seg 0
  match s.checkAccess k g (pc - g.base).toNat 4 rX 4 with
  | .error (c, a) => .fault c a
  | .ok a =>
    let b := (s.absolute (siteOfK k) a).getD a
    match (s.core (coreOfK k)).icacheLine b.toNat with
    | some l => if l.words.contains (b.toNat % 128 / 4) then .parity a l else .word b.toNat (l.read (b.toNat % 128) 4)
    | none => .absent a

/-- A fetch that misses the instruction cache asks for its whole line (R436): the strand parks with reason fetch. -/
def State.fetchLine (s : State) (k : Nat) (a : Addr) : State :=
  let b := (s.absolute (siteOfK k) a).getD a
  let base := BitVec.ofNat 60 (b.toNat / 128 * 128)
  (s.park k .fetch .reissue).sendAccess
    { addr := base, op := .read, size := 128, kind := 0x01, pc := (s.strand k).pc, k, sup := (s.strand k).sup, owner := .fetch k (b.toNat / 128) }

/-! ## The turn (R122, R123) -/

/-- What a turn comes to: the position issues nothing, the copy sequencer has taken a block or issued a beat, or has found no permit
for it (R353), or an instruction issues. -/
inductive Turn where
  | bubble (s : State)
  | copied (s : State)
  | issue (i : Instr) (s : State)

/-- A fetch that meets a parity error at word `p` (R430): the line is refetched with a corrected event, and a second error on the refetched line is
the uncorrectable-data fault. The strand waits while the core cannot hold the event (R165). -/
def State.fetchParity (s : State) (k : Nat) (p a : Addr) (l : Line) : State :=
  let c := coreOfK k
  let w := ((s.absolute (siteOfK k) a).getD a).toNat % 128 / 4
  let t := s.modCore c fun x => x.modIcache l.line fun q => q.parityError w
  if l.again = some w then t.takeFault k { code := .uncorrectable, addr := some p, pc := (s.strand k).pc, kind := 0x01 }
  else if s.holdFull (siteOfC c) (16 + c % 16) then s.park k .access .eventHold
  else (t.raise (siteOfC c) (16 + c % 16) sevCorrected 0x0100 none 0).fetchLine k a

/-- The word at pc, and for a long form the next, decoded (R252, R263, R264): a fetch fault names the word fetched (R252, R285). -/
def State.fetchInstr (s : State) (k : Nat) : Turn :=
  let pc := (s.strand k).pc
  let bad (c : Code) (p : Addr) : Turn := .bubble (s.takeFault k { code := c, addr := some p, pc, kind := 0x01 })
  let run (s : State) (d : List Byte) : Turn :=
    match decode d with
    | .ok (i, _) => if i.wf then .issue i s else .bubble (s.raiseFault k .illegal)
    | .error _ => .bubble (s.raiseFault k .illegal)
  match s.fetchWord k pc with
  | .fault c _ => bad c pc
  | .absent a => .bubble (s.fetchLine k a)
  | .parity a l => .bubble (s.fetchParity k pc a l)
  | .word a w =>
    let s := s.readClean (coreOfK k) a
    if isLong (BitVec.ofNat 32 (leNat w)) then
      match s.fetchWord k (pc + 4) with
      | .fault c _ => bad c (pc + 4)
      | .absent a => .bubble (s.fetchLine k a)
      | .parity a l => .bubble (s.fetchParity k (pc + 4) a l)
      | .word a2 w2 => run (s.readClean (coreOfK k) a2) (w ++ w2)
    else run s w

/-! ## The core cycle (R122, R226) -/

/-- A permit register after the refill of core cycle j (R226). -/
def Permit.refill (p : Permit) (j : Nat) : Permit :=
  { p with count := min p.cap (p.count + ((j + 1) * p.rate / 1024 - j * p.rate / 1024)) }

/-- One cycle of a core: the four permit counters are refilled and the cycle is counted (R226, R230). What the cycle counts is settled with it, or,
where more meets in the cycle, at the end of the instant (R64, R73). -/
def State.coreCycle (s : State) (c : Nat) : State :=
  let tidy (x : Core) : Core := if s.instant.isSome then x else x.endTally
  ((s.modCore c fun x =>
    { x with pMatrix := x.pMatrix.refill x.cycle, pVector := x.pVector.refill x.cycle, pSfu := x.pSfu.refill x.cycle,
             pMem := x.pMem.refill x.cycle, cycle := x.cycle + 1 }).count c 0x001 1).modCore c tidy

/-- An instruction that the position did not hold back has issued (R230). -/
def State.issued (s : State) (k : Nat) (i : Instr) : State :=
  if (s.strand k).st = .held ∨ (encode i).isEmpty then s else s.count (coreOfK k) 0x002 1

end Sys2Proof.Machine
end

