-- ==== Sys2Proof/Machine/Scalar.lean ====
section
/-! DEFINITION. The integer instructions (R274-R281). -/

namespace Sys2Proof.Machine

/-! ## Shared values -/

/-- 1 for true, 0 for false (R275). -/
def truth (b : Bool) : Word := if b then 1 else 0

/-- Signed quotient, truncated towards zero, with the two fixed cases (R246). -/
def divSigned (a b : Word) : Word := if b = 0 then BitVec.allOnes 64 else BitVec.ofInt 64 (a.toInt.tdiv b.toInt)
/-- Unsigned quotient (R246). -/
def divUnsigned (a b : Word) : Word := if b = 0 then BitVec.allOnes 64 else BitVec.ofNat 64 (a.toNat / b.toNat)
/-- Signed remainder, with the sign of the dividend (R246). -/
def remSigned (a b : Word) : Word := if b = 0 then a else BitVec.ofInt 64 (a.toInt.tmod b.toInt)
/-- Unsigned remainder (R246). -/
def remUnsigned (a b : Word) : Word := if b = 0 then a else BitVec.ofNat 64 (a.toNat % b.toNat)

/-- Shift left by the whole of n; 64 or more gives 0 (R276). -/
def shiftLeft (a : Word) (n : Nat) : Word := if n ≥ 64 then 0 else a <<< n
/-- Logical shift right (R276). -/
def shiftRight (a : Word) (n : Nat) : Word := if n ≥ 64 then 0 else a >>> n
/-- Arithmetic shift right; 64 or more leaves copies of the sign (R276). -/
def shiftArith (a : Word) (n : Nat) : Word := if n ≥ 64 then (if a.msb then BitVec.allOnes 64 else 0) else a.sshiftRight n

/-- The lesser of two words, signed. -/
def minSigned (a b : Word) : Word := if a.toInt ≤ b.toInt then a else b
/-- The greater of two words, signed. -/
def maxSigned (a b : Word) : Word := if a.toInt ≤ b.toInt then b else a
/-- The lesser of two words, unsigned. -/
def minUnsigned (a b : Word) : Word := if a.toNat ≤ b.toNat then a else b
/-- The greater of two words, unsigned. -/
def maxUnsigned (a b : Word) : Word := if a.toNat ≤ b.toNat then b else a

/-- Zero bits above the highest set bit; 64 for zero (R275). -/
def leadingZeros (a : Word) : Word := BitVec.ofNat 64 (if a = 0 then 64 else 63 - Nat.log2 a.toNat)

/-- The low n bits sign-extended; n = 0 gives 0, 64 or more the word (R278). -/
def signExt (a : Word) (n : Nat) : Word :=
  if n = 0 then 0 else if n ≥ 64 then a else BitVec.ofInt 64 (sextNat n a.toNat)
/-- The low n bits zero-extended (R278). -/
def zeroExt (a : Word) (n : Nat) : Word :=
  if n = 0 then 0 else if n ≥ 64 then a else BitVec.ofNat 64 (a.toNat % 2 ^ n)

/-- Place and end of the field that a word names: bits [5:0] and [14:8], the length at most 64, cut off at bit 63 (R279). -/
def fieldOf (b : Word) : Nat × Nat :=
  let pos := bits b.toNat 5 0
  let len := min (bits b.toNat 14 8) 64
  (pos, min (pos + len) 64)
/-- The field of a word, zero-extended (R279). -/
def fieldExtract (a b : Word) : Word :=
  let (pos, top) := fieldOf b
  BitVec.ofNat 64 (a.toNat / 2 ^ pos % 2 ^ (top - pos))
/-- The field of d replaced by the low bits of a (R279). -/
def fieldInsert (d a b : Word) : Word :=
  let (pos, top) := fieldOf b
  let mask : Word := BitVec.ofNat 64 ((2 ^ (top - pos) - 1) * 2 ^ pos)
  (d &&& ~~~mask) ||| ((a <<< pos) &&& mask)

/-- The low 32 bits of a word, sign-extended (R275). -/
def word32 (a : Word) : Word := BitVec.signExtend 64 (a.setWidth 32 : BitVec 32)

/-- An immediate of 8 bits, sign-extended (R280). -/
def imm8 (i : BitVec 8) : Word := BitVec.signExtend 64 i

/-! ## Register forms (R275-R279) -/

/-- The value of Add (R275): sum modulo 2^64. -/
def valAdd (a b : Word) : Word := a + b
/-- Add: d gets the value of a and b (R275). -/
def execAdd (d a b : BitVec 8) (s : State) : Out :=
  .next (s.compute [d, a, b] d 4 fun s => valAdd (s.val a) (s.val b))

/-- The value of Sub (R275): difference modulo 2^64. -/
def valSub (a b : Word) : Word := a - b
/-- Sub: d gets the value of a and b (R275). -/
def execSub (d a b : BitVec 8) (s : State) : Out :=
  .next (s.compute [d, a, b] d 4 fun s => valSub (s.val a) (s.val b))

/-- The value of Mul (R275): low half of the product. -/
def valMul (a b : Word) : Word := a * b
/-- Mul: d gets the value of a and b (R275). -/
def execMul (d a b : BitVec 8) (s : State) : Out :=
  .next (s.compute [d, a, b] d 4 fun s => valMul (s.val a) (s.val b))

/-- The value of MulhI (R275): high half of the signed product. -/
def valMulhI (a b : Word) : Word := BitVec.ofInt 64 (a.toInt * b.toInt / 2 ^ 64)
/-- MulhI: d gets the value of a and b (R275). -/
def execMulhI (d a b : BitVec 8) (s : State) : Out :=
  .next (s.compute [d, a, b] d 4 fun s => valMulhI (s.val a) (s.val b))

/-- The value of MulhN (R275): high half of the unsigned product. -/
def valMulhN (a b : Word) : Word := BitVec.ofNat 64 (a.toNat * b.toNat / 2 ^ 64)
/-- MulhN: d gets the value of a and b (R275). -/
def execMulhN (d a b : BitVec 8) (s : State) : Out :=
  .next (s.compute [d, a, b] d 4 fun s => valMulhN (s.val a) (s.val b))

/-- The value of DivI (R246, R275): signed quotient. -/
def valDivI (a b : Word) : Word := divSigned a b
/-- DivI: d gets the value of a and b (R246, R275). -/
def execDivI (d a b : BitVec 8) (s : State) : Out :=
  .next (s.compute [d, a, b] d 4 fun s => valDivI (s.val a) (s.val b))

/-- The value of DivN (R246, R275): unsigned quotient. -/
def valDivN (a b : Word) : Word := divUnsigned a b
/-- DivN: d gets the value of a and b (R246, R275). -/
def execDivN (d a b : BitVec 8) (s : State) : Out :=
  .next (s.compute [d, a, b] d 4 fun s => valDivN (s.val a) (s.val b))

/-- The value of RemI (R246, R275): signed remainder. -/
def valRemI (a b : Word) : Word := remSigned a b
/-- RemI: d gets the value of a and b (R246, R275). -/
def execRemI (d a b : BitVec 8) (s : State) : Out :=
  .next (s.compute [d, a, b] d 4 fun s => valRemI (s.val a) (s.val b))

/-- The value of RemN (R246, R275): unsigned remainder. -/
def valRemN (a b : Word) : Word := remUnsigned a b
/-- RemN: d gets the value of a and b (R246, R275). -/
def execRemN (d a b : BitVec 8) (s : State) : Out :=
  .next (s.compute [d, a, b] d 4 fun s => valRemN (s.val a) (s.val b))

/-- The value of And (R275): bitwise AND. -/
def valAnd (a b : Word) : Word := a &&& b
/-- And: d gets the value of a and b (R275). -/
def execAnd (d a b : BitVec 8) (s : State) : Out :=
  .next (s.compute [d, a, b] d 4 fun s => valAnd (s.val a) (s.val b))

/-- The value of Or (R275): bitwise OR. -/
def valOr (a b : Word) : Word := a ||| b
/-- Or: d gets the value of a and b (R275). -/
def execOr (d a b : BitVec 8) (s : State) : Out :=
  .next (s.compute [d, a, b] d 4 fun s => valOr (s.val a) (s.val b))

/-- The value of Xor (R275): bitwise XOR. -/
def valXor (a b : Word) : Word := a ^^^ b
/-- Xor: d gets the value of a and b (R275). -/
def execXor (d a b : BitVec 8) (s : State) : Out :=
  .next (s.compute [d, a, b] d 4 fun s => valXor (s.val a) (s.val b))

/-- The value of Shl (R276): shift left by the whole of b. -/
def valShl (a b : Word) : Word := shiftLeft a b.toNat
/-- Shl: d gets the value of a and b (R276). -/
def execShl (d a b : BitVec 8) (s : State) : Out :=
  .next (s.compute [d, a, b] d 4 fun s => valShl (s.val a) (s.val b))

/-- The value of Shr (R276): logical shift right. -/
def valShr (a b : Word) : Word := shiftRight a b.toNat
/-- Shr: d gets the value of a and b (R276). -/
def execShr (d a b : BitVec 8) (s : State) : Out :=
  .next (s.compute [d, a, b] d 4 fun s => valShr (s.val a) (s.val b))

/-- The value of Sra (R276): arithmetic shift right. -/
def valSra (a b : Word) : Word := shiftArith a b.toNat
/-- Sra: d gets the value of a and b (R276). -/
def execSra (d a b : BitVec 8) (s : State) : Out :=
  .next (s.compute [d, a, b] d 4 fun s => valSra (s.val a) (s.val b))

/-- The value of MinI (R275): signed minimum. -/
def valMinI (a b : Word) : Word := minSigned a b
/-- MinI: d gets the value of a and b (R275). -/
def execMinI (d a b : BitVec 8) (s : State) : Out :=
  .next (s.compute [d, a, b] d 4 fun s => valMinI (s.val a) (s.val b))

/-- The value of MaxI (R275): signed maximum. -/
def valMaxI (a b : Word) : Word := maxSigned a b
/-- MaxI: d gets the value of a and b (R275). -/
def execMaxI (d a b : BitVec 8) (s : State) : Out :=
  .next (s.compute [d, a, b] d 4 fun s => valMaxI (s.val a) (s.val b))

/-- The value of MinN (R275): unsigned minimum. -/
def valMinN (a b : Word) : Word := minUnsigned a b
/-- MinN: d gets the value of a and b (R275). -/
def execMinN (d a b : BitVec 8) (s : State) : Out :=
  .next (s.compute [d, a, b] d 4 fun s => valMinN (s.val a) (s.val b))

/-- The value of MaxN (R275): unsigned maximum. -/
def valMaxN (a b : Word) : Word := maxUnsigned a b
/-- MaxN: d gets the value of a and b (R275). -/
def execMaxN (d a b : BitVec 8) (s : State) : Out :=
  .next (s.compute [d, a, b] d 4 fun s => valMaxN (s.val a) (s.val b))

/-- The value of Seq (R275): 1 when equal. -/
def valSeq (a b : Word) : Word := truth (a == b)
/-- Seq: d gets the value of a and b (R275). -/
def execSeq (d a b : BitVec 8) (s : State) : Out :=
  .next (s.compute [d, a, b] d 4 fun s => valSeq (s.val a) (s.val b))

/-- The value of SltI (R275): 1 when less, signed. -/
def valSltI (a b : Word) : Word := truth (decide (a.toInt < b.toInt))
/-- SltI: d gets the value of a and b (R275). -/
def execSltI (d a b : BitVec 8) (s : State) : Out :=
  .next (s.compute [d, a, b] d 4 fun s => valSltI (s.val a) (s.val b))

/-- The value of SltN (R275): 1 when less, unsigned. -/
def valSltN (a b : Word) : Word := truth (decide (a.toNat < b.toNat))
/-- SltN: d gets the value of a and b (R275). -/
def execSltN (d a b : BitVec 8) (s : State) : Out :=
  .next (s.compute [d, a, b] d 4 fun s => valSltN (s.val a) (s.val b))

/-- The value of Sext (R278): sign extension. -/
def valSext (a b : Word) : Word := signExt a b.toNat
/-- Sext: d gets the value of a and b (R278). -/
def execSext (d a b : BitVec 8) (s : State) : Out :=
  .next (s.compute [d, a, b] d 4 fun s => valSext (s.val a) (s.val b))

/-- The value of Zext (R278): zero extension. -/
def valZext (a b : Word) : Word := zeroExt a b.toNat
/-- Zext: d gets the value of a and b (R278). -/
def execZext (d a b : BitVec 8) (s : State) : Out :=
  .next (s.compute [d, a, b] d 4 fun s => valZext (s.val a) (s.val b))

/-- The value of AddW (R275): 32-bit sum, sign-extended. -/
def valAddW (a b : Word) : Word := word32 (a + b)
/-- AddW: d gets the value of a and b (R275). -/
def execAddW (d a b : BitVec 8) (s : State) : Out :=
  .next (s.compute [d, a, b] d 4 fun s => valAddW (s.val a) (s.val b))

/-- The value of MulW (R275): 32-bit product, sign-extended. -/
def valMulW (a b : Word) : Word := word32 (a * b)
/-- MulW: d gets the value of a and b (R275). -/
def execMulW (d a b : BitVec 8) (s : State) : Out :=
  .next (s.compute [d, a, b] d 4 fun s => valMulW (s.val a) (s.val b))

/-- The value of Bfx (R279): field extraction. -/
def valBfx (a b : Word) : Word := fieldExtract a b
/-- Bfx: d gets the value of a and b (R279). -/
def execBfx (d a b : BitVec 8) (s : State) : Out :=
  .next (s.compute [d, a, b] d 4 fun s => valBfx (s.val a) (s.val b))

/-- SEL: a if the old d is not 0, else b (R277). -/
def execSel (d a b : BitVec 8) (s : State) : Out :=
  .next (s.compute [d, a, b] d 4 fun s => if s.val d ≠ 0 then s.val a else s.val b)

/-- BFI: d with a field replaced from a (R277, R279). -/
def execBfi (d a b : BitVec 8) (s : State) : Out :=
  .next (s.compute [d, a, b] d 4 fun s => fieldInsert (s.val d) (s.val a) (s.val b))

/-- CLZ (R275). -/
def execClz (d a : BitVec 8) (s : State) : Out := .next (s.compute [d, a] d 4 fun s => leadingZeros (s.val a))

/-- POPC (R275). -/
def execPopc (d a : BitVec 8) (s : State) : Out :=
  .next (s.compute [d, a] d 4 fun s => BitVec.ofNat 64 (popCount (s.val a).toNat 64))

/-! ## Immediate forms (R280) -/

/-- Addi: the register form with the sign-extended immediate (R280). -/
def execAddi (d a i : BitVec 8) (s : State) : Out := .next (s.compute [d, a] d 4 fun s => valAdd (s.val a) (imm8 i))

/-- Andi: the register form with the sign-extended immediate (R280). -/
def execAndi (d a i : BitVec 8) (s : State) : Out := .next (s.compute [d, a] d 4 fun s => valAnd (s.val a) (imm8 i))

/-- Ori: the register form with the sign-extended immediate (R280). -/
def execOri (d a i : BitVec 8) (s : State) : Out := .next (s.compute [d, a] d 4 fun s => valOr (s.val a) (imm8 i))

/-- Xori: the register form with the sign-extended immediate (R280). -/
def execXori (d a i : BitVec 8) (s : State) : Out := .next (s.compute [d, a] d 4 fun s => valXor (s.val a) (imm8 i))

/-- Seqi: the register form with the sign-extended immediate (R280). -/
def execSeqi (d a i : BitVec 8) (s : State) : Out := .next (s.compute [d, a] d 4 fun s => valSeq (s.val a) (imm8 i))

/-- SltiI: the register form with the sign-extended immediate (R280). -/
def execSltiI (d a i : BitVec 8) (s : State) : Out := .next (s.compute [d, a] d 4 fun s => valSltI (s.val a) (imm8 i))

/-- SltiN: the register form with the sign-extended immediate (R280). -/
def execSltiN (d a i : BitVec 8) (s : State) : Out := .next (s.compute [d, a] d 4 fun s => valSltN (s.val a) (imm8 i))

/-- MiniI: the register form with the sign-extended immediate (R280). -/
def execMiniI (d a i : BitVec 8) (s : State) : Out := .next (s.compute [d, a] d 4 fun s => valMinI (s.val a) (imm8 i))

/-- MaxiI: the register form with the sign-extended immediate (R280). -/
def execMaxiI (d a i : BitVec 8) (s : State) : Out := .next (s.compute [d, a] d 4 fun s => valMaxI (s.val a) (imm8 i))

/-- Shli: a shift by 0 to 63 (R280). -/
def execShli (d a : BitVec 8) (i : BitVec 6) (s : State) : Out :=
  .next (s.compute [d, a] d 4 fun s => shiftLeft (s.val a) i.toNat)

/-- Shri: a shift by 0 to 63 (R280). -/
def execShri (d a : BitVec 8) (i : BitVec 6) (s : State) : Out :=
  .next (s.compute [d, a] d 4 fun s => shiftRight (s.val a) i.toNat)

/-- Srai: a shift by 0 to 63 (R280). -/
def execSrai (d a : BitVec 8) (i : BitVec 6) (s : State) : Out :=
  .next (s.compute [d, a] d 4 fun s => shiftArith (s.val a) i.toNat)

/-! ## Long immediates (R281) -/

/-- LI: the sign-extended immediate. -/
def execLi (d : BitVec 8) (imm : BitVec 32) (s : State) : Out := .next (s.compute [d] d 8 fun _ => imm.signExtend 64)

/-- LIH: bits 63 to 32 of d; the low half stays. -/
def execLih (d : BitVec 8) (imm : BitVec 32) (s : State) : Out :=
  .next (s.compute [d] d 8 fun s => (imm.setWidth 64 <<< 32) ||| ((s.val d).setWidth 32).setWidth 64)

/-- ADDL: a plus the sign-extended immediate. -/
def execAddl (d a : BitVec 8) (imm : BitVec 32) (s : State) : Out :=
  .next (s.compute [d, a] d 8 fun s => s.val a + imm.signExtend 64)

end Sys2Proof.Machine
end

