-- ==== Sys2Proof/Machine/Control.lean ====
section
/-! DEFINITION. Branches and jumps (R282-R285), loop nests (R223-R225, R286-R288), traps and the return from them (R374). -/

namespace Sys2Proof.Machine

/-! ## Branches and jumps -/

/-- The issuing strand's pc moved to an address. -/
def State.jump (s : State) (a : Addr) : State := s.modStrand s.cur fun x => { x with pc := a }

/-- The target of a displacement in words (R261, R282, R283). -/
def State.target (s : State) (i : Int) : Addr := s.me.pc + BitVec.ofInt 60 (4 * i)

/-- A conditional branch (R282). -/
def State.branch (s : State) (a : BitVec 8) (i : BitVec 16) (c : Word → Bool) : State :=
  s.issue [a.toNat] fun s => if c (s.val a) then s.jump (s.target i.toInt) else s.pass 4

/-- BZ (R282). -/
def execBz (a : BitVec 8) (i : BitVec 16) (s : State) : Out := .next (s.branch a i fun w => w == 0)
/-- BNZ (R282). -/
def execBnz (a : BitVec 8) (i : BitVec 16) (s : State) : Out := .next (s.branch a i fun w => w != 0)
/-- BLT (R282). -/
def execBlt (a : BitVec 8) (i : BitVec 16) (s : State) : Out := .next (s.branch a i fun w => decide (w.toInt < 0))
/-- BGE (R282). -/
def execBge (a : BitVec 8) (i : BitVec 16) (s : State) : Out := .next (s.branch a i fun w => decide (0 ≤ w.toInt))

/-- J (R283). -/
def execJ (i : BitVec 24) (s : State) : Out := .next (s.jump (s.target i.toInt))

/-- CALL: a7 gets the return address (R283). -/
def execCall (i : BitVec 24) (s : State) : Out :=
  .next (s.modStrand s.cur fun x => { x.setReg 7 ((x.pc + 4).setWidth 64) with pc := s.target i.toInt })

/-- A jump to the address in a register; d, read after the target, gets the return address (R284). -/
def State.jumpReg (s : State) (d a : Nat) : State :=
  let t := s.me.reg a
  if (t &&& 3) ≠ 0 then s.faultAt .alignment (some (t.setWidth 60)) 0
  else s.modStrand s.cur fun x => { x.setReg d ((x.pc + 4).setWidth 64) with pc := t.setWidth 60 }

/-- JR (R284). -/
def execJr (a : BitVec 8) (s : State) : Out := .next (s.issue [a.toNat] fun s => s.jumpReg 0 a.toNat)
/-- CALLR (R284). -/
def execCallr (d a : BitVec 8) (s : State) : Out := .next (s.issue [d.toNat, a.toNat] fun s => s.jumpReg d.toNat a.toNat)

/-! ## Loop nests (R223, R224, R286, R288) -/

/-- The claim-table entry of the issuing strand's gang. -/
def State.myGang (s : State) : Gang := s.gang (siteOfK s.cur) s.me.entry

/-- A loop register of a crew's bank (R51). -/
def State.loop (s : State) (k n : Nat) : BitVec 32 := Tab.get 0 ((s.strand k).entry * 8 + n) (s.core (coreOfK k)).loops

/-- The chunk of a crew: the core's fetcher for a claim-table entry (R224). -/
def State.fetcher (s : State) (c e : Nat) : Fetcher := Tab.get {} e (s.core c).fetch
/-- The chunk of a crew changed. -/
def State.modFetcher (s : State) (c e : Nat) (f : Fetcher → Fetcher) : State :=
  s.modCore c fun x => { x with fetch := Tab.put e (f (Tab.get {} e x.fetch)) x.fetch }

/-- The cores of the crews of a gang that have not ended, as core keys. -/
def State.liveCores (s : State) (v e : Nat) : List Nat :=
  let g := s.gang v e
  (g.cores.zipIdx.filter fun (_, i) => !g.ended.contains i).map fun (c, _) => v * 16 + c

/-- The counter returns to IDLE when nothing remains and every joined crew is marked (R223, R288). -/
def State.closeNest (s : State) (v e : Nat) : State :=
  let n := (s.gang v e).nest
  let js := ((s.gang v e).cores.map fun c => s.fetcher (v * 16 + c) e).filter (·.joined)
  if n.isOpen && n.left == 0 && js.all (·.fell) then s.modGang v e fun g => { g with nest := { n with isOpen := false } } else s

/-- A crew joins the open generation: its chunk is empty and its mark clear; a claim of its strands that is in flight stands (R286). -/
def State.joinNest (s : State) (c e : Nat) : State := s.modFetcher c e fun f => { f with f := 0, h := 0, joined := true, fell := false }

/-- The claim unit's part of `nest`; none is the nest-shape fault (R286). -/
def State.nestOp (s : State) (c e : Nat) (x : List Nat) : Option State :=
  let v := siteOfC c
  let g := s.gang v e
  let n := g.nest
  let e0 := x.getD 0 0
  let e1 := x.getD 1 0
  let e2 := x.getD 2 0
  let e3 := x.getD 3 0
  let m := max 1 (x.getD 4 0)
  let t := e0 * e1 * e2 * e3
  if t ≥ 2 ^ 64 then none
  else if !n.isOpen then
    let s := each (g.cores.map (v * 16 + ·)) (fun s d => s.modFetcher d e fun f => { f with joined := false }) s
    let s := s.modGang v e fun g => { g with nest := { isOpen := true, e0, e1, e2, e3, c := m, total := t, left := t, gen := n.gen + 1 } }
    some (s.joinNest c e)
  else if (s.fetcher c e).joined then some s
  else if n.e0 ≠ e0 ∨ n.e1 ≠ e1 ∨ n.e2 ≠ e2 ∨ n.e3 ≠ e3 ∨ n.c ≠ m then none
  else some (s.joinNest c e)

/-- The access record of an instruction that a unit of the own pavilion answers: no address. -/
def State.unitAcc (s : State) : Acc := { k := s.cur, pc := s.me.pc, sup := s.me.sup, owner := .strand s.cur }

/-- The issuing strand parks with reason access, and the unit's answer is on its way. -/
def State.askUnit (s : State) (c : Cont) (op : MsgOp) (d : List Byte) : State :=
  (s.park s.cur .access c).localReply (siteOfK s.cur) s.unitAcc op d none

/-- NEST (R286). -/
def execNest (i : BitVec 2) (s : State) : Out :=
  let c := coreOfK s.cur
  match s.nestOp c s.me.entry ((List.range 5).map fun j => (s.loop s.cur (i.toNat + j)).toNat) with
  | some t => .next (t.askUnit (.done 4) .ack [])
  | none => .next (s.askUnit (.done 4) (.error Code.nestShape.num) [])

/-- The next flat index of a crew's chunk goes to a strand: i0-i3 and the branch to the body (R224). -/
def State.handOut (s : State) (k : Nat) (body : Addr) : State :=
  let c := coreOfK k
  let e := (s.strand k).entry
  let n := (s.gang (siteOfK k) e).nest
  let f := (s.fetcher c e).f
  let s := s.modFetcher c e fun x => { x with f := x.f + 1 }
  s.modStrand k fun x =>
    { x with i0 := BitVec.ofNat 32 (f % n.e0), i1 := BitVec.ofNat 32 (f / n.e0 % n.e1), i2 := BitVec.ofNat 32 (f / (n.e0 * n.e1) % n.e2),
             i3 := BitVec.ofNat 32 (f / (n.e0 * n.e1 * n.e2)), pc := body }

/-- NEXT (R224, R287). -/
def execNext (i : BitVec 16) (s : State) : Out :=
  let k := s.cur
  let c := coreOfK k
  let e := s.me.entry
  let f := s.fetcher c e
  let body := s.target i.toInt
  if !(f.joined && s.myGang.nest.isOpen) then .next (s.pass 4)
  else if f.f ≠ f.h then .next (s.handOut k body)
  else .next ((s.modFetcher c e fun x => { x with claiming := true, waiters := x.waiters ++ [k] }).park k .access (.next body))

/-- The strands that wait for a chunk are served from it in the order in which they issued; what is left waits for another claim. -/
def State.serveNext : Nat → Nat → Nat → State → State
  | 0, _, _, s => s
  | n + 1, c, e, s =>
    let f := s.fetcher c e
    match f.waiters with
    | [] => s.modFetcher c e fun x => { x with claiming := false }
    | k :: rest =>
      if f.f = f.h then s
      else
        let body := match (s.strand k).cont with | .next b => b | _ => 0
        let s := s.modFetcher c e fun x => { x with waiters := rest }
        State.serveNext n c e ((s.handOut k body).wake k)

/-- NEST_CLAIM: the claim unit serves the claim of a crew; with nothing left its `next` falls through and the crew is marked
(R224, R288); that of a crew that another generation has overtaken takes nothing from it. -/
def State.nestClaim (s : State) (k : Nat) : Option State :=
  let c := coreOfK k
  let v := siteOfK k
  let e := (s.strand k).entry
  let f := s.fetcher c e
  if f.claiming && f.waiters.head? == some k then
    let g := s.gang v e
    let n := g.nest
    let joined := ((s.liveCores v e).filter fun d => (s.fetcher d e).joined).length
    let m := if f.joined then min n.left (max n.c ((n.left + 2 * joined - 1) / (2 * joined))) else 0
    if m = 0 then
      let ws := f.waiters
      let s := s.modFetcher c e fun x => { x with fell := true, claiming := false, waiters := [] }
      some ((each ws (fun s j => s.completed j 4) s).closeNest v e)
    else
      let b := n.total - n.left
      let s := s.modGang v e fun g => { g with nest := { n with left := n.left - m } }
      let s := s.modFetcher c e fun x => { x with f := b, h := b + m }
      some (s.serveNext 17 c e)
  else none

/-- NEST_CLAIM (R224). -/
def execNestClaim (k : Nat) (s : State) : Out := due "NEST_CLAIM" (s.nestClaim k)

/-! ## Traps (R374) -/

/-- TRAP: the supervisor handler is entered at the trap base plus 16 n, once the strand's relaxed accesses are performed; with the trap
registers unset a user strand faults and a supervisor strand stops with a fatal event (R374). -/
def State.trapN (s : State) (n : Nat) : State :=
  let k := s.cur
  let v := siteOfK k
  let u := 16 + coreNo k
  if (s.core (coreOfK k)).trapUnset then
    if s.me.sup then
      if s.holdFull v u then s.park k .access (.stalled { code := 0x0113, addr := 0, pc := s.me.pc })
      else (s.raise v u sevFatal 0x0113 (some (s.number k)) 0).stop k
    else s.raiseFault k .trapUnset
  else if s.me.tracker.isEmpty then s.trapEntry k (s.me.pc + 4) (16 * n)
  else s.park k .relaxedWait .reissue

/-- TRAP (R374). -/
def execTrap (i : BitVec 8) (s : State) : Out := .next (s.trapN i.toNat)

/-- ERET: a privileged instruction (R374). -/
def execEret (s : State) : Out := .next (if s.me.sup then s.trapReturn s.cur else s.raiseFault s.cur .privilege)

/-- ILLEGAL_INSTRUCTION: a word that is not an instruction (R263). -/
def execIllegalInstruction (_ : BitVec 24) (s : State) : Out := .next (s.raiseFault s.cur .illegal)

end Sys2Proof.Machine
end

