-- ==== Sys2Proof/Machine/Memory.lean ====
section
/-! DEFINITION. Loads, stores, relaxed accesses, full/empty operations, atomics, prefetch and segments (R290-R304). -/

namespace Sys2Proof.Machine

/-- The offset of an M-format access (R260, R290). -/
def State.offM (s : State) (x : BitVec 8) (o : BitVec 5) (scale : Nat) : Nat := ((s.val x).toNat + o.toNat * scale) % 2 ^ 64
/-- The offset of a long form (R262, R296). -/
def State.offL (s : State) (a : BitVec 8) (imm : BitVec 32) : Nat := ((s.val a).toNat + imm.toNat) % 2 ^ 64

/-- A plain load at an offset (R293, R296). -/
def State.loadAt (s : State) (ty : LoadTy) (d seg off adv : Nat) : State :=
  s.plain { seg, off, size := ty.size, need := rR, align := ty.size } { op := .read, kind := 0x02 } (.load ty d adv)

/-- A plain store of the low bytes of a word at an offset (R294, R296). -/
def State.storeAt (s : State) (n : Nat) (w : Word) (seg off adv : Nat) : State :=
  s.plain { seg, off, size := n, need := rW, align := n } { op := .write, data := leBytes n w.toNat, en := allOn n, kind := 0x03 } (.done adv)

/-- A load of the M format (R293). -/
def State.loadM (s : State) (ty : LoadTy) (d x : BitVec 8) (g : BitVec 3) (o : BitVec 5) : State :=
  s.issue [d.toNat, x.toNat] fun s => s.loadAt ty d.toNat g.toNat (s.offM x o ty.size) 4

/-- A store of the M format (R294). -/
def State.storeM (s : State) (n : Nat) (d x : BitVec 8) (g : BitVec 3) (o : BitVec 5) : State :=
  s.issue [d.toNat, x.toNat] fun s => s.storeAt n (s.val d) g.toNat (s.offM x o n) 4

/-- The bytes of a register pair (R293). -/
def State.pairBytes (s : State) (d : BitVec 8) : List Byte := leBytes 8 (s.val d).toNat ++ leBytes 8 (s.me.reg (d.toNat + 1)).toNat

/-- A full/empty operation on a doubleword or a granule (R298). -/
def State.feM (s : State) (op : ReqOp) (need n kind : Nat) (d : List Byte) (x : BitVec 8) (g : BitVec 3) (o : BitVec 5) (c : Cont) : State :=
  s.plain { seg := g.toNat, off := s.offM x o n, size := n, need, align := n } { op, data := d, en := allOn d.length, kind } c

/-- A non-fetching atomic (R300): relaxed, its operand the low bytes of d. -/
def State.amoM (s : State) (op : AmoOp) (d x : BitVec 8) (g : BitVec 3) (o : BitVec 5) : State :=
  s.issue [d.toNat, x.toNat] fun s =>
    s.relaxedAccess { seg := g.toNat, off := s.offM x o op.size, size := op.size, need := rW + rA, align := op.size }
      { op := .amo op, data := leBytes op.size (s.val d).toNat, en := allOn op.size, kind := 0x06 } none

/-- A fetching atomic (R301). -/
def State.famoM (s : State) (op : FamoOp) (d x : BitVec 8) (g : BitVec 3) (o : BitVec 5) : State :=
  s.issue [d.toNat, x.toNat] fun s =>
    s.plain { seg := g.toNat, off := s.offM x o op.size, size := op.size, need := rR + rW + rA, align := op.size }
      { op := .famo op, data := leBytes op.size (s.val d).toNat, en := allOn op.size, kind := 0x07 }
      (if op = .fadd then .old32 d.toNat 4 else .load .w64 d.toNat 4)

/-! ## Loads and stores (R293, R294, R296) -/

/-- LdI8 (R293). -/
def execLdI8 (d x : BitVec 8) (g : BitVec 3) (o : BitVec 5) (s : State) : Out := .next (s.loadM .i8 d x g o)
/-- LdN8 (R293). -/
def execLdN8 (d x : BitVec 8) (g : BitVec 3) (o : BitVec 5) (s : State) : Out := .next (s.loadM .n8 d x g o)
/-- LdI16 (R293). -/
def execLdI16 (d x : BitVec 8) (g : BitVec 3) (o : BitVec 5) (s : State) : Out := .next (s.loadM .i16 d x g o)
/-- LdN16 (R293). -/
def execLdN16 (d x : BitVec 8) (g : BitVec 3) (o : BitVec 5) (s : State) : Out := .next (s.loadM .n16 d x g o)
/-- LdI32 (R293). -/
def execLdI32 (d x : BitVec 8) (g : BitVec 3) (o : BitVec 5) (s : State) : Out := .next (s.loadM .i32 d x g o)
/-- LdN32 (R293). -/
def execLdN32 (d x : BitVec 8) (g : BitVec 3) (o : BitVec 5) (s : State) : Out := .next (s.loadM .n32 d x g o)
/-- Ld64 (R293). -/
def execLd64 (d x : BitVec 8) (g : BitVec 3) (o : BitVec 5) (s : State) : Out := .next (s.loadM .w64 d x g o)
/-- Ld128: 16 bytes to a register pair (R293). -/
def execLd128 (d x : BitVec 8) (g : BitVec 3) (o : BitVec 5) (s : State) : Out :=
  .next (s.issue [d.toNat, d.toNat + 1, x.toNat] fun s =>
    s.plain { seg := g.toNat, off := s.offM x o 16, size := 16, need := rR, align := 16 } { op := .read, kind := 0x02 } (.pair d.toNat 4))
/-- St8 (R294). -/
def execSt8 (d x : BitVec 8) (g : BitVec 3) (o : BitVec 5) (s : State) : Out := .next (s.storeM 1 d x g o)
/-- St16 (R294). -/
def execSt16 (d x : BitVec 8) (g : BitVec 3) (o : BitVec 5) (s : State) : Out := .next (s.storeM 2 d x g o)
/-- St32 (R294). -/
def execSt32 (d x : BitVec 8) (g : BitVec 3) (o : BitVec 5) (s : State) : Out := .next (s.storeM 4 d x g o)
/-- St64 (R294). -/
def execSt64 (d x : BitVec 8) (g : BitVec 3) (o : BitVec 5) (s : State) : Out := .next (s.storeM 8 d x g o)
/-- St128: a register pair as 16 bytes (R294). -/
def execSt128 (d x : BitVec 8) (g : BitVec 3) (o : BitVec 5) (s : State) : Out :=
  .next (s.issue [d.toNat, d.toNat + 1, x.toNat] fun s =>
    s.plain { seg := g.toNat, off := s.offM x o 16, size := 16, need := rW, align := 16 }
      { op := .write, data := s.pairBytes d, en := allOn 16, kind := 0x03 } (.done 4))

/-- The load of a type code of `ldl` (R296). -/
def ldlType (t : Nat) : LoadTy := [LoadTy.i8, .n8, .i16, .n16, .i32, .n32, .w64].getD t .w64

/-- LDL (R296); type 7 is not an instruction. -/
def execLdl (d a : BitVec 8) (g t : BitVec 3) (imm : BitVec 32) (s : State) : Out :=
  .next (if t = 7 then s.raiseFault s.cur .illegal
    else s.issue [d.toNat, a.toNat] fun s => s.loadAt (ldlType t.toNat) d.toNat g.toNat (s.offL a imm) 8)

/-- STL (R296). -/
def execStl (d a : BitVec 8) (g : BitVec 3) (z : BitVec 2) (imm : BitVec 32) (s : State) : Out :=
  .next (s.issue [d.toNat, a.toNat] fun s => s.storeAt (2 ^ z.toNat) (s.val d) g.toNat (s.offL a imm) 8)

/-! ## Relaxed loads and stores (R297) -/

/-- LDR_64: the destination becomes pending. -/
def execLdr64 (d x : BitVec 8) (g : BitVec 3) (o : BitVec 5) (s : State) : Out :=
  .next (s.issue [d.toNat, x.toNat] fun s =>
    s.relaxedAccess { seg := g.toNat, off := s.offM x o 8, size := 8, need := rR, align := 8 } { op := .read, kind := 0x04 } (some d.toNat))

/-- STR_64: the value of d at issue is stored. -/
def execStr64 (d x : BitVec 8) (g : BitVec 3) (o : BitVec 5) (s : State) : Out :=
  .next (s.issue [d.toNat, x.toNat] fun s =>
    s.relaxedAccess { seg := g.toNat, off := s.offM x o 8, size := 8, need := rW, align := 8 }
      { op := .write, data := leBytes 8 (s.val d).toNat, en := allOn 8, kind := 0x05 } none)

/-! ## Full/empty operations (R298, R299) -/

/-- LDF_64. -/
def execLdf64 (d x : BitVec 8) (g : BitVec 3) (o : BitVec 5) (s : State) : Out :=
  .next (s.issue [d.toNat, x.toNat] fun s => s.feM .ldf (rR + rF) 8 0x08 [] x g o (.load .w64 d.toNat 4))
/-- LDFC_64. -/
def execLdfc64 (d x : BitVec 8) (g : BitVec 3) (o : BitVec 5) (s : State) : Out :=
  .next (s.issue [d.toNat, x.toNat] fun s => s.feM .ldfc (rR + rF) 8 0x08 [] x g o (.load .w64 d.toNat 4))
/-- LDFN_64: the doubleword and the bit go to a register pair. -/
def execLdfn64 (d x : BitVec 8) (g : BitVec 3) (o : BitVec 5) (s : State) : Out :=
  .next (s.issue [d.toNat, d.toNat + 1, x.toNat] fun s => s.feM .ldfn (rR + rF) 8 0x08 [] x g o (.probe d.toNat 4))
/-- STF_64. -/
def execStf64 (d x : BitVec 8) (g : BitVec 3) (o : BitVec 5) (s : State) : Out :=
  .next (s.issue [d.toNat, x.toNat] fun s => s.feM .writeFull (rW + rF) 8 0x09 (leBytes 8 (s.val d).toNat) x g o (.done 4))
/-- STEF_64. -/
def execStef64 (d x : BitVec 8) (g : BitVec 3) (o : BitVec 5) (s : State) : Out :=
  .next (s.issue [d.toNat, x.toNat] fun s => s.feM .stef (rW + rF) 8 0x09 (leBytes 8 (s.val d).toNat) x g o (.done 4))
/-- CLRE. -/
def execClre (x : BitVec 8) (g : BitVec 3) (o : BitVec 5) (s : State) : Out :=
  .next (s.issue [x.toNat] fun s => s.feM .clre (rW + rF) 16 0x09 [] x g o (.done 4))
/-- SETF. -/
def execSetf (x : BitVec 8) (g : BitVec 3) (o : BitVec 5) (s : State) : Out :=
  .next (s.issue [x.toNat] fun s => s.feM .setf (rW + rF) 16 0x09 [] x g o (.done 4))

/-! ## Atomics (R300, R301) -/

/-- AmoAdd (R300). -/
def execAmoAdd (d x : BitVec 8) (g : BitVec 3) (o : BitVec 5) (s : State) : Out := .next (s.amoM .add d x g o)
/-- AmoFadd (R300). -/
def execAmoFadd (d x : BitVec 8) (g : BitVec 3) (o : BitVec 5) (s : State) : Out := .next (s.amoM .fadd d x g o)
/-- AmoMinI (R300). -/
def execAmoMinI (d x : BitVec 8) (g : BitVec 3) (o : BitVec 5) (s : State) : Out := .next (s.amoM .minI d x g o)
/-- AmoMaxI (R300). -/
def execAmoMaxI (d x : BitVec 8) (g : BitVec 3) (o : BitVec 5) (s : State) : Out := .next (s.amoM .maxI d x g o)
/-- AmoMinN (R300). -/
def execAmoMinN (d x : BitVec 8) (g : BitVec 3) (o : BitVec 5) (s : State) : Out := .next (s.amoM .minN d x g o)
/-- AmoMaxN (R300). -/
def execAmoMaxN (d x : BitVec 8) (g : BitVec 3) (o : BitVec 5) (s : State) : Out := .next (s.amoM .maxN d x g o)
/-- AmoAnd (R300). -/
def execAmoAnd (d x : BitVec 8) (g : BitVec 3) (o : BitVec 5) (s : State) : Out := .next (s.amoM .and d x g o)
/-- AmoOr (R300). -/
def execAmoOr (d x : BitVec 8) (g : BitVec 3) (o : BitVec 5) (s : State) : Out := .next (s.amoM .or d x g o)
/-- AmoXor (R300). -/
def execAmoXor (d x : BitVec 8) (g : BitVec 3) (o : BitVec 5) (s : State) : Out := .next (s.amoM .xor d x g o)
/-- FamoAdd (R301). -/
def execFamoAdd (d x : BitVec 8) (g : BitVec 3) (o : BitVec 5) (s : State) : Out := .next (s.famoM .add d x g o)
/-- FamoFadd (R301). -/
def execFamoFadd (d x : BitVec 8) (g : BitVec 3) (o : BitVec 5) (s : State) : Out := .next (s.famoM .fadd d x g o)
/-- FamoOr (R301). -/
def execFamoOr (d x : BitVec 8) (g : BitVec 3) (o : BitVec 5) (s : State) : Out := .next (s.famoM .or d x g o)
/-- FamoSwap (R301). -/
def execFamoSwap (d x : BitVec 8) (g : BitVec 3) (o : BitVec 5) (s : State) : Out := .next (s.famoM .swap d x g o)
/-- FamoCas: compares with the first register of the pair, stores the second, and returns the old value in the first (R301). -/
def execFamoCas (d x : BitVec 8) (g : BitVec 3) (o : BitVec 5) (s : State) : Out :=
  .next (s.issue [d.toNat, d.toNat + 1, x.toNat] fun s =>
    s.plain { seg := g.toNat, off := s.offM x o 8, size := 8, need := rR + rW + rA, align := 8 }
      { op := .famo .cas, data := s.pairBytes d, en := allOn 8, kind := 0x07 } (.load .w64 d.toNat 4))

/-! ## Prefetch and segments (R303, R304) -/

/-- The prefetch of the line of an address for a strand: an L1D hit needs nothing (R92, R303). -/
def State.prefetch (s : State) (k : Nat) (a : Addr) : State :=
  let c := coreOfK k
  let n := a.toNat / 128
  if (lineOf n (s.core c).l1d).isSome then s
  else s.toPort (siteOfK k) { addr := BitVec.ofNat 60 (n * 128), op := .read, size := 128, k, owner := .prefetch c n }

/-- PREF: it takes a permit, never parks, and a failed check drops it silently (R93, R303). -/
def execPref (x : BitVec 8) (g : BitVec 3) (o : BitVec 5) (s : State) : Out :=
  .next (s.issue [x.toNat] fun s => s.withPermit .memory fun s =>
    let t := match s.checkAccess s.cur (s.me.seg g.toNat) (s.offM x o 128) 1 rR 1 with
      | .ok a => if kindBits a.toNat = 0 then s.prefetch s.cur a else s.count (coreOfK s.cur) 0x009 1
      | .error _ => s.count (coreOfK s.cur) 0x009 1
    t.pass 4)

/-- The new segment lies inside its source as `segset` in user mode asks (R47, R304). -/
def Seg.inside (n p : Seg) : Bool :=
  decide (p.base.toNat ≤ n.base.toNat) && decide (n.base.toNat + n.limit.toNat ≤ p.base.toNat + p.limit.toNat)
    && kindBits n.base.toNat == kindBits p.base.toNat && subRights n.rights.toNat p.rights.toNat && !bitOn n.rights.toNat 5

/-- SEGSET (R47, R304). -/
def execSegset (d a : BitVec 8) (st sp : BitVec 3) (rights : BitVec 6) (s : State) : Out :=
  .next (s.issue [d.toNat, a.toNat] fun s =>
    let n : Seg := { base := (s.val d).setWidth 60, limit := (s.val a).setWidth 48, rights }
    if !s.me.sup && !n.inside (s.me.seg sp.toNat) then s.raiseFault s.cur .segment
    else s.modStrand s.cur fun x => { x with segs := Tab.put st.toNat n x.segs, pc := x.pc + 8 })

end Sys2Proof.Machine
end

