-- ==== Sys2Proof/Machine/Ordering.lean ====
section
/-! DEFINITION. Fences, range instructions, the gang barrier and monitors (R103, R106, R120, R121, R221, R305-R310). -/

namespace Sys2Proof.Machine

/-! ## Fences (R106, R120, R121) -/

/-- WAIT_R (R103, R306). -/
def execWaitR (s : State) : Out :=
  .next (if s.me.tracker.isEmpty then s.pass 4 else s.park s.cur .relaxedWait (.done 4))

/-- Every host-window write of the strand is completed at the host (R120). -/
def State.hostWritesDone (s : State) (k : Nat) : Bool :=
  (List.range 16).all fun r => !(s.gate (rimSite r)).posted.any fun p => p.k == k

/-- The gatehouse drain (R121): every write buffered when a host-window read of the strand was served is completed at the host. -/
def State.hostReadsDrained (s : State) (k : Nat) : Bool :=
  (List.range 16).all fun r =>
    let g := s.gate (rimSite r)
    g.served.all fun (j, w) => j != k || !g.posted.any fun p => decide (p.id ≤ w)

/-- What a fence waits for after its actions is done. -/
def State.fenceReady (s : State) (k mode : Nat) (txns : List Nat) : Bool :=
  !s.unwritten (siteOfK k) txns && (!bitOn mode 0 || s.hostWritesDone k) && (!bitOn mode 1 || s.hostReadsDrained k)

/-- A strand parked for a fence goes on when its actions are complete (R106). -/
def State.testFence (s : State) (k : Nat) : State :=
  match (s.strand k).cont with
  | .flush mode n txns => if (s.strand k).st = .parked && s.fenceReady k mode txns then s.completed k n else s.testHalt k
  | _ => s

/-- The actions of a fence are under way: the strand completes in its turn, or parks with reason fence until they and the write-backs are
complete. -/
def State.awaitFlush (s : State) (mode n : Nat) (txns : List Nat) : State :=
  if s.fenceReady s.cur mode txns then s.pass n else s.park s.cur .fence (.flush mode n txns)

/-- The write-backs that a fence of a scope waits for (R106, R113): its own, and those of the caches it covers that were under way already. -/
def State.fenceTxns (s : State) (scope : Nat) : List Nat :=
  if scope = 0 then [] else s.writeBacks (siteOfK s.cur) [coreNo s.cur] (decide (3 ≤ scope)) fun _ => true

/-- The release actions of a scope (R106): 0 core, 1 bower, 2 pavilion, 3 module, 4 system. -/
def State.relActions (s : State) (scope : Nat) : State :=
  let k := s.cur
  let s := if scope = 0 then s else s.flushL1d (coreOfK k) (fun _ => true) false
  if scope < 3 then s else s.flushSlice (siteOfK k) (fun _ => true) false

/-- The acquire actions of a scope (R105, R106). -/
def State.acqActions (s : State) (scope : Nat) : State :=
  let k := s.cur
  let s := if scope = 0 then s else s.flushL1d (coreOfK k) (fun _ => true) true
  if scope < 3 then s else s.flushSlice (siteOfK k) (fun _ => true) true

/-- A fence: the wait of `wait.r`, then its actions (R106, R305). -/
def State.fence (s : State) (mode scope : Nat) (act : State → State) : State :=
  if s.me.tracker.isEmpty then
    let s := act s
    s.awaitFlush mode 4 (s.fenceTxns scope)
  else s.park s.cur .relaxedWait .reissue

/-- FENCE_ACQ (R106). -/
def execFenceAcq (g : BitVec 3) (s : State) : Out :=
  .next (s.fence (if g = 4 then 2 else 0) g.toNat fun s => s.acqActions g.toNat)
/-- FENCE_REL (R106). -/
def execFenceRel (g : BitVec 3) (s : State) : Out :=
  .next (s.fence (if g = 4 then 1 else 0) g.toNat fun s => s.relActions g.toNat)
/-- FENCE_AR: release, then acquire (R106). -/
def execFenceAr (g : BitVec 3) (s : State) : Out :=
  .next (s.fence (if g = 4 then 3 else 0) g.toNat fun s => (s.relActions g.toNat).acqActions g.toNat)

/-- A range instruction (R307): a length of 0 completes; the checks of R78 cover the whole range; only heap addresses have lines. -/
def State.range (s : State) (d x : BitVec 8) (g : BitVec 3) (o : BitVec 5) (drop : Bool) : State :=
  s.issue [d.toNat, x.toNat] fun s =>
    let n := (s.val d).toNat
    if n = 0 then s.pass 4
    else match s.checkAccess s.cur (s.me.seg g.toNat) (s.offM x o 128) n rR 1 with
      | .error (c, a) => s.faultAt c a 0
      | .ok a =>
        if kindBits a.toNat ≠ 0 then s.pass 4
        else
          let p (l : Nat) : Bool := decide (a.toNat / 128 ≤ l ∧ l ≤ (a.toNat + n - 1) / 128)
          let s := (s.flushL1d (coreOfK s.cur) p drop).flushSlice (siteOfK s.cur) p drop
          s.awaitFlush 0 4 (s.writeBacks (siteOfK s.cur) [coreNo s.cur] true p)

/-- INV (R307). -/
def execInv (d x : BitVec 8) (g : BitVec 3) (o : BitVec 5) (s : State) : Out := .next (s.range d x g o true)
/-- WB (R307). -/
def execWb (d x : BitVec 8) (g : BitVec 3) (o : BitVec 5) (s : State) : Out := .next (s.range d x g o false)

/-! ## The gang barrier (R221, R308) -/

/-- The lead of a crew (R221). -/
def Gang.lead (g : Gang) (crew : Nat) : Nat := Tab.get 0 crew g.leads
/-- The crews of a gang that have not ended. -/
def Gang.live (g : Gang) : List Nat := (List.range g.cores.length).filter fun i => !g.ended.contains i

/-- The strands of a gang whose parked continuation meets a test. -/
def State.parkedIn (s : State) (v e : Nat) (p : Cont → Bool) : List Nat :=
  (s.gangStrands v e).filter fun k => (s.strand k).st == .parked && p (s.strand k).cont

/-- The barrier's waiters whose crew's lead is 0 are woken (R221). -/
def State.wakeBarrier (s : State) (v e : Nat) : State :=
  each (s.parkedIn v e fun c => c == .barWait) (fun s k => if (s.gang v e).lead (s.strand k).crew = 0 then s.completed k 4 else s) s

/-- A parked fourth arrival is counted when its crew's lead has fallen to 2 (R221). DESIGN CHOICE (log 89): of several that are parked for one crew the
one in the lowest slot. -/
def State.countFourth (s : State) (v e : Nat) : State :=
  each (s.parkedIn v e fun c => match c with | .fourth _ => true | _ => false) (fun s k =>
    let i := (s.strand k).crew
    if (s.gang v e).lead i < 3 then
      let s := s.modGang v e fun g => { g with leads := Tab.put i (g.lead i + 1) g.leads }
      match (s.strand k).cont with
      | .fourth true => s.modStrand k fun x => { x with cont := .barWait }
      | _ => s.completed k 4
    else s) s

/-- Phases complete while every live crew has arrived (R221). -/
def State.phases : Nat → Nat → Nat → State → State
  | 0, _, _, s => s
  | n + 1, v, e, s =>
    let g := s.gang v e
    if !g.live.isEmpty && g.live.all (fun i => decide (1 ≤ g.lead i)) then
      let s := s.modGang v e fun g => { g with leads := g.live.map (fun i => (i, g.lead i - 1)), phase := (g.phase + 1) % 2 ^ 32 }
      State.phases n v e ((s.countFourth v e).wakeBarrier v e)
    else s

/-- The phase test of a gang. Leads are at most 3 and fourth arrivals at most one per strand, so 256 rounds exceed any run. -/
def State.testPhase (s : State) (v e : Nat) : State := State.phases 256 v e s

/-- BARRIER_ARRIVAL: the claim unit counts the arrival that a strand has sent (R221, R308). -/
def State.barrierArrival (s : State) (k : Nat) : Option State :=
  let x := s.strand k
  let v := siteOfK k
  match x.st, x.cont with
  | .parked, .arrive sync =>
    let g := s.gang v x.entry
    if 3 ≤ g.lead x.crew then some (((s.repark k .barrier).modStrand k fun x => { x with cont := .fourth sync }).testHalt k)
    else
      let s := s.modGang v x.entry fun g => { g with leads := Tab.put x.crew (g.lead x.crew + 1) g.leads }
      if sync then
        let s := s.modStrand k fun x => { x with cont := .barWait }
        let s := s.testPhase v x.entry
        some (if (s.strand k).cont = .barWait then (s.repark k .barrier).testHalt k else s)
      else some ((s.completed k 4).testPhase v x.entry)
  | _, _ => none

/-- BARRIER_ARRIVAL (R221). -/
def execBarrierArrival (k : Nat) (s : State) : Out := due "BARRIER_ARRIVAL" (s.barrierArrival k)

/-- An arrival leaves: the wait of `wait.r`, then the message to the claim unit (R308). -/
def State.arrive (s : State) (sync : Bool) : State :=
  if s.me.tracker.isEmpty then s.park s.cur .access (.arrive sync) else s.park s.cur .relaxedWait .reissue

/-- BAR_ARR (R308). -/
def execBarArr (s : State) : Out := .next (s.arrive false)
/-- BAR_SYNC (R308). -/
def execBarSync (s : State) : Out := .next (s.arrive true)
/-- BAR_WAIT: parked with reason access while the claim unit is consulted (R221, R308). -/
def execBarWait (s : State) : Out := .next (s.askUnit .barAsk .ack [])

/-- The claim unit has answered `bar.wait`: it is complete when the crew's lead is 0 now, else the strand parks with reason barrier (R308). -/
def State.barAnswer (s : State) (k : Nat) : State :=
  if (s.gang (siteOfK k) (s.strand k).entry).lead (s.strand k).crew = 0 then s.completed k 4
  else ((s.repark k .barrier).modStrand k fun x => { x with cont := .barWait }).testHalt k

/-! ## Monitors (R133, R134, R309, R310) -/

/-- The removal of a watch of the strand is sent to its home (R133, R310). -/
def State.removeWatch (s : State) (k d u g : Nat) : State :=
  let v := siteOfK k
  let (x, y) := s.virt d
  match s.resolve v x y (g * 16) with
  | some (p, m) =>
    s.request v (s.number k) { op := .monClr, size := 16, k, sup := true } { dst := p, unit := u, off := g * 16, mesh := m } none 0
  | none => s

/-- The removal of the watch that the strand's monitor has recorded. -/
def State.sendRemoval (s : State) (k : Nat) : State :=
  match (s.strand k).monitor.watch with
  | none => s
  | some (d, u, g) => s.removeWatch k d u g

/-- MON_ARM: the fired mark clears, an earlier watch is removed and the new one sent; the strand does not park. While a watch is in
flight a second arm also fires the monitor, and the watch in flight is removed once its home is known (R133, R134, R309). -/
def execMonArm (x : BitVec 8) (g : BitVec 3) (o : BitVec 5) (s : State) : Out :=
  .next (s.issue [x.toNat] fun s =>
    let k := s.cur
    match s.checkAccess k (s.me.seg g.toNat) (s.offM x o 16) 16 rR 16 with
    | .error (c, a) => s.faultAt c a 0x13
    | .ok a =>
      if s.feCore (siteOfK k) a true then s.faultAt .feHome (some a) 0x13
      else
        let pc := s.me.pc
        let (n, s) := (s.sendRemoval k).fresh
        let arm (m : Monitor) : Monitor := { fired := !m.inFlight.isEmpty, inFlight := m.inFlight ++ [(n, a)], current := some n }
        let s := s.modStrand k fun x => { x with monitor := arm x.monitor, pc := x.pc + 4 }
        s.sendAccess { addr := a, op := .monArm, size := 16, kind := 0x13, pc, k, sup := s.me.sup, owner := .monitor k n })

/-- MON_WAIT (R310). -/
def execMonWait (s : State) : Out :=
  .next (if s.me.monitor.fired && s.me.monitor.inFlight.isEmpty then s.pass 4 else s.park s.cur .monitor (.done 4))

/-- MON_CLR: the removal is sent and the fired mark cleared (R310). -/
def execMonClr (s : State) : Out :=
  let s := s.sendRemoval s.cur
  .next (s.modStrand s.cur fun x => { x with monitor := { inFlight := x.monitor.inFlight }, pc := x.pc + 4 })

end Sys2Proof.Machine
end

