-- ==== Sys2Proof/Machine/LaunchUnit.lean ====
section
/-! DEFINITION. A launch unit's books: completion records, the nodes of replays, and the gangs of launches that have ended (R148, R155,
R157). -/

namespace Sys2Proof.Machine

/-- Words 0 and 1 of a completion record (R148). -/
def completionRecord (op status tag number : Nat) : Word × Word :=
  (BitVec.ofNat 64 (op * 2 ^ 48 + status * 2 ^ 32 + tag), BitVec.ofNat 64 number)

/-- A command of queue q is complete: its record waits to be written, in completion order (R148). -/
def Gate.complete (g : Gate) (q op status : Nat) (tag : BitVec 32) (number : Nat) : Gate :=
  let h := Tab.get {} q g.queues
  { g with queues := Tab.put q { h with held := h.held ++ [completionRecord op status tag.toNat number] } g.queues }

/-- The records of finished replays, each after those of every earlier replay of its object (R157). -/
def Gate.recordReplays : List ReplayCmd → Gate → Gate
  | [], g => g
  | r :: rest, g =>
    let earlier := (g.replays.takeWhile fun q => q.id != r.id).any fun q => q.object == r.object
    if r.done && !earlier then
      Gate.recordReplays rest
        (({ g with replays := g.replays.filter fun q => q.id != r.id }).complete r.queue 2 (if r.status = 0 && r.aborted then 6 else r.status) r.tag r.number)
    else Gate.recordReplays rest g

/-- A change of one replay. -/
def Gate.modReplay (g : Gate) (i : Nat) (f : ReplayCmd → ReplayCmd) : Gate :=
  { g with replays := g.replays.map fun r => if r.id = i then f r else r }

/-- The bank that a replay uses is no longer busy (R157). -/
def Gate.freeBank (g : Gate) (r : ReplayCmd) : Gate :=
  let o := Tab.get {} r.object.toNat g.objects
  match r.bank with
  | none => g
  | some true => { g with objects := Tab.put r.object.toNat { o with busyB := false } g.objects }
  | some false => { g with objects := Tab.put r.object.toNat { o with busyA := false } g.objects }

/-- A node of a replay is complete: with its last node the replay is, and its bank is free (R157). -/
def Gate.nodeDone (g : Gate) (i n : Nat) (aborted : Bool) (status : Nat) : Gate :=
  let g := g.modReplay i fun r =>
    { r with complete := NatSet.add n r.complete, aborted := r.aborted || aborted, status := if r.status = 0 then status else r.status }
  match g.replays.find? (fun r => r.id == i) with
  | none => g
  | some r =>
    if r.nodes ≤ r.complete.length then
      let g := (g.modReplay i fun r => { r with done := true }).freeBank r
      Gate.recordReplays g.replays g
    else g

/-- A launch whose last gang has ended, its adds performed or dropped, is complete: its record or its node follows (R148, R155, R157). -/
def Gate.finishLaunch (g : Gate) (number : BitVec 32) : Gate :=
  match g.launches.find? (fun l => l.number == number && decide (l.total ≤ l.ended)) with
  | none => g
  | some l =>
    let g := { g with launches := g.launches.filter fun (q : Launch) => q.number != number }
    match l.node, l.queue with
    | some (r, n), _ => g.nodeDone r n l.aborted 0
    | none, some q =>
      let h := Tab.get {} q g.queues
      ({ g with queues := Tab.put q { h with open_ := NatSet.del number.toNat h.open_ } g.queues }).complete q 1 (if l.aborted then 6 else 0) l.tag number.toNat
    | none, none => g

/-- A gang of a launch has ended and its add is performed or dropped (R155). -/
def Gate.gangEnded (g : Gate) (number : BitVec 32) (aborted : Bool) : Gate :=
  ({ g with launches := g.launches.map fun (l : Launch) =>
      if l.number = number then { l with ended := l.ended + 1, aborted := l.aborted || aborted } else l }).finishLaunch number

/-- A gang named by pre-emption commands is saved or has ended: a command whose last gang it was is complete (R161, R148). -/
def Gate.saved (g : Gate) (launch gang : BitVec 32) : Gate :=
  let ps := g.preempts.map fun (q, t, l) => (q, t, l.filter fun p => !(p.1 == launch && p.2 == gang))
  let fin := ps.filter fun p => p.2.2.isEmpty
  fin.foldl (fun g (q, t, _) => g.complete q 3 0 t launch.toNat) { g with preempts := ps.filter fun p => !p.2.2.isEmpty }

end Sys2Proof.Machine
end

