-- ==== Sys2Proof/Machine/Claims.lean ====
section
/-! DEFINITION. The claim table: pools, claims and holdings, the safety check, grants, releases and the waiter scan (R169-R191). Pools are
numbered as in R169: 0-15 the register pools, 16-19 the store pools, 20-35 the matrix pools. -/

namespace Sys2Proof.Machine

/-! ## Pools and holdings (R169-R171, R176) -/

/-- The number of pools. -/
def poolCount : Nat := 36

/-- Units of a pool (R169). -/
def poolTotal (p : Nat) : Nat := if p < 16 then 248 else if p < 20 then 256 else 4

/-- Register granules a strand may hold (R171). -/
def Desc.sgran (d : Desc) : Nat := (d.sreg + 15) / 16

/-- The claim of a gang on a pool (R171). DESIGN CHOICE (log 85): a crew that has ended still counts in it until the gang ends. -/
def Gang.claim (g : Gang) (p : Nat) : Nat :=
  if g.st = .free then 0
  else if p < 16 then (if g.cores.contains p then min g.desc.creg (g.desc.sgran * popCount g.desc.slotmask 13) else 0)
  else if p < 20 then g.desc.st.getD (p - 16) 0
  else if g.cores.contains (p - 20) then g.desc.mslots else 0

/-- The crew of a gang on a core. -/
def Gang.crewOn (g : Gang) (core : Nat) : Nat := (indexIn core g.cores).getD 0

/-- Register granules that the strands of a crew hold. -/
def State.crewGranules (s : State) (c e : Nat) : Nat := ((s.crewStrands c e).map fun k => (s.strand k).granules).sum

/-- Units of a pool that the gang of an entry holds (R176). -/
def State.heldBy (s : State) (v e p : Nat) : Nat :=
  let g := s.gang v e
  if p < 16 then s.crewGranules (v * 16 + p) e
  else if p < 20 then (Tab.get [] (p - 16) g.stores).length
  else if g.cores.contains (p - 20) then Tab.get 0 (g.crewOn (p - 20)) g.mats else 0

/-- What a gang may still need of a pool: nothing once it only releases (R176). -/
def State.need (s : State) (v e p : Nat) : Nat := if (s.gang v e).st = .running then (s.gang v e).claim p - s.heldBy v e p else 0

/-- The entries of a pavilion's claim table that are not FREE. -/
def State.entries (s : State) (v : Nat) : List Nat := ((s.site v).gangs.filter fun (_, g) => g.st != .free).map (·.1)

/-- Free units of a pool (R176). -/
def State.freeUnits (s : State) (v p : Nat) : Nat := poolTotal p - ((s.entries v).map fun e => s.heldBy v e p).sum

/-! ## The safety check (R177) -/

/-- One gang in the check: what it holds and what it needs of every pool. -/
structure Check where
  held : List Nat
  need : List Nat
deriving DecidableEq, Repr

/-- Every need can be met from what is free. -/
def fits (need work : List Nat) : Bool := (need.zip work).all fun (m, w) => decide (m ≤ w)

/-- Two lists added place by place. -/
def addLists (a b : List Nat) : List Nat := (a.zip b).map fun (x, y) => x + y

/-- The passes of the check: every gang whose need fits finishes and returns what it holds. -/
def checkPasses : Nat → List Nat → List Check → Bool
  | 0, _, l => l.isEmpty
  | n + 1, work, l =>
    let f := l.filter fun c => fits c.need work
    if f.isEmpty then l.isEmpty
    else checkPasses n (f.foldl (fun w c => addLists w c.held) work) (l.filter fun c => !fits c.need work)

/-- The request of the gang of entry e for n units of pool p is safe (R177). At most 33 passes. -/
def State.safeGrant (s : State) (v e p n : Nat) : Bool :=
  let pools := List.range poolCount
  let work := pools.map fun q => if q = p then s.freeUnits v q - n else s.freeUnits v q
  let row (g : Nat) : Check :=
    { held := pools.map fun q => s.heldBy v g q + (if g = e ∧ q = p then n else 0),
      need := pools.map fun q => s.need v g q - (if g = e ∧ q = p then n else 0) }
  checkPasses 33 work ((s.entries v).map row)

/-! ## The issuing strand's pools (R181, R182, R185) -/

/-- The pool that a selector names for a strand (R181). -/
def poolOf (k : Nat) (kind bower : Nat) : Nat := if kind = 0 then coreNo k else if kind = 1 then 16 + bower else 20 + coreNo k

/-- Held: the strand's granules, the crew's slots, the gang's list (R185). -/
def State.heldOf (s : State) (k p : Nat) : Nat :=
  if p < 16 then (s.strand k).granules else s.heldBy (siteOfK k) (s.strand k).entry p

/-- Remaining: the most the strand may still acquire (R182). DESIGN CHOICE (log 49): the difference is cut to 0 where waiting strands of one crew
have been granted more than the limit together. -/
def State.remaining (s : State) (k p : Nat) : Nat :=
  let x := s.strand k
  let g := s.gang (siteOfK k) x.entry
  if p < 16 then min (g.desc.sgran - x.granules) (g.desc.creg - s.crewGranules (coreOfK k) x.entry)
  else if p < 20 then g.desc.st.getD (p - 16) 0 - s.heldOf k p
  else g.desc.mslots - s.heldOf k p

/-! ## Grants (R170, R180) -/

/-- n bytes from a granule-aligned memory key read zero and empty, with fresh check bits (R88, R91). -/
def State.zeroBytes (s : State) (lo n : Nat) : State :=
  { s with
    mem := s.mem.filter (fun c => !decide (lo ≤ c.1 ∧ c.1 < lo + n)),
    full := s.full.filter (fun g => !decide (lo / 16 ≤ g ∧ g < (lo + n) / 16)),
    flaws := s.flaws.filter (fun f => !decide (lo / 16 ≤ f.1 ∧ f.1 < (lo + n) / 16)) }

/-- A store granule of a bower reads zero and empty again (R170): 16 KiB. -/
def State.zeroGranule (s : State) (v b g : Nat) : State := s.zeroBytes (homeKey v b (g * 16384)) 16384

/-- Resumption marks of a bower (R180): granules kept for a waiting resumption. -/
def Site.marked (t : Site) (b g : Nat) : Bool := t.marks.any fun m => m.2 == (b, g)

/-- The n granules that a store grant takes: the lowest-numbered free ones, unmarked ones first, in ascending order (R170). -/
def State.pickStore (s : State) (v b n : Nat) : List Nat :=
  let t := s.site v
  let fr := (List.range 256).filter fun g => !t.storeHeld b g
  let take := ((fr.filter fun g => !t.marked b g) ++ fr.filter fun g => t.marked b g).take n
  fr.filter take.contains

/-- n units of a pool are added to the holder (R170, R42). -/
def State.grant (s : State) (k p n : Nat) : State :=
  let v := siteOfK k
  let x := s.strand k
  let e := x.entry
  if p < 16 then
    let lo := granuleReg x.granules
    s.setStrand k { x with granules := x.granules + n, regs := x.regs.filter fun r => decide (r.1 < lo) }
  else if p < 20 then
    let gs := s.pickStore v (p - 16) n
    let s := s.modGang v e fun g => { g with stores := Tab.put (p - 16) (Tab.get [] (p - 16) g.stores ++ gs) g.stores }
    (each gs (fun s g => s.zeroGranule v (p - 16) g) s).serveChanged s v (p - 16)
  else
    let i := (s.gang v e).crewOn (p - 20)
    let h := s.heldOf k p
    let s := s.modGang v e fun g => { g with mats := Tab.put i (h + n) g.mats }
    s.modCore (v * 16 + (p - 20)) fun c => { c with accs := c.accs.filter fun a => !decide (e * 4 + h ≤ a.1 ∧ a.1 < e * 4 + 4) }

/-! ## Starts, and the rows of a drain (R61, R349) -/

/-- A strand begins in a slot: it is READY, its generator is seeded, and the core counts the start (R61, R144). -/
def State.begin (s : State) (k : Nat) (x : Strand) : State :=
  let c := coreOfK k
  let n := (s.core c).starts
  (s.modCore c fun q => { q with starts := (n + 1) % 2 ^ 40 }).setStrand k
    { x with st := .ready, seed := BitVec.ofNat 64 (n * 2 ^ 24 + s.number k) }

/-- Row i of the drain at the head of a core's drain lane begins: its handler starts in the drain's slot with window granules 0 and 1 held, v0
the row and v1 zero (R349). -/
def State.drainRow (s : State) (c : Nat) : State :=
  match (s.core c).drn with
  | [] => s
  | o :: _ =>
    match o.kind with
    | .drain _ q entry a2 a3 _ =>
      let x := s.strand o.k
      let acc := Tab.get [] (x.entry * 4 + o.acc) (s.core c).accs
      let el (j : Nat) : Nat := (Tab.get 0 (o.g * 32 + j) acc).toNat
      let row := (List.range 16).map fun w => (granuleReg 0 + w, BitVec.ofNat 64 (el (2 * w) + 2 ^ 32 * el (2 * w + 1)))
      let h : Strand :=
        { pc := entry, regs := [(1, BitVec.ofNat 64 o.g), (2, a2), (3, a3)] ++ row, granules := 2, segs := x.segs, crew := x.crew,
          gang := x.gang, launch := x.launch, shape := x.shape, entry := x.entry, starter := slotOf o.k, drain := true }
      (s.modCore c fun y => { y with drn := y.drn.map fun p => if p.seq = o.seq then { p with running := true } else p }).begin (slotKey c q) h
    | _ => s

/-! ## The waiter scan (R186) -/

/-- A list of waiters of one pool from its head: granted, skipped when unsafe, and stopped at when unavailable (R186). A drain's own request starts its
first row (R349); any other grant, that of a drain's handler too, completes its `acq.w` (R183). DESIGN CHOICE (log 85): the request of a drain of a
gang that is STOPPING keeps its place and is skipped. -/
def State.scanPool (v p : Nat) : List Waiter → State → State
  | [], s => s
  | w :: ws, s =>
    if (s.gang v (s.strand w.k).entry).st ≠ .running then State.scanPool v p ws s
    else if s.freeUnits v p < w.n then s
    else if s.safeGrant v (s.strand w.k).entry p w.n then
      let t := (s.grant w.k p w.n).dropWaiter w.k
      State.scanPool v p ws (if (s.strand w.k).drain ∧ (s.strand w.k).cont = .rowEnd then t.drainRow (coreOfK w.k) else t.completed w.k 4)
    else State.scanPool v p ws s

/-- The scan of one pool's list (R183, R186). -/
def State.scanOne (s : State) (v p : Nat) : State := State.scanPool v p ((s.site v).waiters.filter fun w => w.pool == p) s

/-- The pavilion reports a gang end, a release or a resumption: launch units whose gangs wait for it offer them again from the first pavilion
of their windows (R152), and waiting resumptions first (R154). -/
def State.report (s : State) (v : Nat) : State :=
  let (x, y) := s.virt v
  let s := s.modSite v fun t => { t with resuming := t.resuming.map fun r => (r.1, false) }
  let here (l : Launch) : Bool := decide (l.desc.x0 ≤ x ∧ x ≤ l.desc.x1 ∧ l.desc.y0 ≤ y ∧ y ≤ l.desc.y1)
  let waits (l : Launch) : Bool := decide (l.next < l.total) && here l
  each (List.range 16) (fun s r =>
    if (s.gate (rimSite r)).launches.any waits then
      s.modGate (rimSite r) fun g => { g with launches := g.launches.map fun (l : Launch) => if waits l then { l with scan := 0 } else l }
    else s) s

/-- The scan of every list in ascending pool number (R186), and the report of the release that it follows (R152). -/
def State.scanAll (s : State) (v : Nat) : State := (each (List.range poolCount) (fun s p => s.scanOne v p) s).report v

/-! ## Releases (R170, R185, R189) -/

/-- n units of a pool are given up by their holder (R170); the contents of store granules are lost (log 22). -/
def State.giveUp (s : State) (k p n : Nat) : State :=
  let v := siteOfK k
  let e := (s.strand k).entry
  if p < 16 then s.modStrand k fun x => { x with granules := x.granules - n }
  else if p < 20 then
    s.modGang v e fun g =>
      let l := Tab.get [] (p - 16) g.stores
      { g with stores := Tab.put (p - 16) (l.take (l.length - n)) g.stores }
  else s.modGang v e fun g => { g with mats := Tab.put (g.crewOn (p - 20)) (s.heldOf k p - n) g.mats }

/-- The holdings that `rel.all` names: register, matrix and the four store pools (R185). -/
def State.allPools (s : State) (k : Nat) : List (Nat × Nat) :=
  ([coreNo k, 20 + coreNo k] ++ (List.range 4).map (16 + ·)).map fun p => (p, s.heldOf k p)

/-- `rel` and `rel.all` after their checks: the waits, with reason access, then the release of what was named before them and the scan (R185). -/
def State.release (s : State) (l : List (Nat × Nat)) : State :=
  let k := s.cur
  let lo := ((l.filter fun q => decide (20 ≤ q.1)).map fun q => s.heldOf k q.1 - q.2).headD 4
  if s.me.tracker.isEmpty && s.me.pend.isEmpty && !s.accBusy k lo then
    ((each l (fun s q => s.giveUp k q.1 q.2) s).scanAll (siteOfK k)).modStrand k fun x => { x with pc := x.pc + 4, cont := .reissue }
  else s.park k .access (.release lo l)

/-- What the issuing strand's `rel`, whose waits are over, named when it was issued first (R185). -/
def State.relNamed (s : State) : Option (List (Nat × Nat)) := match s.me.cont with | .release _ l => some l | _ => none

/-! ## The instructions (R183-R187) -/

/-- ACQ_W (R183). In a gang that is STOPPING the strand stops in the cycle it parks. -/
def execAcqW (a : BitVec 8) (kd b : BitVec 2) (s : State) : Out :=
  .next (s.issue [a.toNat] fun s =>
    let k := s.cur
    let v := siteOfK k
    let p := poolOf k kd.toNat b.toNat
    let n := (s.val a).toNat
    if s.remaining k p < n then s.raiseFault k .overclaim
    else if n = 0 then s.pass 4
    else if s.myGang.st = .stopping then ((s.park k .claim .reissue).count (coreOfK k) 0x010 1).stop k
    else
      let s := ((s.park k .claim (.claim p n)).count (coreOfK k) 0x010 1).modSite v fun t => { t with waiters := t.waiters ++ [{ pool := p, k, n }] }
      s.scanOne v p)

/-- The state that a request finds which stands behind some waiters of a pool in the scan of R186, with the grants that the scan would make; none
where the scan would stop at one of them (R184). -/
def State.behind (v p : Nat) : List Waiter → State → Option State
  | [], s => some s
  | w :: ws, s =>
    let e := (s.strand w.k).entry
    if (s.gang v e).st ≠ .running then State.behind v p ws s
    else if s.freeUnits v p < w.n then none
    else State.behind v p ws (if s.safeGrant v e p w.n then s.grant w.k p w.n else s)

/-- The status of an `acq.f` whose request is within what remains and not 0 (R184). -/
def State.acqStatus (s : State) (k p n : Nat) : Nat :=
  let v := siteOfK k
  let e := (s.strand k).entry
  if (s.gang v e).st = .stopping then 1
  else match State.behind v p ((s.site v).waiters.filter fun w => w.pool == p) s with
    | none => 1
    | some t => if t.freeUnits v p < n then 1 else if t.safeGrant v e p n then 0 else 2

/-- ACQ_F (R184). -/
def execAcqF (d a : BitVec 8) (kd b : BitVec 2) (s : State) : Out :=
  .next (s.issue [d.toNat, a.toNat] fun s =>
    let k := s.cur
    let p := poolOf k kd.toNat b.toNat
    let n := (s.val a).toNat
    if s.remaining k p < n then s.raiseFault k .overclaim
    else if n = 0 then s.finish d.toNat 0 4
    else
      let r := s.acqStatus k p n
      (if r = 0 then s.grant k p n else s.count (coreOfK k) (0x010 + r) 1).askUnit (.load .w64 d.toNat 4) .data (leBytes 8 r))

/-- REL (R185). -/
def execRel (a : BitVec 8) (kd b : BitVec 2) (s : State) : Out :=
  .next (match s.relNamed with
  | some l => s.release l
  | none => s.issue [a.toNat] fun s =>
    let k := s.cur
    let p := poolOf k kd.toNat b.toNat
    let n := (s.val a).toNat
    if s.heldOf k p < n then s.raiseFault k .claimProtocol
    else if n = 0 then s.pass 4
    else s.release [(p, n)])

/-- REL_ALL (R185). -/
def execRelAll (s : State) : Out := .next (s.release (s.relNamed.getD (s.allPools s.cur)))

/-- `claimq` (R187): the claim unit's answer returns to d. -/
def State.claimQuery (s : State) (d a : BitVec 8) (f : State → Nat) : State :=
  s.issue [d.toNat, a.toNat] fun s => s.askUnit (.load .w64 d.toNat 4) .data (leBytes 8 (f s))

/-- CLAIMQ_HELD (R187). -/
def execClaimqHeld (d a : BitVec 8) (kd b : BitVec 2) (s : State) : Out :=
  .next (s.claimQuery d a fun s => s.heldOf s.cur (poolOf s.cur kd.toNat b.toNat))
/-- CLAIMQ_REM (R187). -/
def execClaimqRem (d a : BitVec 8) (kd b : BitVec 2) (s : State) : Out :=
  .next (s.claimQuery d a fun s => s.remaining s.cur (poolOf s.cur kd.toNat b.toNat))
/-- CLAIMQ_FREE (R187). -/
def execClaimqFree (d a : BitVec 8) (kd b : BitVec 2) (s : State) : Out :=
  .next (s.claimQuery d a fun s => s.freeUnits (siteOfK s.cur) (poolOf s.cur kd.toNat b.toNat))
/-- CLAIMQ_GRAN (R187). -/
def execClaimqGran (d a : BitVec 8) (b : BitVec 2) (s : State) : Out :=
  .next (s.claimQuery d a fun s => ((Tab.get [] b.toNat s.myGang.stores)[(s.val a).toNat]?).getD (2 ^ 64 - 1))

/-! ## The end of crews and gangs (R155, R189, R114, R218) -/

/-- Every L1D of the gang's cores and the slice are written back (R114). -/
def State.releaseCaches (s : State) (v : Nat) (cores : List Nat) : State :=
  (each cores (fun s c => s.flushL1d (v * 16 + c) (fun _ => true) false) s).flushSlice v (fun _ => true) false

/-- The launch unit learns that a gang of a launch has ended and its add is performed or dropped (R155). -/
def State.gangDone (s : State) (rim : Nat) (launch : BitVec 32) (aborted : Bool) : State :=
  s.modGate (rimSite rim) fun g => g.gangEnded launch aborted

/-- The completion add of a gang end (R155): a counter-add message to the descriptor's counter, or, where its site is unreachable, a
notice event and nothing more. DESIGN CHOICE (log 85): its ordering key, which the table of R100 does not give, has the class bit and low byte 0x40. -/
def State.completionAdd (s : State) (v : Nat) (g : Gang) : State :=
  let mark (s : State) : State := s.modGate (rimSite g.rim) fun q =>
    { q with launches := q.launches.map fun l => if l.number = g.launch then { l with aborted := l.aborted || g.aborted } else l }
  if !g.desc.ce then s.gangDone g.rim g.launch g.aborted
  else match s.resolve v g.desc.cx g.desc.cy (counterHash g.desc.ctr) with
    | none => (s.raise v 9 sevNotice Code.unreachableSite.num none 0).gangDone g.rim g.launch g.aborted
    | some (d, m) =>
      let s := mark s
      let (t, s) := s.fresh
      let q : Msg := { id := 0, op := .counterAdd g.desc.ctr, mesh := m, src := v, dst := d, key := s.engineKey v 0x40, data := leBytes 8 1, txn := t }
      let s : State := { s with txns := s.txns ++ [{ id := t, acc := { op := .amo .add, owner := .gangEnd g.rim g.launch.toNat }, req := q }] }
      s.sendOut q

/-- The pre-emption commands that named a gang learn that it is saved or has ended (R161). -/
def State.gangSaved (s : State) (g : Gang) : State := each (List.range 16) (fun s r => s.modGate (rimSite r) fun q => q.saved g.launch g.gang) s

/-- The claim unit cannot hold the event that a gang's completion add would raise: it stalls (R165). -/
def State.addStalled (s : State) (v : Nat) (g : Gang) : Bool :=
  g.desc.ce && (s.resolve v g.desc.cx g.desc.cy 0).isNone && s.holdFull v 9

/-- An access that an aborted gang left behind is not performed yet: it is on its way, in the memory port, in a replay queue, or one of a copy that
a strand of the gang posted (R113, R117). -/
def State.leftBehind (s : State) (v : Nat) (g : Gang) : Bool :=
  let mine (o : Owner) : Bool := o.leftBy g.mark
  s.txns.any (fun t => mine t.acc.owner) || (s.site v).port.any (fun q => mine q.acc.owner) ||
    (List.range 16).any fun i =>
      let c := s.core (v * 16 + i)
      c.replays.any (fun r => r.accs.any (fun a => mine a.owner) || r.issued.any mine)
        || c.copies.any (fun q => q.trig.isNone && q.launch == g.launch && q.gang == g.gang)
        || c.mail.any (fun q => q.2.launch == g.launch && q.2.gang == g.gang)
        || c.offered.any fun q => q.1.isNone && q.2.launch == g.launch && q.2.gang == g.gang

/-- What the release of a gang that has left still waits for: its write-backs, and, where it aborted, every access that it left behind (R114). -/
def State.releaseWaits (s : State) (v : Nat) (r : Release) : Bool :=
  s.unwritten v r.txns || (match r.what with | .ended g => g.aborted && s.leftBehind v g | _ => false)

/-- A release of a gang that has left is over once its accesses are performed (R113, R114): the add of a gang end, or the report of a save,
follows (R155, R163). -/
def State.finishRelease (s : State) (v : Nat) (r : Release) : State :=
  if s.releaseWaits v r then s
  else
    let t := s.modSite v fun x => { x with releases := x.releases.erase r }
    match r.what with
    | .ended g => if s.addStalled v g then s else (t.gangSaved g).completionAdd v g
    | .saved g => t.gangSaved g
    | .addFailed rim n =>
      if s.holdFull v 9 then s else (t.raise v 9 sevNotice Code.unreachableSite.num none 0).gangDone rim (BitVec.ofNat 32 n) false

/-- The releases of a pavilion that are over. -/
def State.releasesDone (s : State) (v : Nat) : State := each (s.site v).releases (fun s r => s.finishRelease v r) s

/-- The release of R114 for a gang that leaves its pavilion, and what follows it. -/
def State.releaseThen (s : State) (v : Nat) (cores : List Nat) (w : Released) : State :=
  let s := s.releaseCaches v cores
  (s.modSite v fun t => { t with releases := t.releases ++ [{ txns := s.writeBacks v cores true (fun _ => true), what := w }] }).releasesDone v

/-- A gang end (R155): its holdings are released, its slots and its entry freed, the release of R114 taken and then the completion add
performed; the scan follows the end (R186). The iteration fetchers of its cores forget it (R288). -/
def State.endGang (s : State) (v e : Nat) : State :=
  let g := s.gang v e
  let s : State := { s with strands := s.strands.filter fun (k, x) => !(siteOfK k == v && x.entry == e && slotOf k < 13) }
  let s := s.modSite v fun t => { t with gangs := Tab.del e t.gangs }
  let s := each g.cores (fun s c => s.modCore (v * 16 + c) fun x => { x with fetch := Tab.del e x.fetch }) s
  (s.releaseThen v g.cores (.ended g)).scanAll v

/-- The end of a crew: its accumulator slots go, its fall-through mark is set and it counts as arrived at every phase (R155, R189, R221,
R288); with the last crew the gang ends. DESIGN CHOICE (log 85): so does a gang that is STOPPING, for which R174 has no such row. -/
def State.endCrew (s : State) (c e : Nat) : State :=
  let v := siteOfC c
  let i := (s.gang v e).crewOn (c % 16)
  let s := s.modGang v e fun g => { g with ended := NatSet.add i g.ended, mats := Tab.del i g.mats, leads := Tab.del i g.leads }
  let s := s.modFetcher c e fun f => { f with fell := true, claiming := false, waiters := [] }
  let g := s.gang v e
  if g.live.isEmpty then s.endGang v e
  else ((s.closeNest v e).testPhase v e).scanAll v

/-- ABORT_COMPLETE: every strand of an aborting gang is STOPPED; the holdings are released and the entry becomes FREE (R174, R189, R373). -/
def State.abortComplete (s : State) (v e : Nat) : Option State :=
  if (s.gang v e).st = .aborting ∧ (s.gangStrands v e).all (fun k => (s.strand k).st == .stopped) then some (s.endGang v e)
  else none

/-- ABORT_COMPLETE (R373). -/
def execAbortComplete (v e : Nat) (s : State) : Out := due "ABORT_COMPLETE" (s.abortComplete v e)

end Sys2Proof.Machine
end

