-- ==== Sys2Proof/Machine/Walk.lean ====
section
/-! DEFINITION. The reads that the launch units and the save engine make with supervisor rights (R147, R212): an address of any kind is
resolved at once, a heap address through the page table as R198 walks it (log 23). -/

namespace Sys2Proof.Machine

/-- The bits of a virtual address that a level of the page table indexes (R194). -/
def levelIndex (va level : Nat) : Nat :=
  if level = 0 then bits va 56 44 else if level = 1 then bits va 43 32 else if level = 2 then bits va 31 24 else bits va 23 16

/-- Bits below the alignment of the table that a level's index selects in (R194). -/
def tableAlign (level : Nat) : Nat := if level = 0 then 65536 else if level = 1 then 32768 else 2048

/-- A table may lie at the virtual site (x, y), as site v knows it: a memory site (R193, R197). -/
def State.tableSite (s : State) (v x y : Nat) : Bool := decide (s.kindAt v x y = some .memory)

/-- A pointer entry at a level is malformed (R195, R197). -/
def State.pointerMalformed (s : State) (v level w : Nat) : Bool :=
  bits w 62 61 != 0 || bits w 58 55 != 0 || bits w 38 36 != 0 || bits w 10 0 != 0 || decide (level = 3) ||
    !s.tableSite v (bits w 54 47) (bits w 46 39) || (bits w 35 11 * 2048) % tableAlign (level + 1) != 0

/-- The levels at which a leaf of a size may stand (R194). -/
def leafAllowed (level size : Nat) : Bool := (level == 3 && size == 0) || (level == 2 && size == 1) || (level == 1 && size == 2)

/-- The walk of R198 from a table at memory site h, offset off: the leaf and its address, or the code that ends the walk. -/
def State.walkFrom (s : State) (v va : Nat) : List Nat → Nat → Nat → Except Code TlbEntry
  | [], _, _ => .error .pageFormat
  | level :: rest, h, off =>
    let o := off + 8 * levelIndex va level
    match s.resolve v (xOf h) (yOf h) o with
    | none => .error .unreachableSite
    | some _ =>
      match s.placeError false false h 0 o 8 with
      | some c => .error c
      | none =>
      if (s.flawed (granuleKeys h 0 o 8)).any (fun f => f.2 == 3) then .error .uncorrectable
      else
        let w := leNat (s.fetchBytes h 0 o 8)
        if !bitOn w 63 then .error .pageFault
        else if bits w 60 59 = 3 then
          if s.pointerMalformed v level w then .error .pageFormat
          else s.walkFrom v va rest (siteAt (bits w 54 47) (bits w 46 39)) (bits w 35 11 * 2048)
        else
          let p := BitVec.ofNat 64 w
          if s.pteMalformed v p || !leafAllowed level (pteSize p) then .error .pageFormat
          else .ok { size := pteSize p, vpn := va / 2 ^ pageBits (pteSize p), pte := p,
                     pteAddr := BitVec.ofNat 60 (homeKey h 0 o), dirty := bitOn w 55 }

/-- The walk of a virtual address under the page table of a site (R193, R198). -/
def State.walkTable (s : State) (v va : Nat) : Except Code TlbEntry :=
  let r := (s.site v).ptRoot.toNat
  let x := bits r 54 47
  let y := bits r 46 39
  if !bitOn r 63 then .error .pageFault
  else if !s.tableSite v x y then .error .pageFormat
  else s.walkFrom v va (List.range 4) (siteAt x y) (bits r 35 16 * 65536)

/-- The memory key of a byte of a unit of a physical site, if its home answers a read in a mode (R80, R411, R416). -/
def State.sysHome (s : State) (sup : Bool) (d u off : Nat) : Except Code Nat :=
  match s.placeError (!sup) false d u off 1 with
  | some c => .error c
  | none => .ok (homeKey d u off)

/-- The memory key of the byte at a module address, as site v reaches it in a mode to read it or, with `w`, to write it; the code of the fault where
it cannot be (R80, R82, R147, R212, R364, R421). -/
def State.sysAddr (s : State) (v : Nat) (sup w : Bool) (a : Addr) : Except Code Nat :=
  if kindBits a.toNat = 0 then
    match s.walkTable v (a.toNat % 2 ^ 57) with
    | .error c => .error c
    | .ok e =>
      let off := pteFrame e.pte + a.toNat % 2 ^ pageBits e.size
      let c := pteClass e.pte
      if !bitOn e.pte.toNat (if w then 57 else 58) then .error .pageProtection
      else match s.resolve v (pteX e.pte) (pteY e.pte) off with
        | none => .error .unreachableSite
        | some d => s.sysHome sup d.1 (if c < 2 then 0 else if c = 2 then 4 else bits e.pte.toNat 38 37) off
  else match s.route v sup a 1 with
    | .error (c, _) => .error c
    | .ok r =>
      if r.host then
        (s.sysHome sup r.dst 0 0).bind fun _ => if (s.gate r.dst).linkUp then .ok (hostKey r.off) else .error .hostAccess
      else if r.unit < 5 then s.sysHome sup r.dst r.unit r.off else .error .addressKind

/-! ## What the reads and writes of these engines bring about (R82, R83, R90, R91, R119) -/

/-- The newest value that a gatehouse holds for a byte of host memory (R119). -/
def State.hostByte (s : State) (g a : Nat) : Byte :=
  (s.gate g).posted.foldl (fun b p => if p.off ≤ a ∧ a < p.off + p.data.length ∧ bitOn p.en (a - p.off) then p.data.getD (a - p.off) 0 else b)
    (Memory.read s.mem (hostKey a))

/-- The gatehouse of a host-window address (R77). -/
def State.hostGate (s : State) (v : Nat) (a : Addr) : Option Nat :=
  if kindBits a.toNat = 3 then match s.route v true a 1 with | .ok r => some r.dst | .error _ => none else none

/-- The byte at a module address: of host memory as the gatehouse holds it (R119, R363). Uncorrectable data is not delivered (R91). -/
def State.sysByte (s : State) (v : Nat) (sup : Bool) (a : Addr) : Except Code Byte :=
  match s.sysAddr v sup false a with
  | .error c => .error c
  | .ok k =>
    if (s.flawed [k / 16]).any (fun f => f.2 == 3) then .error .uncorrectable
    else match s.hostGate v a with
      | some g => .ok (s.hostByte g (a.toNat % 2 ^ 53))
      | none => .ok (Memory.read s.mem k)

/-- n bytes read at site v in a mode; the code of the fault where one of them is unreadable. -/
def State.sysFetch (s : State) (v : Nat) (sup : Bool) (a : Addr) (n : Nat) : Except Code (List Byte) :=
  (List.range n).mapM fun i => s.sysByte v sup (a + BitVec.ofNat 60 i)

/-- n bytes read with supervisor rights at site v; none where one of them is unreadable. -/
def State.sysRead (s : State) (v : Nat) (a : Addr) (n : Nat) : Option (List Byte) := (s.sysFetch v true a n).toOption

/-- A word read with supervisor rights. -/
def State.sysWord (s : State) (v : Nat) (a : Addr) : Option Nat := (s.sysRead v a 8).map leNat

/-- The granules of the entries that the walk of a virtual address reads from a table on (R198). -/
def State.walkPath (s : State) (v va : Nat) : List Nat → Nat → Nat → List Nat
  | [], _, _ => []
  | level :: rest, h, off =>
    let o := off + 8 * levelIndex va level
    if (s.resolve v (xOf h) (yOf h) o).isNone ∨ (s.placeError false false h 0 o 8).isSome then []
    else
      let gs := granuleKeys h 0 o 8
      let w := leNat (s.fetchBytes h 0 o 8)
      if (s.flawed gs).any (fun f => f.2 == 3) ∨ !bitOn w 63 ∨ bits w 60 59 ≠ 3 ∨ s.pointerMalformed v level w then gs
      else gs ++ s.walkPath v va rest (siteAt (bits w 54 47) (bits w 46 39)) (bits w 35 11 * 2048)

/-- The granules of the entries that the walk of a virtual address reads under the page table of a site (R193, R198). -/
def State.tablePath (s : State) (v va : Nat) : List Nat :=
  let r := (s.site v).ptRoot.toNat
  if !bitOn r 63 ∨ !s.tableSite v (bits r 54 47) (bits r 46 39) then []
  else s.walkPath v va (List.range 4) (siteAt (bits r 54 47) (bits r 46 39)) (bits r 35 16 * 65536)

/-- The first byte of a range in each unit of a size that it touches. -/
def pieceStarts (a : Addr) (n size : Nat) : List Addr :=
  ((List.range n).filter fun i => i == 0 || (a.toNat + i) % size == 0).map fun i => a + BitVec.ofNat 60 i

/-- The granules of homes that an access of an engine to n bytes reads: the entries of its translations, and with `data` those of the bytes. -/
def State.sysGranules (s : State) (v : Nat) (sup w data : Bool) (a : Addr) (n : Nat) : List Nat :=
  if s.flaws.isEmpty then []
  else ((pieceStarts a n 16).flatMap fun b =>
    (if kindBits b.toNat = 0 then s.tablePath v (b.toNat % 2 ^ 57) else []) ++
      (match s.sysAddr v sup w b with | .ok k => if data ∧ kindBits k = 1 then [k / 16] else [] | .error _ => [])).eraseDups

/-- The home of a granule, as site and unit (R74). -/
def homeOf (g : Nat) : Nat × Nat := (siteAt (bits (g * 16) 56 49) (bits (g * 16) 48 41), bits (g * 16) 40 36)

/-- The event that a struck granule calls for cannot be held at its home (R165). -/
def State.heldUp (s : State) (f : Nat × Nat) : Bool := s.holdFull (homeOf f.1).1 (holdUnit (homeOf f.1).1 (homeOf f.1).2)

/-- An engine that is to read some granules waits until the homes can hold the events of the struck ones (R165). -/
def State.sysStalled (s : State) (gs : List Nat) : Bool := (s.flawed gs).any s.heldUp

/-- Engines read granules: the homes correct the struck ones and raise their events (R90, R91, R430). -/
def State.sysInspect (s : State) (gs : List Nat) : State :=
  (s.flawed gs).foldl (fun s f => (s.inspect (homeOf f.1).1 (homeOf f.1).2 f).2) s

/-- The entries of the pages that an access to n bytes of the heap goes through and that must be changed for it (R83). -/
def State.leaves (s : State) (v : Nat) (w : Bool) (a : Addr) (n : Nat) : List TlbEntry :=
  (pieceStarts a n 65536).filterMap fun b =>
    if kindBits b.toNat = 0 then match s.walkTable v (b.toNat % 2 ^ 57) with
      | .ok e => if e.marked w then none else some e
      | .error _ => none
    else none

/-- A pavilion's access through some entries sets their accessed bits, and with `w` their dirty bits (R83). -/
def State.markLeaves (s : State) (v : Nat) (w : Bool) (es : List TlbEntry) : State := each es (fun s e => s.orLeaf v e w) s

/-- A pavilion's engine has read n bytes: what the homes correct, and the accessed bits (R83, R90). -/
def State.sysSeen (s : State) (v : Nat) (sup : Bool) (a : Addr) (n : Nat) : State :=
  (s.sysInspect (s.sysGranules v sup false true a n)).markLeaves v false (s.leaves v false a n)

/-! ## Writes -/

/-- The memory key of an address that site v can write with supervisor rights. -/
def State.sysKey (s : State) (v : Nat) (a : Addr) : Option Nat := (s.sysAddr v true true a).toOption

/-- The keys of the bytes of a write, each with its address and its byte. -/
def State.sysKeys (s : State) (v : Nat) (a : Addr) (l : List Byte) : List (Nat × Addr × Byte) :=
  l.zipIdx.filterMap fun p => let b := a + BitVec.ofNat 60 p.2; (s.sysKey v b).map fun k => (k, b, p.1)

/-- The granules of homes that a write of some keys writes in part, and so reads (R91). -/
def partOf (ks : List Nat) : List Nat :=
  let gs := (ks.filter fun k => kindBits k == 1).map (· / 16)
  (gs.eraseDups).filter fun g => gs.count g < 16

/-- The granules that a write of an engine reads: the entries of its translations, and those that it writes in part (R91). -/
def State.writeReads (s : State) (v : Nat) (a : Addr) (l : List Byte) : List Nat :=
  if s.flaws.isEmpty then []
  else (s.sysGranules v true true false a l.length ++ partOf ((s.sysKeys v a l).map (·.1))).eraseDups

/-- One byte written under its memory key by an engine; its granule's watches fire (R134). Of a byte of host memory the gatehouse's buffer holds no
older value any more (R119). -/
def State.sysPut (s : State) (g : Option Nat) (k : Nat) (b : Byte) : State :=
  if kindBits k = 1 then s.store (siteAt (bits k 56 49) (bits k 48 41)) (bits k 40 36) (k % 2 ^ 36) 1 [b] (2 ^ 25)
  else
    let o := k % 2 ^ 53
    let older (p : Posted) : Posted := if p.off ≤ o ∧ o < p.off + p.data.length then { p with en := clrBit p.en (o - p.off) } else p
    let s : State := { s with mem := Memory.write k b s.mem }
    match g with
    | some g => s.modGate g fun x => { x with posted := x.posted.map older }
    | none => s

/-- Bytes written with supervisor rights; their addresses are resolved before the first of them is written (log 23), and a byte that has none is
dropped. A granule that is written whole carries fresh check bits; one that is written in part is read first, and an uncorrectable one keeps its
bytes (R91). -/
def State.sysWrite (s : State) (v : Nat) (a : Addr) (l : List Byte) : State :=
  let ks := s.sysKeys v a l
  let gs := s.writeReads v a l
  let part := if s.flaws.isEmpty then [] else partOf (ks.map (·.1))
  let lost := ((s.flawed part).filter fun f => f.2 == 3).map (·.1)
  let whole := if s.flaws.isEmpty then [] else ((ks.map (·.1)).filter fun k => kindBits k == 1).map (· / 16) |>.filter fun g => !part.contains g
  let gates := ks.map fun p => (s.hostGate v p.2.1, p.1, p.2.2)
  each (gates.filter fun p => !lost.contains (p.2.1 / 16)) (fun s p => s.sysPut p.1 p.2.1 p.2.2) ((s.sysInspect gs).freshen whole)

end Sys2Proof.Machine
end

