-- ==== Sys2Proof/Machine/Strands.lean ====
section
/-! DEFINITION. Strands and crews: `start`, `join`, `end`, `halt`, identity and loop registers, checkpoints (R48, R335-R342). -/

namespace Sys2Proof.Machine

/-! ## Starts (R39, R61, R335) -/

/-- The control strand's slot of a gang: the lowest set bit of slotmask (R149). -/
def Desc.controlSlot (d : Desc) : Nat := ((List.range 13).find? fun i => bitOn d.slotmask i).getD 13

/-- Slot n of the issuing strand's core may receive a strand of its crew: it is in slotmask, not the control slot, holds no strand and is
not reserved for a drain (R335, R349). -/
def State.slotOpen (s : State) (n : Nat) : Bool :=
  let k := s.cur
  let g := s.myGang
  decide (n < 13) && bitOn g.desc.slotmask n && decide (n ≠ g.desc.controlSlot) && decide ((s.strand (slotKey (coreOfK k) n)).st = .free)
    && !g.drains.contains (coreNo k, n)

/-- START (R335). -/
def execStart (d a n : BitVec 8) (s : State) : Out :=
  .next (s.issue [d.toNat, a.toNat] fun s =>
    let x := s.me
    let t := s.val a
    if !x.control || !s.slotOpen n.toNat then s.raiseFault s.cur .slot
    else if (t &&& 3) ≠ 0 then s.faultAt .alignment (some (t.setWidth 60)) 0
    else
      let h : Strand :=
        { pc := t.setWidth 60, regs := [(1, s.val d)], segs := x.segs, crew := x.crew, gang := x.gang, launch := x.launch,
          shape := x.shape, entry := x.entry, starter := slotOf s.cur }
      let s := s.begin (slotKey (coreOfK s.cur) n.toNat) h
      s.modStrand s.cur fun y => { y with helpers := y.helpers ||| BitVec.ofNat 13 (2 ^ n.toNat), pc := y.pc + 4 })

/-- JOIN (R336). -/
def execJoin (n : BitVec 8) (s : State) : Out :=
  .next (
    let g := s.myGang
    if !s.me.control || !bitOn g.desc.slotmask n.toNat || n.toNat == g.desc.controlSlot then s.raiseFault s.cur .slot
    else if bitOn s.me.helpers.toNat n.toNat then s.park s.cur .join (.join n.toNat)
    else s.pass 4)

/-! ## Ends (R144, R155, R337, R349) -/

/-- A strand's slot becomes FREE (R39: a slot without a strand has no registers). -/
def State.freeSlot (s : State) (k : Nat) : State := { s with strands := Tab.del k s.strands }

/-- The bit of an ended helper is cleared in its starter, and a `join` that waits for it completes (R337). -/
def State.helperEnded (s : State) (k : Nat) : State :=
  let x := s.strand k
  let p := slotKey (coreOfK k) x.starter
  let y := s.strand p
  if x.control || x.drain || y.entry ≠ x.entry || !bitOn y.helpers.toNat (slotOf k) then s
  else
    let s := s.modStrand p fun y => { y with helpers := y.helpers &&& ~~~(BitVec.ofNat 13 (2 ^ slotOf k)) }
    if y.cont = .join (slotOf k) then s.completed p 4 else s

/-- The `end` of a strand after its waits (R337): its granules go, its slot is FREE, a waiting `join` completes, and the last strand of
the crew ends the crew. -/
def State.endStrand (s : State) (k : Nat) : State :=
  let c := coreOfK k
  let e := (s.strand k).entry
  let s := (s.helperEnded k).freeSlot k
  if (s.crewStrands c e).isEmpty then s.endCrew c e else s.scanAll (siteOfC c)

/-- The `end` of a drain strand (R349): it gives up the granules above 1 and waits, stopped at its end, for the drain's next row. -/
def State.endDrain (s : State) (k : Nat) : State :=
  (s.modStrand k fun x => { x with granules := min 2 x.granules, st := .parked, why := some .matrix, cont := .rowEnd }).scanAll (siteOfK k)

/-- END (R337). A service strand never ends (R124): there the word only advances pc (log 25). A keeper strand belongs to no gang: its slot is FREE and
nothing follows (log 61). -/
def execEndStrand (s : State) : Out :=
  .next (
    let k := s.cur
    if 13 ≤ slotOf k then s.pass 4
    else if !s.me.tracker.isEmpty then s.park k .relaxedWait .reissue
    else if s.copying k then s.park k .access .ending
    else if s.me.drain then s.endDrain k
    else if s.myGang.st = .free then s.freeSlot k
    else s.endStrand k)

/-- HALT (R338): the halt fault, with fault address 0. -/
def execHalt (s : State) : Out := .next (s.faultAt .halt (some 0) 0)

/-! ## Identity and loop registers (R48, R339, R340) -/

/-- The value of an identity selector (R48). -/
def State.identity (s : State) (k i : Nat) : Nat :=
  let x := s.strand k
  let v := s.virt (siteOfK k)
  match i with
  | 0 => v.2 * 256 + v.1
  | 1 => coreNo k
  | 2 => slotOf k
  | 3 => s.number k
  | 4 => x.crew
  | 5 => x.gang.toNat
  | 6 => x.launch.toNat
  | 0x10 => x.i0.toNat
  | 0x11 => x.i1.toNat
  | 0x12 => x.i2.toNat
  | 0x13 => x.i3.toNat
  | i => (Tab.get 0 i x.shape).toNat

/-- IDGET (R48, R339). -/
def execIdget (d i : BitVec 8) (s : State) : Out := .next (s.compute [d] d 4 fun s => BitVec.ofNat 64 (s.identity s.cur i.toNat))

/-- LSET (R340). -/
def execLset (a : BitVec 8) (n : BitVec 3) (s : State) : Out :=
  .next (s.issue [a.toNat] fun s =>
    let w := (s.val a).setWidth 32
    (s.modCore (coreOfK s.cur) fun c => { c with loops := Tab.put (s.me.entry * 8 + n.toNat) w c.loops }).pass 4)

/-- LGET (R340). -/
def execLget (d : BitVec 8) (n : BitVec 3) (s : State) : Out :=
  .next (s.compute [d] d 4 fun s => (s.loop s.cur n.toNat).setWidth 64)

/-! ## Checkpoints (R211, R212, R342) -/

/-- A live-range entry as the save engine reads it. -/
structure Live where
  wmask : Nat
  amask : Nat
  /-- bower, first byte and length of each range in the gang's list -/
  ranges : List (Nat × Nat × Nat)
deriving DecidableEq, Repr

/-- Entry e of the live-range table at an address, if it is valid (R211, R212). -/
def State.liveEntry (s : State) (v : Nat) (live : Addr) (e : Nat) : Option Live :=
  if live = 0 then none
  else do
    let h ← s.sysWord v live
    let zs ← (List.range 7).mapM fun i => s.sysWord v (live + BitVec.ofNat 60 (8 * (i + 1)))
    if bits h 7 0 ≠ 1 ∨ bits h 47 32 ≤ e ∨ bits h 31 8 ≠ 0 ∨ bits h 63 48 ≠ 0 ∨ zs.any (· != 0) then none
    else
      let a := live + BitVec.ofNat 60 (64 + 128 * e)
      let w ← s.sysWord v a
      let w1 ← s.sysWord v (a + 8)
      let nr := bits w 27 24
      if 14 < nr ∨ w1 ≠ 0 ∨ bitOn w 15 ∨ bits w 23 20 ≠ 0 ∨ bits w 63 28 ≠ 0 then none
      else
        let rs ← (List.range nr).mapM fun j => s.sysWord v (a + BitVec.ofNat 60 (16 + 8 * j))
        if rs.all fun r => bits r 13 0 == 0 && bits r 61 38 % 16 == 0 && bits r 37 14 % 16 == 0 && bits r 37 14 != 0 then
          some { wmask := bits w 14 0, amask := bits w 19 16, ranges := rs.map fun r => (bits r 63 62, bits r 61 38, bits r 37 14) }
        else none

/-- The ranges of bytes that a reader of entry e of the live-range table at an address reads (R211). -/
def State.liveReads (s : State) (v : Nat) (live : Addr) (e : Nat) : List (Addr × Nat) :=
  if live = 0 then []
  else
    let a := live + BitVec.ofNat 60 (64 + 128 * e)
    (live, 64) :: (match s.sysWord v live with
      | none => []
      | some h =>
        if bits h 7 0 ≠ 1 ∨ bits h 47 32 ≤ e then []
        else (a, 16) :: (match s.sysWord v a with
          | none => []
          | some w => if 14 < bits w 27 24 then [] else [(a + 16, 8 * bits w 27 24)]))

/-- The homes of a live-range entry cannot hold the events of its struck granules (R165). -/
def State.liveStalled (s : State) (v : Nat) (live : Addr) (e : Nat) : Bool :=
  (s.liveReads v live e).any fun r => s.sysStalled (s.sysGranules v true false true r.1 r.2)

/-- A live-range entry has been read: what the homes correct, and the accessed bits of its pages (R83, R90). -/
def State.liveSeen (s : State) (v : Nat) (live : Addr) (e : Nat) : State :=
  each (s.liveReads v live e) (fun s r => s.sysSeen v true r.1 r.2) s

/-- CKPT (R212, R342). With P set and a valid entry the strand stops there. While a home cannot hold the event of a struck granule of the entry the
strand issues again in its next turn (R165). -/
def execCkpt (e : BitVec 16) (s : State) : Out :=
  .next (
    let k := s.cur
    let v := siteOfK k
    let u := 16 + coreNo k
    if !s.preempted k then s.pass 4
    else if !s.me.tracker.isEmpty then s.park k .relaxedWait .reissue
    else
      let live := s.myGang.desc.live
      if s.liveStalled v live e.toNat then s
      else if (s.liveEntry v live e.toNat).isSome then
        ((s.liveSeen v live e.toNat).stop k).modStrand k fun x => { x with ckpt := some e.toNat }
      else if s.holdFull v u then s.park k .access .eventHold
      else ((s.liveSeen v live e.toNat).raise v u sevNotice 0x0109 (some (s.number k)) 0).pass 4)

end Sys2Proof.Machine
end

