-- ==== Sys2Proof/Machine/Launch.lean ====
section
/-! DEFINITION. Launches: descriptors and their checks, host queues, the device-side queue, graphs, placement, pre-emption and resumption
(R146-R164, R341). -/

namespace Sys2Proof.Machine

/-! ## Launch descriptors (R149-R151, R172) -/

/-- Word i of a block of bytes. -/
def wordAt (l : List Byte) (i : Nat) : Nat := leNat ((l.drop (8 * i)).take 8)

/-- n fields of w bits of a number, lowest first. -/
def fieldsOf (n w x : Nat) : List Nat := (List.range n).map fun i => x / 2 ^ (w * i) % 2 ^ w

/-- The descriptor that 256 bytes hold (R149). -/
def descOf (l : List Byte) : Desc :=
  let w := wordAt l
  let segs := (List.range 8).map fun k => (k, Seg.ofWords (BitVec.ofNat 64 (w (16 + 2 * k))) (BitVec.ofNat 64 (w (17 + 2 * k))))
  { version := bits (w 0) 7 0, dims := bits (w 0) 10 8, crews := bits (w 0) 20 16, prio := bits (w 0) 26 24, gate := bits (w 0) 31 28,
    coremask := bits (w 0) 47 32, slotmask := bits (w 0) 60 48, entry := BitVec.ofNat 60 (w 1), param := BitVec.ofNat 60 (w 2),
    ext := fieldsOf 2 32 (w 3) ++ fieldsOf 2 32 (w 4), tile := fieldsOf 2 32 (w 5) ++ fieldsOf 2 32 (w 6), shape := fieldsOf 4 8 (w 7),
    sreg := bits (w 8) 7 0, creg := bits (w 8) 15 8, mslots := bits (w 8) 18 16, st := fieldsOf 4 16 (w 9), ctr := bits (w 10) 9 0,
    cx := bits (w 10) 23 16, cy := bits (w 10) 31 24, ce := bitOn (w 10) 63, x0 := bits (w 11) 7 0, y0 := bits (w 11) 15 8,
    x1 := bits (w 11) 23 16, y1 := bits (w 11) 31 24, live := BitVec.ofNat 60 (w 12), segs,
    clean := bits (w 0) 15 11 == 0 && bits (w 0) 23 21 == 0 && !bitOn (w 0) 27 && bits (w 0) 63 61 == 0 && bits (w 1) 63 60 == 0
      && bits (w 2) 63 60 == 0 && bits (w 7) 63 32 == 0 && bits (w 8) 63 19 == 0 && bits (w 10) 15 10 == 0 && bits (w 10) 62 32 == 0
      && bits (w 11) 63 32 == 0 && bits (w 12) 63 60 == 0 && w 13 == 0 && w 14 == 0 && w 15 == 0
      && (List.range 8).all fun k => bits (w (16 + 2 * k)) 63 60 == 0 && bits (w (17 + 2 * k)) 63 54 == 0 }

/-- Extent, tile and gang shape of dimension d, and the tile of a gang in it (R151). -/
def Desc.gangTile (m : Desc) (d : Nat) : Nat := m.tile.getD d 1 * m.shape.getD d 1

/-- Gangs along dimension d (R151). -/
def Desc.gangsIn (m : Desc) (d : Nat) : Nat := (m.ext.getD d 1 + m.gangTile d - 1) / m.gangTile d

/-- Gangs of a launch (R151). -/
def Desc.gangCount (m : Desc) : Nat := m.gangsIn 0 * m.gangsIn 1 * m.gangsIn 2 * m.gangsIn 3

/-- The descriptor is rejected with status 2 (R150). -/
def Desc.rejected (m : Desc) : Bool :=
  let dim (d : Nat) : Bool :=
    let l := [m.ext.getD d 0, m.tile.getD d 0, m.shape.getD d 0]
    if d < m.dims then l.any (· == 0) else l.any (· != 1)
  let s0 := (Tab.get {} 0 m.segs).rights.toNat
  decide (m.version ≠ 1) || !m.clean || decide (m.dims = 0 ∨ 4 < m.dims) || decide (m.crews = 0 ∨ 16 < m.crews) || (List.range 4).any dim
    || decide (m.shape.prod ≠ m.crews) || (decide (m.coremask ≠ 0) && decide (popCount m.coremask 16 ≠ m.crews)) || decide (m.slotmask = 0)
    || decide (m.x1 < m.x0) || decide (m.y1 < m.y0) || decide (2 ^ 32 < m.gangCount)
    || !bitOn s0 2 || bitOn s0 5

/-- The completion counter is at no pavilion, as the gatehouse knows the module or the assembly (R150). -/
def State.strayCounter (s : State) (g : Nat) (m : Desc) : Bool := m.ce && decide (s.kindAt g m.cx m.cy ≠ some .pavilion)

/-- Its claims are rejected with status 3 (R172). -/
def Desc.overclaims (m : Desc) : Bool :=
  let some_ := m.st.any (· != 0)
  let bowers := (m.st.filter (· != 0)).length
  decide (240 < m.sreg) || decide (248 < m.creg) || decide (4 < m.mslots) || m.st.any (fun n => decide (256 < n))
    || (some_ && (List.range 16).any (fun c => bitOn m.coremask c && m.st.getD (c / 4) 0 == 0))
    || (some_ && decide (m.coremask = 0) && decide (4 * bowers < m.crews))

/-- Status 5 of `launch`: a segment of the descriptor does not lie inside a segment of the strand, in the sense of `segset` (R47, R341). -/
def Desc.escapes (m : Desc) (segs : List Seg) : Bool :=
  m.segs.any fun (_, g) => g.limit != 0 && !segs.any fun p => g.inside p

/-- The eight segment registers of a strand. -/
def Strand.segList (x : Strand) : List Seg := (List.range 8).map x.seg

/-! ## The start of a launch (R152, R154) -/

/-- A launch unit starts a launch: its number, its order and its gangs; `node` is the replay and node it belongs to. -/
def State.startLaunch (s : State) (g : Nat) (m : Desc) (queue : Option Nat) (tag : BitVec 32) (prio : Nat) (node : Option (Nat × Nat)) : State :=
  s.modGate g fun q =>
    let l : Launch := { number := BitVec.ofNat 32 (rimOf g * 2 ^ 28 + q.count), desc := m, queue, tag, prio, order := q.order,
                        total := m.gangCount, node }
    { q with launches := q.launches ++ [l], count := (q.count + 1) % 2 ^ 28, order := q.order + 1 }

/-- Descriptors in the device-side queue: device-side launches with a gang still to place (R159, log 26). -/
def Gate.deviceLoad (g : Gate) : Nat :=
  (g.launches.filter fun (l : Launch) => l.queue.isNone && l.node.isNone && decide (l.next < l.total)).length

/-- The device-side queue takes a descriptor, or answers why not (R341): the status. `st` is 5 when the core's check has failed. DESIGN CHOICE
(log 87): where several statuses hold the lowest is given. -/
def State.submitDevice (s : State) (g : Nat) (m : Desc) (st : Nat) : Nat × State :=
  if 256 ≤ (s.gate g).deviceLoad then (1, s)
  else if m.rejected || s.strayCounter g m then (2, s)
  else if m.overclaims then (3, s)
  else if st ≠ 0 then (st, s)
  else (0, s.startLaunch g m none 0 m.prio none)

/-- REQ_LAUNCH_SUBMISSION: a descriptor reaches the device-side queue of a gatehouse (R159, R341, R363), which answers it with an error while it is
out of service (R416). -/
def State.launchSubmission (s : State) (n : Nat) : Option State :=
  match s.arriving n with
  | some m => match m.op with
    | .launchSub d st =>
      let v := s.site m.dst
      if v.state = .failed ∨ v.state = .isolated then some ((s.consume n).reply m (.error Code.unreachableSite.num) [] false)
      else
        let (r, s) := (s.consume n).submitDevice m.dst d st
        some (s.reply m (.status r) [] false)
    | _ => none
  | none => none

/-- REQ_LAUNCH_SUBMISSION (R159). -/
def execReqLaunchSubmission (m : Nat) (s : State) : Out := due "REQ_LAUNCH_SUBMISSION" (s.launchSubmission m)

/-! ## `launch` (R341) -/

/-- A range of bytes lies inside a segment, both compared as addresses of the module as site v resolves them (R438). -/
def State.insideSeg (s : State) (v : Nat) (a : Addr) (n : Nat) (g : Seg) : Bool :=
  match s.absolute v a, s.absolute v g.base with
  | some a, some b =>
    let x := a.toNat
    let y := b.toNat
    decide (kindBits x < 4) && kindBits x == kindBits y && (kindBits x != 1 || bits x 56 36 == bits y 56 36) && decide (y ≤ x) && decide (x + n ≤ y + g.limit.toNat)
  | _, _ => false

/-- Some segment of a strand with the rights `need`, in user mode without P, contains the bytes (R341, R362). -/
def State.covered (s : State) (v : Nat) (x : Strand) (a : Addr) (n need : Nat) : Bool :=
  x.segList.any fun g => subRights need g.rights.toNat && (x.sup || !bitOn g.rights.toNat 5) && s.insideSeg v a n g

/-- `launch` reads the next 64 bytes of its descriptor as a plain access (R341). -/
def State.launchPiece (s : State) (k : Nat) (d : Nat) (a : Addr) (buf : List Byte) : State :=
  let x := s.strand k
  let q : Acc := { addr := a + BitVec.ofNat 60 buf.length, op := .read, size := 64, kind := 0x02, pc := x.pc, k, sup := x.sup, owner := .strand k }
  (s.modStrand k fun x => { x with cont := .launchRead d a buf }).sendAccess q

/-- `launch` completes with a status in d. -/
def State.launchStatus (s : State) (k d r : Nat) : State := (s.modStrand k fun x => x.setReg d (BitVec.ofNat 64 r)).completed k 4

/-- The descriptor has been read: it is sent to the gatehouse it names (R341). -/
def State.launchSend (s : State) (k d : Nat) (at_ : Addr) (buf : List Byte) : State :=
  let v := siteOfK k
  let x := s.strand k
  let m := descOf buf
  let g := rimSite m.gate
  match s.resolve v (xOf g) (yOf g) 0 with
  | none => s.launchStatus k d 4
  | some (p, mesh) =>
    let (t, s) := s.fresh
    let q : Msg := { id := 0, op := .launchSub m (if !x.sup && m.escapes x.segList then 5 else 0), mesh, src := v, dst := p, key := s.number k,
                     data := leBytes 8 at_.toNat, txn := t }
    let a : Acc := { k, pc := x.pc, sup := x.sup, owner := .strand k }
    let s : State := { s with txns := s.txns ++ [{ id := t, acc := a, req := q }] }
    (s.modStrand k fun x => { x with cont := .status d }).sendOut q

/-- After the release of `launch`: its checks, then the first read (R341). -/
def State.launchGo (s : State) (k d : Nat) (a : Addr) : State :=
  let pc := (s.strand k).pc
  if a.toNat % 64 ≠ 0 then s.takeFault k { code := .alignment, addr := some a, pc }
  else if !s.covered (siteOfK k) (s.strand k) a 256 rR then s.takeFault k { code := .segment, addr := some a, pc }
  else s.launchPiece k d a []

/-- LAUNCH (R341): the wait of `wait.r`, the write-back of `fence.rel.mod`, then the descriptor. -/
def execLaunch (d a : BitVec 8) (s : State) : Out :=
  .next (s.issue [d.toNat, a.toNat] fun s =>
    let k := s.cur
    if !s.me.tracker.isEmpty then s.park k .relaxedWait .reissue
    else
      let p := (s.val a).setWidth 60
      let s := s.relActions 3
      let l := s.fenceTxns 3
      let s := s.park k .access (.launchRelease d.toNat p l)
      if s.unwritten (siteOfK k) l then s else s.launchGo k d.toNat p)

/-! ## Host launch queues (R146-R148) -/

/-- A host queue of a gatehouse changed. -/
def State.modQueue (s : State) (g q : Nat) (f : HostQueue → HostQueue) : State :=
  s.modGate g fun x => { x with queues := Tab.put q (f (Tab.get {} q x.queues)) x.queues }

/-- A host queue of a gatehouse. -/
def State.hostQueue (s : State) (g q : Nat) : HostQueue := Tab.get {} q (s.gate g).queues

/-- Commands written and not taken. -/
def HostQueue.ahead (h : HostQueue) : Nat := (h.tail + 2 ^ 32 - h.head) % 2 ^ 32

/-- The completion ring is full (R148). -/
def HostQueue.ringFull (h : HostQueue) : Bool := decide (2 ^ h.lsize ≤ (h.cdone + 2 ^ 32 - h.cread) % 2 ^ 32)

/-- A queue whose tail runs more than a ring ahead stops, with a notice event (R146). None while the event cannot be held (R165). -/
def State.checkQueue (s : State) (g q : Nat) : Option State :=
  let h := s.hostQueue g q
  if h.en && !h.stopped && decide (2 ^ h.lsize < h.ahead) then
    if s.holdFull g 10 then none else some ((s.modQueue g q fun h => { h with stopped := true }).raise g 10 sevNotice 0x010C none 0)
  else some s

/-- A write of qtail (R146). -/
def State.writeQtail (s : State) (g q : Nat) (w : Word) : Option State :=
  (s.modQueue g q fun h => { h with tail := bits w.toNat 31 0 }).checkQueue g q

/-- A write of qctl (R146): lsize is fixed while EN is set; EN clear lets a stopped queue go on. -/
def State.writeQctl (s : State) (g q : Nat) (w : Word) : Option State :=
  let n := w.toNat
  let l := if 4 ≤ bits n 20 16 ∧ bits n 20 16 ≤ 16 then bits n 20 16 else 4
  (s.modQueue g q fun h =>
    { h with en := bitOn n 63, prio := bits n 34 32, lsize := if h.en then h.lsize else l, stopped := h.stopped && bitOn n 63 }).checkQueue g q

/-- A write of cread; beyond cdone it stores cdone (R148). -/
def State.writeCread (s : State) (g q : Nat) (w : Word) : State :=
  s.modQueue g q fun h =>
    let n := bits w.toNat 31 0
    { h with cread := if (h.cdone + 2 ^ 32 - h.cread) % 2 ^ 32 < (n + 2 ^ 32 - h.cread) % 2 ^ 32 then h.cdone else n }

/-- The site is a gatehouse, and q one of its queues. -/
def hostQueueAt (g q : Nat) : Bool := decide (kindOf g = .gatehouse) && decide (q < 64)

/-- QTAIL_WRITE (R146). -/
def execQtailWrite (g q : Nat) (w : BitVec 64) (s : State) : Out :=
  due "QTAIL_WRITE" (if hostQueueAt g q then s.writeQtail g q w else none)
/-- QCTL_WRITE (R146). -/
def execQctlWrite (g q : Nat) (w : BitVec 64) (s : State) : Out :=
  due "QCTL_WRITE" (if hostQueueAt g q then s.writeQctl g q w else none)
/-- CREAD_WRITE (R148). -/
def execCreadWrite (g q : Nat) (w : BitVec 64) (s : State) : Out :=
  due "CREAD_WRITE" (if hostQueueAt g q then some (s.writeCread g q w) else none)

/-- COMPLETION_RECORD_WRITE: the oldest held record goes into the completion ring while it has room (R148), and the host is told (R420). -/
def State.writeRecord (s : State) (g q : Nat) : Option State :=
  let h := s.hostQueue g q
  match h.held with
  | [] => none
  | (w0, w1) :: rest =>
    if h.ringFull then none
    else
      let a := hostKey (h.cbase + 16 * (h.cdone % 2 ^ h.lsize))
      let s : State := { s with mem := Memory.writeN s.mem a (allOn 16) (leBytes 8 w0.toNat ++ leBytes 8 w1.toNat) }
      some ((s.modQueue g q fun h => { h with held := rest, cdone := (h.cdone + 1) % 2 ^ 32 }).modGate g fun x => x.interrupt q)

/-- COMPLETION_RECORD_WRITE (R148). -/
def execCompletionRecordWrite (g q : Nat) (s : State) : Out :=
  due "COMPLETION_RECORD_WRITE" (if hostQueueAt g q then s.writeRecord g q else none)

/-! ## Commands (R147, R148) -/

/-- The eight words of the command at the head of a queue (R146, R147). -/
def State.command (s : State) (g q : Nat) : List Nat :=
  let h := s.hostQueue g q
  let l := Memory.readN s.mem (hostKey (h.base + 64 * (h.head % 2 ^ h.lsize))) 64
  (List.range 8).map (wordAt l)

/-- The queue may start its next command, and the command's op meets a test (R146, R148). -/
def State.mayTake (s : State) (g q : Nat) (p : Nat → Bool) : Bool :=
  let h := s.hostQueue g q
  hostQueueAt g q && (s.gate g).linkUp && h.en && !h.stopped && decide (h.ahead ≠ 0) && decide (h.ahead ≤ 2 ^ h.lsize) && h.blocked.isNone
    && !h.ringFull && p (bits ((s.command g q).getD 0 0) 7 0)

/-- The command is taken. -/
def State.taken (s : State) (g q : Nat) : State := s.modQueue g q fun h => { h with head := (h.head + 1) % 2 ^ 32 }

/-- A command of the queue is complete at once, with a status; a number that the spec does not state is a free value (log 11). -/
def State.finishCommand (s : State) (g q op st : Nat) (tag : Nat) : State :=
  let (w, s) := s.free
  s.modGate g fun x => x.complete q op st (BitVec.ofNat 32 tag) (w.toNat % 2 ^ 32)

/-- Every launch of the queue has its gangs placed (R148). -/
def State.queuePlaced (s : State) (g q : Nat) : Bool :=
  (s.gate g).launches.all fun (l : Launch) => !(l.queue == some q && l.node.isNone && decide (l.next < l.total))

/-- Words of a command that a command of its op leaves reserved are 0 (R147). -/
def commandClean (c : List Nat) (used : List Nat) : Bool :=
  bits (c.getD 0 0) 31 8 == 0 && (List.range 8).all fun i => i == 0 || used.contains i || c.getD i 0 == 0

/-- HOST_CMD_LAUNCH: the descriptor is read and checked, and its launch starts (R147-R150, R172). DESIGN CHOICE (log 50): set bits [63:60] of the
address word count as a nonzero reserved field, and an address that is not 64-byte aligned as a rejected descriptor. -/
def State.cmdLaunch (s : State) (g q : Nat) : Option State :=
  if !(s.mayTake g q (· == 1) && s.queuePlaced g q) then none
  else
    let c := s.command g q
    let tag := bits (c.getD 0 0) 63 32
    let a := c.getD 1 0
    let gs := s.sysGranules g true false true (BitVec.ofNat 60 a) 256
    let t := s.taken g q
    if !commandClean c [1] || bits a 63 60 != 0 then some (t.finishCommand g q 1 1 tag)
    else if s.sysStalled gs then none
    else
      let t := t.sysInspect gs
      match s.sysRead g (BitVec.ofNat 60 a) 256 with
      | none => some (t.finishCommand g q 1 4 tag)
      | some l =>
        let m := descOf l
        if m.rejected || s.strayCounter g m || a % 64 != 0 then some (t.finishCommand g q 1 2 tag)
        else if m.overclaims then some (t.finishCommand g q 1 3 tag)
        else
          let n := rimOf g * 2 ^ 28 + (s.gate g).count
          some ((t.startLaunch g m (some q) (BitVec.ofNat 32 tag) (s.hostQueue g q).prio none).modQueue g q fun h => { h with open_ := NatSet.add n h.open_ })

/-- HOST_CMD_LAUNCH (R147). -/
def execHostCmdLaunch (g q : Nat) (s : State) : Out := due "HOST_CMD_LAUNCH" (s.cmdLaunch g q)

/-- HOST_CMD_REPLAY: the replay waits for a bank, and its queue with it (R147, R157). -/
def State.cmdReplay (s : State) (g q : Nat) : Option State :=
  if !(s.mayTake g q (· == 2) && s.queuePlaced g q) then none
  else
    let c := s.command g q
    let tag := bits (c.getD 0 0) 63 32
    let s := s.taken g q
    if !commandClean c [1, 2, 3] || bits (c.getD 1 0) 63 60 != 0 || bits (c.getD 2 0) 63 60 != 0 || bits (c.getD 3 0) 63 32 != 0 then
      some (s.finishCommand g q 2 1 tag)
    else
      let (i, s) := s.fresh
      let (w, s) := s.free
      let r : ReplayCmd := { id := i, object := BitVec.ofNat 60 (c.getD 1 0), patch := BitVec.ofNat 60 (c.getD 2 0), patchLen := c.getD 3 0,
                             queue := q, tag := BitVec.ofNat 32 tag, number := w.toNat % 2 ^ 32 }
      some ((s.modGate g fun x => { x with replays := x.replays ++ [r] }).modQueue g q fun h => { h with blocked := some i })

/-- HOST_CMD_REPLAY (R147). -/
def execHostCmdReplay (g q : Nat) (s : State) : Out := due "HOST_CMD_REPLAY" (s.cmdReplay g q)

/-- The placed gangs that a pre-empt command names (R147, R161). -/
def State.named (s : State) (launch gang : Nat) : List (BitVec 32 × BitVec 32) :=
  s.sites.flatMap fun (_, t) => t.gangs.filterMap fun (_, g) =>
    if g.st ≠ .free ∧ g.launch.toNat = launch ∧ (gang = 0xFFFFFFFF ∨ g.gang.toNat = gang) then some (g.launch, g.gang) else none

/-- HOST_CMD_PREEMPT: the command is complete when every gang it names is saved (R147, R161). -/
def State.cmdPreempt (s : State) (g q : Nat) : Option State :=
  if !s.mayTake g q (· == 3) then none
  else
    let c := s.command g q
    let tag := bits (c.getD 0 0) 63 32
    let s := s.taken g q
    if !commandClean c [1, 2] || bits (c.getD 1 0) 63 32 != 0 || bits (c.getD 2 0) 63 32 != 0 then some (s.finishCommand g q 3 1 tag)
    else
      let l := s.named (c.getD 1 0) (c.getD 2 0)
      if l.isEmpty then some (s.modGate g fun x => x.complete q 3 7 (BitVec.ofNat 32 tag) (c.getD 1 0))
      else some (s.modGate g fun x => { x with preempts := x.preempts ++ [(q, BitVec.ofNat 32 tag, l)] })

/-- HOST_CMD_PREEMPT (R147). -/
def execHostCmdPreempt (g q : Nat) (s : State) : Out := due "HOST_CMD_PREEMPT" (s.cmdPreempt g q)

/-- Every earlier command of the queue is complete (R148). -/
def State.queueIdle (s : State) (g q : Nat) : Bool :=
  (s.hostQueue g q).open_.isEmpty && !(s.gate g).replays.any (fun r => r.queue == q) && !(s.gate g).preempts.any (fun p => p.1 == q)

/-- HOST_CMD_DRAIN: it completes once every earlier command of its queue has (R148). -/
def State.cmdDrain (s : State) (g q : Nat) : Option State :=
  if !(s.mayTake g q (· == 4) && s.queueIdle g q) then none
  else
    let c := s.command g q
    some ((s.taken g q).finishCommand g q 4 (if commandClean c [] then 0 else 1) (bits (c.getD 0 0) 63 32))

/-- HOST_CMD_DRAIN (R147). -/
def execHostCmdDrain (g q : Nat) (s : State) : Out := due "HOST_CMD_DRAIN" (s.cmdDrain g q)

/-- HOST_CMD_RESERVED: status 1 and nothing else (R147). -/
def State.cmdReserved (s : State) (g q : Nat) : Option State :=
  if !s.mayTake g q (fun o => decide (o = 0 ∨ 4 < o)) then none
  else
    let w := (s.command g q).getD 0 0
    some ((s.taken g q).finishCommand g q (bits w 7 0) 1 (bits w 63 32))

/-- HOST_CMD_RESERVED (R147). -/
def execHostCmdReserved (g q : Nat) (s : State) : Out := due "HOST_CMD_RESERVED" (s.cmdReserved g q)

/-! ## Graphs (R156-R158) -/

/-- A graph object as the launch unit reads it. -/
structure Graph where
  bsize : Nat
  bankA : Addr
  bankB : Addr
  /-- descriptor address and predecessors of each node -/
  nodes : List (Addr × List Nat)
deriving DecidableEq, Repr

/-- The words of a graph object; none where it is unreadable. -/
def State.graphWords (s : State) (g : Nat) (o : Addr) : Option (List Nat) :=
  match s.sysWord g o with
  | none => none
  | some w => (s.sysRead g o (64 + 16 * bits w 8 0)).map fun l => (List.range (8 + 2 * bits w 8 0)).map (wordAt l)

/-- The granules that a launch unit reads for the words of a graph object. -/
def State.graphReads (s : State) (g : Nat) (o : Addr) : List Nat :=
  s.sysGranules g true false true o (match s.sysWord g o with | none => 8 | some w => 64 + 16 * bits w 8 0)

/-- The object that the words hold, if it keeps R156. -/
def graphOf (w : List Nat) : Option Graph :=
  let h := w.getD 0 0
  let n := bits h 8 0
  let bsize := bits h 47 16
  let node (i : Nat) : Option (Addr × List Nat) :=
    let a := w.getD (8 + 2 * i) 0
    let b := w.getD (9 + 2 * i) 0
    let np := bits b 2 0
    let ps := (fieldsOf 4 8 (b / 2 ^ 8)).take np
    if bits a 63 60 ≠ 0 ∨ bits b 7 3 ≠ 0 ∨ bits b 63 40 ≠ 0 ∨ 4 < np ∨ ps.any (fun p => decide (i ≤ p)) then none else some (BitVec.ofNat 60 a, ps)
  if n = 0 ∨ 256 < n ∨ bsize % 64 ≠ 0 ∨ 1048576 < bsize ∨ bits h 15 9 ≠ 0 ∨ bits h 63 48 ≠ 0 ∨ w.getD 1 0 % 64 ≠ 0 ∨ w.getD 2 0 % 64 ≠ 0
      ∨ bits (w.getD 1 0) 63 60 ≠ 0 ∨ bits (w.getD 2 0) 63 60 ≠ 0 ∨ (List.range 5).any (fun i => w.getD (3 + i) 0 != 0) then none
  else
    ((List.range n).mapM node).map fun nodes =>
      { bsize, bankA := BitVec.ofNat 60 (w.getD 1 0), bankB := BitVec.ofNat 60 (w.getD 2 0), nodes }

/-- The entries of a patch, offset and data (R158); none where an entry breaks it. The number bounds the entries. DESIGN CHOICE (log 50): an entry
whose word has one of bits [63:48] set breaks it. -/
def patchEntries : Nat → Nat → List Byte → Option (List (Nat × List Byte))
  | 0, _, _ => none
  | _ + 1, _, [] => some []
  | n + 1, bsize, l =>
    let w := wordAt l 0
    let off := bits w 31 0
    let len := bits w 47 32
    let pad := (len + 7) / 8 * 8
    if l.length < 8 ∨ len = 0 ∨ 4096 < len ∨ bits w 63 48 ≠ 0 ∨ bsize < off + len ∨ l.length < 8 + pad then none
    else (patchEntries n bsize (l.drop (8 + pad))).map fun r => (off, (l.drop 8).take len) :: r

/-- A replay ends before it starts, with a status (R148, R158); its queue goes on. -/
def State.rejectReplay (s : State) (g : Nat) (r : ReplayCmd) (st : Nat) : State :=
  (s.modGate g fun x =>
    let x := x.modReplay r.id fun r => { r with status := st, done := true }
    Gate.recordReplays x.replays x).modQueue g r.queue fun h => { h with blocked := none }

/-- The granules that a launch unit reads before a replay takes its bank: the object, the patch and the descriptors of its nodes. -/
def State.replayReads (s : State) (g : Nat) (r : ReplayCmd) : List Nat :=
  s.graphReads g r.object ++ (match (s.graphWords g r.object).bind graphOf with
    | none => []
    | some m =>
      if 65536 < r.patchLen then []
      else (if r.patch = 0 then [] else s.sysGranules g true false true r.patch r.patchLen) ++ m.nodes.flatMap fun n => s.sysGranules g true false true n.1 256)

/-- REPLAY_START: a replay takes a bank, which gets the contents of the bank used last and the patch (R157, R158). DESIGN CHOICE (log 50): a bank
that cannot be read rejects the replay with status 4, and a byte of a bank that cannot be written is dropped (`sysWrite`). -/
def State.replayStart (s : State) (g i : Nat) : Option State :=
  match (s.gate g).replays.find? (fun r => r.id == i && r.bank.isNone && !r.done) with
  | none => none
  | some r =>
    let o := Tab.get {} r.object.toNat (s.gate g).objects
    let gs := s.replayReads g r
    let reject (st : Nat) : Option State := some ((s.sysInspect gs).rejectReplay g r st)
    if (o.busyA && o.busyB) || s.sysStalled gs then none
    else match s.graphWords g r.object with
      | none => reject 4
      | some w => match graphOf w with
        | none => reject 5
        | some m =>
          if 65536 < r.patchLen then reject 5
          else match (if r.patch = 0 then some [] else s.sysRead g r.patch r.patchLen), m.nodes.mapM (fun n => s.sysRead g n.1 256) with
            | some pb, some ds =>
              match patchEntries (pb.length + 1) m.bsize pb with
              | none => reject 5
              | some es =>
                if ds.any (fun l => (descOf l).rejected || s.strayCounter g (descOf l)) then reject 5
                else
                  let b := if !o.busyA && !o.busyB then (match o.last with | some x => !x | none => false) else o.busyA
                  let bank (x : Bool) : Addr := if x then m.bankB else m.bankA
                  let copied := match o.last with | some x => x != b | none => false
                  let hs := if copied then s.sysGranules g true false true (bank !b) m.bsize else []
                  match (if copied then s.sysRead g (bank !b) m.bsize else some []) with
                  | none => if s.sysStalled hs then none else some (((s.sysInspect gs).sysInspect hs).rejectReplay g r 4)
                  | some old =>
                    let ws := s.writeReads g (bank b) old ++ es.flatMap fun e => s.writeReads g (bank b + BitVec.ofNat 60 e.1) e.2
                    if s.sysStalled (hs ++ ws) then none
                    else
                      let t := s.sysWrite g (bank b) old
                      let t := each es (fun s e => s.sysWrite g (bank b + BitVec.ofNat 60 e.1) e.2) t
                      let t := (t.sysInspect gs).sysInspect hs
                      some ((t.modGate g fun x =>
                        let x := x.modReplay i fun r => { r with bank := some b, nodes := m.nodes.length }
                        let q : GraphObj := Tab.get ({} : GraphObj) r.object.toNat x.objects
                        let q := if b then { q with busyB := true, last := some b } else { q with busyA := true, last := some b }
                        { x with objects := Tab.put r.object.toNat q x.objects }).modQueue g r.queue
                          fun h => { h with blocked := none })
            | _, _ => reject 4

/-- REPLAY_START (R157). -/
def execReplayStart (g r : Nat) (s : State) : Out := due "REPLAY_START" (s.replayStart g r)

/-- GRAPH_NODE_START: a node whose predecessors are complete starts, its parameter bank the replay's (R156, R157). A node whose
descriptor no longer passes its checks places nothing and is complete (R148). -/
def State.nodeStart (s : State) (g i n : Nat) : Option State :=
  match (s.gate g).replays.find? (fun r => r.id == i) with
  | none => none
  | some r =>
    match r.bank, (s.graphWords g r.object).bind graphOf with
    | some b, some m =>
      match m.nodes[n]? with
      | none => none
      | some (a, ps) =>
        let gs := s.graphReads g r.object ++ s.sysGranules g true false true a 256
        if r.started.contains n || r.done || !ps.all r.complete.contains || s.sysStalled gs then none
        else
          let l? := s.sysRead g a 256
          let s := (s.sysInspect gs).modGate g fun x => x.modReplay i fun r => { r with started := NatSet.add n r.started }
          match l? with
          | none => some (s.modGate g fun x => x.nodeDone i n false 4)
          | some l =>
            let d := descOf l
            if d.rejected || s.strayCounter g d then some (s.modGate g fun x => x.nodeDone i n false 5)
            else if d.overclaims then some (s.modGate g fun x => x.nodeDone i n false 3)
            else
              let bank := if b then m.bankB else m.bankA
              some (s.startLaunch g { d with param := bank + d.param } (some r.queue) r.tag (s.hostQueue g r.queue).prio (some (i, n)))
    | _, _ => none

/-- GRAPH_NODE_START (R157). -/
def execGraphNodeStart (g r i : Nat) (s : State) : Out := due "GRAPH_NODE_START" (s.nodeStart g r i)

/-! ## Placement (R152-R154) -/

/-- The pavilions of a launch's window, by physical site, in the order in which they are offered (R152). -/
def State.window (s : State) (g : Nat) (m : Desc) : List Nat :=
  (List.range 20).flatMap fun y => (List.range 20).filterMap fun x =>
    if m.x0 ≤ x ∧ x ≤ m.x1 ∧ m.y0 ≤ y ∧ y ≤ m.y1 ∧ s.kindAt g x y = some .pavilion then (s.resolve g x y 0).map (·.1) else none

/-- Slots of a core that a resident crew owns (R155): the slotmask of every crew there that has not ended. -/
def Site.ownedSlots (t : Site) (core : Nat) : List Nat :=
  t.gangs.flatMap fun (_, g) => if g.st ≠ .free ∧ g.cores.contains core ∧ !g.ended.contains (g.crewOn core) then [g.desc.slotmask] else []

/-- Every slot of a mask on a core is free (R153). -/
def State.coreOpen (s : State) (v core mask : Nat) : Bool :=
  (List.range 13).all fun i => !bitOn mask i ||
    (decide ((s.strand (slotKey (v * 16 + core) i)).st = .free) && !((s.site v).ownedSlots core).any (fun m => bitOn m i))

/-- The cores that an admission gives to the crews, crew 0 first (R153, R173); none when it cannot. -/
def State.chooseCores (s : State) (v : Nat) (m : Desc) : Option (List Nat) :=
  let store := m.st.any (· != 0)
  let ok (c : Nat) : Bool := s.coreOpen v c m.slotmask
  if m.coremask ≠ 0 then
    let l := (List.range 16).filter fun c => bitOn m.coremask c
    if l.all ok then some l else none
  else
    let l := ((List.range 16).filter fun c => ok c && (!store || m.st.getD (c / 4) 0 != 0)).take m.crews
    if l.length = m.crews then some l else none

/-- The lowest FREE entry of a claim table (R174). -/
def State.freeEntry (s : State) (v : Nat) : Option Nat := (List.range 32).find? fun e => (s.gang v e).st == .free

/-- What a claim unit asks of any gang before its cores (R153): a READY pavilion that is no spare, a free entry, room in the event buffer,
and no reservation of higher priority. -/
def State.admits (s : State) (v prio : Nat) : Bool :=
  let t := s.site v
  decide (t.state = .ready) && t.self.isSome && (s.freeEntry v).isSome && decide (t.events.length < 12)
    && (match t.reservation with | some (p, _, _) => decide (p ≤ prio) | none => true)

/-- Origin and extent of a crew in dimension d (R151). -/
def Desc.tileOf (m : Desc) (n k d : Nat) : Nat × Nat :=
  let nd := n / ((List.range d).map m.gangsIn).prod % m.gangsIn d
  let kd := k / ((List.range d).map fun i => m.shape.getD i 1).prod % m.shape.getD d 1
  let org := nd * m.gangTile d + kd * m.tile.getD d 1
  (org, min (m.tile.getD d 1) (m.ext.getD d 1 - org))

/-- id.org0-3 and id.ext0-3 by selector (R48, R151). -/
def Desc.shapeRegs (m : Desc) (n k : Nat) : List (Nat × BitVec 32) :=
  ((List.range 4).map fun d => (8 + d, BitVec.ofNat 32 (m.tileOf n k d).1)) ++ (List.range 4).map fun d => (12 + d, BitVec.ofNat 32 (m.tileOf n k d).2)

/-- The registers of the control strand of crew k (R39). -/
def Desc.control (m : Desc) (launch gang : BitVec 32) (k e : Nat) : Strand :=
  { pc := m.entry, regs := [(1, m.param.setWidth 64)], segs := m.segs, crew := k, gang, launch, shape := m.shapeRegs gang.toNat k, entry := e,
    control := true }

/-- The fetches of a core that are under way: the lines that arrive do not enter the instruction cache (R108). -/
def State.staleFetches (s : State) (c : Nat) : State :=
  { s with txns := s.txns.map fun (t : Txn) => match t.acc.owner with
      | .fetch k _ => if coreOfK k = c then { t with stale := true } else t
      | _ => t }

/-- What a core gives a crew that comes to it: an empty bank of loop registers, no chunk, no accumulators, invalid caches (R50, R108, R114). -/
def State.prepareCore (s : State) (c e : Nat) : State :=
  ((s.flushL1d c (fun _ => true) true).staleFetches c).modCore c fun x =>
    { x with loops := x.loops.filter (fun p => p.1 / 8 != e), fetch := Tab.del e x.fetch, accs := x.accs.filter (fun p => p.1 / 4 != e),
             icache := [], posts := x.posts.filter (fun p => p.1 != e) }

/-- The cache actions of a placement or a resumption (R108, R114). -/
def State.acquireCaches (s : State) (v e : Nat) (cores : List Nat) : State :=
  (each cores (fun s c => s.prepareCore (v * 16 + c) e) s).flushSlice v (fun _ => true) true

/-- The reservation of a launch is cleared where it stands (R154). -/
def Site.unreserve (t : Site) (rim n : Nat) : Site := { t with reservation := t.reservation.filter fun r => !(r.2.1 == rim && r.2.2 == n) }

/-- ADMISSION: the entry, the control strands and the cache actions, in one operation (R153); level 12 for the cores (R63), and the launch's
reservations in its window are cleared (R154). -/
def State.admitGang (s : State) (v e : Nat) (l : Launch) (rim : Nat) (cores : List Nat) : State :=
  let n := BitVec.ofNat 32 l.next
  let g : Gang := { st := .running, launch := l.number, gang := n, prio := l.prio, desc := l.desc, cores, rim }
  let s := each (s.window (rimSite rim) l.desc) (fun s w => s.modSite w fun t => t.unreserve rim l.number.toNat) s
  let s := s.modSite v fun t => { t with gangs := Tab.put e g t.gangs }
  let s := s.acquireCaches v e cores
  let s := each cores (fun s c => s.modCore (v * 16 + c) fun x => { x with opRequest := 12 }) s
  each cores.zipIdx (fun s (c, k) => s.begin (slotKey (v * 16 + c) l.desc.controlSlot) (l.desc.control l.number n k e)) s

/-- A resumption of the unit waits for pavilion v, and has not been refused since its last report: at priority 8 it goes before every launch (R154,
R164). -/
def State.resumesFirst (s : State) (g v : Nat) : Bool :=
  (s.site v).resuming.any fun r => !r.2 && s.contexts.any fun c => c.id == r.1 && c.gang.rim == rimOf g

/-- What goes before this launch's gang to pavilion v: a waiting resumption, or a launch of the unit of higher priority, or older at the same, not
yet refused there (R154). -/
def State.outranked (s : State) (g v : Nat) (l : Launch) : Bool :=
  s.resumesFirst g v || (s.gate g).launches.any fun (q : Launch) =>
    q.number != l.number && decide (q.next < q.total) && (decide (l.prio < q.prio) || (decide (l.prio = q.prio) && decide (q.order < l.order)))
      && (match indexIn v (s.window g q.desc) with | some i => decide (q.scan ≤ i) | none => false)

/-- A launch of a unit changed. -/
def State.modLaunch (s : State) (g : Nat) (n : BitVec 32) (f : Launch → Launch) : State :=
  s.modGate g fun x => { x with launches := x.launches.map fun (l : Launch) => if l.number = n then f l else l }

/-- GANG_OFFER: the next gang of a launch is offered to the pavilion whose turn it is in the scan; admitted, it is placed whole, refused,
the scan goes on; after a whole scan the gang waits for a report (R152-R154). A claim unit whose gang end or save is not over takes no offer
(R178). -/
def State.gangOffer (s : State) (g n v : Nat) : Option State :=
  match (s.gate g).launches.find? (fun l => l.number.toNat == n) with
  | none => none
  | some l =>
    let w := s.window g l.desc
    let i := l.scan
    if l.total ≤ l.next ∨ w[i]? ≠ some v ∨ s.outranked g v l ∨ !(s.site v).releases.isEmpty then none
    else
      let no := some (s.modLaunch g l.number fun q => { q with scan := i + 1 })
      if !s.admits v l.prio then no
      else match s.freeEntry v, s.chooseCores v l.desc with
        | some e, some cores =>
          some ((s.admitGang v e l (rimOf g) cores).modLaunch g l.number fun q => { q with next := q.next + 1, scan := 0 })
        | _, _ => no

/-- GANG_OFFER (R152). -/
def execGangOffer (g l v : Nat) (s : State) : Out := due "GANG_OFFER" (s.gangOffer g l v)

/-- A reservation set in a claim unit (R154): a higher priority replaces a lower one, among equals the older stands. -/
def Site.reserve (t : Site) (prio rim n : Nat) : Site :=
  match t.reservation with
  | some (p, _, _) => if p < prio then { t with reservation := some (prio, rim, n) } else t
  | none => { t with reservation := some (prio, rim, n) }

/-- PLACEMENT_RESERVATION: a launch whose next gang has been refused by its whole window sets its reservation there (R154). -/
def State.placeReservation (s : State) (g n : Nat) : Option State :=
  match (s.gate g).launches.find? (fun l => l.number.toNat == n) with
  | none => none
  | some l =>
    let w := s.window g l.desc
    if l.total ≤ l.next ∨ l.scan < w.length then none
    else some (each w (fun s v => s.modSite v fun t => t.reserve l.prio (rimOf g) n) s)

/-- PLACEMENT_RESERVATION (R154). -/
def execPlacementReservation (g l : Nat) (s : State) : Out := due "PLACEMENT_RESERVATION" (s.placeReservation g l)

/-! ## Pre-emption (R161, R162) -/

/-- The entry of a placed gang. -/
def State.entryOf (s : State) (v launch gang : Nat) : Option Nat :=
  ((s.site v).gangs.find? fun (_, g) => g.st != .free && g.launch.toNat == launch && g.gang.toNat == gang).map (·.1)

/-- Trigger entries that a gang posted (R161, R373). -/
def Trig.postedBy (t : Trig) (g : Gang) : Bool := t.st != .free && t.launch == g.launch && t.gang == g.gang

/-- A strand parked for a claim stops at once: its waiter record goes (R162, R183). -/
def State.stopClaims (s : State) (v e : Nat) : State :=
  each (s.parkedIn v e fun c => match c with | .claim .. => true | _ => false) (fun s k => (s.dropWaiter k).stop k) s

/-- PREEMPT_REQUEST: the request names a context area; P is set, the gang's trigger entries are suspended, and the deadline of ctl.psave_deadline
runs; strands that wait for a claim stop at once (R67, R161, R162). A request for a gang that is stopping or has ended is ignored; one for a gang
not yet placed waits. -/
def State.preemptRequest (s : State) (v launch gang : Nat) (area : Addr) : Option State :=
  match s.entryOf v launch gang with
  | none =>
    if (s.gate (rimSite (launch / 2 ^ 28))).launches.any (fun l => l.number.toNat == launch && decide (l.next ≤ gang)) then none else some s
  | some e =>
    let g := s.gang v e
    if g.st ≠ .running then some s
    else
      let s := s.modSite v fun t =>
        { t with gangs := Tab.put e { g with st := .stopping, deadline := t.psaveDeadline, area } t.gangs,
                 trigs := t.trigs.map fun (n, r) => if r.postedBy g && (r.st == .armed || r.st == .eligible) then (n, { r with st := .suspended }) else (n, r) }
      some (s.stopClaims v e)

/-- PREEMPT_REQUEST (R161). -/
def execPreemptRequest (v launch : Nat) (gang : GangSave) (s : State) : Out :=
  due "PREEMPT_REQUEST" (if kindOf v = .pavilion then s.preemptRequest v launch gang.gang gang.area else none)

/-- What a drain reserved is free again: its slot, the strand that waits in it for its granules, and its waiter (R349). -/
def State.dropDrain (s : State) (o : MOp) : State :=
  match o.kind with
  | .drain _ q _ _ _ _ =>
    let h := slotKey (coreOfK o.k) q
    let s := s.modGang (siteOfK o.k) (s.strand o.k).entry fun g => { g with drains := g.drains.filter (· != (coreNo o.k, q)) }
    if (s.strand h).drain then (s.dropWaiter h).freeSlot h else s
  | _ => s

/-- The operation waits in its lane, or is a drain that waits for its granules: nothing of it has begun (R347, R349). -/
def MOp.waiting (o : MOp) : Bool := !o.begun || (match o.kind with | .drain .. => !o.running | _ => false)

/-- Operations of a stopping gang that wait in a lane of a matrix engine are removed, and their strands stop (R347); a `rel` that waited for one of
them goes on (R185). -/
def State.unqueueMatrix (s : State) (v e : Nat) : State :=
  each ((s.gang v e).cores.map (v * 16 + ·)) (fun s c =>
    let mine (o : MOp) : Bool := o.waiting && (s.strand o.k).entry == e
    let os := ((s.core c).mul ++ (s.core c).drn).filter mine
    let s := s.modCore c fun x => { x with mul := x.mul.filter (fun o => !mine o), drn := x.drn.filter (fun o => !mine o) }
    let s := each os (fun s o => (s.dropDrain o).stop o.k) s
    each ((List.range 13).map (slotKey c ·)) (fun s k => s.settle k) s) s

/-- PSAVE_DEADLINE_EXPIRY: the deadline of a stopping gang has run out (R162). -/
def State.deadline (s : State) (v e : Nat) : Option State :=
  let g := s.gang v e
  if g.st = .stopping ∧ !g.expired ∧ g.deadline = 0 then
    let s := s.modGang v e fun g => { g with expired := true }
    some (each (s.gangStrands v e) State.deadlineStrand (s.unqueueMatrix v e))
  else none

/-- PSAVE_DEADLINE_EXPIRY (R162). -/
def execPsaveDeadlineExpiry (v e : Nat) (s : State) : Out := due "PSAVE_DEADLINE_EXPIRY" (s.deadline v e)

/-! ## Save and resumption (R70, R163, R164, R180) -/

/-- Core keys of a gang. -/
def Gang.coreKeys (g : Gang) (v : Nat) : List Nat := g.cores.map (v * 16 + ·)

/-- Requests of a copy that wait in replay entries (R355). -/
def Core.copyHeld (x : Core) (n : Nat) (rd : Bool) : Nat :=
  (x.replays.map fun r => (r.accs.filter fun a => match a.owner with
    | .copyRead _ m _ => rd && m == n
    | .copyWrite _ m _ => !rd && m == n
    | _ => false).length).sum

/-- A copy stands at a chunk boundary (R162): no destination write of it is outstanding or still to be issued, and its source reads have
returned or wait on a replay entry. -/
def Core.atBoundary (x : Core) (q : Copy) : Bool :=
  q.writes.all (fun w => w.2 == 0) && (q.phase != .source || q.reads == x.copyHeld q.n true) && (q.phase != .dest || q.todo.isEmpty)

/-- Elements of a copy (R351). -/
def CopyBlock.elems (b : CopyBlock) : Nat := (b.dims.map fun d => d.2.2).foldl (· * ·) 1

/-- The elements of a chunk (R351). -/
def CopyBlock.chunkElems (b : CopyBlock) (c : Nat) : List Nat := (List.range (min b.chunk (b.elems - c * b.chunk))).map (c * b.chunk + ·)

/-- A copy as a save keeps it: a chunk in its source phase is redone (R162). -/
def Copy.redone (q : Copy) : Copy :=
  if q.phase = .source then { q with todo := q.block.chunkElems q.chunk, reads := 0, buf := [], writes := [] } else { q with writes := [] }

/-- A replay entry of a strand of a gang, in the cores of pavilion v; one that an aborted gang left behind is not. -/
def State.ownsReplay (s : State) (c e : Nat) (r : Replay) : Bool :=
  !r.dead && (s.strand (slotKey c r.slot)).entry == e && decide (r.slot < 13 ∧ r.kind < 16)

/-- Everything of a stopping gang stands still: strands STOPPED, every reply of their accesses arrived but for those that wait in the replay queue, no
fault to take but behind a park that goes on after the save, copies at chunk boundaries (R70, R117, R162, R292). -/
def State.halted (s : State) (v e : Nat) : Bool :=
  let ks := s.gangStrands v e
  let out (o : Owner) : Bool := ks.any fun k => o.isOf k
  ks.all (fun k =>
      let x := s.strand k
      x.st == .stopped && (!x.lateDue || x.why.isSome) && x.tracker.all (fun t => t.replay.isSome))
    && !s.txns.any (fun t => out t.acc.owner) && !(s.site v).port.any (fun q => out q.acc.owner)
    && ((s.gang v e).coreKeys v).all fun c =>
      (s.core c).replays.all (fun r => !s.ownsReplay c e r || r.issued.isEmpty)
        && (s.core c).copies.all fun q => q.entry != e || q.trig.isSome || (s.core c).atBoundary q

/-- The live-range entries at which every strand of the gang stopped; none when one stopped otherwise (R163). -/
def State.liveEntries (s : State) (v e : Nat) : Option (List (Nat × Live)) :=
  (s.gangStrands v e).mapM fun k => do
    let i ← (s.strand k).ckpt
    let l ← s.liveEntry v (s.gang v e).desc.live i
    some (k, l)

/-- A strand as the context keeps it: every held granule, or those that its live-range entry lists (R70, R163). -/
def Strand.saved (x : Strand) (l : Option Live) : Strand :=
  match l with
  | none => x
  | some l => { x with regs := x.regs.filter fun r => decide (r.1 < 8) || bitOn l.wmask ((r.1 - 8) / 16) }

/-- A byte of a gang's store list on a bower is saved (R163, R212). -/
def savedByte (ls : Option (List (Nat × Live))) (b pos : Nat) : Bool :=
  match ls with
  | none => true
  | some l => l.any fun q => q.2.ranges.any fun r => r.1 == b && decide (r.2.1 ≤ pos ∧ pos < r.2.1 + r.2.2)

/-- Position in the gang's store list of a memory key, if it lies in a granule held on bower b. -/
def listPos (v b : Nat) (l : List Nat) (key : Nat) : Option Nat :=
  let o := key - homeKey v b 0
  if homeKey v b 0 ≤ key ∧ o < 4194304 then (indexIn (o / 16384) l).map fun i => i * 16384 + o % 16384 else none

/-- The bytes of a gang's store granules that a save keeps. -/
def State.savedStore (s : State) (v : Nat) (g : Gang) (ls : Option (List (Nat × Live))) : List (Nat × Nat × Byte) :=
  (List.range 4).flatMap fun b => s.mem.filterMap fun c =>
    match listPos v b (Tab.get [] b g.stores) c.1 with
    | some p => if savedByte ls b p then some (b, p, c.2) else none
    | none => none

/-- The struck granules among those that a save keeps: bower, list position, and the flaw (R90, R91). -/
def State.savedFlaws (s : State) (v : Nat) (g : Gang) (ls : Option (List (Nat × Live))) : List (Nat × Nat × Nat × Nat) :=
  (List.range 4).flatMap fun b => s.flaws.filterMap fun f =>
    match listPos v b (Tab.get [] b g.stores) (f.1 * 16) with
    | some p => if savedByte ls b p then some (b, p, f) else none
    | none => none

/-- The full/empty bits of the granules that a save keeps (log 28). -/
def State.savedFull (s : State) (v : Nat) (g : Gang) (ls : Option (List (Nat × Live))) : List (Nat × Nat) :=
  (List.range 4).flatMap fun b => s.full.filterMap fun n =>
    match listPos v b (Tab.get [] b g.stores) (n * 16) with
    | some p => if savedByte ls b p then some (b, p / 16) else none
    | none => none

/-- The context of a stopped gang (R163, log 12). -/
def State.contextOf (s : State) (v e i : Nat) : Context :=
  let g := s.gang v e
  let ls := s.liveEntries v e
  let cs := g.coreKeys v
  let amask (c : Nat) : Nat := match ls with
    | none => 15
    | some l => (l.filter fun q => coreOfK q.1 == c).foldl (fun m q => m ||| q.2.amask) 0
  let (x, y) := s.virt v
  { id := i, area := g.area, site := y * 256 + x, entry := e, gang := g,
    strands := (s.gangStrands v e).map fun k => (k % 256, (s.strand k).saved (ls.bind fun l => Tab.find k l)),
    loops := cs.flatMap fun c => ((s.core c).loops.filter fun p => p.1 / 8 == e).map fun p => (c % 16 * 8 + p.1 % 8, p.2),
    fetchers := cs.map fun c => (c % 16, Tab.get {} e (s.core c).fetch),
    accs := cs.flatMap fun c => ((s.core c).accs.filter fun p => p.1 / 4 == e && bitOn (amask c) (p.1 % 4)).map fun p => (c % 16 * 4 + p.1 % 4, p.2),
    copies := cs.flatMap fun c => ((s.core c).copies.filter fun q => q.entry == e && q.trig.isNone).map fun q => (c % 16, q.redone),
    mail := cs.flatMap fun c => (((s.core c).offered.filter fun q => q.1.isNone && q.2.entry == e).map fun q => (c % 16, q.2))
      ++ ((s.core c).mail.filter fun q => q.2.entry == e).map fun q => (c % 16, q.2),
    posts := cs.flatMap fun c => ((s.core c).posts.filter fun p => p.1 == e).map fun p => (c % 16, p.2),
    mul := cs.flatMap fun c => ((s.core c).mul.filter fun o => (s.strand o.k).entry == e).map fun o => (c % 16, o),
    drn := cs.flatMap fun c => ((s.core c).drn.filter fun o => (s.strand o.k).entry == e).map fun o => (c % 16, o),
    replays := cs.flatMap fun c => ((s.core c).replays.filter (s.ownsReplay c e)).map fun r => (c % 16, r),
    vops := cs.flatMap fun c => ((s.core c).vq.filter fun o => (s.strand o.k).entry == e).map fun o => (c % 16, o),
    bytes := s.savedStore v g ls, full := s.savedFull v g ls,
    lost := (s.savedFlaws v g ls).filterMap fun f => if f.2.2.2 = 3 then some (f.1, f.2.1 / 16) else none }

/-- The replay entry holds requests of copy n. -/
def Replay.holdsCopy (r : Replay) (n : Nat) : Bool :=
  let of (o : Owner) : Bool := match o with | .copyRead _ m _ | .copyWrite _ m _ => m == n | _ => false
  r.accs.any (fun a => of a.owner) || r.issued.any of

/-- The strands of the core that wait for mailbox n in `cpost` are woken when it empties (R126). -/
def State.wakeMailbox (s : State) (c n : Nat) : State :=
  each ((List.range 16).map (slotKey c ·)) (fun s k => if (s.strand k).cont = .mailbox n then s.wake k else s) s

/-- A saved gang leaves its cores: engine state, mailboxes, replay entries (R53, R163); what waits for a mailbox or an entry goes on (R125). -/
def State.clearCore (s : State) (c e : Nat) : State :=
  let mine (k : Nat) : Bool := (s.strand k).entry == e && coreOfK k == c && decide (slotOf k < 13)
  let x := s.core c
  let gone := x.copies.filter fun q => q.entry == e && q.trig.isNone
  let boxes := (x.mail.filter fun q => q.2.entry == e).map (·.1)
  let s := s.dropReplays c fun r => if 16 ≤ r.kind then gone.any (fun q => r.holdsCopy q.n) else s.ownsReplay c e r
  let s := s.modCore c fun x =>
    { x with copies := x.copies.filter (fun q => q.entry != e || q.trig.isSome), mail := x.mail.filter (fun q => q.2.entry != e),
             offered := x.offered.filter (fun q => q.1.isSome || q.2.entry != e), posts := x.posts.filter (fun p => p.1 != e),
             mul := x.mul.filter (fun o => !mine o.k), drn := x.drn.filter (fun o => !mine o.k), vq := x.vq.filter (fun o => !mine o.k) }
  each boxes (fun s n => s.wakeMailbox c n) s

/-- The save is written to the context area; its layout and length are firmware's, so the bytes there are free values (R161, R163, log 12). The
entries of the pages take their accessed and dirty bits (R83). -/
def State.writeContext (s : State) (v : Nat) (area : Addr) : State :=
  let l := Config.contextBytes s.freeIx
  (({ s with freeIx := s.freeIx + 1 } : State).sysWrite v area l).markLeaves v true (s.leaves v true area l.length)

/-- The strands of some posted writes and served reads under other keys (R120, R121). -/
def Gate.rekeyed (g : Gate) (f : Nat → Nat) : Gate :=
  { g with posted := g.posted.map (fun p => { p with k := f p.k }), served := g.served.map fun r => (f r.1, r.2) }

/-- What the gatehouses hold for strands is held under other keys (R120, R121). -/
def State.rekeyHost (s : State) (f : Nat → Nat) : State :=
  { s with sites := s.sites.map fun (n, t) => (n, { t with gate := t.gate.rekeyed f }) }

/-- The key of a strand while context i holds it: no slot's. -/
def savedKey (i k : Nat) : Nat := (i + 1) * 2 ^ 32 + k % 256

/-- What the save engine reads for a save: the store granules that it keeps, and what it reads of the context area and of its translations (R90,
R91). -/
def State.saveReads (s : State) (v e : Nat) : List Nat :=
  (s.savedFlaws v (s.gang v e) (s.liveEntries v e)).map (·.2.2.1)

/-- GANG_SAVE_COMPLETE: a stopped gang is written to its context; its holdings, slots and entry are released, the caches written back
(R163, R114), and once that is done a pre-emption command that named it may be complete (R161). The save waits while a home cannot hold the event of a
struck granule that it reads (R165). -/
def State.gangSave (s : State) (v e : Nat) : Option State :=
  let g := s.gang v e
  let gs := s.saveReads v e
  if g.st = .stopping ∧ s.halted v e ∧ !s.sysStalled (gs ++ s.writeReads v g.area (Config.contextBytes s.freeIx)) then
    let ks := s.gangStrands v e
    let (i, s) := s.fresh
    let x := s.contextOf v e i
    let s := each (s.gangStrands v e) State.sendRemoval s
    let s := each (g.coreKeys v) (fun s c => s.clearCore c e) s
    let s := ((s.writeContext v g.area).sysInspect gs).rekeyHost fun k => if ks.contains k then savedKey i k else k
    let s : State := { s with contexts := s.contexts ++ [x],
                              strands := s.strands.filter fun (k, y) => !(siteOfK k == v && y.entry == e && slotOf k < 13) }
    let s := s.modSite v fun t => { t with gangs := Tab.del e t.gangs }
    some ((s.releaseThen v g.cores (.saved g)).scanAll v)
  else none

/-- GANG_SAVE_COMPLETE (R163). -/
def execGangSaveComplete (v e : Nat) (s : State) : Out := due "GANG_SAVE_COMPLETE" (s.gangSave v e)

/-- The physical pavilion that has virtual coordinates (R49, R201). -/
def State.pavilionOf (s : State) (key : Nat) : Option Nat :=
  (s.sites.find? fun (v, t) => kindOf v == .pavilion && t.self == some (key % 256, key / 256)).map (·.1)

/-- A register that a strand waits for is still pending: of one whose reply came after the deadline stopped the strand, and before the save, none is,
and the wait is over (R43, R70). -/
def Strand.stillPending (x : Strand) : Bool := match x.cont with | .regs l => l.any x.pend.contains | _ => true

/-- A saved strand in its slot again (R144): four reasons park it again, a checkpoint is passed, and the monitor has fired (R134, R310). -/
def Strand.resumed (x : Strand) (e : Nat) : Strand :=
  let again := x.why = some .pageFault ∨ (x.why = some .pendingRegister ∧ x.stillPending) ∨ x.why = some .barrier ∨ x.why = some .matrix
  let m : Monitor := { fired := true }
  if again then { x with st := .parked, entry := e, monitor := m }
  else
    let n : Addr := if x.ckpt.isSome then 4 else 0
    { x with st := .ready, why := none, cont := .reissue, entry := e, pc := x.pc + n, ckpt := none, monitor := m }

/-- Bytes of a saved store list laid into the granules that the gang holds again. DESIGN CHOICE (log 84): a granule that the save found uncorrectable
is uncorrectable there, so that its data are not delivered (R91). -/
def State.restoreStore (s : State) (v : Nat) (x : Context) : State :=
  let key (b p : Nat) : Nat := homeKey v b (((Tab.get [] b x.gang.stores)[p / 16384]?).getD 0 * 16384 + p % 16384)
  let t := each x.gang.stores (fun s (b, l) => each l (fun s g => s.zeroGranule v b g) s) s
  let t : State := { t with mem := x.bytes.foldl (fun m (b, p, y) => Memory.write (key b p) y m) t.mem,
                            full := x.full.foldl (fun f (b, p) => NatSet.add (key b (p * 16) / 16) f) t.full,
                            flaws := x.lost.foldl (fun f (b, p) => Tab.put (key b (p * 16) / 16) 3 f) t.flaws }
  each (List.range 4) (fun t b => t.serveChanged s v b) t

/-- A strand's access under its key at another pavilion (R49). -/
def Owner.moved (v : Nat) : Owner → Owner
  | .strand k => .strand (v * 256 + k % 256)
  | .relaxed k t => .relaxed (v * 256 + k % 256) t
  | .element k i => .element (v * 256 + k % 256) i
  | o => o

/-- An access of a saved strand as the pavilion of its resumption holds it (R49, R117). -/
def Acc.moved (v : Nat) (a : Acc) : Acc := { a with k := v * 256 + a.k % 256, owner := a.owner.moved v }

/-- The saved state of a core's share of a gang, under its new entry. Replay entries keep their numbers, by which records in the fault queue name
them (R141, R142, log 57); engine operations and posts of copies follow those that the core has issued, in the order they had (R343, R347, R356). -/
def Core.restore (c : Core) (n e : Nat) (x : Context) (v : Nat) : Core :=
  let rekey (k : Nat) : Nat := v * 256 + k % 256
  let mine {α : Type} (l : List (Nat × α)) : List α := (l.filter fun p => p.1 == n).map (·.2)
  { c with
    loops := x.loops.foldl (fun t p => if p.1 / 8 = n then Tab.put (e * 8 + p.1 % 8) p.2 t else t) c.loops,
    fetch := (mine x.fetchers).foldl (fun t f => Tab.put e { f with claiming := false, waiters := [] } t) c.fetch,
    accs := x.accs.foldl (fun t p => if p.1 / 4 = n then Tab.put (e * 4 + p.1 % 4) p.2 t else t) c.accs,
    copies := c.copies ++ (mine x.copies).zipIdx.map (fun (q, i) => { q with n := c.nextCopy + i, entry := e, k := rekey q.k, seq := c.mailSeq + q.seq }),
    nextCopy := c.nextCopy + (mine x.copies).length,
    posts := c.posts ++ (mine x.posts).map (fun p => (e, p.1, c.mailSeq + p.2)),
    mailSeq := ((mine x.posts).map (·.2) ++ (mine x.mail).map (·.seq) ++ (mine x.copies).map (·.seq)).foldl (fun m n => max m (c.mailSeq + n + 1)) c.mailSeq,
    offered := c.offered ++ (mine x.mail).map (fun m => (none, { m with entry := e, seq := c.mailSeq + m.seq })),
    mul := c.mul ++ (mine x.mul).map (fun o => { o with k := rekey o.k, seq := c.mseq + o.seq }),
    drn := c.drn ++ (mine x.drn).map (fun o => { o with k := rekey o.k, seq := c.mseq + o.seq }),
    mseq := (mine x.mul ++ mine x.drn).foldl (fun m o => max m (c.mseq + o.seq + 1)) c.mseq,
    replays := c.replays ++ (mine x.replays).map (fun r => { r with accs := r.accs.map (·.moved v) }),
    vq := c.vq ++ (mine x.vops).map fun o => { o with k := rekey o.k, elems := o.elems.map fun el => { el with acc := el.acc.moved v } } }

/-- The slots of the crews that have not ended are free, the claims and granules of the gang fit, and the numbers of its replay entries are free
(R136, R164, R180; log 57). -/
def State.fitsAgain (s : State) (v : Nat) (x : Context) : Bool :=
  s.admits v 8 && x.gang.cores.zipIdx.all (fun (c, i) => x.gang.ended.contains i || s.coreOpen v c x.gang.desc.slotmask)
    && x.replays.all (fun (c, r) => !(s.core (v * 16 + c)).replays.any fun q => q.ix == r.ix)
    && (List.range poolCount).all (fun p => decide (x.gang.claim p ≤ s.freeUnits v p))
    && x.gang.stores.all (fun (b, l) => l.all fun g => !(s.site v).storeHeld b g)

/-- RESUMPTION: a saved gang comes back to its virtual pavilion, cores and slots when it fits; a refused offer marks the store granules it
needs (R164, R180). -/
def State.resume (s : State) (i : Nat) : Option State :=
  match s.contexts.find? (fun x => x.id == i) with
  | none => none
  | some x =>
    match s.pavilionOf x.site with
    | none => none
    | some v =>
      let need := x.gang.stores.flatMap fun (b, l) => l.map fun g => (i, b, g)
      if !(s.site v).releases.isEmpty then none
      else if !s.fitsAgain v x then
        some (s.modSite v fun t => { t with marks := t.marks.filter (fun m => m.1 != i) ++ need, resuming := Tab.put i true t.resuming })
      else match s.freeEntry v with
        | none => none
        | some e =>
          let g : Gang := { x.gang with st := .running, prio := 8, expired := false, deadline := 0, area := 0 }
          let s := s.acquireCaches v e g.cores
          let s := each g.cores (fun s c => s.modCore (v * 16 + c) fun q => q.restore c e x v) s
          let s := each x.strands (fun s (k, y) => s.setStrand (v * 256 + k) (y.resumed e)) s
          let s := s.modSite v fun t =>
            { t with gangs := Tab.put e g t.gangs, marks := t.marks.filter (fun m => m.1 != i), resuming := Tab.del i t.resuming,
                     trigs := t.trigs.map fun (n, r) =>
                       if r.postedBy g then (n, { r with st := if r.st = .suspended then .armed else r.st, entry := e }) else (n, r) }
          let s : State := { s with contexts := s.contexts.filter fun c => c.id != i }
          let s := s.rekeyHost fun k => if k / 2 ^ 32 = i + 1 then v * 256 + k % 256 else k
          let s := s.restoreStore v x
          let watched := ((s.site v).trigs.filter fun r => r.2.postedBy g).map fun r => r.2.watch
          let s := (s.testWatched v watched).report v
          some ((s.countFourth v e).wakeBarrier v e)

/-- The launch unit withdraws a waiting resumption: its marks clear, and the context stays until it is offered again (R180, R191, log 74). -/
def State.withdrawResumption (s : State) (i : Nat) : Option State :=
  if s.sites.any fun q => (Tab.find i q.2.resuming).isSome then
    some { s with sites := s.sites.map fun (n, t) => (n, { t with marks := t.marks.filter (fun m => m.1 != i), resuming := Tab.del i t.resuming }) }
  else none

/-- RESUMPTION (R164). -/
def execResumption (i : Nat) (s : State) : Out := due "RESUMPTION" (s.resume i)

end Sys2Proof.Machine
end

