-- ==== Sys2Proof/Machine/Lanes.lean ====
section
/-! DEFINITION. Lanes: the types of R257, reading and writing lanes of a vector register (R44, R313), lane arithmetic (R318, R321), lane
conversion (R324) and the special functions (R323). A vector register is one number of 1,024 bits. -/

namespace Sys2Proof.Machine

/-! ## Types (R233, R257) -/

/-- Bits that a lane of a type takes in the register (R44). -/
def laneBits (t : BitVec 4) : Nat := 1024 / lanesOf t
/-- Bits of a lane's value: a 6-bit lane is held in 8 (R237). -/
def valBits (t : BitVec 4) : Nat := if t = 5 ∨ t = 6 then 6 else laneBits t
/-- The type is a signed integer type. -/
def signedTy (t : BitVec 4) : Bool := t == 0x9 || t == 0xA || t == 0xB
/-- The floating-point format of a type code (R257). -/
def fmtOf (t : BitVec 4) : Fmt :=
  match t.toNat with
  | 0 => fp32 | 1 => bf16 | 2 => fp16 | 3 => e4m3 | 4 => e5m2 | 5 => e3m2 | 6 => e2m3 | _ => e2m1

/-! ## Lanes (R44, R313) -/

/-- The value of lane i of a register of a type; bits [7:6] of a 6-bit lane are ignored (R313). -/
def lane (t : BitVec 4) (v i : Nat) : Nat := v / 2 ^ (laneBits t * i) % 2 ^ valBits t

/-- A register made of L lanes of e bits. -/
def packLanes (e L : Nat) (f : Nat → Nat) : Nat := ((List.range L).map f).foldr (fun x acc => x + 2 ^ e * acc) 0

/-- A destination register after an instruction of a type: active lanes take their result, the others keep their bits or, with Z, are
written 0 (R313). -/
def mergeLanes (t : BitVec 4) (mask : Nat) (z : Bool) (old : Nat) (f : Nat → Nat) : Nat :=
  packLanes (laneBits t) (lanesOf t) fun i =>
    if bitOn mask i then f i % 2 ^ valBits t else if z then 0 else old / 2 ^ (laneBits t * i) % 2 ^ laneBits t

/-- The sixteen words of vN holding a value (R44). -/
def vecWords (n v : Nat) : List (Nat × Word) := (List.range 16).map fun j => (granuleReg n + j, BitVec.ofNat 64 (v / 2 ^ (64 * j)))

/-- Lane i of operand b: a vector lane, or with the B modifier the low bits of an anchor (R313). -/
def Strand.laneB (x : Strand) (t : BitVec 4) (y : BitVec 1) (b : BitVec 4) (i : Nat) : Nat :=
  if y = 1 then (x.reg b.toNat).toNat % 2 ^ valBits t else lane t (x.vec b.toNat) i

/-- The registers that operand b names. -/
def namesB (y : BitVec 1) (b : BitVec 4) : List Nat := if y = 1 then [b.toNat] else vecRegs b.toNat

/-! ## Integer lanes (R318) -/

/-- The value of a lane, read as the type names it. -/
def laneInt (t : BitVec 4) (w : Nat) : Int := if signedTy t then sextNat (valBits t) w else w

/-- An exact lane result wrapped, or clamped with S (R245). -/
def laneSat (t : BitVec 4) (s : BitVec 1) (i : Int) : Nat :=
  wrap (valBits t) (if s = 1 then clampInt (signedTy t) (valBits t) i else i)

/-- A lane shifted right n places, filled with its top bit (R318). -/
def laneSra (w x n : Nat) : Nat := wrap w (sextNat w x / 2 ^ (min n w))

/-! ## Comparisons (R319, R322) -/

/-- An ordering predicate by its code: .eq .ne .lt .le .gt .ge. -/
def cmpPred (p : Nat) (c : Int) : Bool :=
  match p with
  | 0 => c == 0 | 1 => c != 0 | 2 => decide (c < 0) | 3 => decide (c ≤ 0) | 4 => decide (0 < c) | 5 => decide (0 ≤ c) | _ => false

/-- The predicate of `vfcmp`: against NaN only .ne and .uo hold (R322). -/
def fcmpPred (p : Nat) (a b : FVal) : Bool :=
  if a = .nan ∨ b = .nan then p == 1 || p == 6 else p == 7 || cmpPred p (a.cmp b)

/-! ## Rounding modes (R60, R315) -/

/-- The mode of a rounding field; 4 is the strand's dynamic mode. Stochastic rounding is handled by `vcvt`. -/
def Strand.mode (x : Strand) (r : BitVec 3) : Rnd :=
  let c := if r = 4 then x.rnd.toNat else r.toNat
  match c with
  | 0 => .rne | 1 => .rz | 2 => .ru | _ => .rd

/-! ## Floating-point lanes (R247, R321) -/

/-- A lane operation on two values, rounded once. -/
def lane2 (t : BitVec 4) (md : Rnd) (f : FVal → FVal → FVal) (a b : Nat) : Nat :=
  (fmtOf t).result md (f ((fmtOf t).decode a) ((fmtOf t).decode b))

/-- A fused operation on three values, rounded once. -/
def lane3 (t : BitVec 4) (md : Rnd) (f : FVal → FVal → FVal → FVal) (a b c : Nat) : Nat :=
  (fmtOf t).result md (f ((fmtOf t).decode a) ((fmtOf t).decode b) ((fmtOf t).decode c))

/-- The absolute value of an encoding; a NaN gives the canonical NaN (R321). -/
def laneFabs (t : BitVec 4) (a : Nat) : Nat :=
  if (fmtOf t).decode a = .nan then (fmtOf t).canon else a % 2 ^ ((fmtOf t).width - 1)

/-! ## Conversion of a lane (R241-R244, R324) -/

/-- The value of a source lane that is not an integer. -/
def floatLane (t : BitVec 4) (w : Nat) : FVal := if t = 8 then ofScale w else (fmtOf t).decode w

/-- One lane converted from type ts to type td (R241-R244). -/
def convertLane (td ts : BitVec 4) (md : Rnd) (sat : Bool) (w : Nat) : Nat :=
  if intTy td then
    if intTy ts then
      let i := laneInt ts w
      wrap (valBits td) (if sat then clampInt (signedTy td) (valBits td) i else i)
    else wrap (valBits td) ((floatLane ts w).toInt md (signedTy td) (valBits td))
  else if td = 8 then toScale (floatLane ts w)
  else (fmtOf td).encode md sat (if intTy ts then FVal.ofInt (laneInt ts w) else floatLane ts w)

/-- The states of the generator after 1 to n steps (R240). -/
def srStates : Nat → Word → List Word
  | 0, _ => []
  | n + 1, w => srNext w :: srStates n (srNext w)

/-! ## Special functions (R323): fixed point with 400 fraction bits (log 6) -/

/-- Fraction bits of the fixed-point computation. -/
def fxBits : Nat := 400
/-- 1 in fixed point. -/
def fxOne : Nat := 2 ^ fxBits
/-- A fixed-point product. -/
def fxMul (a b : Nat) : Nat := a * b / fxOne

/-- The series of e^y: n terms from the one numbered j. -/
def expTerms : Nat → Nat → Nat → Nat → Nat
  | 0, _, _, _ => 0
  | n + 1, y, j, t => t + expTerms n y (j + 1) (fxMul t y / (j + 1))
/-- e^y for y in [0, 1). -/
def fxExp (y : Nat) : Nat := expTerms 120 y 0 fxOne

/-- The series of artanh z: n terms from exponent j, `p` the power of z. -/
def artanhTerms : Nat → Nat → Nat → Nat → Nat
  | 0, _, _, _ => 0
  | n + 1, zz, j, p => p / j + artanhTerms n zz (j + 2) (fxMul p zz)
/-- artanh z for z in [0, 1/3]. -/
def fxArtanh (z : Nat) : Nat := artanhTerms 140 (fxMul z z) 1 z

/-- ln 2. -/
def fxLn2 : Nat := 2 * fxArtanh (fxOne / 3)

/-- A magnitude in fixed point; what lies below the last fraction bit is dropped. -/
def fxOf (m : Nat) (e : Int) : Nat := if (fxBits : Int) + e ≥ 0 then m * 2 ^ ((fxBits : Int) + e).toNat else m / 2 ^ (-((fxBits : Int) + e)).toNat

/-- A value that lies strictly between q and q + 1 units of 2^e: half a unit more than q, which rounds alike in every mode. -/
def between (neg : Bool) (q : Nat) (e : Int) : FVal := .fin neg (2 * q + 1) (e - 1)

/-- Newton's iteration for the integer square root, from above. -/
def sqrtIter : Nat → Nat → Nat → Nat
  | 0, _, x => x
  | n + 1, a, x => let y := (x + a / x) / 2; if y < x then sqrtIter n a y else x
/-- The integer square root. -/
def isqrt (a : Nat) : Nat := if a = 0 then 0 else sqrtIter 64 a (2 ^ (Nat.log2 a / 2 + 1))

/-- 1 / a. -/
def fRcp : FVal → FVal
  | .nan => .nan
  | .inf n => .fin n 0 0
  | .fin n m e =>
    if m = 0 then .inf n
    else
      let q := fxOne / m
      if q * m = fxOne then .fin n q (-fxBits - e) else between n q (-fxBits - e)

/-- 1 / the square root of a. -/
def fRsq : FVal → FVal
  | .nan => .nan
  | .inf n => if n then .nan else .fin false 0 0
  | .fin n m e =>
    if m = 0 then .inf n
    else if n then .nan
    else
      let m2 := if e % 2 = 0 then m else 2 * m
      let h := (e - e % 2) / 2
      let p := 2 ^ (2 * fxBits)
      let q := isqrt (p / m2)
      if q * q * m2 = p then .fin false q (-fxBits - h) else between false q (-fxBits - h)

/-- 2^a. Beyond 2^10 the result overflows or underflows every format, and any power as far out rounds alike. -/
def fExp2 : FVal → FVal
  | .nan => .nan
  | .inf n => if n then .fin false 0 0 else .inf false
  | .fin n m e =>
    if m = 0 then .fin false 1 0
    else if (Nat.log2 m : Int) + e ≥ 10 then between false 1 (if n then -1024 else 1024)
    else
      let x : Int := if n then -(fxOf m e : Int) else fxOf m e
      let k := x / (fxOne : Int)
      let f := (x % (fxOne : Int)).toNat
      if f = 0 then .fin false 1 k else between false (fxExp (fxMul f fxLn2)) (k - fxBits)

/-- The base-2 logarithm. -/
def fLog2 : FVal → FVal
  | .nan => .nan
  | .inf n => if n then .nan else .inf false
  | .fin n m e =>
    if m = 0 then .inf true
    else if n then .nan
    else
      let k := Nat.log2 m
      let j : Int := e + k
      if m = 2 ^ k then FVal.ofInt j
      else
        let l := 2 * fxArtanh ((m - 2 ^ k) * fxOne / (m + 2 ^ k)) * fxOne / fxLn2
        let t := 2 * (j * fxOne + l) + 1
        .fin (decide (t < 0)) t.natAbs (-fxBits - 1)

/-- The hyperbolic tangent: just below a where a is small, just below 1 where it is large. -/
def fTanh : FVal → FVal
  | .nan => .nan
  | .inf n => .fin n 1 0
  | .fin n m e =>
    if m = 0 then .fin n 0 0
    else
      let top := (Nat.log2 m : Int) + e
      if top < -40 then between n (m * 2 ^ 60 - 1) (e - 60)
      else if top ≥ 6 then between n (2 ^ 128 - 1) (-128)
      else
        let y := 2 * fxOf m e
        let j := y / fxLn2
        let ex := fxExp (y % fxLn2) * 2 ^ j
        between n ((ex - fxOne) * fxOne / (ex + fxOne)) (-fxBits)

end Sys2Proof.Machine
end

