-- ==== Sys2Proof/Machine/Vector.lean ====
section
/-! DEFINITION. Vector instructions without memory and the vector unit's queue (R312-R329). The result is formed at issue: no other source
writes the strand's registers while it is parked (R312). -/

namespace Sys2Proof.Machine

open Sys2Proof

/-! ## Issue (R312) -/

/-- An operation enters the core's vector queue and its strand parks (R312, R316). -/
def State.enqueue (s : State) (o : VOp) : State :=
  (s.modCore (coreOfK o.k) fun c => { c with vq := c.vq.filter (fun q => q.k != o.k) ++ [o] }).park o.k .vector .engine

/-- A vector instruction without memory: the registers it names, its permit, then the queue (R312). -/
def State.vector (s : State) (p : PClass) (names : List Nat) (f : Strand → VResult) : State :=
  s.issue names fun s => s.withPermit p fun s =>
    s.enqueue { k := s.cur, unit := (if p = .sfu then .sfu else .pipe), result := f s.me }

/-- A lanewise instruction: every active lane i of vd takes `f x i` (R313). -/
def State.lanes (s : State) (p : PClass) (names : List Nat) (d : BitVec 4) (t : BitVec 4) (k : BitVec 2) (z : BitVec 1)
    (f : Strand → Nat → Nat) : State :=
  s.vector p (vecRegs d.toNat ++ names) fun x =>
    { regs := vecWords d.toNat (mergeLanes t (x.mask k.toNat).toNat (z == 1) (x.vec d.toNat) (f x)) }

/-- Two operands, lane by lane (R318, R321). -/
def State.lanesAB (s : State) (d a b t : BitVec 4) (k : BitVec 2) (z y : BitVec 1) (f : Strand → Nat → Nat → Nat) : State :=
  s.lanes .vector (vecRegs a.toNat ++ namesB y b) d t k z fun x i => f x (lane t (x.vec a.toNat) i) (x.laneB t y b i)

/-- One operand, lane by lane. -/
def State.lanesA (s : State) (p : PClass) (d a t : BitVec 4) (k : BitVec 2) (z : BitVec 1) (f : Strand → Nat → Nat) : State :=
  s.lanes p (vecRegs a.toNat) d t k z fun x i => f x (lane t (x.vec a.toNat) i)

/-! ## Integer lanes (R318) -/

/-- VADD (R318). -/
def execVadd (d a b t : BitVec 4) (k : BitVec 2) (z y g : BitVec 1) (s : State) : Out :=
  .next (s.lanesAB d a b t k z y fun _ p q => laneSat t g (laneInt t p + laneInt t q))
/-- VSUB (R318). -/
def execVsub (d a b t : BitVec 4) (k : BitVec 2) (z y g : BitVec 1) (s : State) : Out :=
  .next (s.lanesAB d a b t k z y fun _ p q => laneSat t g (laneInt t p - laneInt t q))
/-- VMUL (R318). -/
def execVmul (d a b t : BitVec 4) (k : BitVec 2) (z y g : BitVec 1) (s : State) : Out :=
  .next (s.lanesAB d a b t k z y fun _ p q => laneSat t g (laneInt t p * laneInt t q))
/-- VMULH: the upper half of the exact product (R318). -/
def execVmulh (d a b t : BitVec 4) (k : BitVec 2) (z y : BitVec 1) (s : State) : Out :=
  .next (s.lanesAB d a b t k z y fun _ p q => wrap (valBits t) (laneInt t p * laneInt t q / 2 ^ valBits t))
/-- VMIN (R318). -/
def execVmin (d a b t : BitVec 4) (k : BitVec 2) (z y : BitVec 1) (s : State) : Out :=
  .next (s.lanesAB d a b t k z y fun _ p q => if laneInt t p ≤ laneInt t q then p else q)
/-- VMAX (R318). -/
def execVmax (d a b t : BitVec 4) (k : BitVec 2) (z y : BitVec 1) (s : State) : Out :=
  .next (s.lanesAB d a b t k z y fun _ p q => if laneInt t p ≤ laneInt t q then q else p)
/-- VAND (R318). -/
def execVand (d a b t : BitVec 4) (k : BitVec 2) (z y : BitVec 1) (s : State) : Out :=
  .next (s.lanesAB d a b t k z y fun _ p q => p &&& q)
/-- VOR (R318). -/
def execVor (d a b t : BitVec 4) (k : BitVec 2) (z y : BitVec 1) (s : State) : Out :=
  .next (s.lanesAB d a b t k z y fun _ p q => p ||| q)
/-- VXOR (R318). -/
def execVxor (d a b t : BitVec 4) (k : BitVec 2) (z y : BitVec 1) (s : State) : Out :=
  .next (s.lanesAB d a b t k z y fun _ p q => p ^^^ q)

/-- The shifts: the count is lane i of vb, or with B the whole of an anchor (R318). -/
def State.laneShift (s : State) (d a b t : BitVec 4) (k : BitVec 2) (z y : BitVec 1) (f : Nat → Nat → Nat) : State :=
  s.lanes .vector (vecRegs a.toNat ++ namesB y b) d t k z fun x i =>
    f (lane t (x.vec a.toNat) i) (if y = 1 then (x.reg b.toNat).toNat else lane t (x.vec b.toNat) i)

/-- VSHL (R318). -/
def execVshl (d a b t : BitVec 4) (k : BitVec 2) (z y : BitVec 1) (s : State) : Out :=
  .next (s.laneShift d a b t k z y fun p n => if valBits t ≤ n then 0 else p * 2 ^ n)
/-- VSHR (R318). -/
def execVshr (d a b t : BitVec 4) (k : BitVec 2) (z y : BitVec 1) (s : State) : Out :=
  .next (s.laneShift d a b t k z y fun p n => if valBits t ≤ n then 0 else p / 2 ^ n)
/-- VSRA (R318). -/
def execVsra (d a b t : BitVec 4) (k : BitVec 2) (z y : BitVec 1) (s : State) : Out :=
  .next (s.laneShift d a b t k z y fun p n => laneSra (valBits t) p n)
/-- VABS (R318). -/
def execVabs (d a t : BitVec 4) (k : BitVec 2) (z g : BitVec 1) (s : State) : Out :=
  .next (s.lanesA .vector d a t k z fun _ p => laneSat t g (laneInt t p).natAbs)
/-- VPOPC (R318). -/
def execVpopc (d a t : BitVec 4) (k : BitVec 2) (z : BitVec 1) (s : State) : Out :=
  .next (s.lanesA .vector d a t k z fun _ p => popCount p (valBits t))

/-! ## Comparison and selection (R319, R320, R322) -/

/-- A comparison writes a mask: active lanes for which the predicate holds (R319). -/
def State.compareLanes (s : State) (d : BitVec 2) (a b t : BitVec 4) (k : BitVec 2) (y : BitVec 1) (f : Nat → Nat → Bool) : State :=
  s.vector .vector (vecRegs a.toNat ++ namesB y b) fun x =>
    let w := packLanes 1 (lanesOf t) fun i => if bitOn (x.mask k.toNat).toNat i && f (lane t (x.vec a.toNat) i) (x.laneB t y b i) then 1 else 0
    { mask := some (d.toNat, BitVec.ofNat 256 w) }

/-- VCMP (R319). -/
def execVcmp (d : BitVec 2) (a b t : BitVec 4) (k : BitVec 2) (y : BitVec 1) (p : BitVec 3) (s : State) : Out :=
  .next (s.compareLanes d a b t k y fun u v => cmpPred p.toNat (laneInt t u - laneInt t v))
/-- VFCMP (R322). -/
def execVfcmp (d : BitVec 2) (a b t : BitVec 4) (k : BitVec 2) (y : BitVec 1) (p : BitVec 3) (s : State) : Out :=
  .next (s.compareLanes d a b t k y fun u v => fcmpPred p.toNat ((fmtOf t).decode u) ((fmtOf t).decode v))
/-- VSEL writes every lane (R320). -/
def execVsel (d a b t : BitVec 4) (k : BitVec 2) (y : BitVec 1) (s : State) : Out :=
  .next (s.vector .vector (vecRegs d.toNat ++ vecRegs a.toNat ++ namesB y b) fun x =>
    let f (i : Nat) : Nat := if bitOn (x.mask k.toNat).toNat i then lane t (x.vec a.toNat) i else x.laneB t y b i
    { regs := vecWords d.toNat (packLanes (laneBits t) (lanesOf t) f) })

/-! ## Floating point (R321) -/

/-- VFADD (R321). -/
def execVfadd (d a b t : BitVec 4) (k : BitVec 2) (z y : BitVec 1) (r : BitVec 3) (s : State) : Out :=
  .next (s.lanesAB d a b t k z y fun x p q => lane2 t (x.mode r) (FVal.add (x.mode r == .rd)) p q)
/-- VFSUB (R321). -/
def execVfsub (d a b t : BitVec 4) (k : BitVec 2) (z y : BitVec 1) (r : BitVec 3) (s : State) : Out :=
  .next (s.lanesAB d a b t k z y fun x p q => lane2 t (x.mode r) (fun u v => FVal.add (x.mode r == .rd) u v.negate) p q)
/-- VFMUL (R321). -/
def execVfmul (d a b t : BitVec 4) (k : BitVec 2) (z y : BitVec 1) (r : BitVec 3) (s : State) : Out :=
  .next (s.lanesAB d a b t k z y fun x p q => lane2 t (x.mode r) FVal.mul p q)

/-- The fused instructions read vd as their third operand (R321). -/
def State.lanesFused (s : State) (d a b t : BitVec 4) (k : BitVec 2) (z y : BitVec 1) (r : BitVec 3) (f : Bool → FVal → FVal → FVal → FVal) : State :=
  s.lanes .vector (vecRegs a.toNat ++ namesB y b) d t k z fun x i =>
    lane3 t (x.mode r) (f (x.mode r == .rd)) (lane t (x.vec a.toNat) i) (x.laneB t y b i) (lane t (x.vec d.toNat) i)

/-- VFMA: a * b + d, rounded once (R321). -/
def execVfma (d a b t : BitVec 4) (k : BitVec 2) (z y : BitVec 1) (r : BitVec 3) (s : State) : Out :=
  .next (s.lanesFused d a b t k z y r fun rd u v w => FVal.add rd (u.mul v) w)
/-- VFMS: d - a * b, rounded once (R321). -/
def execVfms (d a b t : BitVec 4) (k : BitVec 2) (z y : BitVec 1) (r : BitVec 3) (s : State) : Out :=
  .next (s.lanesFused d a b t k z y r fun rd u v w => FVal.add rd w (u.mul v).negate)
/-- VFMIN (R321). -/
def execVfmin (d a b t : BitVec 4) (k : BitVec 2) (z y : BitVec 1) (s : State) : Out :=
  .next (s.lanesAB d a b t k z y fun _ p q => (fmtOf t).minR p q)
/-- VFMAX (R321). -/
def execVfmax (d a b t : BitVec 4) (k : BitVec 2) (z y : BitVec 1) (s : State) : Out :=
  .next (s.lanesAB d a b t k z y fun _ p q => (fmtOf t).maxR p q)
/-- VFABS (R321). -/
def execVfabs (d a t : BitVec 4) (k : BitVec 2) (z : BitVec 1) (s : State) : Out :=
  .next (s.lanesA .vector d a t k z fun _ p => laneFabs t p)

/-! ## Special functions (R323) -/

/-- A special function, rounded in the mode of the rounding field. -/
def State.lanesSfu (s : State) (d a t : BitVec 4) (k : BitVec 2) (z : BitVec 1) (r : BitVec 3) (f : FVal → FVal) : State :=
  s.lanesA .sfu d a t k z fun x p => (fmtOf t).result (x.mode r) (f ((fmtOf t).decode p))

/-- VRCP (R323). -/
def execVrcp (d a t : BitVec 4) (k : BitVec 2) (z : BitVec 1) (r : BitVec 3) (s : State) : Out := .next (s.lanesSfu d a t k z r fRcp)
/-- VRSQ (R323). -/
def execVrsq (d a t : BitVec 4) (k : BitVec 2) (z : BitVec 1) (r : BitVec 3) (s : State) : Out := .next (s.lanesSfu d a t k z r fRsq)
/-- VEXP2 (R323). -/
def execVexp2 (d a t : BitVec 4) (k : BitVec 2) (z : BitVec 1) (r : BitVec 3) (s : State) : Out := .next (s.lanesSfu d a t k z r fExp2)
/-- VLOG2 (R323). -/
def execVlog2 (d a t : BitVec 4) (k : BitVec 2) (z : BitVec 1) (r : BitVec 3) (s : State) : Out := .next (s.lanesSfu d a t k z r fLog2)
/-- VTANH (R323). -/
def execVtanh (d a t : BitVec 4) (k : BitVec 2) (z : BitVec 1) (r : BitVec 3) (s : State) : Out := .next (s.lanesSfu d a t k z r fTanh)

/-! ## Conversion (R324) -/

/-- First destination lane, first source lane and the number of lanes converted (R324). -/
def cvtRange (t b : BitVec 4) (p : Nat) : Nat × Nat × Nat :=
  let ld := lanesOf t
  let ls := lanesOf b
  if ld ≤ ls then (0, p * ld, ld) else (p * ls, 0, ls)

/-- The state of the generator after the lanes of a conversion. -/
def srAfter (n : Nat) (w : Word) : Word := (srStates n w).getLast?.getD w

/-- VCVT (R240, R324): with SR every lane written draws from the generator, active or not. -/
def execVcvt (d a b t : BitVec 4) (k : BitVec 2) (q : BitVec 2) (g : BitVec 1) (r : BitVec 3) (s : State) : Out :=
  .next (s.vector .vector (vecRegs d.toNat ++ vecRegs a.toNat) fun x =>
    let (d0, s0, n) := cvtRange t b q.toNat
    let draws := srStates n x.seed
    let old := x.vec d.toNat
    let f (i : Nat) : Nat :=
      if d0 ≤ i ∧ i < d0 + n ∧ bitOn (x.mask k.toNat).toNat i then
        let md := if r = 5 then Rnd.sr (srBits (draws[i - d0]?.getD 0)) else x.mode r
        convertLane t b md (g == 1) (lane b (x.vec a.toNat) (s0 + (i - d0)))
      else old / 2 ^ (laneBits t * i) % 2 ^ laneBits t
    { regs := vecWords d.toNat (packLanes (laneBits t) (lanesOf t) f), seed := if r = 5 then some (srAfter n x.seed) else none })

/-! ## Reductions and scans (R325-R327) -/

/-- The value that `vred` gives with no active lane, as the start of its combination. -/
def redStart (t : BitVec 4) (o : Nat) : Int :=
  match o with
  | 1 => intMax (signedTy t) (valBits t)
  | 2 => intMin (signedTy t) (valBits t)
  | 3 => if signedTy t then -1 else intMax false (valBits t)
  | _ => 0

/-- One combination of `vred` on 64-bit values. -/
def redStep (o : Nat) (a b : Int) : Int :=
  match o with
  | 0 => a + b
  | 1 => min a b
  | 2 => max a b
  | 3 => (wrap 64 a &&& wrap 64 b : Nat)
  | 4 => (wrap 64 a ||| wrap 64 b : Nat)
  | _ => (wrap 64 a ^^^ wrap 64 b : Nat)

/-- VRED (R325). -/
def execVred (d a _b t : BitVec 4) (k : BitVec 2) (o : BitVec 3) (s : State) : Out :=
  .next (s.vector .vector (d.toNat :: vecRegs a.toNat) fun x =>
    let ls := ((List.range (lanesOf t)).filter fun i => bitOn (x.mask k.toNat).toNat i).map fun i => laneInt t (lane t (x.vec a.toNat) i)
    { regs := [(d.toNat, BitVec.ofNat 64 (wrap 64 (ls.foldl (redStep o.toNat) (redStart t o.toNat))))] })

/-- The pairs of a list combined in order. -/
def pairUp (f : Nat → Nat → Nat) : List Nat → List Nat
  | a :: b :: t => f a b :: pairUp f t
  | l => l

/-- The fixed tree of `vfsum` over 2^n values (R326). -/
def sumTree (f : Nat → Nat → Nat) : Nat → List Nat → List Nat
  | 0, l => l
  | n + 1, l => sumTree f n (pairUp f l)

/-- VFSUM: an inactive lane counts as -0 (R326). -/
def execVfsum (d a _b t : BitVec 4) (k : BitVec 2) (r : BitVec 3) (s : State) : Out :=
  .next (s.vector .vector (d.toNat :: vecRegs a.toNat) fun x =>
    let p := (List.range (lanesOf t)).map fun i =>
      if bitOn (x.mask k.toNat).toNat i then fp32.result .rne ((fmtOf t).decode (lane t (x.vec a.toNat) i)) else 0x80000000
    { regs := [(d.toNat, BitVec.ofNat 64 ((sumTree (fp32.addR (x.mode r)) 6 p).headD 0))] })

/-- The prefixes of a list of lanes: an inactive lane has none. -/
def scanLanes (f : Nat → Nat → Nat) : Option Nat → List (Option Nat) → List (Option Nat)
  | _, [] => []
  | acc, none :: t => none :: scanLanes f acc t
  | none, some v :: t => some v :: scanLanes f (some v) t
  | some u, some v :: t => some (f u v) :: scanLanes f (some (f u v)) t

/-- The combination of `vscan` (R327). -/
def scanStep (x : Strand) (t : BitVec 4) (o : BitVec 3) (a b : Nat) : Nat :=
  if intTy t then
    match o.toNat with
    | 0 => (a + b) % 2 ^ valBits t
    | 1 => if laneInt t a ≤ laneInt t b then a else b
    | _ => if laneInt t a ≤ laneInt t b then b else a
  else (fmtOf t).addR (x.mode o) a b

/-- VSCAN (R327). -/
def execVscan (d a _b t : BitVec 4) (k : BitVec 2) (z : BitVec 1) (o : BitVec 3) (s : State) : Out :=
  .next (s.vector .vector (vecRegs d.toNat ++ vecRegs a.toNat) fun x =>
    let m := (x.mask k.toNat).toNat
    let l := scanLanes (scanStep x t o) none ((List.range (lanesOf t)).map fun i => if bitOn m i then some (lane t (x.vec a.toNat) i) else none)
    { regs := vecWords d.toNat (mergeLanes t m (z == 1) (x.vec d.toNat) fun i => (l[i]?.getD none).getD 0) })

/-! ## Lane movement and masks (R328, R329) -/

/-- VBCAST (R328). -/
def execVbcast (d a b t : BitVec 4) (k : BitVec 2) (z : BitVec 1) (s : State) : Out :=
  .next (s.lanes .vector (vecRegs a.toNat ++ [b.toNat]) d t k z fun x _ => lane t (x.vec a.toNat) ((x.reg b.toNat).toNat % lanesOf t))
/-- VEXT: the lane extended by its type (R328). -/
def execVext (d a b t : BitVec 4) (s : State) : Out :=
  .next (s.vector .vector ([d.toNat] ++ vecRegs a.toNat ++ [b.toNat]) fun x =>
    let w := lane t (x.vec a.toNat) ((x.reg b.toNat).toNat % lanesOf t)
    { regs := [(d.toNat, BitVec.ofNat 64 (wrap 64 (laneInt t w)))] })
/-- VINS (R328). -/
def execVins (d a b t : BitVec 4) (s : State) : Out :=
  .next (s.vector .vector (vecRegs d.toNat ++ [a.toNat, b.toNat]) fun x =>
    let n := (x.reg b.toNat).toNat % lanesOf t
    { regs := vecWords d.toNat (mergeLanes t (2 ^ n) false (x.vec d.toNat) fun _ => (x.reg a.toNat).toNat) })
/-- VPERM (R328). -/
def execVperm (d a b t : BitVec 4) (k : BitVec 2) (z : BitVec 1) (s : State) : Out :=
  .next (s.lanes .vector (vecRegs a.toNat ++ vecRegs b.toNat) d t k z fun x i =>
    lane t (x.vec a.toNat) (lane t (x.vec b.toNat) i % lanesOf t))
/-- VSPLAT (R328). -/
def execVsplat (d a t : BitVec 4) (k : BitVec 2) (z : BitVec 1) (s : State) : Out :=
  .next (s.lanes .vector [a.toNat] d t k z fun x _ => (x.reg a.toNat).toNat)

/-- MOP: masks combined below the type's lane count (R329). -/
def execMop (d a b : BitVec 2) (t : BitVec 4) (o : BitVec 3) (s : State) : Out :=
  .next (s.vector .vector [] fun x =>
    let p := x.mask a.toNat
    let q := x.mask b.toNat
    let w : BitVec 256 := match o.toNat with
      | 0 => p &&& q
      | 1 => p ||| q
      | 2 => p ^^^ q
      | 3 => p &&& ~~~q
      | _ => ~~~p
    { mask := some (d.toNat, BitVec.ofNat 256 (w.toNat % 2 ^ lanesOf t)) })

/-! ## The vector unit (R312, R316) -/

/-- The destinations that a vector instruction writes, all in one step (R312). -/
def Strand.deliver (x : Strand) (r : VResult) : Strand :=
  let x := r.regs.foldl (fun x (n, w) => x.setReg n w) x
  let x := match r.mask with
    | some (m, w) => x.setMask m w
    | none => x
  match r.seed with
  | some w => { x with seed := w }
  | none => x

/-- The operation of a strand in its core's vector unit. -/
def State.vopOf (s : State) (k : Nat) : Option VOp := (s.core (coreOfK k)).vq.find? fun o => o.k == k
/-- The operation of a strand changed. -/
def State.modVop (s : State) (k : Nat) (f : VOp → VOp) : State :=
  s.modCore (coreOfK k) fun c => { c with vq := c.vq.map fun o => if o.k = k then f o else o }
/-- The operation of a strand leaves the unit. -/
def State.dropVop (s : State) (k : Nat) : State := s.modCore (coreOfK k) fun c => { c with vq := c.vq.filter fun o => o.k != k }

/-- An element of a strand's vector access is performed; a load keeps its bytes until all are there (R333). -/
def State.elemDone (s : State) (k i : Nat) (d : List Byte) : State :=
  s.modVop k fun o =>
    let e := o.elems.find? fun e => e.ix == i
    { o with
      elems := o.elems.map fun e => if e.ix = i then { e with done := true } else e
      buf := match e with
        | some e => d.zipIdx.foldl (fun b (w, j) => Tab.put (e.pos + j) w b) o.buf
        | none => o.buf }

/-- An element of a strand's vector access ends on a fault: the first to arrive counts, and the lowest lane's of those that arrive in one cycle
(R333). -/
def State.elemFault (s : State) (k i : Nat) (f : Late) : State :=
  s.modVop k fun o =>
    let first := match o.faultLane with | some j => decide (i < j) | none => o.fault.isNone
    let o := { o with elems := o.elems.map fun e => if e.ix = i then { e with done := true } else e }
    if first then { o with fault := some f, faultLane := if s.instant.isSome then some i else none } else o

/-- An element leaves the core: the L1D first where it may be used (R330, R333). -/
def State.sendElem (s : State) (k : Nat) (e : VElem) : State :=
  if e.acc.cacheable then
    match s.lookL1d (coreOfK k) e.acc with
    | .hit s d => s.elemDone k e.ix d
    | .bad s => s.elemFault k e.ix { code := Code.uncorrectable.num, addr := e.acc.addr, pc := e.acc.pc, kind := e.acc.kind }
    | .miss s => s.sendAccess e.acc
  else s.sendAccess e.acc

/-- The vector unit takes the first untaken instruction of a core's queue; a vector access sends its elements (R316, R330). -/
def State.takeVector (s : State) (c : Nat) : Option State :=
  match (s.core c).vq.find? (fun o => !o.taken) with
  | none => none
  | some o =>
    if o.elems.any fun e => s.l1dStalled c e.acc then none
    else some (each o.elems (fun s e => s.sendElem o.k e) (s.modVop o.k fun q => { q with taken := true }))

/-- VECTOR_QUEUE_TAKE (R316). -/
def execVectorQueueTake (c : Nat) (s : State) : Out := due "VECTOR_QUEUE_TAKE" (s.takeVector c)

/-- The element stands in a replay entry that waits for a wake (R333). -/
def Core.holds (x : Core) (e : VElem) : Bool := x.replays.any fun r => r.accs.any fun a => decide (a.owner = e.acc.owner)

/-- The kinds of vector accesses (R140). -/
def vectorKind (n : Nat) : Bool := decide (10 ≤ n ∧ n ≤ 13)

/-- The strand has a replay entry for its vector access. -/
def Core.vectorReplay (x : Core) (k : Nat) : Bool := x.replays.any fun r => !r.dead && r.slot == slotOf k && vectorKind r.kind

/-- The register words that a completed load writes (R313, R333). -/
def VOp.loaded (o : VOp) (x : Strand) : List (Nat × Word) :=
  match o.dest with
  | none => []
  | some d =>
    let t := BitVec.ofNat 4 d.ty
    let v := leNat ((List.range 128).map fun j => Tab.get 0 j o.buf)
    vecWords d.vd (mergeLanes t (x.mask d.mask).toNat d.zero (x.vec d.vd) fun i => lane t v i)

/-- The instruction of a strand is complete, also where the forced-save deadline has stopped the strand in its page-fault park: it has then no
wait to come back to (R142, R334). -/
def State.pageCompleted (s : State) (k n : Nat) : State :=
  let x := s.strand k
  if x.st = .stopped ∧ x.why = some .pageFault then (s.modStrand k fun x => { x with why := none, cont := .reissue }).advance k n
  else s.completed k n

/-- A vector instruction completes: every destination is written and the strand is woken (R312). -/
def State.vectorDone (s : State) (o : VOp) : State :=
  ((s.dropVop o.k).modStrand o.k fun x => x.deliver { o.result with regs := o.result.regs ++ o.loaded x }).pageCompleted o.k 4

/-- The result of the vector unit for a strand (R312, R333): a faulted access waits until every element that no replay entry holds has
replied, gives its replay entry up and faults; any other instruction writes its destinations once everything is performed. -/
def State.vectorResult (s : State) (k : Nat) : Option State :=
  match s.vopOf k with
  | none => none
  | some o =>
    let x := s.core (coreOfK k)
    if !o.taken then none
    else match o.fault with
      | some f =>
        if o.elems.all fun e => e.done || x.holds e then
          let s := (s.dropVop k).dropReplays (coreOfK k) fun r => !r.dead && r.slot == slotOf k && vectorKind r.kind
          some (s.takeFault k { code := Code.ofNum f.code, addr := some f.addr, pc := f.pc, kind := f.kind })
        else none
      | none => if o.elems.all (·.done) && !x.vectorReplay k then some (s.vectorDone o) else none

/-- VECTOR_RESULT (R312). -/
def execVectorResult (k : Nat) (s : State) : Out := due "VECTOR_RESULT" (s.vectorResult k)

/-! ## Vector memory access (R330-R333) -/

/-- The bytes of the register that active lanes lie in: bit j of the first for the low half of byte j, of the second for the high half
(R330); they differ only for 4-bit lanes. -/
def activeBytes (t : BitVec 4) (mask : Nat) : Nat × Nat :=
  let e := laneBits t
  let half (h j : Nat) : Nat := if bitOn mask ((8 * j + 4 * h) / e) then 1 else 0
  (packLanes 1 128 (half 0), packLanes 1 128 (half 1))

/-- The shared part of a vector access: the registers, the permit, then `plan` gives the access's operation or the fault of its first
failing check (R264, R312, R333); granules with a relaxed access of the strand are waited for (R334). -/
def State.vectorAccess (s : State) (names : List Nat) (kind : Nat) (plan : State → Checked VOp) : State :=
  s.issue names fun s =>
    let k := s.cur
    let c := coreOfK k
    if !s.hasPermit c .memory then s.held k
    else match plan s with
      | .error (e, a) => (s.takePermit c .memory).faultAt e a kind
      | .ok o =>
        let rs := o.elems.map fun e => (e.acc.addr, e.acc.size)
        if rs.any (s.granuleBusy k) then s.park k .granuleOrder (.granules rs)
        else if o.elems.any fun e => e.acc.op.isFe && s.feCore (siteOfK k) e.acc.addr false then
          (s.takePermit c .memory).faultAt .feHome (o.elems.head?.map (·.acc.addr)) kind
        else (s.takePermit c .memory).enqueue o

/-- A register as a store writes it: the unused bits of 6-bit lanes are 0 (R237). -/
def cleanLanes (t : BitVec 4) (v : Nat) : Nat := packLanes (laneBits t) (lanesOf t) (lane t v)

/-- The 16-byte elements of a block of 128 bytes that have an active lane (R330). -/
def State.blockElems (s : State) (a : Addr) (act : Nat × Nat) (f : Nat → Acc) : List VElem :=
  ((List.range 8).filter fun i => bits (act.1 ||| act.2) (16 * i + 15) (16 * i) != 0).map fun i =>
    { ix := i, pos := 16 * i
      acc := { f i with addr := a + BitVec.ofNat 60 (16 * i), size := 16, pc := s.me.pc, k := s.cur, sup := s.me.sup, owner := .element s.cur i } }

/-- VLD (R330). -/
def execVld (d a t : BitVec 4) (k : BitVec 2) (z : BitVec 1) (g : BitVec 3) (s : State) : Out :=
  .next (s.vectorAccess (vecRegs d.toNat ++ [a.toNat]) 0x0A fun s =>
    match s.checkAccess s.cur (s.me.seg g.toNat) (s.me.reg a.toNat).toNat 128 rR 16 with
    | .error e => .error e
    | .ok p =>
      .ok { k := s.cur, unit := .mem, dest := some { vd := d.toNat, ty := t.toNat, mask := k.toNat, zero := z == 1 },
            elems := s.blockElems p (activeBytes t (s.me.mask k.toNat).toNat) fun _ => { op := .read, kind := 0x0A, seg := g.toNat } })

/-- VST (R330): a store that writes half of some byte goes past the caches whole; an element with such a byte is a nibble write, any other an
ordinary one. -/
def execVst (d a t : BitVec 4) (k : BitVec 2) (g : BitVec 3) (s : State) : Out :=
  .next (s.vectorAccess (vecRegs d.toNat ++ [a.toNat]) 0x0B fun s =>
    match s.checkAccess s.cur (s.me.seg g.toNat) (s.me.reg a.toNat).toNat 128 rW 16 with
    | .error e => .error e
    | .ok p =>
      let (lo, hi) := activeBytes t (s.me.mask k.toNat).toNat
      let v := cleanLanes t (s.me.vec d.toNat)
      let data (i : Nat) : List Byte := leBytes 16 (v / 2 ^ (128 * i))
      let en (w i : Nat) : Nat := bits w (16 * i + 15) (16 * i)
      .ok { k := s.cur, unit := .mem,
            elems := s.blockElems p (lo, hi) fun i =>
              { op := if en lo i = en hi i then .write else .nibble, data := data i, en := en lo i, hi := if lo = hi then 0 else en hi i,
                kind := 0x0B, seg := g.toNat } })

/-- The single element of a full/empty vector access (R331): it counts as a scalar full/empty operation of its strand. -/
def State.feElem (s : State) (p : Addr) (op : ReqOp) (d : List Byte) (kind : Nat) : List VElem :=
  [{ ix := 0, pos := 0
     acc := { addr := p, op, size := 128, data := d, en := allOn d.length, kind, pc := s.me.pc, k := s.cur, sup := s.me.sup, owner := .strand s.cur } }]

/-- VLDF (R331). -/
def execVldf (d a t : BitVec 4) (c : BitVec 1) (g : BitVec 3) (s : State) : Out :=
  .next (s.vectorAccess (vecRegs d.toNat ++ [a.toNat]) 0x08 fun s =>
    match s.checkAccess s.cur (s.me.seg g.toNat) (s.me.reg a.toNat).toNat 128 (rR + rF) 128 with
    | .error e => .error e
    | .ok p =>
      .ok { k := s.cur, unit := .mem, dest := some { vd := d.toNat, ty := t.toNat, mask := 0, zero := false },
            elems := s.feElem p (.vldf (c == 1)) [] 0x08 })

/-- VSTF (R331). -/
def execVstf (d a t : BitVec 4) (g : BitVec 3) (s : State) : Out :=
  .next (s.vectorAccess (vecRegs d.toNat ++ [a.toNat]) 0x09 fun s =>
    match s.checkAccess s.cur (s.me.seg g.toNat) (s.me.reg a.toNat).toNat 128 (rW + rF) 128 with
    | .error e => .error e
    | .ok p =>
      .ok { k := s.cur, unit := .mem, elems := s.feElem p .writeFull (leBytes 128 (cleanLanes t (s.me.vec d.toNat))) 0x09 })

/-- The checked addresses of the active lanes of a gather or scatter, lowest lane first: the lowest failing lane faults (R332, R333). -/
def State.laneAddrs (s : State) (a b t : BitVec 4) (k : BitVec 2) (g : BitVec 3) (need : Nat) : Checked (List (Nat × Addr)) :=
  let n := laneBits t / 8
  ((List.range (lanesOf t)).filter fun i => bitOn (s.me.mask k.toNat).toNat i).mapM fun i =>
    let off := ((s.me.reg a.toNat).toNat + lane t (s.me.vec b.toNat) i * n) % 2 ^ 64
    match s.checkAccess s.cur (s.me.seg g.toNat) off n need n with
    | .error e => .error e
    | .ok p => .ok (i, p)

/-- VGATHER (R332). -/
def execVgather (d a b t : BitVec 4) (k : BitVec 2) (z : BitVec 1) (g : BitVec 3) (s : State) : Out :=
  .next (s.vectorAccess (vecRegs d.toNat ++ [a.toNat] ++ vecRegs b.toNat) 0x0C fun s =>
    match s.laneAddrs a b t k g rR with
    | .error e => .error e
    | .ok l =>
      let n := laneBits t / 8
      let f (p : Nat × Addr) : VElem :=
        { ix := p.1, pos := p.1 * n
          acc := { addr := p.2, op := .read, size := n, kind := 0x0C, seg := g.toNat, pc := s.me.pc, k := s.cur, sup := s.me.sup, owner := .element s.cur p.1 } }
      .ok { k := s.cur, unit := .mem, dest := some { vd := d.toNat, ty := t.toNat, mask := k.toNat, zero := z == 1 }, elems := l.map f })

/-- VSCATTER: of lanes that name one element only the highest is written (R332). -/
def execVscatter (d a b t : BitVec 4) (k : BitVec 2) (g : BitVec 3) (s : State) : Out :=
  .next (s.vectorAccess (vecRegs d.toNat ++ [a.toNat] ++ vecRegs b.toNat) 0x0D fun s =>
    match s.laneAddrs a b t k g rW with
    | .error e => .error e
    | .ok l =>
      let n := laneBits t / 8
      let last := l.filter fun (i, p) => !l.any fun (j, q) => decide (i < j) && q == p
      let f (p : Nat × Addr) : VElem :=
        { ix := p.1, pos := p.1 * n
          acc := { addr := p.2, op := .write, size := n, data := leBytes n (lane t (s.me.vec d.toNat) p.1), en := allOn n, kind := 0x0D,
                   seg := g.toNat, pc := s.me.pc, k := s.cur, sup := s.me.sup, owner := .element s.cur p.1 } }
      .ok { k := s.cur, unit := .mem, elems := last.map f })

end Sys2Proof.Machine
end

