-- ==== Sys2Proof/Machine/Matrix.lean ====
section
/-! DEFINITION. The matrix engine: `mma`, `mma.idx`, the accumulator instructions and the drain (R248-R250, R343-R350). An operation's
operand bytes are read, and its results written, at the core's own bower store in the step that the event names. -/

namespace Sys2Proof.Machine

open Sys2Proof

/-! ## Tiles in the bower store (R80, R343) -/

/-- What a check of a tile's bytes gives: the reader goes on, meets a fault at an address, or must wait for an event hold (R165). -/
inductive Tile where
  | go (s : State)
  | bad (c : Code) (a : Addr) (s : State)
  | wait

/-- The core's access to byte ranges (offset, length) of its own bower store for a strand: the held record (R80), and for a read the
integrity of the granules (R91). A fault names the first byte that it concerns, as a placed address of the store (R59). -/
def State.tile (s : State) (k : Nat) (rs : List (Nat × Nat)) (rd : Bool) : Tile :=
  let v := siteOfK k
  let b := coreNo k / 4
  let gs := (rs.flatMap fun r => (List.range ((r.1 + r.2 - 1) / 16384 + 1 - r.1 / 16384)).map fun i => (r.1 / 16384 + i, r.1)).eraseDups
  match if (s.strand k).sup then none else gs.find? fun g => !(s.site v).storeHeld b g.1 with
  | some g => .bad .unheldStore (s.homeAddr v b (max g.2 (g.1 * 16384))) s
  | none =>
    let ks := if rd then (rs.flatMap fun r => granuleKeys v b r.1 r.2).eraseDups else []
    if s.stalled v b ks then .wait
    else match s.inspectAll v b ks with
      | (true, s) => .go s
      | (false, t) =>
        let g := ((s.flawed ks).find? fun f => f.2 == 3).map fun f => f.1 - homeKey v b 0 / 16
        .bad .uncorrectable (s.homeAddr v b (g.getD 0 * 16)) t

/-- A byte of the core's own bower store. -/
def State.tileByte (s : State) (k off : Nat) : Nat := (Memory.read s.mem (homeKey (siteOfK k) (coreNo k / 4) off)).toNat

/-! ## Operands (R344, R345) -/

/-- K-group size of a type (R248, R344). -/
def groupOf (t : Nat) : Nat := if t = 1 ∨ t = 2 then 16 else if 5 ≤ t ∧ t ≤ 7 then 64 else 32

/-- Bytes of an element of a type; FP4 elements are two to a byte. -/
def elemBytes (t : Nat) : Nat := if t = 1 ∨ t = 2 then 2 else 1

/-- Byte position of element kk along K (R345). -/
def elemAt (t kk : Nat) : Nat := if t = 7 then kk / 2 else kk * elemBytes t

/-- First byte of row r of A (R345). -/
def Mma.rowA (p : Mma) (r : Nat) : Nat := p.offA + 16 * p.lda * r
/-- First byte of column j of B (R345). -/
def Mma.colB (p : Mma) (j : Nat) : Nat := p.offB + 16 * p.ldb * j

/-- The bytes that an operation reads for the elements kk with lo ≤ kk < hi: offset and length (R345). -/
def Mma.ranges (p : Mma) (lo hi : Nat) : List (Nat × Nat) :=
  let span (t : Nat) : Nat × Nat := (elemAt t lo, elemAt t (hi - 1) + elemBytes t - elemAt t lo)
  let sc := (hi - 1) / 32 + 1 - lo / 32
  let a := p.rowIx.map fun r => (p.rowA r + (span p.ta).1, (span p.ta).2)
  let b := (List.range 32).map fun j => (p.colB j + (span p.tb).1, (span p.tb).2)
  if hi ≤ lo then []
  else if p.x then
    a ++ b ++ (p.rowIx.map fun r => (p.offSA + p.ldsa * r + lo / 32, sc)) ++ (List.range 32).map fun j => (p.offSB + p.ldsb * j + lo / 32, sc)
  else a ++ b

/-- Some byte lies outside the bower store (R346). -/
def Mma.outside (p : Mma) : Bool := (p.ranges 0 p.kk).any fun r => decide (storeBytes < r.1 + r.2)

/-- The encoding of an element at a row or column base (R237, R345). -/
def State.element (s : State) (k t base kk : Nat) : Nat :=
  let o := base + elemAt t kk
  if elemBytes t = 2 then s.tileByte k o + 256 * s.tileByte k (o + 1)
  else if t = 7 then s.tileByte k o / 2 ^ (4 * (kk % 2)) % 16
  else if t = 5 ∨ t = 6 then s.tileByte k o % 64
  else s.tileByte k o

/-- The product of two elements with their scales, exact (R248). -/
def mmaProduct (ta tb a b : Nat) (scale : Option (Nat × Nat)) : FVal :=
  let int (t w : Nat) : Int := if t = 9 then sextNat 8 w else w
  if 9 ≤ ta then FVal.ofInt (int ta a * int tb b)
  else
    let p := ((fmtOf (BitVec.ofNat 4 ta)).decode a).mul ((fmtOf (BitVec.ofNat 4 tb)).decode b)
    match scale with
    | none => p
    | some (x, y) => (p.mul (ofScale x)).mul (ofScale y)

/-! ## A group (R248, R249) -/

/-- A finite value kept to 40 significant bits, the last one set when a discarded bit is 1 (R248). -/
def roundOdd40 : FVal → FVal
  | .fin n m e =>
    let d := Nat.log2 m + 1 - 40
    if d = 0 then .fin n m e
    else
      let q := m / 2 ^ d
      .fin n (if m % 2 ^ d = 0 ∨ q % 2 = 1 then q else q + 1) (e + d)
  | v => v

/-- The pairs of a level of the tree (R248). -/
def treeLevel : List FVal → List FVal
  | a :: b :: t => roundOdd40 (FVal.add false a b) :: treeLevel t
  | l => l

/-- The summation tree over 2^n products (R248). -/
def treeSum : Nat → List FVal → FVal
  | 0, l => l.headD (.fin false 0 0)
  | n + 1, l => treeSum n (treeLevel l)

/-- What a group adds to an accumulator element (R248). -/
def accumulate (c : Nat) (ps : List FVal) : Nat := fp32.addR .rne c (fp32.result .rne (treeSum 6 ps))

/-- An accumulator of a core (R170): an unlisted element is +0.0. -/
def Core.acc (x : Core) (n : Nat) : List (Nat × BitVec 32) := Tab.get [] n x.accs

/-- An accumulator written whole from its elements by index. -/
def Core.setAcc (x : Core) (n : Nat) (f : Nat → Nat) : Core :=
  { x with accs := Tab.put n (((List.range 1024).map fun i => (i, BitVec.ofNat 32 (f i))).filter fun p => p.2 != 0) x.accs }

/-- Group g of an operation updates rows 0 to M - 1 (R248, R346). -/
def State.mmaGroup (s : State) (o : MOp) (p : Mma) (g : Nat) : State :=
  let c := coreOfK o.k
  let n := (s.strand o.k).entry * 4 + o.acc
  let gs := groupOf p.ta
  let at_ (base t kk : Nat) : Nat := s.element o.k t base kk
  let ks := (List.range gs).map (g * gs + ·)
  let as_ := p.rowIx.map fun r => ks.map fun kk => (at_ (p.rowA r) p.ta kk, s.tileByte o.k (p.offSA + p.ldsa * r + kk / 32))
  let bs := (List.range 32).map fun j => ks.map fun kk => (at_ (p.colB j) p.tb kk, s.tileByte o.k (p.offSB + p.ldsb * j + kk / 32))
  let old := (s.core c).acc n
  let cell (i : Nat) : Nat :=
    let w := (Tab.get 0 i old).toNat
    match as_[i / 32]?, bs[i % 32]? with
    | some a, some b =>
      let ps := ((a.zip b).zip ks).map fun ((x, y), kk) =>
        if kk < p.kk then mmaProduct p.ta p.tb x.1 y.1 (if p.x then some (x.2, y.2) else none) else .fin false 0 0
      accumulate w ps
    | _, _ => w
  s.modCore c fun q => q.setAcc n cell

/-! ## Issue (R343) -/

/-- An operation enters its lane and its strand parks (R343). -/
def State.enlane (s : State) (drain : Bool) (acc adv : Nat) (kind : MKind) : State :=
  let k := s.cur
  let f (x : Core) : Core :=
    let o : MOp := { seq := x.mseq, k, acc, pc := s.me.pc, adv, kind }
    if drain then { x with drn := x.drn ++ [o], mseq := x.mseq + 1 } else { x with mul := x.mul ++ [o], mseq := x.mseq + 1 }
  (s.modCore (coreOfK k) f).park k .matrix .engine

/-- The part that every accumulator instruction shares (R264, R343): its registers, the accumulator it names, the wait of `wait.r`, the
permit, the engine's presence; then its own body. -/
def State.matrixOp (s : State) (names : List Nat) (acc : State → Nat) (body : State → State) : State :=
  s.issue names fun s =>
    let k := s.cur
    if s.heldOf k (20 + coreNo k) ≤ acc s then s.raiseFault k .unheldAccumulator
    else if !s.me.tracker.isEmpty then s.park k .relaxedWait .reissue
    else s.withPermit .matrix fun s =>
      if (s.core (coreOfK k)).maxm = 0 then s.raiseFault k .illegalShape else body s

/-- The parameters of `mma` and `mma.idx` from their registers (R344, R345). -/
def State.mmaOf (s : State) (d a : BitVec 8) (k : BitVec 3) (x : BitVec 1) (tb ta : BitVec 4) (rowIx : List Nat) : Mma :=
  let w := (s.val d).toNat
  let u := (s.val a).toNat
  let l (n : Nat) : Nat := bits (s.loop s.cur n).toNat 21 0
  { ta := ta.toNat, tb := tb.toNat, x := x == 1, kk := (s.loop s.cur k.toNat).toNat, offA := bits w 21 0, offB := bits w 53 32,
    lda := bits u 15 0, ldb := bits u 31 16, ldsa := bits u 47 32, ldsb := bits u 63 48, offSA := l (k.toNat + 1), offSB := l (k.toNat + 2), rowIx }

/-- The effect of `mma` and `mma.idx` at issue (R346). -/
def State.mmaIssue (s : State) (acc : BitVec 2) (m : BitVec 6) (p : Mma) : State :=
  if (s.core (coreOfK s.cur)).maxm < m.toNat ∨ 65536 < p.kk then s.raiseFault s.cur .illegalShape
  else if p.offA % 16 ≠ 0 ∨ p.offB % 16 ≠ 0 then s.raiseFault s.cur .alignment
  else if p.outside then s.raiseFault s.cur .addressRange
  else s.enlane false acc.toNat 8 (.mma p)

/-- MMA (R344, R346). -/
def execMma (d a : BitVec 8) (acc : BitVec 2) (k : BitVec 3) (x : BitVec 1) (tb ta : BitVec 4) (m : BitVec 6) (s : State) : Out :=
  .next (s.matrixOp [d.toNat, a.toNat] (fun _ => acc.toNat) fun s => s.mmaIssue acc m (s.mmaOf d a k x tb ta (List.range m.toNat)))

/-- MMA_IDX: row i of A is row lane i of the index vector (R345). -/
def execMmaIdx (d a : BitVec 8) (acc : BitVec 2) (k : BitVec 3) (x : BitVec 1) (vi tb ta : BitVec 4) (m : BitVec 6) (s : State) : Out :=
  .next (s.matrixOp ([d.toNat, a.toNat] ++ vecRegs vi.toNat) (fun _ => acc.toNat) fun s =>
    s.mmaIssue acc m (s.mmaOf d a k x tb ta ((List.range m.toNat).map (lane 0xE (s.me.vec vi.toNat)))))

/-- MZERO (R348). -/
def execMzero (a : BitVec 8) (s : State) : Out :=
  .next (s.matrixOp [a.toNat] (fun s => (s.val a).toNat) fun s => s.enlane false (s.val a).toNat 4 .zero)

/-- The offset of a tile instruction, checked (R348). -/
def State.tileOffset (s : State) (b : BitVec 8) (body : Nat → State) : State :=
  let o := (s.val b).toNat
  if o % 16 ≠ 0 then s.raiseFault s.cur .alignment
  else if storeBytes < o + 4096 then s.raiseFault s.cur .addressRange
  else body o

/-- MLOAD (R348). -/
def execMload (a b : BitVec 8) (s : State) : Out :=
  .next (s.matrixOp [a.toNat, b.toNat] (fun s => (s.val a).toNat) fun s => s.tileOffset b fun o => s.enlane false (s.val a).toNat 4 (.load o))
/-- MSTORE (R348). -/
def execMstore (a b : BitVec 8) (s : State) : Out :=
  .next (s.matrixOp [a.toNat, b.toNat] (fun s => (s.val a).toNat) fun s => s.tileOffset b fun o => s.enlane true (s.val a).toNat 4 (.store o))

/-- MCAPR (R52, R348). -/
def execMcapr (d : BitVec 8) (s : State) : Out := .next (s.compute [d] d 4 fun s => (s.core (coreOfK s.cur)).mcapWord)

/-- MDRAIN: the checks of R349, then the slot is reserved and the operation waits in the drain lane. -/
def execMdrain (a b : BitVec 8) (s : State) : Out :=
  .next (s.matrixOp [a.toNat, b.toNat] (fun s => bits (s.val a).toNat 9 8) fun s =>
    let k := s.cur
    let w := (s.val a).toNat
    let n := bits w 5 0
    let q := bits w 19 16
    if n = 0 ∨ 32 < n then s.raiseFault k .illegalShape
    else if !s.slotOpen q then s.raiseFault k .slot
    else if (s.val b &&& 3) ≠ 0 then s.faultAt .alignment (some ((s.val b).setWidth 60)) 0
    else if s.myGang.desc.sgran < 2 ∨ s.myGang.desc.creg - s.crewGranules (coreOfK k) s.me.entry < 2 then s.raiseFault k .overclaim
    else
      let l (i : Nat) : Word := (s.loop k i).setWidth 64
      let ctr := if bitOn w 47 then some (bits w 41 32) else none
      let s := s.modGang (siteOfK k) s.me.entry fun g => { g with drains := g.drains ++ [(coreNo k, q)] }
      s.enlane true (bits w 9 8) 4 (.drain n q ((s.val b).setWidth 60) (l 6) (l 7) ctr))

/-! ## The lanes (R343) -/

/-- A lane of the engine. -/
def Core.lane (x : Core) (drain : Bool) : List MOp := if drain then x.drn else x.mul

/-- An operation changed in its lane. -/
def Core.modOp (x : Core) (drain : Bool) (seq : Nat) (f : MOp → MOp) : Core :=
  let g (o : MOp) : MOp := if o.seq = seq then f o else o
  if drain then { x with drn := x.drn.map g } else { x with mul := x.mul.map g }

/-- An operation leaves its lane. -/
def Core.dropOp (x : Core) (drain : Bool) (seq : Nat) : Core :=
  if drain then { x with drn := x.drn.filter fun o => o.seq != seq } else { x with mul := x.mul.filter fun o => o.seq != seq }

/-- The strands of a core that wait for an engine operation are tested again (R185). -/
def State.settleCore (s : State) (c : Nat) : State := each ((List.range 13).map (slotKey c ·)) (fun s k => s.settle k) s

/-- An operation is complete: it leaves its lane and its strand is woken past its instruction (R343, R346). -/
def State.laneDone (s : State) (drain : Bool) (o : MOp) : State :=
  let c := coreOfK o.k
  ((s.modCore c fun x => x.dropOp drain o.seq).completed o.k o.adv).settleCore c

/-- An operation ends on a fault at an address, which its strand raises at the instruction (R59, R346). -/
def State.laneFault (s : State) (drain : Bool) (o : MOp) (code : Code) (a : Addr) (kind : Nat) : State :=
  let c := coreOfK o.k
  ((s.modCore c fun x => x.dropOp drain o.seq).takeFault o.k { code, addr := some a, pc := o.pc, kind }).settleCore c

/-- The head of a lane begins once no operation of the other lane that was issued earlier names its accumulator (R343). A drain then
acquires two register granules for its slot as `acq.w` would (R349). -/
def State.laneBegin (s : State) (c : Nat) (drain : Bool) : Option State :=
  match (s.core c).lane drain with
  | [] => none
  | o :: _ =>
    let x := s.core c
    let clash (p : MOp) : Bool := decide (p.seq < o.seq) && p.acc == o.acc && (s.strand p.k).entry == (s.strand o.k).entry
    if o.begun || (x.lane (!drain)).any clash then none
    else
      let s := s.modCore c fun x => x.modOp drain o.seq fun p => { p with begun := true }
      match o.kind with
      | .drain _ q _ _ _ _ =>
        let h := slotKey c q
        let y := s.strand o.k
        let s := s.setStrand h { st := .parked, why := some .matrix, cont := .rowEnd, drain := true, crew := y.crew, gang := y.gang,
                                 launch := y.launch, entry := y.entry, starter := slotOf o.k }
        let s := s.modSite (siteOfC c) fun t => { t with waiters := t.waiters ++ [{ pool := c % 16, k := h, n := 2 }] }
        some (s.scanOne (siteOfC c) (c % 16))
      | _ => some s

/-- MATRIX_OP_BEGIN (R343). -/
def execMatrixOpBegin (c : Nat) (drain : Bool) (s : State) : Out := due "MATRIX_OP_BEGIN" (s.laneBegin c drain)

/-- Groups of an operation (R346). -/
def Mma.groups (p : Mma) : Nat := (p.kk + groupOf p.ta - 1) / groupOf p.ta

/-- A K-group step of the multiply lane (R346): a permit for every group but the first, the group's bytes, then the update. At the
forced-save deadline the strand stops between groups instead (R347). DESIGN CHOICE (log 86): a step that ends on a fault takes no permit, and every
attempt that finds none counts event 0x019. -/
def State.kgroup (s : State) (c : Nat) : Option State :=
  match (s.core c).mul with
  | [] => none
  | o :: _ =>
    match o.kind with
    | .mma p =>
      if !o.begun || decide (p.groups ≤ o.g) || (s.strand o.k).st != .parked then none
      else if (s.gang (siteOfK o.k) (s.strand o.k).entry).expired then some (s.halt o.k)
      else if o.g ≠ 0 ∧ !s.hasPermit c .matrix then some (s.count c 0x019 1)
      else match s.tile o.k (p.ranges (o.g * groupOf p.ta) (min p.kk ((o.g + 1) * groupOf p.ta))) true with
        | .wait => none
        | .bad e a s => some (s.laneFault false o e a 0x0E)
        | .go s =>
          let s := if o.g = 0 then s else s.takePermit c .matrix
          some (((s.mmaGroup o p o.g).modCore c fun x => x.modOp false o.seq fun q => { q with g := o.g + 1 }).count c 0x013 1)
    | _ => none

/-- MATRIX_KGROUP_STEP (R346). -/
def execMatrixKgroupStep (c : Nat) (s : State) : Out := due "MATRIX_KGROUP_STEP" (s.kgroup c)

/-- The rows of a tile from one on: each is written at its home once its check is passed; the writes before a fault stand (R348). -/
def State.storeRows (acc : List (Nat × BitVec 32)) (k off : Nat) : List Nat → State → Option (Except (Code × Addr) Unit × State)
  | [], s => some (.ok (), s)
  | i :: is, s =>
    match s.tile k [(off + 128 * i, 128)] false with
    | .wait => none
    | .bad e a s => some (.error (e, a), s)
    | .go s =>
      let v := siteOfK k
      let b := coreNo k / 4
      let d := (List.range 32).flatMap fun j => leBytes 4 (Tab.get 0 (32 * i + j) acc).toNat
      let s := s.freshen (granuleKeys v b (off + 128 * i) 128)
      State.storeRows acc k off is (s.store v b (off + 128 * i) (allOn 128) d (s.number k))

/-- The end of a lane's operation (R346, R348): `mzero`, `mload` and `mstore` have their effect here (log 31). -/
def State.laneComplete (s : State) (c : Nat) (drain : Bool) : Option State :=
  match (s.core c).lane drain with
  | [] => none
  | o :: _ =>
    let n := (s.strand o.k).entry * 4 + o.acc
    if !o.begun then none
    else match o.kind with
      | .mma p => if o.g = p.groups ∧ (s.strand o.k).st = .parked then some (s.laneDone drain o) else none
      | .zero => some ((s.modCore c fun x => x.setAcc n fun _ => 0).laneDone drain o)
      | .load off =>
        match s.tile o.k [(off, 4096)] true with
        | .wait => none
        | .bad e a s => some (s.laneFault drain o e a 0x0E)
        | .go s =>
          let d := Memory.readN s.mem (homeKey (siteOfC c) (c % 16 / 4) off) 4096
          some ((s.modCore c fun x => x.setAcc n fun i => leNat ((d.drop (4 * i)).take 4)).laneDone drain o)
      | .store off =>
        match State.storeRows ((s.core c).acc n) o.k off (List.range 32) s with
        | none => none
        | some (.error (e, a), s) => some (s.laneFault drain o e a 0x0F)
        | some (.ok _, s) => some (s.laneDone drain o)
      | .drain .. => none

/-- MATRIX_OP_COMPLETE (R346, R348). -/
def execMatrixOpComplete (c : Nat) (drain : Bool) (s : State) : Out := due "MATRIX_OP_COMPLETE" (s.laneComplete c drain)

/-! ## The drain's rows (R349, R350) -/

/-- The end of a drain: the granules and the slot are free, the counter rises, the strand goes on (R349). -/
def State.drainDone (s : State) (o : MOp) (q : Nat) (ctr : Option Nat) : State :=
  let v := siteOfK o.k
  let s := (s.freeSlot (slotKey (coreOfK o.k) q)).modGang v (s.strand o.k).entry fun g =>
    { g with drains := g.drains.filter (· != (coreNo o.k, q)) }
  let s := match ctr with
    | some n => s.addTc v n 1
    | none => s
  (s.laneDone true o).scanAll v

/-- DRAIN_ROW_END: a row's handler has ended; the next row's handler starts, or the drain is complete (R349). At the forced-save deadline
the drain stops between rows and its strand with it (R350). -/
def State.drainRowEnd (s : State) (c : Nat) : Option State :=
  match (s.core c).drn with
  | [] => none
  | o :: _ =>
    match o.kind with
    | .drain n q _ _ _ ctr =>
      let h := slotKey c q
      let y := s.strand h
      if !o.running || (s.strand o.k).st != .parked then none
      else if (s.gang (siteOfC c) (s.strand o.k).entry).expired then
        if y.st = .stopped then some (s.halt o.k)
        else if y.cont = .rowEnd then some ((s.halt h).halt o.k)
        else none
      else if y.st = .parked ∧ y.cont = .rowEnd then
        if o.g + 1 < n then some ((s.modCore c fun x => x.modOp true o.seq fun p => { p with g := o.g + 1 }).drainRow c)
        else some (s.drainDone o q ctr)
      else none
    | _ => none

/-- DRAIN_ROW_END (R349). -/
def execDrainRowEnd (c : Nat) (s : State) : Out := due "DRAIN_ROW_END" (s.drainRowEnd c)

end Sys2Proof.Machine
end

