-- ==== Sys2Proof/Machine/Trellis.lean ====
section
/-! DEFINITION. Collectives: the trellis tables, contributions and results, `coll.arm`, `coll.put` and `coll.getr` (R208-R210, R251,
R366-R369). An entry's key is 256 * mesh + group, Oak 0 and Ash 1; directions are 0 N, 1 E, 2 S, 3 W, 4 local. -/

namespace Sys2Proof.Machine

/-! ## Engine reads of a bower store (R80, R91) -/

/-- Bytes that an engine reads from a bower store of its pavilion, with the checks of the home. -/
def State.storeGet (s : State) (v u off n : Nat) (sup : Bool) : Except Code (List Byte) × State :=
  let held := sup || (List.range ((off + n - 1) / 16384 + 1 - off / 16384)).all fun i => (s.site v).storeHeld u (off / 16384 + i)
  if !held then (.error .unheldStore, s)
  else
    let (good, s) := s.inspectAll v u (granuleKeys v u off n)
    (if good then .ok (s.fetchBytes v u off n) else .error .uncorrectable, s)

/-- The bower of a strand's core. -/
def bowerOf (k : Nat) : Nat := coreNo k / 4

/-! ## Places -/

/-- The neighbour of a site in a direction (R13); none at the edge of the grid. -/
def neighbour (v d : Nat) : Option Nat :=
  let x := xOf v
  let y := yOf v
  if d = 0 then (if y < 19 then some (siteAt x (y + 1)) else none)
  else if d = 1 then (if x < 19 then some (siteAt (x + 1) y) else none)
  else if d = 2 then (if 0 < y then some (siteAt x (y - 1)) else none)
  else if 0 < x then some (siteAt (x - 1) y) else none

/-- The opposite direction. -/
def opposite (d : Nat) : Nat := (d + 2) % 4

/-- The mesh of a trellis key. -/
def meshOfKey (key : Nat) : Mesh := if key < 256 then .oak else .ash

/-- An entry of a trellis table. -/
def State.trellis (s : State) (v key : Nat) : Trellis := Tab.get {} key (s.site v).trellis
/-- An entry written. -/
def State.setTrellis (s : State) (v key : Nat) (e : Trellis) : State := s.modSite v fun t => { t with trellis := Tab.put key e t.trellis }

/-! ## Elements (R208, R251) -/

/-- Element bytes of an operator (R208). -/
def elemSize (op : Nat) : Nat := if op = 0 ∨ op = 5 ∨ op = 6 then 4 else if op = 1 then 2 else 8

/-- Bytes of a group's contribution. -/
def Trellis.bytes (e : Trellis) : Nat := e.count * elemSize e.op

/-- Combine buffers that an entry needs (R208). -/
def Trellis.buffers (e : Trellis) : Nat := (e.bytes + 4095) / 4096

/-- The input flags of an element. -/
def elemFlags (op w : Nat) : FFlags :=
  if op = 1 then bf16.flags w else if op = 0 ∨ op = 5 ∨ op = 6 then fp32.flags w else {}

/-- Two elements combined, the earlier first (R251). -/
def combineElem (op a b : Nat) : Nat :=
  let x := BitVec.ofNat 64 a
  let y := BitVec.ofNat 64 b
  match op with
  | 0 => fp32.addR .rne a b
  | 1 => bf16.addR .rne a b
  | 2 => (x + y).toNat
  | 3 => if x.toInt ≤ y.toInt then a else b
  | 4 => if x.toInt ≤ y.toInt then b else a
  | 5 => fp32.minR a b
  | 6 => fp32.maxR a b
  | 7 => (x &&& y).toNat
  | 8 => (x ||| y).toNat
  | 9 => (x ^^^ y).toNat
  | _ => a

/-- The result of an element by its input flags (R251). -/
def finalElem (op w : Nat) (g : FFlags) : Nat :=
  match op with
  | 0 => fp32.sumBy g w
  | 1 => bf16.sumBy g w
  | 5 => if g.nan then fp32.canon else w
  | 6 => if g.nan then fp32.canon else w
  | _ => w

/-- The elements that bytes hold. -/
def elemsOf (op : Nat) (l : List Byte) : List Nat :=
  (List.range (l.length / elemSize op)).map fun i => leNat ((l.drop (i * elemSize op)).take (elemSize op))

/-- Elements from index i0 combined into an entry, in the order of their pieces' arrival; the first to arrive for an element fills it (R209). DESIGN
CHOICE (log 56): where pieces of two contributions interleave, `first` keeps for each element the piece that came first. -/
def Trellis.absorb (e : Trellis) (i0 : Nat) (ws : List (Nat × FFlags)) : Trellis :=
  ws.zipIdx.foldl (fun e ((w, g), j) =>
    let i := i0 + j
    match Tab.find i e.elems with
    | none => { e with elems := Tab.put i (BitVec.ofNat 64 w) e.elems, flags := Tab.put i g e.flags }
    | some u =>
      { e with elems := Tab.put i (BitVec.ofNat 64 (combineElem e.op u.toNat w)) e.elems,
               flags := Tab.put i ((Tab.get {} i e.flags).or g) e.flags }) e

/-- The entry takes a contribution from a direction (R210). -/
def Trellis.accepts (e : Trellis) (d : Nat) : Bool :=
  e.st == .collect && bitOn e.children d && (if d = 4 then decide (e.glocal < e.nlocal) else !bitOn e.gchild d)

/-- Every contribution has arrived (R209). -/
def Trellis.complete (e : Trellis) : Bool :=
  decide (e.nlocal ≤ e.glocal) && (List.range 4).all fun d => !bitOn e.children d || bitOn e.gchild d

/-! ## Combination and delivery (R209, R210) -/

/-- Elements of a piece of 128 bytes (R404). -/
def Trellis.perPiece (e : Trellis) : Nat := 128 / elemSize e.op

/-- The elements of an entry with their flags. An element that no contribution has filled is a free value (log 11). -/
def State.elements (s : State) (e : Trellis) : List (Word × FFlags) :=
  (List.range e.count).map fun i =>
    (match Tab.find i e.elems with | some w => w | none => Config.freeWord (s.freeIx + i), Tab.get {} i e.flags)

/-- Elements sent in pieces to the neighbour in a direction, on the entry's mesh (R204, R209). -/
def State.sendPieces (s : State) (v key d : Nat) (e : Trellis) (op : Nat → Nat → MsgOp) (l : List (Word × FFlags)) : State :=
  match neighbour v d with
  | none => s
  | some n =>
    let p := e.perPiece
    let (t, s) := s.fresh
    each (List.range ((l.length + p - 1) / p)) (fun s i =>
      let part := (l.drop (i * p)).take p
      s.sendOut { id := 0, op := op key (opposite d), mesh := some (meshOfKey key), src := v, dst := n, key := s.engineKey v (if key < 256 then 0x01 else 0x02), off := i * 128, txn := t,
                  data := part.flatMap fun w => leBytes (elemSize e.op) w.1.toNat, words := part.map (·.1), wflags := part.map (·.2) }) s

/-- An entry in COLLECT whose contributions have all arrived sends them to its parent, or, at the root, holds the result (R209). -/
def State.testTrellis (s : State) (v key : Nat) : State :=
  let e := s.trellis v key
  if e.st = .collect ∧ e.complete then
    let l := s.elements e
    let s : State := if e.elems.length < e.count then { s with freeIx := s.freeIx + e.count } else s
    if e.parent = 4 then
      s.setTrellis v key { e with st := .deliver, elems := l.zipIdx.map fun ((w, g), i) => (i, BitVec.ofNat 64 (finalElem e.op w.toNat g)) }
    else (s.setTrellis v key { e with st := .wait, pieces := [] }).sendPieces v key e.parent e .contribution l
  else s

/-- A whole local contribution that the entry takes (R209). -/
def State.contributeLocal (s : State) (v key : Nat) (ws : List Nat) : State :=
  let e := s.trellis v key
  let e := e.absorb 0 (ws.map fun w => (w, elemFlags e.op w))
  let e := { e with glocal := e.glocal + 1, gchild := if e.nlocal ≤ e.glocal + 1 then setBit e.gchild 4 else e.gchild }
  (s.setTrellis v key e).testTrellis v key

/-- The notice of a refused contribution or a dropped result piece (R210). -/
def State.collectiveNotice (s : State) (v : Nat) : State := s.raise v 7 sevNotice 0x010A none 0

/-- A piece of a contribution that the entry does not take: with its first piece the contribution is refused, its sender gets the collective-unarmed
status and the router raises a notice; the other pieces go with it (R210). -/
def State.refusePiece (s : State) (m : Msg) (v key d : Nat) : Option State :=
  if Tab.find (key * 8 + d) (s.site v).refused = some m.txn then some (s.consume m.id)
  else if s.holdFull v 7 then none
  else
    let s := ((s.consume m.id).modSite v fun t => { t with refused := Tab.put (key * 8 + d) m.txn t.refused }).collectiveNotice v
    some (s.reply m (.status 1) [] false)

/-- REQ_CONTRIBUTION: a piece from a neighbour is combined, or refused (R209, R210). -/
def State.contribution (s : State) (n : Nat) : Option State :=
  match s.arriving n with
  | some m => match m.op with
    | .contribution key d =>
      let v := m.dst
      let e := s.trellis v key
      if (s.site v).outOfService then some (s.turnAway m)
      else if e.accepts d && !decide (Tab.find (key * 8 + d) (s.site v).refused = some m.txn) then
        let s := s.consume n
        let i0 := m.off / elemSize e.op
        let e := e.absorb i0 ((m.words.zip m.wflags).map fun (w, g) => (w.toNat, g))
        let got := Tab.get 0 d e.pieces + m.words.length
        let e := { e with pieces := Tab.put d got e.pieces, gchild := if e.count ≤ got then setBit e.gchild d else e.gchild }
        some ((s.setTrellis v key e).testTrellis v key)
      else s.refusePiece m v key d
    | _ => none
  | none => none

/-- REQ_CONTRIBUTION (R209). -/
def execReqContribution (m : Nat) (s : State) : Out := due "REQ_CONTRIBUTION" (s.contribution m)

/-- REQ_RESULT: a piece of the result arrives from the parent, or is dropped with a notice (R209, R210). -/
def State.resultPiece (s : State) (n : Nat) : Option State :=
  match s.arriving n with
  | some m => match m.op with
    | .result key d =>
      let v := m.dst
      let e := s.trellis v key
      if (s.site v).outOfService then some (s.turnAway m)
      else if e.st = .wait ∧ e.parent = d then
        let s := s.consume n
        let i0 := m.off / elemSize e.op
        let elems := m.words.zipIdx.foldl (fun t (w, j) => Tab.put (i0 + j) w t) e.elems
        let got := Tab.get 0 5 e.pieces + m.words.length
        some (s.setTrellis v key { e with elems, pieces := Tab.put 5 got e.pieces, st := if e.count ≤ got then .deliver else .wait })
      else if s.holdFull v 7 then none
      else some ((s.consume n).collectiveNotice v)
    | _ => none
  | none => none

/-- REQ_RESULT (R209). -/
def execReqResult (m : Nat) (s : State) : Out := due "REQ_RESULT" (s.resultPiece m)

/-- The result is written at this pavilion (R209): everywhere with a local bit in mode down, at the root alone in mode root only. -/
def Trellis.writesHere (e : Trellis) : Bool := if e.mode = 0 then bitOn e.children 4 else e.parent == 4

/-- Every store granule of the result's bytes is held by some gang (R80, R209). -/
def State.destHeld (s : State) (v : Nat) (e : Trellis) : Bool :=
  (List.range ((e.dest + e.bytes - 1) / 16384 + 1 - e.dest / 16384)).all fun i => (s.site v).storeHeld e.bower (e.dest / 16384 + i)

/-- TRELLIS_DELIVER: the result goes to every child direction and is written with its counter raised where the mode calls for it; the
entry is FREE, its other fields 0 (log 89), the latch excepted (R209). A user-armed result whose bytes nobody holds is not written, with a notice event. -/
def State.deliver (s : State) (v key : Nat) : Option State :=
  let e := s.trellis v key
  if e.st ≠ .deliver then none
  else
    let l := s.elements e
    let bad := e.writesHere && e.user && !s.destHeld v e
    if (bad && s.holdFull v 7) || (e.writesHere && !bad && s.stalled v e.bower (partGranules v e.bower e.dest e.bytes)) then none
    else
      let s := each ((List.range 4).filter fun d => bitOn e.children d) (fun s d => s.sendPieces v key d e .result l) s
      if !e.writesHere then some (s.setTrellis v key { latch := e.latch })
      else if bad then some ((s.raise v 7 sevNotice Code.unheldStore.num none 0).setTrellis v key { latch := e.latch })
      else
        let d := l.flatMap fun q => leBytes (elemSize e.op) q.1.toNat
        let first := (l.head?.map fun q => BitVec.ofNat 64 (q.1.toNat % 2 ^ (8 * elemSize e.op))).getD 0
        let s := (s.setTrellis v key { latch := first }).engineStore v e.bower e.dest d (s.engineKey v (if key < 256 then 0x01 else 0x02))
        some (s.addTc v e.rctr 1)

/-- Key of a group on a mesh. -/
def trellisKey (x : Mesh) (g : Nat) : Nat := match x with | .oak => g | .ash => 256 + g

/-- TRELLIS_DELIVER (R209). -/
def execTrellisDeliver (v : Nat) (x : Mesh) (g : Nat) (s : State) : Out := due "TRELLIS_DELIVER" (s.deliver v (trellisKey x g))

/-- A firmware clear of an entry (R210): it is FREE, its buffers are freed; the latch stays (R369). DESIGN CHOICE (log 89): every other field of a FREE
entry reads 0. -/
def State.clearTrellis (s : State) (v key : Nat) : State := s.setTrellis v key { latch := (s.trellis v key).latch }

/-- TR_CLEAR (R210). -/
def execTrClear (v : Nat) (x : Mesh) (w : BitVec 64) (s : State) : Out :=
  due "TR_CLEAR" (if kindOf v = .pavilion then some (s.clearTrellis v (trellisKey x (w.toNat % 256))) else none)

/-! ## `coll.put` and `coll.getr` (R368, R369) -/

/-- The entry's key that value(a) names. -/
def groupKey (w : Nat) : Nat := w % 512

/-- COLL_PUT (R368). -/
def execCollPut (d a b : BitVec 8) (s : State) : Out :=
  .next (s.issue [d.toNat, a.toNat, b.toNat] fun s =>
    let v := siteOfK s.cur
    let key := groupKey (s.val a).toNat
    let e := s.trellis v key
    let status (s : State) (n : Nat) : State := s.askUnit (.load .w64 d.toNat 4) .data (leBytes 8 n)
    if !e.accepts 4 then
      if s.holdFull v 7 then s.park s.cur .access .eventHold else status (s.collectiveNotice v) 1
    else if e.count ≠ 1 then status s 2
    else status (s.contributeLocal v key [(s.val b).toNat % 2 ^ (8 * elemSize e.op)]) 0)

/-- Word 0 of an entry (R208). -/
def Trellis.word0 (e : Trellis) : Word :=
  let st := match e.st with | .free => 0 | .collect => 1 | .wait => 2 | .deliver => 3
  BitVec.ofNat 64 (st * 2 ^ 62 + e.parent * 2 ^ 59 + e.children * 2 ^ 54 + e.op * 2 ^ 50 + e.count * 2 ^ 36 + e.nlocal * 2 ^ 28
    + e.glocal * 2 ^ 20 + e.gchild * 2 ^ 15)

/-- Word i of a trellis entry (R208). -/
def Trellis.wordAt (e : Trellis) (i : Nat) : Nat :=
  match i with
  | 0 => e.word0.toNat
  | 1 => e.bufs
  | 2 => e.mode * 2 ^ 62 + bitAt e.user 61 + e.bower * 2 ^ 56 + e.dest
  | _ => e.launch.toNat * 2 ^ 32 + e.rctr

/-- COLL_GETR (R369). -/
def execCollGetr (d a : BitVec 8) (s : State) : Out :=
  .next (s.issue [d.toNat, a.toNat] fun s =>
    let w := (s.val a).toNat
    let e := s.trellis (siteOfK s.cur) (groupKey w)
    s.askUnit (.load .w64 d.toNat 4) .data (leBytes 8 (if bitOn w 9 then e.word0 else e.latch).toNat))

/-! ## `coll.arm` (R366, R367) -/

/-- One member record of an arm block. -/
structure Member where
  x : Nat
  y : Nat
  nlocal : Nat
  children : Nat
  parent : Nat
  /-- its reserved bits are 0 and its parent code is defined -/
  clean : Bool
deriving DecidableEq, Repr

/-- The member record in a word (R366). -/
def memberOf (w : Nat) : Member :=
  { x := bits w 7 0, y := bits w 15 8, nlocal := bits w 39 32, children := bits w 28 24, parent := bits w 18 16,
    clean := bits w 63 40 == 0 && bits w 31 29 == 0 && bits w 23 19 == 0 && decide (bits w 18 16 ≤ 4) }

/-- The block-parameter check of an arm block (R367). -/
def armBad (h0 h1 : Nat) (ms : List Member) : Bool :=
  let op := bits h0 15 12
  let count := bits h0 29 16
  let n := bits h1 40 32
  let dest := bits h1 21 0
  bits h0 63 50 != 0 || bits h0 47 42 != 0 || bits h0 11 9 != 0 || decide (2 ≤ bits h0 31 30) || decide (10 < op) || bits h1 63 41 != 0
    || bits h1 31 22 != 0 || !ms.all (·.clean) || decide (n = 0 ∨ 320 < n) || decide (count = 0 ∨ 8192 < count)
    || ms.any (fun m => decide (0 < m.nlocal) != bitOn m.children 4) || decide (4 < (count * elemSize op + 4095) / 4096)
    || dest % elemSize op != 0 || decide (4194304 < dest + count * elemSize op)

/-- Following parents reaches the root within the number of members. -/
def reachesRoot (ms : List (Nat × Member)) : Nat → Nat → Bool
  | 0, _ => false
  | n + 1, v =>
    match Tab.find v ms with
    | none => false
    | some m => m.parent == 4 || (match neighbour v m.parent with | some p => reachesRoot ms n p | none => false)

/-- The tree of an arm block is well formed on its members' physical sites (R366). -/
def wellFormedTree (ms : List (Nat × Member)) : Bool :=
  let up (q : Nat × Member) : Bool :=
    q.2.parent == 4 || (match neighbour q.1 q.2.parent with
      | none => false
      | some p => match Tab.find p ms with
        | none => false
        | some m => bitOn m.children (opposite q.2.parent))
  let down (q : Nat × Member) : Bool := (List.range 4).all fun d => !bitOn q.2.children d || (match neighbour q.1 d with
    | none => false
    | some c => match Tab.find c ms with
      | none => false
      | some m => m.parent == opposite d)
  decide (ms.map (·.1)).Nodup && (ms.filter fun q => q.2.parent == 4).length == 1 && ms.all up && ms.all down
    && ms.all fun q => reachesRoot ms (ms.length + 1) q.1

/-- The entry that an arm writes at a member (R208, R366, R367). -/
def armEntry (h0 h1 : Nat) (m : Member) (launch : BitVec 32) (sup : Bool) : Trellis :=
  { parent := m.parent, children := m.children, op := bits h0 15 12, count := bits h0 29 16, nlocal := m.nlocal, mode := bits h0 31 30,
    user := !sup, bower := bits h0 49 48, dest := bits h1 21 0, launch, rctr := bits h0 41 32 }

/-- An arm message to a member's router, on the group's mesh (R204, R367). -/
def State.sendArm (s : State) (v key o d : Nat) (op : MsgOp) : State :=
  let (t, s) := s.fresh
  let q : Msg := { id := 0, op, mesh := if d = v then none else some (meshOfKey key), src := v, dst := d, key := s.engineKey v 0, txn := t }
  let s : State := { s with txns := s.txns ++ [{ id := t, acc := { owner := .arm v o }, req := q }] }
  s.sendOut q

/-- The engine's part of `coll.arm`, once the block is read and checked: the members' sites, the tree, then the reservations. -/
def State.armGo (s : State) (d h0 h1 : Nat) (ms : List Member) : State :=
  let k := s.cur
  let v := siteOfK k
  let status (n : Nat) : State := s.askUnit (.load .w64 d 4) .data (leBytes 8 n)
  match ms.mapM (fun m => if s.kindAt v m.x m.y = some .pavilion then (s.resolve v m.x m.y 0).map (fun r => (r.1, m)) else none) with
  | none => status 3
  | some l =>
    if !wellFormedTree l then status 2
    else
      let key := trellisKey (if bitOn h0 8 then .ash else .oak) (bits h0 7 0)
      let (o, s) := s.fresh
      let es := l.map fun (p, m) => (p, armEntry h0 h1 m s.me.launch s.me.sup)
      let s := s.park k .access (.arm d)
      let s := s.modSite v fun t => { t with arms := t.arms ++ [{ id := o, k, d, key, members := es, left := es.length }] }
      each es (fun s (p, e) => s.sendArm v key o p (.armReserve key o e)) s

/-- COLL_ARM (R367). -/
def execCollArm (d a : BitVec 8) (s : State) : Out :=
  .next (s.issue [d.toNat, a.toNat] fun s =>
    let k := s.cur
    let v := siteOfK k
    let u := bowerOf k
    let o := (s.val a).toNat
    if o % 64 ≠ 0 then s.raiseFault k .alignment
    else if 4194304 < o + 16 then s.raiseFault k .addressRange
    else if s.stalled v u (granuleKeys v u o 16) then s.park k .access .eventHold
    else match s.storeGet v u o 16 s.me.sup with
      | (.error c, s) => s.raiseFault k c
      | (.ok h, s) =>
        let h0 := wordAt h 0
        let h1 := wordAt h 1
        let n := bits h1 40 32
        if 4194304 < o + 16 + 8 * n then s.raiseFault k .addressRange
        else match s.storeGet v u (o + 16) (8 * n) s.me.sup with
          | (.error c, s) => s.raiseFault k c
          | (.ok l, s) =>
            let ms := (List.range n).map fun i => memberOf (wordAt l i)
            if armBad h0 h1 ms then s.raiseFault k .blockParameter else s.armGo d.toNat h0 h1 ms)

/-- Combine buffers of a mesh in use at a router: those of its entries and reservations (R208). -/
def State.buffersUsed (s : State) (v key : Nat) : Nat :=
  ((s.site v).trellis.filter fun (n, e) => n / 256 == key / 256 && (e.st != .free || e.reserved.isSome)).foldl (fun m q => m ||| q.2.bufs) 0

/-- The n lowest free buffers as a mask. -/
def pickBuffers (used n : Nat) : Nat := (((List.range 64).filter fun i => !bitOn used i).take n).foldl setBit 0

/-- REQ_ARM_RESERVE: a router reserves an entry and its buffers for an arm, or answers 1 (R367). -/
def State.armReserve (s : State) (n : Nat) : Option State :=
  match s.arriving n with
  | some m => match m.op with
    | .armReserve key o e =>
      let v := m.dst
      let t := s.consume n
      let old := s.trellis v key
      let used := s.buffersUsed v key
      if (s.site v).outOfService then some (s.turnAway m)
      else if old.st = .free ∧ old.reserved = none ∧ e.buffers ≤ 64 - popCount used 64 then
        some ((t.setTrellis v key { latch := old.latch, reserved := some o, bufs := pickBuffers used e.buffers }).reply m (.status 0) [] false)
      else some (t.reply m (.status 1) [] false)
    | _ => none
  | none => none

/-- REQ_ARM_RESERVE (R367). -/
def execReqArmReserve (m : Nat) (s : State) : Out := due "REQ_ARM_RESERVE" (s.armReserve m)

/-- REQ_ARM_COMMIT: a reserved entry goes to COLLECT (R209, R367). -/
def State.armCommit (s : State) (n : Nat) : Option State :=
  match s.arriving n with
  | some m => match m.op with
    | .armCommit key o e =>
      let v := m.dst
      let t := s.consume n
      let old := s.trellis v key
      let t := if old.reserved = some o then t.setTrellis v key { e with st := .collect, bufs := old.bufs, latch := old.latch } else t
      some (if (s.site v).outOfService then s.turnAway m else (t.reply m (.status 0) [] false).testTrellis v key)
    | _ => none
  | none => none

/-- REQ_ARM_COMMIT (R367). -/
def execReqArmCommit (m : Nat) (s : State) : Out := due "REQ_ARM_COMMIT" (s.armCommit m)

/-- REQ_ARM_RELEASE: a reservation is given back (R367). -/
def State.armRelease (s : State) (n : Nat) : Option State :=
  match s.arriving n with
  | some m => match m.op with
    | .armRelease key o =>
      let v := m.dst
      let t := s.consume n
      let old := s.trellis v key
      let t := if old.reserved = some o then t.setTrellis v key { latch := old.latch } else t
      some (if (s.site v).outOfService then s.turnAway m else t.reply m (.status 0) [] false)
    | _ => none
  | none => none

/-- REQ_ARM_RELEASE (R367). -/
def execReqArmRelease (m : Nat) (s : State) : Out := due "REQ_ARM_RELEASE" (s.armRelease m)

/-- The arm operation is over: the strand, if it still waits, gets its status. -/
def State.armEnd (s : State) (v : Nat) (o : ArmOp) (r : Nat) : State :=
  let s := s.modSite v fun t => { t with arms := t.arms.filter fun q => q.id != o.id }
  if (s.strand o.k).cont = .arm o.d then (s.modStrand o.k fun x => x.setReg o.d (BitVec.ofNat 64 r)).completed o.k 4 else s

/-- A member's answer to an arm message (R367): after the last reservation every entry is armed or every reservation given back. -/
def State.armAnswer (s : State) (v n site r : Nat) : State :=
  match (s.site v).arms.find? (fun o => o.id == n) with
  | none => s
  | some o =>
    let o := { o with left := o.left - 1, failed := o.failed || (o.stage == 0 && r != 0),
                      reserved := if o.stage = 0 ∧ r = 0 then o.reserved ++ [site] else o.reserved }
    let put (s : State) (o : ArmOp) : State := s.modSite v fun t => { t with arms := t.arms.map fun (q : ArmOp) => if q.id = o.id then o else q }
    if o.left ≠ 0 then put s o
    else if o.stage = 0 then
      if !o.failed then
        each o.members (fun s (p, e) => s.sendArm v o.key n p (.armCommit o.key n e)) (put s { o with stage := 1, left := o.members.length })
      else if o.reserved.isEmpty then s.armEnd v o 1
      else each o.reserved (fun s p => s.sendArm v o.key n p (.armRelease o.key n)) (put s { o with stage := 2, left := o.reserved.length })
    else s.armEnd v o (if o.stage = 1 then 0 else 1)

end Sys2Proof.Machine
end

