-- ==== Sys2Proof/Machine/Triggers.lean ====
section
/-! DEFINITION. Counter instructions and the trigger list: posting and its checks, firing, and what a fired entry does (R215-R220, R358-R365). -/

namespace Sys2Proof.Machine

/-! ## Target words and counters (R358, R359) -/

/-- The physical pavilion that a target word names from site v, and the mesh to it; none is the unreachable-site fault (R358). `h` is the
offset whose hash the message uses (R204). -/
def State.target? (s : State) (v : Nat) (w h : Nat) : Option (Nat × Option Mesh) :=
  let (x, y) := s.virt v
  let nx : Int := if bitOn w 48 then x + sextNat 8 (bits w 39 32) else bits w 39 32
  let ny : Int := if bitOn w 48 then y + sextNat 8 (bits w 47 40) else bits w 47 40
  if 0 ≤ nx ∧ nx < 20 ∧ 0 ≤ ny ∧ ny < 20 ∧ s.kindAt v nx.toNat ny.toNat = some .pavilion then s.resolve v nx.toNat ny.toNat h else none

/-- The counter that a target word names (R358). -/
def ctrOf (w : Word) : Nat := w.toNat % 1024

/-- An instruction that waits for the relaxed accesses and then asks a unit (R359). -/
def State.afterRelaxed (s : State) (body : State → State) : State :=
  if s.me.tracker.isEmpty then body s else s.park s.cur .relaxedWait .reissue

/-- CTR_ADD (R359). -/
def execCtrAdd (a b : BitVec 8) (s : State) : Out :=
  .next (s.issue [a.toNat, b.toNat] fun s => s.afterRelaxed fun s =>
    (s.askUnit (.done 4) .ack []).addTc (siteOfK s.cur) (ctrOf (s.val a)) (s.val b))

/-- CTR_SET (R359). -/
def execCtrSet (a b : BitVec 8) (s : State) : Out :=
  .next (s.issue [a.toNat, b.toNat] fun s => (s.askUnit (.done 4) .ack []).setTc (siteOfK s.cur) (ctrOf (s.val a)) (s.val b))

/-- CTR_READ (R359). -/
def execCtrRead (d a : BitVec 8) (s : State) : Out :=
  .next (s.issue [d.toNat, a.toNat] fun s =>
    s.askUnit (.load .w64 d.toNat 4) .data (leBytes 8 (s.tc (siteOfK s.cur) (ctrOf (s.val a))).toNat))

/-- CTR_WAIT: parked with reason access until the engine answers, then with reason counter while the value is below the threshold
(R217, R359). -/
def execCtrWait (a b : BitVec 8) (s : State) : Out :=
  .next (s.issue [a.toNat, b.toNat] fun s =>
    let n := ctrOf (s.val a)
    let t := s.val b
    if t.toNat ≤ (s.tc (siteOfK s.cur) n).toNat then s.askUnit (.done 4) .ack []
    else (s.park s.cur .access (.counter n t)).repark s.cur .counter)

/-- A counter add on its way to a pavilion, for an owner (R404). -/
def State.sendAdd (s : State) (v key d : Nat) (m : Option Mesh) (n : Nat) (w : Word) (a : Acc) : State :=
  let (t, s) := s.fresh
  let q : Msg := { id := 0, op := .counterAdd n, mesh := m, src := v, dst := d, key, data := leBytes 8 w.toNat, txn := t }
  let s : State := { s with txns := s.txns ++ [{ id := t, acc := a, req := q }] }
  s.sendOut q

/-- CTR_ADDR: the wait of `wait.r`, then the target (R358, R359). -/
def execCtrAddr (a b : BitVec 8) (s : State) : Out :=
  .next (s.issue [a.toNat, b.toNat] fun s => s.afterRelaxed fun s =>
    let v := siteOfK s.cur
    let n := ctrOf (s.val a)
    match s.target? v (s.val a).toNat (counterHash n) with
    | none => s.raiseFault s.cur .unreachableSite
    | some (p, m) =>
      if m.isNone then (s.askUnit (.done 4) .ack []).addTc v n (s.val b)
      else (s.park s.cur .access (.done 4)).sendAdd v (s.number s.cur) p m n (s.val b) s.unitAcc)

/-- REQ_COUNTER_ADD: an add reaches its pavilion (R216). A site out of service answers with an error (R416). -/
def State.counterAdd (s : State) (n : Nat) : Option State :=
  match s.arriving n with
  | some m => match m.op with
    | .counterAdd c =>
      let s := s.consume n
      let t := s.site m.dst
      if t.state = .failed ∨ t.state = .isolated then some (s.reply m (.error Code.unreachableSite.num) [] false)
      else some ((s.addTc m.dst c (leWord m.data)).reply m .ack [] false)
    | _ => none
  | none => none

/-- REQ_COUNTER_ADD (R216). -/
def execReqCounterAdd (m : Nat) (s : State) : Out := due "REQ_COUNTER_ADD" (s.counterAdd m)

/-- COUNTER_WINDOW_STORE: a supervisor store to a counter in the control window is a set (R215). -/
def execCounterWindowStore (v n : Nat) (w : BitVec 64) (s : State) : Out :=
  due "COUNTER_WINDOW_STORE" (if kindOf v = .pavilion ∧ n < 1024 then some (s.setTc v n w) else none)

/-! ## Operation blocks (R360, R362) -/

/-- Word i of a block. -/
def blockWord (b : List Word) (i : Nat) : Nat := ((b[i]?).getD 0).toNat

/-- The op of a block. -/
def blockOp (b : List Word) : Nat := blockWord b 0 % 16

/-- Bits of words 2, 3 and 4 that the op gives a meaning (R360); all others are reserved. -/
def blockMask (op : Nat) : Nat × Nat × Nat :=
  match op with
  | 0 => (2 ^ 60 - 1, 0x7FFF * 2 ^ 32 + 0x3FFFFF, 0)
  | 1 => (2 ^ 60 - 1, 0xF, 2 ^ 64 - 1)
  | 2 => (0, 0x3FFFFF, 0)
  | 3 => (0, 0x3FF, 2 ^ 64 - 1)
  | 4 => (0, 0x1FFFF * 2 ^ 32 + 0x3FF, 2 ^ 64 - 1)
  | 5 => (0, 0x3FFFFF * 2 ^ 32 + 0x1FF, 0)
  | 6 => (2 ^ 60 - 1, 0, 0)
  | _ => (0, 0xF3, 2 ^ 64 - 1)

/-- A number has no bit outside a mask. -/
def withinMask (w m : Nat) : Bool := w &&& m == w

/-- The length of a put. -/
def putLen (b : List Word) : Nat := bits (blockWord b 3) 46 32
/-- The offset that a block names: the payload of a put or a collective step, or a copy block. -/
def blockOff (b : List Word) : Nat := if blockOp b = 5 then bits (blockWord b 3) 53 32 else bits (blockWord b 3) 21 0
/-- The operand bytes of an amo block. -/
def amoLen (b : List Word) : Nat := if blockWord b 3 % 16 = 1 then 4 else 8
/-- Bytes that an operation names at its address: a put, an amo, a descriptor. -/
def nameLen (b : List Word) : Nat := if blockOp b = 0 then putLen b else if blockOp b = 1 then amoLen b else 256

/-- Block-parameter (R362, 1). A collective step's payload is measured by its group's entry as it stands. -/
def State.blockBad (s : State) (v : Nat) (b : List Word) : Bool :=
  let w := blockWord b
  let op := blockOp b
  let (m2, m3, m4) := blockMask op
  let n := if op = 0 then putLen b else if op = 2 then 128 else if op = 5 then (s.trellis v (groupKey (w 3))).bytes else 0
  decide (7 < op) || bits (w 0) 63 58 != 0 || bits (w 0) 47 42 != 0 || bits (w 0) 31 26 != 0 || bits (w 0) 15 7 != 0
    || !withinMask (w 2) m2 || !withinMask (w 3) m3 || !withinMask (w 4) m4 || w 5 != 0 || w 6 != 0 || w 7 != 0
    || (bitOn (w 0) 4 && w 1 == 0) || (bitOn (w 0) 6 && decide (1 < op)) || (op == 1 && decide (8 < w 3 % 16))
    || (op == 0 && (decide (putLen b < 16 ∨ 16384 < putLen b) || putLen b % 16 != 0))
    || ((op == 0 || op == 2 || op == 5) && decide (4194304 < blockOff b + n))

/-- Alignment (R362, 2). -/
def blockMisaligned (b : List Word) : Bool :=
  let a := blockWord b 2
  match blockOp b with
  | 0 => blockOff b % 16 != 0 || a % 16 != 0
  | 1 => a % amoLen b != 0
  | 2 => blockOff b % 128 != 0
  | 5 => blockOff b % 16 != 0
  | 6 => a % 64 != 0
  | _ => false

/-- Rights that the named bytes need (R362, 4). -/
def blockNeed (op : Nat) : Nat := if op = 0 then rW else if op = 1 then rW + rA else rR

/-- The block check of R362 for a strand: the first applicable fault, with the address where the spec names one. -/
def State.checkBlock (s : State) (k : Nat) (b : List Word) : Option (Code × Option Addr) :=
  let v := siteOfK k
  let x := s.strand k
  let op := blockOp b
  let a : Addr := BitVec.ofNat 60 (blockWord b 2)
  if s.blockBad v b then some (.blockParameter, none)
  else if blockMisaligned b then some (.alignment, none)
  else if op < 2 ∧ kindBits a.toNat ≠ 1 ∧ kindBits a.toNat ≠ 2 then some (.addressKind, some a)
  else
    match (if op < 2 then s.route v x.sup a (nameLen b) else (.ok { dst := v } : Checked Route)) with
    | .error (c, q) => some (c, q)
    | .ok _ =>
      if (op < 2 ∨ op = 6) ∧ !s.covered v x a (nameLen b) (blockNeed op) then some (.segment, some a)
      else if op = 4 ∧ (s.target? v (blockWord b 3) 0).isNone then some (.unreachableSite, none)
      else none

/-! ## Posting (R361) -/

/-- The lowest-numbered FREE entry. -/
def Site.freeTrig (t : Site) : Option Nat := (List.range 512).find? fun n => (Tab.get {} n t.trigs).st == .free

/-- A post after the wait of `wait.r`: the block is read and checked, and the entry armed (R361). DESIGN CHOICE (log 88): so it is where the strand
posts while its gang is STOPPING; what R161 suspends is what was posted before the request. -/
def State.post? (s : State) (d : Nat) (o threshold adv : Nat) : State :=
  let k := s.cur
  let v := siteOfK k
  let u := bowerOf k
  if o % 64 ≠ 0 then s.raiseFault k .alignment
  else if 4194304 ≤ o then s.raiseFault k .addressRange
  else if s.stalled v u (granuleKeys v u o 64) then s.park k .access .eventHold
  else match s.storeGet v u o 64 s.me.sup with
    | (.error c, s) => s.raiseFault k c
    | (.ok l, s) =>
      let b := (List.range 8).map fun i => BitVec.ofNat 64 (wordAt l i)
      match s.checkBlock k b with
      | some (c, a) => s.faultAt c a 0
      | none =>
        match (s.site v).freeTrig with
        | none => s.askUnit (.load .w64 d adv) .data (leBytes 8 (2 ^ 64 - 1))
        | some n =>
          let x := s.me
          let segs := if blockOp b = 2 ∨ blockOp b = 6 then x.segs else []
          let e : Trig := { st := .armed, block := b, threshold, seq := (s.site v).trigSeq, k, strand := s.number k, launch := x.launch,
                            gang := x.gang, entry := x.entry, sup := x.sup, segs }
          let s := (s.modSite v fun t => { t with trigs := Tab.put n e t.trigs, trigSeq := t.trigSeq + 1 }).testWatched v [e.watch]
          s.askUnit (.load .w64 d adv) .data (leBytes 8 n)

/-- TRIG_POST (R361). -/
def execTrigPost (d a b : BitVec 8) (s : State) : Out :=
  .next (s.issue [d.toNat, a.toNat, b.toNat] fun s => s.afterRelaxed fun s => s.post? d.toNat (s.val b).toNat (s.val a).toNat 4)

/-- TRIG_POSTL (R361). -/
def execTrigPostl (d a : BitVec 8) (imm : BitVec 32) (s : State) : Out :=
  .next (s.issue [d.toNat, a.toNat] fun s => s.afterRelaxed fun s => s.post? d.toNat (s.val a).toNat imm.toNat 8)

/-! ## Cancel and query (R365) -/

/-- A trigger-list entry of a pavilion. -/
def State.trig (s : State) (v n : Nat) : Trig := Tab.get {} n (s.site v).trigs

/-- TRIG_CANCEL (R365). -/
def execTrigCancel (d a : BitVec 8) (s : State) : Out :=
  .next (s.issue [d.toNat, a.toNat] fun s =>
    let v := siteOfK s.cur
    let n := (s.val a).toNat % 512
    let e := s.trig v n
    let r := if e.st = .free then 1 else if !s.me.sup && e.launch != s.me.launch then 2 else 0
    let s := if r = 0 then s.modSite v fun t => { t with trigs := Tab.del n t.trigs } else s
    s.askUnit (.load .w64 d.toNat 4) .data (leBytes 8 r))

/-- The number of a trigger entry's state (R365). -/
def TrigState.num : TrigState → Nat
  | .free => 0 | .armed => 1 | .eligible => 2 | .suspended => 3

/-- The answer of `trig.query` with bit 0 of b clear (R365). -/
def Trig.info (e : Trig) (launch : BitVec 32) : Nat :=
  if e.st = .free then 0
  else e.fired % 2 ^ 32 * 2 ^ 32 + e.watch * 2 ^ 16 + blockOp e.block * 2 ^ 8 + bitAt (e.launch == launch) 3
    + bitAt (bitOn (blockWord e.block 0) 4) 2 + e.st.num

/-- TRIG_QUERY (R365). -/
def execTrigQuery (d a b : BitVec 8) (s : State) : Out :=
  .next (s.issue [d.toNat, a.toNat, b.toNat] fun s =>
    let e := s.trig (siteOfK s.cur) ((s.val a).toNat % 512)
    let w := if (s.val b).toNat % 2 = 1 then (if e.st = .free then 0 else e.threshold) else e.info s.me.launch
    s.askUnit (.load .w64 d.toNat 4) .data (leBytes 8 w))

/-! ## Firing (R218, R219, R363, R364) -/

/-- An operation of a site's trigger engine. -/
def Site.trigOp (t : Site) (o : Nat) : Option TrigOp := t.ops.find? fun q => q.id == o

/-- An operation changed. -/
def State.modOp (s : State) (v o : Nat) (f : TrigOp → TrigOp) : State :=
  s.modSite v fun t => { t with ops := t.ops.map fun (q : TrigOp) => if q.id = o then f q else q }

/-- An operation without more to do and nothing to raise leaves. -/
def State.dropOp (s : State) (v o : Nat) : State := s.modSite v fun t => { t with ops := t.ops.filter fun (q : TrigOp) => q.id != o }

/-- The operation stops on a fault (R364). -/
def State.opFault (s : State) (v o code : Nat) (a : Addr) : State :=
  s.modOp v o fun q => { q with fault := match q.fault with | some f => some f | none => some (code, a), last := none }

/-- The access record of an operation. -/
def TrigOp.acc (q : TrigOp) (v : Nat) : Acc := { k := q.k, sup := q.sup, owner := .trigger v q.id }

/-- A put: every granule is written, with a tag the last one after the others are acknowledged (R363). -/
def State.startPut (s : State) (v : Nat) (q : TrigOp) : State :=
  let b := q.block
  let n := putLen b / 16
  let a : Addr := BitVec.ofNat 60 (blockWord b 2)
  match s.storeGet v (bowerOf q.k) (blockOff b) (putLen b) q.sup with
  | (.error c, s) => s.opFault v q.id c.num (s.homeAddr v (bowerOf q.k) (blockOff b))
  | (.ok l, s) =>
    let acc (i : Nat) : Acc :=
      { q.acc v with addr := a + BitVec.ofNat 60 (16 * i), op := .write, size := 16, data := (l.drop (16 * i)).take 16, en := allOn 16 }
    if bitOn (blockWord b 0) 6 then
      let z : Acc := { acc (n - 1) with tag := some (bits (blockWord b 0) 57 48) }
      if n = 1 then (s.modOp v q.id fun q => { q with left := 1 }).sendAccess z
      else each (List.range (n - 1)) (fun s i => s.sendAccess (acc i)) (s.modOp v q.id fun q => { q with left := n - 1, last := some z })
    else each (List.range n) (fun s i => s.sendAccess (acc i)) (s.modOp v q.id fun q => { q with left := n })

/-- The atomic of an aop code (R360). -/
def aopOf (n : Nat) : AmoOp := [AmoOp.add, .fadd, .minI, .maxI, .minN, .maxN, .and, .or, .xor].getD n .add

/-- An amo (R363). -/
def State.startAmo (s : State) (v : Nat) (q : TrigOp) : State :=
  let b := q.block
  let op := aopOf (blockWord b 3 % 16)
  let a : Acc := { q.acc v with addr := BitVec.ofNat 60 (blockWord b 2), op := .amo op, size := op.size, data := leBytes op.size (blockWord b 4),
                                en := allOn op.size, tag := if bitOn (blockWord b 0) 6 then some (bits (blockWord b 0) 57 48) else none }
  (s.modOp v q.id fun q => { q with left := 1 }).sendAccess a

/-- A copy: its block goes to the posting core's sequencer, ahead of the mailboxes (R363). -/
def State.startCopy (s : State) (q : TrigOp) (e : Trig) : State :=
  let m : Mail := { off := blockOff q.block, slot := slotOf q.k, entry := e.entry, pc := 0, segs := e.segs, sup := q.sup, launch := e.launch, gang := e.gang }
  s.modCore (coreOfK q.k) fun x => { x with offered := x.offered ++ [(some q.id, m)] }

/-- The message of a launch operation: the descriptor, read in the mode of the poster, with the check of status 5 (R341, R363). The read sets the
accessed bits of its pages and lets their homes correct struck granules (R83, R90). -/
def State.startLaunchOp (s : State) (v : Nat) (q : TrigOp) (segs : List (Nat × Seg)) : State :=
  let a : Addr := BitVec.ofNat 60 (blockWord q.block 2)
  let l := s.sysFetch v q.sup a 256
  let s := s.sysSeen v q.sup a 256
  match l with
  | .error .uncorrectable => s.opFault v q.id Code.blockParameter.num a
  | .error c => s.opFault v q.id c.num a
  | .ok l =>
    let m := descOf l
    let g := rimSite m.gate
    match s.resolve v (xOf g) (yOf g) 0 with
    | none => s.opFault v q.id Code.blockParameter.num a
    | some (p, mesh) =>
      let st := if !q.sup && m.escapes ((List.range 8).map fun i => Tab.get {} i segs) then 5 else 0
      let (t, s) := s.fresh
      let w : Msg := { id := 0, op := .launchSub m st, mesh, src := v, dst := p, key := s.engineKey v 0, data := leBytes 8 a.toNat, txn := t }
      let s : State := { s with txns := s.txns ++ [{ id := t, acc := q.acc v, req := w }] }
      s.sendOut w

/-- A queue word goes to a core of the own pavilion as an arriving message (R363, R370). -/
def State.startQueueWord (s : State) (v : Nat) (q : TrigOp) : State :=
  let w := blockWord q.block 3
  let (t, s) := s.fresh
  let m : Msg := { id := 0, op := .nqWord (bits w 7 4) (bits w 1 0), src := v, dst := v, key := s.engineKey v 0, data := leBytes 8 (blockWord q.block 4), txn := t }
  let s : State := { s with txns := s.txns ++ [{ id := t, acc := q.acc v, req := m }] }
  s.sendOut m

/-- A collective step: the payload enters the router as one local contribution; a refusal raises the router's notice alone (R363, R364). -/
def State.startStep (s : State) (v : Nat) (q : TrigOp) : State :=
  let key := groupKey (blockWord q.block 3)
  let e := s.trellis v key
  let off := blockOff q.block
  if !e.accepts 4 then (s.collectiveNotice v).dropOp v q.id
  else if 4194304 < off + e.bytes then s.opFault v q.id Code.addressRange.num (s.homeAddr v (bowerOf q.k) off)
  else match s.storeGet v (bowerOf q.k) off e.bytes q.sup with
    | (.error c, s) => s.opFault v q.id c.num (s.homeAddr v (bowerOf q.k) off)
    | (.ok l, s) => (s.contributeLocal v key (elemsOf e.op l)).modOp v q.id fun q => { q with done := true }

/-- The issue of a fired operation (R363). -/
def State.startOp (s : State) (v : Nat) (q : TrigOp) (e : Trig) : State :=
  let b := q.block
  let finished (s : State) : State := s.modOp v q.id fun q => { q with done := true }
  match blockOp b with
  | 0 => s.startPut v q
  | 1 => s.startAmo v q
  | 2 => s.startCopy q e
  | 3 => finished (s.addTc v (blockWord b 3 % 1024) (BitVec.ofNat 64 (blockWord b 4)))
  | 4 =>
    let n := blockWord b 3 % 1024
    match s.target? v (blockWord b 3) (counterHash n) with
    | none => s.opFault v q.id Code.unreachableSite.num 0
    | some (p, m) =>
      if m.isNone then finished (s.addTc v n (BitVec.ofNat 64 (blockWord b 4)))
      else (s.modOp v q.id fun q => { q with left := 1 }).sendAdd v (s.engineKey v 0) p m n (BitVec.ofNat 64 (blockWord b 4)) (q.acc v)
  | 5 => s.startStep v q
  | 6 => s.startLaunchOp v q e.segs
  | _ => s.startQueueWord v q

/-- The entry that fires next: the first to have become ELIGIBLE, then the first posted (R219). -/
def Site.nextFire (t : Site) : Option Nat :=
  let l := t.trigs.filter fun q => q.2.st == .eligible
  (l.find? fun q => l.all fun r => decide (q.2.due < r.2.due) || (decide (q.2.due = r.2.due) && decide (q.2.seq ≤ r.2.seq))).map (·.1)

/-- Granules of a bower store that the issue of an operation reads. -/
def State.opReads (s : State) (v : Nat) (e : Trig) : List Nat :=
  let n := if blockOp e.block = 0 then putLen e.block else if blockOp e.block = 5 then (s.trellis v (groupKey (blockWord e.block 3))).bytes else 0
  if n = 0 then [] else granuleKeys v (bowerOf e.k) (blockOff e.block) n

/-- The issue of an operation would raise an event that cannot be held (R165): the engine's own, a router's, or that of a struck granule which it
reads from a bower store, or as its launch descriptor. -/
def State.fireStalled (s : State) (v : Nat) (e : Trig) : Bool :=
  s.holdFull v 6 || (blockOp e.block == 5 && s.holdFull v 7) || s.stalled v (bowerOf e.k) (s.opReads v e)
    || (blockOp e.block == 6 && s.sysStalled (s.sysGranules v e.sup false true (BitVec.ofNat 60 (blockWord e.block 2)) 256))

/-- Entries that a trigger engine fires in one cycle (R219). -/
def firesPerCycle : Nat := 16

/-- TRIGGER_FIRE: the next ELIGIBLE entry issues its operation and leaves, or is armed again with its threshold raised (R218, R219). No
entry fires while an event it may raise cannot be held (R165), and no more than 16 do in one cycle. -/
def State.triggerFire (s : State) (v n : Nat) : Option State :=
  let e := s.trig v n
  if (s.site v).nextFire ≠ some n ∨ firesPerCycle ≤ (s.site v).fires ∨ s.fireStalled v e then none
  else
    let (o, s) := s.fresh
    let q : TrigOp := { id := o, op := blockOp e.block, block := e.block, k := e.k, strand := e.strand, launch := e.launch, sup := e.sup }
    let again := { e with st := TrigState.armed, threshold := min (e.threshold + blockWord e.block 1) (2 ^ 64 - 1), fired := e.fired + 1 }
    let s := s.modSite v fun t =>
      { t with trigs := if bitOn (blockWord e.block 0) 4 then Tab.put n again t.trigs else Tab.del n t.trigs
               ops := t.ops ++ [q], fires := if s.instant.isSome then t.fires + 1 else t.fires }
    some ((s.testWatched v [e.watch]).startOp v q e)

/-- TRIGGER_FIRE (R219). -/
def execTriggerFire (v n : Nat) (s : State) : Out := due "TRIGGER_FIRE" (s.triggerFire v n)

/-- A write or add of an operation is acknowledged; after the others the tagged granule of a put goes out (R363). -/
def State.opAck (s : State) (v o : Nat) : State :=
  match (s.site v).trigOp o with
  | none => s
  | some q =>
    let n := q.left - 1
    if n ≠ 0 then s.modOp v o fun q => { q with left := n }
    else match q.last with
      | some a => (s.modOp v o fun q => { q with left := 1, last := none }).sendAccess a
      | none => s.modOp v o fun q => { q with left := 0, done := q.fault.isNone }

/-- TRIGGER_OP_COMPLETE: a performed operation raises its local completion counter; one that met a fault raises a notice event instead
(R363, R364). -/
def State.opComplete (s : State) (v o : Nat) : Option State :=
  match (s.site v).trigOp o with
  | none => none
  | some q =>
    match q.fault with
    | some (c, a) => if s.holdFull v 6 then none else some ((s.raise v 6 sevNotice c (some q.strand) a).dropOp v o)
    | none =>
      if !q.done then none
      else
        let s := s.dropOp v o
        some (if bitOn (blockWord q.block 0) 5 then s.addTc v (bits (blockWord q.block 0) 41 32) 1 else s)

/-- TRIGGER_OP_COMPLETE (R363). -/
def execTriggerOpComplete (v o : Nat) (s : State) : Out := due "TRIGGER_OP_COMPLETE" (s.opComplete v o)

/-- A launch operation's status arrives (R363): accepted, to be tried again, or rejected with block-parameter (R364). -/
def State.opStatus (s : State) (v o r : Nat) (req : Msg) (acc : Acc) : State :=
  if r = 0 then s.modOp v o fun q => { q with done := true }
  else if r = 1 then
    let (t, s) := s.fresh
    let s : State := { s with txns := s.txns ++ [{ id := t, acc, req := { req with txn := t }, resend := true }] }
    s.modOp v o fun q => { q with retry := true }
  else match (s.site v).trigOp o with
    | some q => s.opFault v o Code.blockParameter.num (BitVec.ofNat 60 (blockWord q.block 2))
    | none => s

/-- TRIGGER_LAUNCH_RETRY: a launch that met a full queue is submitted again (R363). -/
def State.launchRetry (s : State) (v o : Nat) : Option State :=
  match (s.site v).trigOp o, s.txns.find? (fun t => decide (t.acc.owner = .trigger v o) && t.resend) with
  | some q, some t =>
    if !q.retry then none
    else
      let s : State := { s with txns := s.txns.map fun (u : Txn) => if u.id = t.id then { u with resend := false } else u }
      some ((s.modOp v o fun q => { q with retry := false }).sendAgain t.req)
  | _, _ => none

/-- TRIGGER_LAUNCH_RETRY (R363). -/
def execTriggerLaunchRetry (v o : Nat) (s : State) : Out := due "TRIGGER_LAUNCH_RETRY" (s.launchRetry v o)

end Sys2Proof.Machine
end

