-- ==== Sys2Proof/Machine/Copies.lean ====
section
/-! DEFINITION. Copies: `cpost`, `cquery`, `ccancel` and the copy sequencer of a core (R53, R351-R356). A beat is one message for each
16-byte granule that it touches, or for a reducing copy one for each element. -/

namespace Sys2Proof.Machine

open Sys2Proof

/-! ## The parameter block (R351, R353) -/

/-- The fields of a copy parameter block (R351). -/
def copyBlockOf (l : List Byte) : CopyBlock :=
  let w (i : Nat) : Nat := wordAt l i
  { ndim := bits (w 0) 3 0, esz := bits (w 0) 6 4, rop := bits (w 0) 11 8, sf := bitOn (w 0) 12, ce := bitOn (w 0) 13, ctr := bits (w 0) 25 16,
    chunk := bits (w 0) 47 32, srcoff := BitVec.ofNat 64 (w 1), dstoff := BitVec.ofNat 64 (w 2), sseg := bits (w 3) 2 0, dseg := bits (w 3) 6 4,
    dims := (List.range (min 8 (bits (w 0) 3 0))).map fun m =>
      (sextNat 24 (bits (w (4 + m)) 63 40), sextNat 24 (bits (w (4 + m)) 39 16), bits (w (4 + m)) 15 0 + 1) }

/-- A reserved bit of a block is set (R351). -/
def copyReserved (l : List Byte) : Bool :=
  let w (i : Nat) : Nat := wordAt l i
  bitOn (w 0) 7 || bits (w 0) 15 14 != 0 || bits (w 0) 31 26 != 0 || bits (w 0) 63 48 != 0 || bitOn (w 3) 3 || bits (w 3) 63 7 != 0
    || (List.range 12).any fun m => decide (bits (w 0) 3 0 ≤ m) && w (4 + m) != 0

/-- The block is rejected with the copy-parameter fault (R353). -/
def copyRejected (l : List Byte) : Bool :=
  let b := copyBlockOf l
  b.ndim == 0 || decide (8 < b.ndim) || decide (4 < b.esz) || decide (9 < b.rop) || (b.rop == 2 && b.esz != 2)
    || (b.rop != 0 && b.rop != 2 && b.esz != 3) || (b.sf && b.rop != 0) || b.chunk == 0 || decide (16384 < b.chunk * 2 ^ b.esz) || copyReserved l

/-- Offset of an element in the source or the destination: its digits in the radix of the counts times the strides (R351). -/
def CopyBlock.offset (b : CopyBlock) (dst : Bool) (e : Nat) : Nat :=
  let f (q : Nat × Int) (d : Int × Int × Nat) : Nat × Int := (q.1 / d.2.2, q.2 + (q.1 % d.2.2 : Nat) * (if dst then d.2.1 else d.1))
  wrap 64 (b.dims.foldl f (e, ((if dst then b.dstoff else b.srcoff).toNat : Int))).2

/-- Chunks of a copy. -/
def CopyBlock.chunks (b : CopyBlock) : Nat := (b.elems + b.chunk - 1) / b.chunk

/-! ## Finding copies -/

/-- A copy by its number. -/
def Core.copy (x : Core) (n : Nat) : Option Copy := x.copies.find? fun q => q.n == n
/-- A copy changed. -/
def Core.modCopy (x : Core) (n : Nat) (f : Copy → Copy) : Core := { x with copies := x.copies.map fun q => if q.n = n then f q else q }
/-- A copy waits on a replay entry (R356). -/
def Core.copyWaits (x : Core) (n : Nat) : Bool := x.replays.any fun r => r.waiting && r.holdsCopy n

/-- The copy strand parks when its last work has gone (R124, R126). -/
def State.copyRest (s : State) (c : Nat) : State := if (s.core c).copyIdle then s.count c (0x040 + Park.copyIdle.code) 1 else s

/-! ## Instructions (R352, R356) -/

/-- CPOST (R352). -/
def execCpost (a b : BitVec 8) (s : State) : Out :=
  .next (s.issue [a.toNat, b.toNat] fun s =>
    let k := s.cur
    let c := coreOfK k
    let n := (s.val b).toNat
    let o := (s.val a).toNat
    if 3 < n then s.raiseFault k .copyParameter
    else if o % 128 ≠ 0 then s.raiseFault k .alignment
    else if storeBytes ≤ o then s.raiseFault k .addressRange
    else if !s.me.tracker.isEmpty then s.park k .relaxedWait .reissue
    else if (Tab.find n (s.core c).mail).isSome then s.park k .mailbox (.mailbox n)
    else
      let x := s.me
      let f (y : Core) : Core :=
        let m : Mail := { off := o, slot := slotOf k, entry := x.entry, pc := x.pc, segs := x.segs, sup := x.sup, launch := x.launch, gang := x.gang, seq := y.mailSeq }
        { y with mail := Tab.put n m y.mail, mailSeq := y.mailSeq + 1,
                 posts := (x.entry, o, y.mailSeq) :: y.posts.filter fun p => !(p.1 == x.entry && p.2.1 == o) }
      (s.modCore c f).pass 4)

/-- Where the copy most recently posted by the strand's crew from an offset stands (R356). -/
inductive CopyPlace where
  | none
  | mailbox (n : Nat) (m : Mail)
  | offered (m : Mail)
  | flight (q : Copy)

/-- The copy that `cquery` and `ccancel` name (R356). -/
def State.copyNamed (s : State) (off : Nat) : CopyPlace :=
  let x := s.core (coreOfK s.cur)
  let y := s.me
  match x.posts.find? fun p => p.1 == y.entry && p.2.1 == off with
  | none => .none
  | some (e, _, n) =>
    let is (m : Mail) : Bool := m.seq == n && m.entry == e && m.launch == y.launch && m.gang == y.gang
    match x.mail.find? fun m => is m.2 with
    | some (i, m) => .mailbox i m
    | none =>
      match x.offered.find? fun m => m.1.isNone && is m.2 with
      | some (_, m) => .offered m
      | none =>
        match x.copies.find? fun q => q.trig.isNone && q.seq == n && q.entry == e && q.launch == y.launch && q.gang == y.gang with
        | some q => .flight q
        | none => .none

/-- Chunks completed: issued, and every write acknowledged. -/
def Copy.completed (q : Copy) : Nat := ((List.range q.chunk).filter fun i => Tab.get 0 i q.writes == 0).length

/-- CQUERY (R356). -/
def execCquery (d a : BitVec 8) (s : State) : Out :=
  .next (s.compute [d, a] d 4 fun s =>
    match s.copyNamed (s.val a).toNat with
    | .none => 0
    | .mailbox .. => 1
    | .offered _ => 1
    | .flight q => BitVec.ofNat 64 (q.completed * 2 ^ 32 + (if (s.core (coreOfK s.cur)).copyWaits q.n then 3 else 2)))

/-- A copy in its source phase is abandoned: its reads return to nobody and its replay entries go (R356). -/
def State.abandon (s : State) (c n : Nat) : State :=
  let mine (o : Owner) : Bool := match o with | .copyRead d m _ => d == c && m == n | _ => false
  let s := s.disown (siteOfC c) mine
  let s := s.dropReplays c fun r => r.accs.any (fun a => mine a.owner) || r.issued.any mine
  s.modCore c fun x => x.modCopy n fun q => { q with todo := [], reads := 0, buf := [], phase := .finished }

/-- A block that no sequencer has taken is cancelled: it never runs, and its poster waits for it no longer (R337, R356). -/
def State.unpost (s : State) (c : Nat) (m : Mail) : State :=
  let f (x : Core) : Core := { x with mail := x.mail.filter (fun q => q.2 != m), offered := x.offered.filter fun q => !(q.1.isNone && q.2 == m) }
  ((s.modCore c f).copyRest c).settle (slotKey c m.slot)

/-- CCANCEL (R356). -/
def execCcancel (a : BitVec 8) (s : State) : Out :=
  .next (s.issue [a.toNat] fun s =>
    let c := coreOfK s.cur
    match s.copyNamed (s.val a).toNat with
    | .none => s.pass 4
    | .mailbox n m => ((s.unpost c m).wakeMailbox c n).pass 4
    | .offered m => (s.unpost c m).pass 4
    | .flight q =>
      let s := s.modCore c fun x => x.modCopy q.n fun q => { q with cancel := true }
      let s := if q.phase = .source then s.abandon c q.n else s
      s.park s.cur .access (.copyStop q.n))

/-! ## Takes (R353) -/

/-- The block that the sequencer takes next: one offered to it, else the mailboxes from the one after the last taken (R53, R353, R363). -/
def Core.nextMail (x : Core) : Option (Option Nat × Mail × Option Nat) :=
  match x.offered with
  | (o, m) :: _ => some (o, m, none)
  | [] =>
    match (List.range 4).filterMap (fun i => let n := (x.lastMail + 1 + i) % 4; (Tab.find n x.mail).map fun m => (n, m)) with
    | (n, m) :: _ => some (none, m, some n)
    | [] => none

/-- A take is possible (R353). -/
def Core.canTake (x : Core) : Bool := decide (x.copies.length < 64) && x.nextMail.isSome

/-- The sequencer's position is not withdrawn (R123). -/
def Core.sequencing (x : Core) : Bool := !x.isWithdrawn 14

/-- A copy ends on a fault; requests already out are answered first (R355). -/
def State.copyFault (s : State) (c n : Nat) (f : Late) : State :=
  s.modCore c fun x => x.modCopy n fun q => { q with fault := q.fault.or (some f), todo := [] }

/-- A copy ends on the fault of a check; an address that none was formed for is a free value (log 13). -/
def State.copyTrouble (s : State) (c : Nat) (q : Copy) (code : Code) (a : Option Addr) (kind : Nat) : State :=
  match a with
  | some a => s.copyFault c q.n { code := code.num, addr := a, pc := q.pc, kind }
  | none => let (w, s) := s.free; s.copyFault c q.n { code := code.num, addr := w.setWidth 60, pc := q.pc, kind }

/-- The take of a block: a memory permit, the 128 bytes in one step, and the checks of R353. -/
def State.copyTake (s : State) (c : Nat) : Option State :=
  let x := s.core c
  match x.nextMail with
  | none => none
  | some (trig, m, box) =>
    let v := siteOfC c
    let u := c % 16 / 4
    if !x.sequencing || !x.canTake then none
    else if !s.hasPermit c .memory then some (s.count c 0x019 1)
    else if s.stalled v u (granuleKeys v u m.off 128) then none
    else
      let s := s.takePermit c .memory
      let s := s.modCore c fun x =>
        { x with nextCopy := x.nextCopy + 1,
                 offered := if box.isNone then x.offered.drop 1 else x.offered
                 mail := (match box with | some n => Tab.del n x.mail | none => x.mail)
                 lastMail := box.getD x.lastMail }
      let s := match box with
        | some n => s.wakeMailbox c n
        | none => s
      let (r, s) := s.storeGet v u m.off 128 m.sup
      let b := match r with | .ok l => copyBlockOf l | .error _ => copyBlockOf []
      let q : Copy := { n := x.nextCopy, block := b, segs := m.segs, pc := m.pc, k := slotKey c m.slot, entry := m.entry, trig,
                        sup := m.sup, launch := m.launch, gang := m.gang, seq := m.seq }
      let add (s : State) (q : Copy) : State := s.modCore c fun x => { x with copies := x.copies ++ [q] }
      some (match r with
        | .error e => (add s q).copyTrouble c q e (some (s.homeAddr v u m.off)) 0
        | .ok l =>
          if copyRejected l then (add s q).copyTrouble c q .copyParameter none 0
          else add s { q with todo := b.chunkElems 0 })

/-- COPY_TAKE (R353). -/
def execCopyTake (c : Nat) (s : State) : Out := due "COPY_TAKE" (s.copyTake c)

/-! ## Beats (R353, R354) -/

/-- The check of an element against the copied segments (R353). -/
def State.copyCheck (s : State) (c : Nat) (q : Copy) (dst : Bool) (e : Nat) : Checked Addr :=
  let b := q.block
  let n := 2 ^ b.esz
  let g := Tab.get {} (if dst then b.dseg else b.sseg) q.segs
  let need := if dst then rW + (if b.rop = 0 then 0 else rA) + (if b.sf then rF else 0) else rR
  match g.check q.sup (b.offset dst e) n need n with
  | .error x => .error x
  | .ok a =>
    if kindBits a.toNat = 0 then .ok a
    else match s.route (siteOfC c) q.sup a n with
      | .error x => .error x
      | .ok _ => .ok a

/-- Address of an element that passes its check. -/
def State.copyAddr (s : State) (c : Nat) (q : Copy) (dst : Bool) (e : Nat) : Option Nat :=
  match s.copyCheck c q dst e with
  | .ok a => some a.toNat
  | .error _ => none

/-- The access record of a copy. -/
def Copy.acc (q : Copy) (kind : Nat) (o : Owner) : Acc := { kind, pc := q.pc, k := q.k, sup := q.sup, owner := o }

/-- The reads of a source beat: one for each granule that its elements touch. -/
def State.copyReads (c : Nat) (q : Copy) (es : List (Nat × Nat)) : List Acc :=
  ((es.map fun e => e.2 / 16).eraseDups).map fun g =>
    { q.acc 0x10 (.copyRead c q.n q.chunk) with addr := BitVec.ofNat 60 (16 * g), op := .read, size := 16 }

/-- The bytes that the elements of a granule leave there, with their enables; of elements that overlap the later stands. -/
def copyGranule (q : Copy) (es : List (Nat × Nat)) (g : Nat) : List Byte × Nat :=
  let put (r : List Byte × Nat) (e : Nat × Nat) : List Byte × Nat :=
    if e.2 / 16 = g then
      (Tab.get [] e.1 q.buf).zipIdx.foldl (fun r (w, j) => (r.1.set (e.2 % 16 + j) w, setBit r.2 (e.2 % 16 + j))) r
    else r
  es.foldl put (List.replicate 16 0, 0)

/-- The atomic that a reducing copy performs (R351). -/
def ropOf (n : Nat) : AmoOp := aopOf (n - 1)

/-- The writes of a destination beat (R354). -/
def State.copyWrites (c : Nat) (q : Copy) (es : List (Nat × Nat)) : List Acc :=
  let o := Owner.copyWrite c q.n q.chunk
  if q.block.rop = 0 then
    ((es.map fun e => e.2 / 16).eraseDups).map fun g =>
      let (d, en) := copyGranule q es g
      { q.acc 0x11 o with addr := BitVec.ofNat 60 (16 * g), op := if q.block.sf then .writeFull else .write, size := 16, data := d, en }
  else
    es.map fun e =>
      { q.acc 0x12 o with addr := BitVec.ofNat 60 e.2, op := .amo (ropOf q.block.rop), size := 2 ^ q.block.esz, data := Tab.get [] e.1 q.buf,
                          en := allOn (2 ^ q.block.esz) }

/-- The chunk after one whose writes have all been issued (R354); a cancelled copy stops there (R356). -/
def Copy.nextChunk (q : Copy) : Copy :=
  if q.phase = .dest ∧ q.todo.isEmpty then
    let q := { q with chunk := q.chunk + 1, buf := [] }
    if q.cancel ∨ q.block.chunks ≤ q.chunk then { q with phase := .finished }
    else { q with phase := .source, todo := q.block.chunkElems q.chunk }
  else q

/-- A beat of a copy: the elements still to be issued that lie in the 128-byte block of the first (R353). -/
def State.copyBeatOf (s : State) (c : Nat) (q : Copy) : State :=
  let dst := q.phase == .dest
  let kind := if dst then (if q.block.rop = 0 then 0x11 else 0x12) else 0x10
  match q.todo with
  | [] => s
  | e :: _ =>
    match s.copyCheck c q dst e with
    | .error (code, a) => s.copyTrouble c q code a kind
    | .ok a =>
      let es := q.todo.filterMap fun e => (s.copyAddr c q dst e).bind fun p => if p / 128 = a.toNat / 128 then some (e, p) else none
      let rest := q.todo.filter fun e => !es.any fun p => p.1 == e
      if dst then
        let ms := State.copyWrites c q es
        let s := s.modCore c fun x => x.modCopy q.n fun q =>
          ({ q with todo := rest, writes := Tab.put q.chunk (Tab.get 0 q.chunk q.writes + ms.length) q.writes }).nextChunk
        each ms State.sendAccess s
      else
        let ms := State.copyReads c q es
        each ms State.sendAccess (s.modCore c fun x => x.modCopy q.n fun q => { q with todo := rest, reads := q.reads + ms.length })

/-- A copy has a beat ready: none while it waits on a replay entry (R355), and none begins a chunk after the forced-save deadline of its gang
(R162). -/
def State.beatReady (s : State) (c : Nat) (q : Copy) : Bool :=
  !q.todo.isEmpty && !(s.core c).copyWaits q.n && !(q.phase == .source && q.trig.isNone && (s.gang (siteOfC c) q.entry).expired && (s.gang (siteOfC c) q.entry).gang == q.gang
    && (s.gang (siteOfC c) q.entry).launch == q.launch)

/-- The copy whose beat is next, round robin in the order of the takes (R353). -/
def State.nextBeat (s : State) (c : Nat) : Option Copy :=
  let x := s.core c
  let l := x.copies.filter fun q => s.beatReady c q
  (l.find? fun q => decide (x.lastBeat < q.n)).or l.head?

/-- COPY_BEAT: a turn of the sequencer that takes no block issues one beat, for a memory permit (R353). -/
def State.copyBeat (s : State) (c i : Nat) : Option State :=
  let x := s.core c
  match s.nextBeat c with
  | none => none
  | some q =>
    if q.n ≠ i ∨ !x.sequencing ∨ x.canTake then none
    else if !s.hasPermit c .memory then some (s.count c 0x019 1)
    else some ((((s.takePermit c .memory).modCore c fun y => { y with lastBeat := i }).copyBeatOf c q).count c 0x016 1)

/-- COPY_BEAT (R353). -/
def execCopyBeat (c i : Nat) (s : State) : Out := due "COPY_BEAT" (s.copyBeat c i)

/-- A source read has returned: its elements enter the chunk buffer, and with the last of them the destination phase begins (R354). -/
def State.copyReadDone (s : State) (c n : Nat) (a : Acc) (d : List Byte) : State :=
  match (s.core c).copy n with
  | none => s
  | some q =>
    let lo := a.addr.toNat
    let put (b : List (Nat × List Byte)) (e : Nat) : List (Nat × List Byte) :=
      match s.copyAddr c q false e with
      | some p => if lo ≤ p ∧ p < lo + 16 then Tab.put e ((d.drop (p - lo)).take (2 ^ q.block.esz)) b else b
      | none => b
    let es := q.block.chunkElems q.chunk
    let f (q : Copy) : Copy :=
      let q := { q with reads := q.reads - 1, buf := es.foldl put q.buf }
      if q.phase = .source ∧ q.reads = 0 ∧ q.todo.isEmpty ∧ q.fault.isNone then { q with phase := .dest, todo := es } else q
    s.modCore c fun x => x.modCopy n f

/-- A destination write of chunk i has been acknowledged. -/
def State.copyWriteDone (s : State) (c n i : Nat) : State :=
  s.modCore c fun x => x.modCopy n fun q => { q with writes := Tab.put i (Tab.get 0 i q.writes - 1) q.writes }

/-! ## The end of a copy (R354-R356) -/

/-- The copy's record is free: an `end`, a `ccancel` and the release of an aborted gang that wait for it go on (R114, R337, R356). -/
def State.copyGone (s : State) (c n k : Nat) : State :=
  let s := (s.modCore c fun x => { x with copies := x.copies.filter fun q => q.n != n }).copyRest c
  ((each ((List.range 16).map (slotKey c ·)) (fun s j => if (s.strand j).cont = .copyStop n then s.completed j 4 else s) s).settle k).releasesDone
    (siteOfC c)

/-- COPY_COMPLETE: every write is acknowledged; the counter rises unless the copy was cancelled (R354, R356, R363). -/
def State.copyComplete (s : State) (c n : Nat) : Option State :=
  match (s.core c).copy n with
  | none => none
  | some q =>
    if q.phase = .finished ∧ q.fault.isNone ∧ q.writes.all (fun w => w.2 == 0) then
      let s := s.copyGone c n q.k
      let s := if q.block.ce && !q.cancel then s.addTc (siteOfC c) q.block.ctr 1 else s
      some (match q.trig with
        | some o => s.modOp (siteOfC c) o fun p => { p with done := true }
        | none => s)
    else none

/-- COPY_COMPLETE (R354). -/
def execCopyComplete (c i : Nat) (s : State) : Out := due "COPY_COMPLETE" (s.copyComplete c i)

/-- COPY_FAULT_DELIVERY: what is out has been answered or waits in a replay entry; the copy ends and its poster, if it still lives, gets the
fault, or the trigger engine does (R355, R364). -/
def State.copyFaultDelivery (s : State) (c n : Nat) : Option State :=
  match (s.core c).copy n with
  | none => none
  | some q =>
    match q.fault with
    | none => none
    | some f =>
      if q.reads = (s.core c).copyHeld n true ∧ (q.writes.map (·.2)).sum = (s.core c).copyHeld n false then
        let s := s.dropReplays c fun r => r.holdsCopy n
        let x := s.strand q.k
        some (match q.trig with
          | some o => (s.copyGone c n q.k).opFault (siteOfC c) o f.code f.addr
          | none =>
            if x.st ≠ .free ∧ x.entry = q.entry ∧ x.gang = q.gang ∧ x.launch = q.launch then (s.lateFault q.k f).copyGone c n q.k
            else s.copyGone c n q.k)
      else none

/-- COPY_FAULT_DELIVERY (R355). -/
def execCopyFaultDelivery (c i : Nat) (s : State) : Out := due "COPY_FAULT_DELIVERY" (s.copyFaultDelivery c i)

end Sys2Proof.Machine
end

