-- ==== Sys2Proof/Machine/Queues.lean ====
section
/-! DEFINITION. Network queues: `nq.send`, `nq.recv` and the words that travel between them (R50, R54, R370). -/

namespace Sys2Proof.Machine

/-- NQ_SEND (R358, R370): only slot 15 may issue it; the site is checked before the word leaves. -/
def execNqSend (a b : BitVec 8) (s : State) : Out :=
  .next (if slotOf s.cur ≠ 15 then s.raiseFault s.cur .privilege
    else s.issue [a.toNat, b.toNat] fun s =>
      let k := s.cur
      let v := siteOfK k
      let w := (s.val a).toNat
      match s.target? v w 0 with
      | none => s.raiseFault k .unreachableSite
      | some (d, m) =>
        let acc := s.unitAcc
        let s := s.park k .access (.done 4)
        let (t, s) := s.fresh
        let q : Msg := { id := 0, op := .nqWord (bits w 7 4) (bits w 1 0), mesh := m, src := v, dst := d, key := s.number k,
                         data := leBytes 8 (s.val b).toNat, txn := t }
        let s : State := { s with txns := s.txns ++ [{ id := t, acc, req := q }] }
        s.sendOut q)

/-- The queue registers that `nq.recv` names: one, or all with ANY (R370). -/
def queueSet (w : Nat) : List Nat := if bitOn w 2 then [0, 1, 2, 3] else [w % 4]

/-- NQ_RECV (R370). -/
def execNqRecv (d a : BitVec 8) (s : State) : Out :=
  .next (if slotOf s.cur ≠ 15 then s.raiseFault s.cur .privilege
    else s.issue [d.toNat, a.toNat] fun s =>
      let k := s.cur
      let c := coreOfK k
      let l := queueSet (s.val a).toNat
      match l.find? fun q => (Tab.get {} q (s.core c).nq).full with
      | some q =>
        let w := (Tab.get {} q (s.core c).nq).value
        (s.modCore c fun x => { x with nq := Tab.put q { value := w, full := false } x.nq }).finish d.toNat w 4
      | none => s.park k .queueIdle (.queue d.toNat (l.map (2 ^ ·)).sum))

/-- A word for queue q of a core: refused while the register is full; a net strand that waits for it gets it in the same step (R370). DESIGN CHOICE
(log 53): nothing posts a collective step to the net strand, for the spec names that wake (R124, R126) and no mechanism for it; a filled queue
register alone wakes it. -/
def State.queueWord (s : State) (c q : Nat) (w : Word) : Option State :=
  let x := s.core c
  if (Tab.get {} q x.nq).full then none
  else
    let k := slotKey c 15
    let fill (b : Bool) (s : State) : State := s.modCore c fun x => { x with nq := Tab.put q { value := w, full := b } x.nq }
    match (s.strand k).st, (s.strand k).cont with
    | .parked, .queue d l =>
      if bitOn l q then some (((fill false s).modStrand k fun y => y.setReg d w).completed k 4) else some (fill true s)
    | _, _ => some ((fill true s).rouse k .queueIdle)

/-- A network-queue word reaches its core (R370). A site out of service answers with an error (R416). -/
def State.nqArrive (s : State) (n : Nat) : Option State :=
  match s.arriving n with
  | some m => match m.op with
    | .nqWord c q =>
      let s := s.consume n
      let t := s.site m.dst
      if t.state = .failed ∨ t.state = .isolated then some (s.reply m (.error Code.unreachableSite.num) [] false)
      else match s.queueWord (m.dst * 16 + c) q (leWord m.data) with
        | some s => some (s.reply m .ack [] false)
        | none => some (s.reply m .refusal [] false)
    | _ => none
  | none => none

/-- REQ_NQ_WORD (R370). -/
def execReqNqWord (m : Nat) (s : State) : Out := due "REQ_NQ_WORD" (s.nqArrive m)

/-- The transaction of a refused or deferred request waits to be sent again (R128, R370). -/
def State.holdBack (s : State) (t : Nat) : State :=
  { s with txns := s.txns.map fun (u : Txn) => if u.id = t then { u with resend := true } else u }

/-- RSP_QUEUE_REFUSAL: the word is to be sent again (R370). -/
def State.queueRefusal (s : State) (n : Nat) : Option State :=
  match s.arriving n with
  | some m => if m.op = .refusal then some ((s.consume n).holdBack m.txn) else none
  | none => none

/-- RSP_QUEUE_REFUSAL (R370). -/
def execRspQueueRefusal (m : Nat) (s : State) : Out := due "RSP_QUEUE_REFUSAL" (s.queueRefusal m)

/-- A request that was held back is sent again (R128, R370); the time that must pass first is out of the model (log 3). -/
def State.resendTxn (s : State) (t : Nat) (p : MsgOp → Bool) : Option State :=
  match s.txn t with
  | some u =>
    if u.resend && p u.req.op then
      let s : State := { s with txns := s.txns.map fun (w : Txn) => if w.id = t then { w with resend := false } else w }
      some (s.sendAgain u.req)
    else none
  | none => none

/-- NQ_RESEND (R370). -/
def execNqResend (t : Nat) (s : State) : Out :=
  due "NQ_RESEND" (s.resendTxn t fun o => match o with | .nqWord .. => true | _ => false)

/-- FE_DEFERRAL_RESEND (R128). -/
def execFeDeferralResend (t : Nat) (s : State) : Out :=
  due "FE_DEFERRAL_RESEND" (s.resendTxn t fun o => match o with | .req _ => true | _ => false)

end Sys2Proof.Machine
end

