-- ==== Sys2Proof/Machine/Registers.lean ====
section
/-! DEFINITION. Control registers: the map, `getc` and `setc`, the writes that complete outside the turn, the ends of a miss, the fault
queue's head and wakes, ticks and the watchdog (R55-R73, R87, R138-R142, R226-R228, R371). -/

namespace Sys2Proof.Machine

open Sys2Proof

/-! ## The map (R56, R57, R87, R138, R192, R374) -/

/-- Who may write a register (R57). -/
inductive RegWrite where
  | none | strand | sup
deriving DecidableEq, Repr

/-- The register of a number, by who may write it; none where no register has the number (R56). -/
def regKind (n : Nat) : Option RegWrite :=
  if n = 0x0000 ∨ n = 0x0200 ∨ (0x0300 ≤ n ∧ n ≤ 0x0302) ∨ (0x0380 ≤ n ∧ n ≤ 0x03E3) ∨ n = 0x0910 ∨ n = 0x0911 ∨ (0x0920 ≤ n ∧ n ≤ 0x092F) then
    some .none
  else if n = 0x0003 ∨ n = 0x0004 ∨ n = 0x0104 then some .strand
  else if n = 0x0001 ∨ n = 0x0002 ∨ n = 0x0005 ∨ (0x0100 ≤ n ∧ n ≤ 0x0103) ∨ (0x0110 ≤ n ∧ n ≤ 0x011F) ∨ n = 0x0303 ∨ n = 0x0304
      ∨ (0x0800 ≤ n ∧ n ≤ 0x0802) ∨ n = 0x0900 ∨ (0x0912 ≤ n ∧ n ≤ 0x0914) ∨ n = 0x0930 ∨ (0x0940 ≤ n ∧ n ≤ 0x0943) then some .sup
  else none

/-- Registers that are read and written in the strand's turn (R371). -/
def inTurn (n : Nat) : Bool := decide (n < 0x0300 ∨ (0x0800 ≤ n ∧ n < 0x0900))

/-- The class of permits of ctl.permit_matrix and the three after it (R57). -/
def permitClass (i : Nat) : PClass := [PClass.matrix, .vector, .sfu, .memory].getD i .memory

/-- ctl.miss_info (R138): V and replay tell of an entry that the access has by now. -/
def State.missInfo (s : State) (c : Nat) : Nat :=
  match (s.core c).misses with
  | [] => 0
  | m :: _ =>
    let r := ((s.site (siteOfC c)).portReq m.port).bind fun p => (s.core c).replayOf p.acc.owner
    2 ^ 31 + (match r with | some r => r.ix * 2 ^ 25 + 2 ^ 24 | none => 0) + m.kind * 2 ^ 16 + m.slot

/-- The site counts ticks: it has passed LOCK (R65, R415). -/
def Site.clocked (t : Site) : Bool :=
  match t.state with
  | .cold | .listen => false
  | .failed | .isolated => t.prev != .cold && t.prev != .listen
  | _ => true

/-- The site has reached READY: its image is applied, its cores run, and its supervisor registers take writes (R26, R122, R419). -/
def Site.inService (t : Site) : Bool := t.state == .ready || (t.state == .isolated && t.prev == .ready)

/-- The sites of a clock region (R16). -/
def regionSites (rx ry : Nat) : List Nat := [siteAt (2 * rx) (2 * ry), siteAt (2 * rx + 1) (2 * ry), siteAt (2 * rx) (2 * ry + 1), siteAt (2 * rx + 1) (2 * ry + 1)]

/-- The clock region of a site (R16). -/
def regionOf (v : Nat) : Nat × Nat := (xOf v / 2, yOf v / 2)

/-- The sites of the region next to a site's on an edge; none where the grid ends (R65). -/
def regionBeside (v d : Nat) : List Nat :=
  let (x, y) := regionOf v
  if d = 0 then if y < 9 then regionSites x (y + 1) else []
  else if d = 1 then if x < 9 then regionSites (x + 1) y else []
  else if d = 2 then if 0 < y then regionSites x (y - 1) else []
  else if 0 < x then regionSites (x - 1) y else []

/-- ctl.time_offset (R57, R65, R227): field d at bits 16 d + 15 to 16 d, 0x8000 where the region of that edge does not exist or no site of it stands
past LOCK in service, 0 where it has not yet been measured. -/
def State.offsetWord (s : State) (v : Nat) : Word :=
  let known (d : Nat) : Bool := (regionBeside v d).any fun w => (s.site w).clocked && (s.site w).state != .failed && (s.site w).state != .isolated
  let field (d : Nat) : BitVec 16 := if known d then Tab.get 0 d (s.site v).timeOffset else 0x8000
  BitVec.ofNat 64 (((List.range 4).map fun d => (field d).toNat * 2 ^ (16 * d)).sum)

/-- The value of a register as a strand reads it; a write-only register reads 0 (R371). -/
def State.regRead (s : State) (k n : Nat) : Word :=
  let x := s.strand k
  let c := s.core (coreOfK k)
  let t := s.site (siteOfK k)
  match n with
  | 0x0000 => x.status (s.preempted k)
  | 0x0001 => x.faultCode
  | 0x0002 => x.faultAddr.setWidth 64
  | 0x0003 => x.rnd.setWidth 64
  | 0x0004 => x.seed
  | 0x0005 => x.faultPc.setWidth 64
  | 0x0104 => BitVec.ofNat 64 c.opRequest
  | 0x0200 => (s.bower (coreOfK k / 4)).granted
  | 0x0300 => t.time
  | 0x0301 => s.offsetWord (siteOfK k)
  | 0x0302 => t.stateWord
  | 0x0303 => BitVec.ofNat 64 t.psaveDeadline
  | 0x0304 => t.watchdogWord
  | 0x0800 => ((c.trapBase >>> 2) <<< 2).setWidth 64
  | 0x0801 => x.trapPc.setWidth 64
  | 0x0802 => if x.trapMode then 1 else 0
  | 0x0900 => BitVec.ofNat 64 t.slicePin
  | 0x0910 => BitVec.ofNat 64 (match c.misses with | [] => 0 | m :: _ => m.va)
  | 0x0911 => BitVec.ofNat 64 (s.missInfo (coreOfK k))
  | 0x0913 => c.missPte
  | 0x0914 => c.missPteAddr.setWidth 64
  | 0x0930 => t.ptRoot
  | 0x0940 => c.trapSw0
  | 0x0941 => c.trapSw1
  | 0x0942 => x.trapS0w0
  | 0x0943 => x.trapS0w1
  | n =>
    if 0x0100 ≤ n ∧ n ≤ 0x0103 then (c.permit (permitClass (n - 0x0100))).word
    else if 0x0110 ≤ n ∧ n ≤ 0x0117 then c.perfValue (n - 0x0110)
    else if 0x0118 ≤ n ∧ n ≤ 0x011F then BitVec.ofNat 64 (Tab.get 0 (n - 0x0118) c.perfSel)
    else if 0x0380 ≤ n ∧ n ≤ 0x03E3 then t.bandWord (n - 0x0380)
    else if 0x0920 ≤ n ∧ n ≤ 0x092F then s.slotState (coreOfK k) (n - 0x0920)
    else 0

/-- The event numbers that a performance counter can select (R230). -/
def eventNumber (n : Nat) : Bool := decide (n ≤ 0x019 ∨ (0x041 ≤ n ∧ n ≤ 0x055))

/-- A permit register takes a rate and a cap, with the count limited to the cap (R62). In an instant (`inst`) what stood before its first write is
kept, and of two writes the lower rate and the lower cap stand (R62, R73). -/
def Permit.take (p : Permit) (inst : Bool) (rate cap : Nat) (saved : Option (Nat × Nat)) : Permit :=
  let c := if p.was.isSome then min p.cap cap else cap
  { rate := if p.was.isSome then min p.rate rate else rate, cap := c, count := min p.count c, saved
    was := if inst then p.was.or (some (p.rate, p.cap, p.saved)) else none }

/-- A `setc` of a permit register: what the limiter recorded is given up (R427). -/
def Permit.write (p : Permit) (inst : Bool) (w : Word) : Permit := p.take inst (bits w.toNat 47 32) (bits w.toNat 31 16) none

/-- The two words of a segment as ctl.trap_sword and ctl.trap_s0word keep them: reserved bits read 0 (R8, R46). -/
def segWord0 (w : Word) : Word := w &&& 0x0FFFFFFFFFFFFFFF#64
/-- The second word of a segment without its reserved bits. -/
def segWord1 (w : Word) : Word := w &&& 0x003FFFFFFFFFFFFF#64

/-- ctl.fault_code as a `setc` leaves it (R59): a reserved access kind leaves the kind unchanged (R9, R140). -/
def faultCodeWritten (old w : Word) : Word :=
  (if bits w.toNat 23 16 < 0x14 then w else (w &&& ~~~0x00FF0000#64) ||| (old &&& 0x00FF0000#64)) &&& 0x3FFFFFFF#64

/-- The fields of a leaf entry (R196). -/
def leafMask : Word := 0xFFFFFFEFFFFF0000#64

/-- The fields of ctl.pt_root (R193). -/
def ptRootMask : Word := 0x807FFF8FFFFF0000#64

/-- A register without a behaviour of its own takes a value: its reserved bits are ignored, and it is clamped as its entry says (R8, R371). -/
def State.regWrite (s : State) (k n : Nat) (w : Word) : State :=
  let c := coreOfK k
  let v := siteOfK k
  let a : Addr := w.setWidth 60
  match n with
  | 0x0001 => s.modStrand k fun x => { x with faultCode := faultCodeWritten x.faultCode w }
  | 0x0002 => s.modStrand k fun x => { x with faultAddr := a }
  | 0x0003 => s.modStrand k fun x => { x with rnd := w.setWidth 2 }
  | 0x0004 => s.modStrand k fun x => { x with seed := w }
  | 0x0005 => s.modStrand k fun x => { x with faultPc := a }
  | 0x0104 => s.modCore c fun x => { x with opRequest := w.toNat % 16 }
  | 0x0303 => s.modSite v fun t => { t with psaveDeadline := min 16000 (max 1 (w.toNat % 2 ^ 16)) }
  | 0x0800 => s.modCore c fun x => { x with trapBase := (a >>> 2) <<< 2 }
  | 0x0801 => s.modStrand k fun x => { x with trapPc := a }
  | 0x0802 => s.modStrand k fun x => { x with trapMode := w.toNat % 2 == 1 }
  | 0x0913 => s.modCore c fun x => { x with missPte := w &&& leafMask }
  | 0x0914 => s.modCore c fun x => { x with missPteAddr := a }
  | 0x0930 => s.modSite v fun t => { t with ptRoot := w &&& ptRootMask }
  | 0x0940 => s.modCore c fun x => { x with trapSw0 := segWord0 w }
  | 0x0941 => s.modCore c fun x => { x with trapSw1 := segWord1 w }
  | 0x0942 => s.modStrand k fun x => { x with trapS0w0 := segWord0 w }
  | 0x0943 => s.modStrand k fun x => { x with trapS0w1 := segWord1 w }
  | n =>
    if 0x0100 ≤ n ∧ n ≤ 0x0103 then
      s.modCore c fun x => x.setPermit (permitClass (n - 0x0100)) ((x.permit (permitClass (n - 0x0100))).write s.instant.isSome w)
    else if 0x0110 ≤ n ∧ n ≤ 0x0117 then s.modCore c fun x => x.setPerf (n - 0x0110) w
    else if 0x0118 ≤ n ∧ n ≤ 0x011F ∧ eventNumber (w.toNat % 1024) then
      s.modCore c fun x => x.setPerfSel (n - 0x0118) (w.toNat % 1024)
    else s

/-! ## `getc` and `setc` (R56, R371) -/

/-- The checks of a register's number and of the mode, before any other fault (R371). -/
def State.regCheck (s : State) (n : Nat) (write : Bool) : Option Code :=
  match regKind n with
  | none => some .illegal
  | some w =>
    if write && w == .none then some .illegal
    else if !s.me.sup && (decide (0x0800 ≤ n) || (write && w == .sup)) then some .privilege
    else none

/-- GETC (R371). A register outside the turn is read when the reply is formed, in the step that delivers it (log 33). -/
def execGetc (d : BitVec 8) (n : BitVec 16) (s : State) : Out :=
  .next (match s.regCheck n.toNat false with
    | some c => s.raiseFault s.cur c
    | none => s.issue [d.toNat] fun s =>
      if inTurn n.toNat then s.finish d.toNat (s.regRead s.cur n.toNat) 8
      else s.askUnit (.getc n.toNat d.toNat) .data [])

/-- SETC (R371). A register outside the turn is written by the step of its own that follows. -/
def execSetc (a : BitVec 8) (n : BitVec 16) (s : State) : Out :=
  .next (match s.regCheck n.toNat true with
    | some c => s.raiseFault s.cur c
    | none => s.issue [a.toNat] fun s =>
      if inTurn n.toNat then (s.regWrite s.cur n.toNat (s.val a)).pass 8
      else s.park s.cur .access (.setc n.toNat (s.val a)))

/-- The `setc` that a strand is parked for, when it names a register that meets a test. -/
def State.pendingSetc (s : State) (k : Nat) (p : Nat → Bool) : Option (Nat × Word) :=
  match (s.strand k).st, (s.strand k).cont with
  | .parked, .setc n w => if p n then some (n, w) else none
  | _, _ => none

/-- PERMIT_WRITE (R62). -/
def execPermitWrite (c p : Nat) (w : BitVec 64) (s : State) : Out :=
  due "PERMIT_WRITE" (if (kindOf (siteOfC c) = .pavilion ∨ (kindOf (siteOfC c) = .gatehouse ∧ c % 16 = 0)) ∧ p < 4 then
    some (s.modCore c fun x => x.setPermit (permitClass p) ((x.permit (permitClass p)).write s.instant.isSome w)) else none)

/-! ## The watchdog (R68, R228) and ticks (R65, R227) -/

/-- The watchdog's count has reached its period (R228). -/
def Site.wdDue (t : Site) : Bool := t.wdEn && t.wdPeriod != 0 && decide (t.wdPeriod * 1024 ≤ t.wdCount)

/-- WATCHDOG_EXPIRY: X is set with a notice event, unless it is set already; the count returns to 0 (R228). -/
def State.watchdogExpiry (s : State) (v : Nat) : Option State :=
  let t := s.site v
  if !t.wdDue || (!t.wdX && s.holdFull v 15) then none
  else
    let s := s.setSite v { t with wdX := true, wdCount := 0 }
    some (if t.wdX then s else s.raise v 15 sevNotice 0x0108 none 0)

/-- The fields of ctl.watchdog are written, X is cleared by a 1, and the count starts again (R68, R228). -/
def Site.watchdogSet (t : Site) (w : Word) : Site :=
  { t with wdEn := bitOn w.toNat 63, wdX := t.wdX && !bitOn w.toNat 62, wdPeriod := w.toNat % 2 ^ 32, wdCount := 0 }

/-- WATCHDOG_WRITE (R68, R228). A write that meets an expiry stands, and X is set after it (R73, R232). -/
def State.watchdogWrite (s : State) (k : Nat) : Option State :=
  match s.pendingSetc k (· == 0x0304) with
  | none => none
  | some (_, w) =>
    let v := siteOfK k
    if (s.site v).wdDue then (s.watchdogExpiry v).map fun s => (s.modSite v fun t => { t.watchdogSet w with wdX := true }).completed k 8
    else some ((s.modSite v fun t => t.watchdogSet w).completed k 8)

/-- WATCHDOG_WRITE (R228). -/
def execWatchdogWrite (k : Nat) (s : State) : Out := due "WATCHDOG_WRITE" (s.watchdogWrite k)

/-- WATCHDOG_EXPIRY (R228). -/
def execWatchdogExpiry (v : Nat) (s : State) : Out := due "WATCHDOG_EXPIRY" (s.watchdogExpiry v)

/-- The core numbers of a site: a pavilion's sixteen, and a gatehouse's keeper core (R21, R25). -/
def coreNos (v : Nat) : List Nat := match kindOf v with | .pavilion => List.range 16 | .gatehouse => [0] | .memory => []

/-- A tick of a gang: while it stops for a save its forced-save deadline comes nearer (R67, R161). -/
def Gang.tick (g : Gang) : Gang := if g.st = .stopping ∧ !g.expired then { g with deadline := g.deadline - 1 } else g

/-- One tick of a site: the time and the watchdog's count rise, and deadlines come nearer (R65, R161, R228); its cores count the tick (R230). -/
def State.tickSite (s : State) (v : Nat) : State :=
  let t := s.site v
  let s := s.setSite v { t with time := t.time + 1, wdCount := if t.wdEn && !t.wdDue then t.wdCount + 1 else t.wdCount,
                                gangs := t.gangs.map fun (e, g) => (e, g.tick) }
  each (coreNos v) (fun s c => s.count (v * 16 + c) 0x017 1) s

/-- TICK (R65). -/
def State.tick (s : State) (rx ry : Nat) : Option State :=
  let l := (regionSites rx ry).filter fun v => (s.site v).clocked
  if rx < 10 ∧ ry < 10 ∧ !l.isEmpty then some (each l State.tickSite s) else none

/-- TICK (R65). -/
def execTick (rx ry : Nat) (s : State) : Out := due "TICK" (s.tick rx ry)

/-- A mesh whose link of an edge is up. -/
def Site.meshUp (t : Site) (d : Nat) : Option Mesh :=
  if (t.link d .oak).up then some .oak else if (t.link d .ash).up then some .ash else none

/-- OFFSET_PROBE: a timestamp leaves over a stitch link for a neighbouring region past LOCK and in service (R227). -/
def State.offsetProbe (s : State) (v d : Nat) : Option State :=
  match neighbour v d, (s.site v).meshUp d with
  | some w, some m =>
    let t := s.site w
    if regionOf v ≠ regionOf w ∧ (s.site v).clocked ∧ t.clocked ∧ t.state ≠ .failed ∧ t.state ≠ .isolated then
      some (s.post { id := 0, op := .probeTs (s.site v).time, mesh := some m, src := v, dst := w, edge := opposite d })
    else none
  | _, _ => none

/-- OFFSET_PROBE (R227). -/
def execOffsetProbe (v d : Nat) (s : State) : Out := due "OFFSET_PROBE" (s.offsetProbe v d)

/-- REQ_PROBE_TIMESTAMP: the neighbour answers with its own times of receipt and sending (R227). -/
def State.probeTimestamp (s : State) (n : Nat) : Option State :=
  match s.arriving n with
  | some m => match m.op with
    | .probeTs t1 =>
      let t := (s.site m.dst).time
      some ((s.consume n).post { id := 0, op := .probeEcho t1 t t, mesh := m.mesh, src := m.dst, dst := m.src, edge := opposite m.edge })
    | _ => none
  | none => none

/-- REQ_PROBE_TIMESTAMP (R227). -/
def execReqProbeTimestamp (m : Nat) (s : State) : Out := due "REQ_PROBE_TIMESTAMP" (s.probeTimestamp m)

/-- The offset that four timestamps give, as its field holds it (R227). -/
def offsetField (t1 t2 t3 t4 : Word) : BitVec 16 :=
  let o : Int := (((t2.toNat : Int) - t1.toNat) + ((t3.toNat : Int) - t4.toNat)) / 2
  if o < -32767 then 0x8001 else if 32767 < o then 0x7FFF else BitVec.ofInt 16 o

/-- REQ_PROBE_ECHO: the offset to the neighbouring region is stored for every site of the region (R65, R227). -/
def State.probeEcho (s : State) (n : Nat) : Option State :=
  match s.arriving n with
  | some m => match m.op with
    | .probeEcho t1 t2 t3 =>
      let f := offsetField t1 t2 t3 (s.site m.dst).time
      let r := regionOf m.dst
      some (each (regionSites r.1 r.2) (fun s v => s.modSite v fun t => { t with timeOffset := Tab.put m.edge f t.timeOffset }) (s.consume n))
    | _ => none
  | none => none

/-- REQ_PROBE_ECHO (R227). -/
def execReqProbeEcho (m : Nat) (s : State) : Out := due "REQ_PROBE_ECHO" (s.probeEcho m)

/-! ## The pinned region (R87) -/

/-- SLICE_PIN_WRITE: with a gang in the claim table the write is ignored; a change empties the cache part, its dirty bytes written back
before the `setc` completes, and the granules that enter or leave the pinned region are zero and empty (R87). DESIGN CHOICE (log 51): the region is
offsets 0 to its size of unit 4, so that those between the old and the new size enter or leave it. -/
def State.slicePinWrite (s : State) (k : Nat) : Option State :=
  (s.pendingSetc k (· == 0x0900)).map fun (_, w) =>
    let v := siteOfK k
    let old := (s.site v).slicePin
    let new := min 32 (w.toNat % 64)
    if !(s.entries v).isEmpty ∨ new = old then s.completed k 8
    else
      let s := s.flushSlice v (fun _ => true) true
      let l := s.writeBacks v [] true fun _ => true
      let s := s.modSite v fun t => { t with slicePin := new }
      let s := (s.zeroBytes (homeKey v 4 (min old new * 2 ^ 20)) ((max old new - min old new) * 2 ^ 20)).serveChanged s v 4
      (s.modStrand k fun x => { x with cont := .flush 0 8 l }).testFence k

/-- SLICE_PIN_WRITE (R87). -/
def execSlicePinWrite (k : Nat) (s : State) : Out := due "SLICE_PIN_WRITE" (s.slicePinWrite k)

/-! ## The end of a miss (R138, R139) -/

/-- A write of ctl.miss_done with an outcome, while the mailbox holds a message. -/
def State.missDone (s : State) (k o : Nat) : Option Word :=
  match s.pendingSetc k (· == 0x0912) with
  | some (_, w) => if w.toNat % 4 = o ∧ !(s.core (coreOfK k)).misses.isEmpty then some w else none
  | none => none

/-- MISS_DONE_INSTALL (R138). -/
def execMissDoneInstall (k : Nat) (s : State) : Out :=
  due "MISS_DONE_INSTALL" ((s.missDone k 0).map fun _ => (s.missInstall (coreOfK k)).completed k 8)

/-- The walk strand waits for a record: it parks with reason record-wait and issues its `setc` again (R139). -/
def State.awaitRecord (s : State) (k : Nat) : State := (s.repark k .recordWait).modStrand k fun x => { x with cont := .reissue }

/-- MISS_DONE_NOT_PRESENT (R139). -/
def execMissDoneNotPresent (k : Nat) (s : State) : Out :=
  due "MISS_DONE_NOT_PRESENT" ((s.missDone k 1).map fun _ =>
    match s.missAbsent (coreOfK k) with
    | some t => (t.completed k 8).releasesDone (siteOfK k)
    | none => s.awaitRecord k)

/-- MISS_DONE_FAULT (R138). -/
def execMissDoneFault (k : Nat) (s : State) : Out :=
  due "MISS_DONE_FAULT" ((s.missDone k 2).map fun w => (s.missFault (coreOfK k) (bits w.toNat 31 16)).completed k 8)

/-- MISS_DONE_IGNORED: outcome 0b11 is ignored and removes nothing, and so is a write while the mailbox is empty (R138). -/
def execMissDoneIgnored (k : Nat) (s : State) : Out :=
  due "MISS_DONE_IGNORED" (match s.pendingSetc k (· == 0x0912) with
    | none => none
    | some (_, w) =>
      if (s.core (coreOfK k)).misses.isEmpty ∨ w.toNat % 4 = 3 then some (s.completed k 8) else none)

/-- A write of fq.head; beyond fq.tail it stores fq.tail (R141). Walk strands in record-wait go on (R139). -/
def State.writeFqHead (s : State) (v : Nat) (w : Word) : State :=
  let s := s.modSite v fun t =>
    let n := w.toNat % 2 ^ 32
    { t with fqHead := if (t.fqTail + 2 ^ 32 - t.fqHead) % 2 ^ 32 < (n + 2 ^ 32 - t.fqHead) % 2 ^ 32 then t.fqTail else n }
  each ((List.range 16).map (v * 16 + ·)) State.wakeRecord s

/-- FQ_HEAD_WRITE (R141). -/
def execFqHeadWrite (v : Nat) (w : BitVec 64) (s : State) : Out :=
  due "FQ_HEAD_WRITE" (if kindOf v = .pavilion then some (s.writeFqHead v w) else none)

/-- FQ_WAKE (R142). -/
def execFqWake (v : Nat) (w : BitVec 64) (s : State) : Out :=
  due "FQ_WAKE" (if kindOf v = .pavilion then some (s.wakeWord v w) else none)

/-- FAULT_QUEUE_NOTICE: the keeper core of the gatehouse is told of a record, and the host with it (R141, R420). -/
def State.faultNotice (s : State) (n : Nat) : Option State :=
  match s.arriving n with
  | some m => if m.op = .faultNotice then some ((s.consume n).modGate m.dst fun g => { g with faultNotices := g.faultNotices + 1 }.interrupt 65) else none
  | none => none

/-- FAULT_QUEUE_NOTICE (R141). -/
def execFaultQueueNotice (m : Nat) (s : State) : Out := due "FAULT_QUEUE_NOTICE" (s.faultNotice m)

/-! ## Late faults and the ends of replay entries (R136, R142, R292) -/

/-- Relaxed accesses of a strand stand in the replay queue of its core. -/
def State.relaxedReplay (s : State) (k : Nat) : Bool :=
  (s.core (coreOfK k)).replays.any fun r => !r.dead && r.slot == slotOf k && decide (4 ≤ r.kind ∧ r.kind ≤ 6)

/-- The first late fault of a strand is taken at its turn (R292). A relaxed page fault parks the strand until its replay entries have
ended (R139, R142); any other fault is taken. -/
def State.lateTaken (s : State) (k : Nat) : Option State :=
  let x := s.strand k
  match x.late with
  | [] => none
  | f :: rest =>
    if x.st ≠ .ready ∧ x.st ≠ .held then none
    else if f.code = Code.pageFault.num then
      if s.relaxedReplay k then some ((s.park k .pageFault .engine).testHalt k) else some (s.setStrand k { x with late := rest })
    else some (s.takeLate k)

/-- LATE_FAULT_TAKEN (R292). -/
def execLateFaultTaken (k : Nat) (s : State) : Out := due "LATE_FAULT_TAKEN" (s.lateTaken k)

/-- The replay entries of a strand's relaxed accesses have ended: a strand that their page fault parked goes on, and one that the forced-save
deadline has stopped there has no wait to come back to (R142, R334). -/
def State.relaxedEnd (s : State) (k : Nat) : State :=
  let x := s.strand k
  if x.why = some Park.pageFault ∧ x.cont = .engine ∧ !s.relaxedReplay k then
    let s := s.modStrand k fun y => { y with late := y.late.filter fun f => f.code != Code.pageFault.num }
    if x.st = .parked then s.wake k
    else if x.st = .stopped then s.modStrand k fun y => { y with why := none, cont := .reissue }
    else s
  else s

/-- REPLAY_ENTRY_END: every element of a released entry is performed, and the entry is free; the instruction it stood for is complete, or the
strand that a relaxed page fault parked goes on (R136, R142). One that an aborted gang left behind completes nothing, but the gang's release may
have waited for it (R114). -/
def State.replayEnd (s : State) (c ix : Nat) : Option State :=
  match (s.core c).replays.find? (fun r => r.ix == ix) with
  | none => none
  | some r =>
    if r.waiting ∨ !r.accs.isEmpty ∨ !r.issued.isEmpty then none
    else
      let k := slotKey c r.slot
      let s := s.dropReplays c fun q => q.ix == ix
      if r.dead then some (s.releasesDone (siteOfC c))
      else if 4 ≤ r.kind ∧ r.kind ≤ 6 then some (s.relaxedEnd k)
      else match s.vopOf k with
        | some o =>
          if vectorKind r.kind ∧ o.taken ∧ o.fault.isNone ∧ o.elems.all (·.done) ∧ !(s.core c).vectorReplay k then some (s.vectorDone o) else some s
        | none => some s

/-- REPLAY_ENTRY_END (R136). -/
def execReplayEntryEnd (c r : Nat) (s : State) : Out := due "REPLAY_ENTRY_END" (s.replayEnd c r)

/-! ## The TLB's invalidations (R200) -/

/-- A request that is not yet performed at its home: in flight, waiting there, or to be sent again; a cached store whose line is still to come. -/
def State.unperformed (s : State) (t : Txn) : Bool :=
  let is (n : Nat) : Bool := n == t.id || s.txns.any fun u => u.id == n && u.parts.any fun m => m.txn == t.id
  t.resend || (t.fill.isSome && t.acc.op.writes) || s.net.any (fun m => is m.txn && (match m.op with | .req _ => true | _ => false))
    || (s.site t.req.dst).waits.any (fun r => is r.txn)

/-- The accesses of a pavilion that an entry may have translated and that are still to be performed; a write-back carries the bytes of stores. -/
def State.translatedBy (s : State) (v : Nat) (p : Nat → Bool) : List Nat :=
  (s.txns.filter fun t =>
    siteOfK t.acc.k == v && t.req.src == v && kindBits t.acc.addr.toNat == 0 && t.acc.size != 0 && p (t.acc.addr.toNat % 2 ^ 57)
      && s.unperformed t).map (·.id)

/-- A line was filled through an entry (R81, R86). -/
def TlbEntry.made (e : TlbEntry) (l : Line) : Bool :=
  let va := l.line * 128
  pteClass e.pte == 0 && e.maps va && l.site == siteAt (pteX e.pte) (pteY e.pte) && l.off == pteFrame e.pte + va % 2 ^ pageBits e.size

/-- Lines of a pavilion's caches, or on their way out of them, that hold bytes of stores not yet performed at the home (R86, R97). -/
def State.dirtyLines (s : State) (v : Nat) : List Line :=
  let cs := (List.range 16).flatMap fun c => (s.core (v * 16 + c)).l1d
  (cs ++ (s.site v).slice ++ (s.site v).leaving.map (·.line)).filter fun l => l.dirty != 0

/-- A write of tlb.inv: the entries go in the cycle in which it arrives, the epoch rises and BUSY is set; while BUSY is set a further write is
held (R200). -/
def State.tlbInv (s : State) (v : Nat) (w : Word) : State :=
  let t := s.site v
  if t.tlbBusy then s.setSite v { t with tlbHeld := t.tlbHeld ++ [w] }
  else
    let gone (e : TlbEntry) : Bool := bitOn w.toNat 63 || e.maps (w.toNat % 2 ^ 57)
    let es := t.tlb.filter gone
    let wait := s.translatedBy v fun va => es.any fun e => e.maps va
    s.setSite v { t with tlb := t.tlb.filter (fun e => !gone e), tlbEpoch := (t.tlbEpoch + 1) % 2 ^ 32, tlbBusy := true, tlbWait := wait, tlbGone := es }

/-- TLB_INV_ADDR (R200). -/
def execTlbInvAddr (v : Nat) (a : BitVec 64) (s : State) : Out :=
  due "TLB_INV_ADDR" (if kindOf v = .pavilion then some (s.tlbInv v (a &&& 0x01FFFFFFFFFFFFFF#64)) else none)
/-- TLB_INV_ALL (R200). -/
def execTlbInvAll (v : Nat) (s : State) : Out :=
  due "TLB_INV_ALL" (if kindOf v = .pavilion then some (s.tlbInv v 0x8000000000000000#64) else none)

/-- Every access that the removed entries of a pavilion's TLB translated is performed at its home: those that were outstanding, and the stores whose
bytes a line filled through such an entry holds, up to the end of its write-back (R97, R200). -/
def State.tlbDone (s : State) (v : Nat) : Bool :=
  let t := s.site v
  let written (u : Txn) : Bool :=
    u.acc.owner == .writeBack && u.req.src == v && s.unperformed u && t.tlbGone.any fun e => e.made { line := u.acc.addr.toNat / 128, site := u.req.dst, off := u.req.off }
  t.tlbWait.all (fun n => match s.txn n with | some u => !s.unperformed u | none => true)
    && !((s.dirtyLines v).any fun l => t.tlbGone.any fun e => e.made l) && !s.txns.any written

/-- TLB_BUSY_CLEAR: every access translated by a removed entry is performed; a held write follows (R200). -/
def State.tlbIdle (s : State) (v : Nat) : Option State :=
  let t := s.site v
  if t.tlbBusy && s.tlbDone v then
    let s := s.setSite v { t with tlbBusy := false, tlbWait := [], tlbGone := [], tlbHeld := t.tlbHeld.drop 1 }
    some (match t.tlbHeld with | w :: _ => s.tlbInv v w | [] => s)
  else none

/-- TLB_BUSY_CLEAR (R200). -/
def execTlbBusyClear (v : Nat) (s : State) : Out := due "TLB_BUSY_CLEAR" (s.tlbIdle v)

end Sys2Proof.Machine
end

