-- ==== Sys2Proof/Machine/Power.lean ====
section
/-! DEFINITION. Operating points, the current limiter, the thermal trip, and quotes (R62, R63, R422-R428, R434, R435). -/

namespace Sys2Proof.Machine

/-! ## Operating points (R422-R426) -/

/-- icap after a control interval in which the limiter's greatest stage was m (R426). -/
def Bower.nextIcap (b : Bower) (m : Nat) : Nat :=
  if m = 2 then min b.icap b.interval - 1 else if m = 0 then min 15 (b.icap + 1) else b.icap

/-- The greatest level that a bower's cores request (R64, R424). -/
def State.requested (s : State) (b : Nat) : Nat := ((List.range 4).map fun i => (s.core (b * 4 + i)).opRequest).foldl max 0

/-- A bower that stands at its target level: ctl.op_granted shows the evaluation that it was set for (R424, log 66). -/
def Bower.arrived (b : Bower) : Bower :=
  { b with level := b.target, boost := b.dueBoost, shownTcap := b.dueTcap, shownIcap := b.dueIcap }

/-- A bower is set for a level: one that stands at it already shows what it was set for at once (R422). -/
def Bower.setFor (b : Bower) (l : Nat) : Bower :=
  let b := { b with target := l }
  if b.level = l then b.arrived else b

/-- A bower after the evaluation at a boundary: m the limiter's greatest stage in the interval, `trip` the thermal trip (R424, R426). Its level, and
with it what ctl.op_granted shows, becomes the new one when the change is complete (R422). -/
def Bower.evaluate (b : Bower) (m : Nat) (trip : Bool) (req : Nat) : Bower :=
  let ceiling := if b.bg then b.hc else min b.hc 12
  let icap := b.nextIcap m
  let tcap := if trip then 0 else b.pwTcap
  let l := min tcap (min icap (min req ceiling))
  { b with icap, dueIcap := icap, dueTcap := tcap, dueBoost := b.bg && decide (12 < l), interval := l }.setFor l

/-- The bowers of a pavilion. -/
def bowersOf (v : Nat) : List Nat := (List.range 4).map (v * 4 + ·)

/-- CONTROL_INTERVAL: the trip is cleared if it may be, and every bower is evaluated (R165, R424-R426). -/
def State.controlInterval (s : State) (v : Nat) : Option State :=
  let t := s.site v
  if kindOf v = .pavilion ∧ t.clocked then
    let trip := t.power.trip && (decide (1000 ≤ t.power.temp) || s.holdFull v 13)
    let m := t.power.maxStage
    let s := s.setSite v { t with power := { t.power with trip, maxStage := t.power.stage } }
    some (each (bowersOf v) (fun s b => s.modBower b fun w => w.evaluate m trip (s.requested b)) s)
  else none

/-- CONTROL_INTERVAL (R424). -/
def execControlInterval (v : Nat) (s : State) : Out := due "CONTROL_INTERVAL" (s.controlInterval v)

/-- LEVEL_CHANGE_COMPLETE (R422). -/
def execLevelChangeComplete (b : Nat) (s : State) : Out :=
  due "LEVEL_CHANGE_COMPLETE" (let w := s.bower b
    if w.level ≠ w.target then some (s.modBower b Bower.arrived) else none)

/-! ## The current limiter (R62, R427, R428) -/

/-- A permit register halved, with what stood before recorded (R427). It meets a `setc` of the same instant as `Permit.take` says, and then records
nothing, the register having been written (R62, R73). -/
def Permit.halve (inst : Bool) (p : Permit) : Permit :=
  match p.was with
  | none => p.take inst (p.rate / 2) (p.cap / 2) (some (p.rate, p.cap))
  | some (r, c, _) => p.take inst (r / 2) (c / 2) none

/-- A permit register as it was recorded; one that has been written since keeps its value (R427). -/
def Permit.restore (inst : Bool) (p : Permit) : Permit :=
  match (match p.was with | none => p.saved | some (_, _, q) => q) with
  | some (r, c) => p.take inst r c none
  | none => p

/-- The cores of a pavilion. -/
def coresOf (v : Nat) : List Nat := (List.range 16).map (v * 16 + ·)

/-- The limiter moves to a stage; the greatest stage of the interval follows (R426). -/
def State.setStage (s : State) (v n : Nat) : State :=
  s.modSite v fun t => { t with power := { t.power with stage := n, maxStage := max n t.power.maxStage } }

/-- LIMITER_WINDOW: a window's current is compared with the limit (R427). The limiter does not leave stage 2 while its hold is full (R165). -/
def State.limiterWindow (s : State) (v meas : Nat) : Option State :=
  if kindOf v ≠ .pavilion then none
  else
    let s := s.modSite v fun t => { t with power := { t.power with imeas := meas % 2 ^ 16 } }
    let p := (s.site v).power
    let above := decide (p.ilimit < p.imeas)
    let below := decide (p.imeas * 100 ≤ p.ilimit * 95)
    some (match p.stage with
      | 0 => if above then each (coresOf v) (fun s c => s.modCore c fun x => x.modPermits (Permit.halve s.instant.isSome)) (s.setStage v 1) else s
      | 1 =>
        if above then
          each (coresOf v) (fun s c => s.modCore c fun x => { x with limited := some x.cycle })
            ((s.setStage v 2).raise v 12 sevNotice 0x010D none 0)
        else if below then each (coresOf v) (fun s c => s.modCore c fun x => x.modPermits (Permit.restore s.instant.isSome)) (s.setStage v 0)
        else s
      | _ =>
        if below && !s.holdFull v 12 then each (coresOf v) (fun s c => s.modCore c fun x => { x with limited := none }) (s.setStage v 1)
        else s)

/-- LIMITER_WINDOW (R427). -/
def execLimiterWindow (v meas : Nat) (s : State) : Out := due "LIMITER_WINDOW" (s.limiterWindow v meas)

/-- THERMAL_TRIP: the hottest sensor is read; at 110.0 °C the trip holds, every bower goes to level 0, where no boost is granted, and the event is
raised (R424, R425). -/
def State.thermalTrip (s : State) (v : Nat) (temp : Int) : Option State :=
  if kindOf v ≠ .pavilion ∨ temp < -32768 ∨ 32767 < temp then none
  else
    let s := s.modSite v fun t => { t with power := { t.power with temp } }
    if 1100 ≤ temp ∧ !(s.site v).power.trip then
      let s := s.modSite v fun t => { t with power := { t.power with trip := true } }
      some ((each (bowersOf v) (fun s b => s.modBower b fun w => { w with dueBoost := false }.setFor 0) s).raise v 13 sevUncorrected 0x010E none 0)
    else some s

/-- THERMAL_TRIP (R425). -/
def execThermalTrip (v : Nat) (temp : Int) (s : State) : Out := due "THERMAL_TRIP" (s.thermalTrip v temp)

/-! ## Quotes (R434, R435) -/

/-- The bytes of a site's section: the image that was fetched without its header and its signature (R432). -/
def sectionBytes (l : List Byte) : List Byte := (l.drop 64).take (l.length - 128)

/-- The section that a site has applied. -/
def State.sectionOf (s : State) (v : Nat) : Config.ImageSection := Config.sectionOf v (sectionBytes (s.site v).section_)

/-- The die key of a site (R434). -/
def dieKey (v : Nat) (helper : List Byte) : Nat := Config.pufSeed v helper % (p256N - 1) + 1

/-- A word of bytes 72 to 79 of a quote: virtual and physical coordinates (R435). -/
def State.quotePlace (s : State) (v : Nat) : Nat :=
  let (x, y) := s.virt v
  y * 2 ^ 24 + x * 2 ^ 16 + yOf v * 2 ^ 8 + xOf v

/-- AT_GO: a GO while BUSY is ignored (R435). -/
def State.atGo (s : State) (v : Nat) : State :=
  s.modSite v fun t => if t.power.busy then t else { t with power := { t.power with busy := true, done := false } }

/-- AT_GO (R435). -/
def execAtGo (v : Nat) (s : State) : Out := due "AT_GO" (if kindOf v = .memory then none else some (s.atGo v))

/-- Four free words as one number. -/
def State.freeScalar (s : State) : Nat × State :=
  let (a, s) := s.free
  let (b, s) := s.free
  let (c, s) := s.free
  let (d, s) := s.free
  (((a.toNat * 2 ^ 64 + b.toNat) * 2 ^ 64 + c.toNat) * 2 ^ 64 + d.toNat, s)

/-- The kind of a site as cfg.ident has it (R414). -/
def kindNo (v : Nat) : Nat := match kindOf v with | .pavilion => 1 | .memory => 2 | .gatehouse => 3

/-- cfg.ident (R414): a Malavo die's vendor and every die's kind and protocol version are stated, the rest is the die's. -/
def identWord (v : Nat) : Nat :=
  let d := (Config.dieWord v 0).toNat
  (if kindOf v = .pavilion then 0x1A7E else bits d 63 48) * 2 ^ 48 + kindNo v * 2 ^ 32 + bits d 31 16 * 2 ^ 16 + 1

/-- Bytes 0 to 95 of a quote (R435). -/
def State.quoteBody (s : State) (v : Nat) : List Byte :=
  let t := s.site v
  (List.range 32).map (fun i => t.power.nonce.getD i 0) ++ sha256 (sectionBytes t.section_) ++ leBytes 8 (identWord v)
    ++ leBytes 8 (s.quotePlace v) ++ leBytes 8 t.imageVersion ++ leBytes 8 t.time.toNat

/-- QUOTE_DONE: the quote is written, signed by the die key with a number that the spec does not give (log 11), and DONE set (R435). -/
def State.quoteDone (s : State) (v : Nat) : Option State :=
  if (s.site v).power.busy then
    let (k, s) := s.freeScalar
    let b := s.quoteBody v
    let q := b ++ ecdsaSign (dieKey v (s.sectionOf v).helper) (k % (p256N - 1) + 1) b
    some (s.modSite v fun t => { t with power := { t.power with quote := q, busy := false, done := true } })
  else none

/-- QUOTE_DONE (R435). -/
def execQuoteDone (v : Nat) (s : State) : Out := due "QUOTE_DONE" (s.quoteDone v)

end Sys2Proof.Machine
end

