-- ==== Sys2Proof/Machine/Flits.lean ====
section
/-! DEFINITION. The bytes of a flit on a link: head, operations, data, enables and check (R4, R401-R404, R417). -/

namespace Sys2Proof.Machine

open Sys2Proof

/-! ## The check (R401) -/

/-- One byte of a CRC-32C, least significant bit first. -/
def crcByte (c : Nat) (b : Byte) : Nat :=
  (List.range 8).foldl (fun c _ => if c % 2 = 1 then c / 2 ^^^ 0x82F63B78 else c / 2) (c ^^^ b.toNat)

/-- CRC-32C (R401): polynomial 0x1EDC_6F41, initial value and final XOR 0xFFFF_FFFF. -/
def crc32c (l : List Byte) : Nat := l.foldl crcByte 0xFFFFFFFF ^^^ 0xFFFFFFFF

/-! ## Operations (R404) -/

/-- The number of an atomic in R360. -/
def AmoOp.aop : AmoOp → Nat
  | .add => 0 | .fadd => 1 | .minI => 2 | .maxI => 3 | .minN => 4 | .maxN => 5 | .and => 6 | .or => 7 | .xor => 8

/-- The op of a request (R404). -/
def ReqOp.code : ReqOp → Nat
  | .read => 0x01 | .write => 0x02 | .writeFull => 0x03
  | .ldf => 0x04 | .ldfc => 0x05 | .ldfn => 0x06 | .stef => 0x07 | .clre => 0x08 | .setf => 0x09
  | .vldf c => if c then 0x0B else 0x0A
  | .nibble => 0x0D
  | .amo op => 0x10 + op.aop
  | .famo .add => 0x19 | .famo .fadd => 0x1A | .famo .or => 0x1B | .famo .swap => 0x1C | .famo .cas => 0x1D
  | .monArm => 0x20 | .monClr => 0x21

/-- The drain markers by class (R404). -/
def markerCode (c : Nat) : Nat := [0x3F, 0x7F, 0x9F, 0xBF, 0xFF].getD c 0x3F

/-- The op of a message (R404). A fault-queue notice has none in the table, and crosses no link (log 59). -/
def Msg.code (m : Msg) : Nat :=
  match m.op with
  | .req op => op.code
  | .feWithdraw _ => 0x0C
  | .nqWord .. => 0x22
  | .drainMarker c _ => if m.full then 0x43 else markerCode c
  | .data => 0x40 | .ack => 0x41 | .deferral => 0x42 | .error _ => 0x43 | .monFire _ => 0x44 | .refusal => 0x45 | .hostRetry => 0x46 | .status _ => 0x47
  | .counterAdd _ => 0x80 | .launchSub .. => 0x81
  | .armReserve .. => 0xA0 | .armCommit .. => 0xA1 | .armRelease .. => 0xA2 | .contribution .. => 0xA3 | .result .. => 0xA4
  | .cfgRead => 0xC0 | .cfgWrite => 0xC1 | .hello .. => 0xC8 | .imageRequest _ => 0xC9 | .imageBlock .. => 0xCA
  | .probeTs _ => 0xCB | .probeEcho .. => 0xCC
  | .faultNotice => 0

/-- The bits of input flags (R404). -/
def FFlags.aux (g : FFlags) : Nat := bitAt g.nan 0 + bitAt g.pinf 1 + bitAt g.ninf 2

/-- The aux field of a message (R404). -/
def Msg.aux (m : Msg) : Nat :=
  match m.op with
  | .req (.amo op) => (m.addFlags op (leNat (m.data.take 4))).aux
  | .req .monArm | .req .monClr => m.key % 16
  | .feWithdraw t => t % 2 ^ 16
  | .nqWord c q => c * 16 + q
  | .drainMarker _ _ => if m.full then Code.unreachableSite.num else 0
  | .data => bitAt m.full 0
  | .error c => c
  | .monFire n | .status n | .counterAdd n | .imageRequest n | .imageBlock n _ => n
  | .armReserve g _ _ | .armCommit g _ _ | .armRelease g _ | .result g _ => g % 256
  | .contribution g d => g % 256 + bitAt (d == 4) 8
  | _ => 0

/-- The 32 bytes of an arm message: the fields of the entry (R208, R404). -/
def Trellis.wire (e : Trellis) : List Byte := (List.range 4).flatMap fun i => leBytes 8 (e.wordAt i)

/-- The 16 bytes of a hello (R417): cfg.ident, and cfg.coord with the edge that it leaves by, whose place the spec does not give (log 59). -/
def helloBytes (v d y x : Nat) (valid : Bool) : List Byte :=
  leBytes 8 (identWord v) ++ leBytes 8 ((if valid then 2 ^ 63 + y * 2 ^ 8 + x else 0) ||| (Config.helloEdge d &&& 0x7FFFFFFFFFFFE0E0#64).toNat)

/-- The data bytes of a message (R404). -/
def Msg.wire (m : Msg) : List Byte :=
  match m.op with
  | .req .read => []
  | .armReserve _ _ e | .armCommit _ _ e => e.wire
  | .armRelease _ _ => Trellis.wire {}
  | .hello _ y x valid => helloBytes m.src (opposite m.edge) y x valid
  | .probeTs t => leBytes 8 t.toNat
  | .probeEcho _ t2 t3 => leBytes 8 t2.toNat ++ leBytes 8 t3.toNat
  | _ => m.data

/-- The len field of n bytes (R402): the least power of two that holds them. -/
def lenCode (n : Nat) : Nat := if n = 0 then 0 else ceilLog2 n + 1

/-- The bytes that a message asks for or carries. -/
def Msg.lenField (m : Msg) : Nat := match m.op with | .req .read => lenCode m.len | _ => lenCode m.wire.length

/-- The space and where fields (R402): requests name a byte of a unit or of host memory, pieces and configuration accesses an offset. -/
def Msg.word1 (m : Msg) : Nat :=
  match m.op with
  | .req _ | .feWithdraw _ => if m.host then 2 ^ 62 + m.off % 2 ^ 53 else m.unit * 2 ^ 36 + m.off % 2 ^ 36
  | .contribution .. | .result .. | .cfgRead | .cfgWrite => m.off % 2 ^ 36
  | _ => 2 ^ 63

/-- The F field: a write that sets full, or the bit that a data response tells (R402). -/
def Msg.wireF (m : Msg) : Bool := match m.op with | .req .writeFull => true | .data => m.bit | _ => false

/-- Message ops that write under byte enables (R401). -/
def Msg.enables (m : Msg) : Nat × Nat :=
  match m.op with
  | .req .write | .req .writeFull => (m.en, 0)
  | .req .nibble => (m.en, m.hi)
  | _ => (0, 0)

/-! ## The flit (R401, R402) -/

/-- Word 0 of a head: op, len, F and class with the link fields and the sequence number (R402). -/
def headWord0 (op len : Nat) (full : Bool) (cls seq : Nat) (f : LinkFields) : Nat :=
  op * 2 ^ 56 + len * 2 ^ 48 + f.crd * 2 ^ 40 + f.ccl * 2 ^ 37 + bitAt f.cv 36 + bitAt full 32 + cls * 2 ^ 29 + bitAt f.rq 25 + bitAt f.av 24
    + f.ack * 2 ^ 12 + seq

/-- The four head words of a message (R402). -/
def Msg.head (m : Msg) (seq : Nat) (f : LinkFields) : List Nat :=
  [headWord0 m.code m.lenField m.wireF m.op.cls seq f, m.word1,
   yOf m.src * 2 ^ 56 + xOf m.src * 2 ^ 48 + yOf m.dst * 2 ^ 40 + xOf m.dst * 2 ^ 32 + m.key % 2 ^ 25,
   m.count * 2 ^ 48 + m.txn % 2 ^ 16 * 2 ^ 32 + m.aux * 2 ^ 16 + (match m.tag with | some n => 2 ^ 10 + n | none => 0)]

/-- A list of bytes, zeros after it, to a length. -/
def padBytes (n : Nat) (l : List Byte) : List Byte := (l ++ List.replicate n 0).take n

/-- The 256 bytes of a flit from its head words, data and enables (R401). -/
def flitOf (head : List Nat) (data : List Byte) (en hi : Nat) : List Byte :=
  let l := head.flatMap (leBytes 8) ++ padBytes 128 data ++ leBytes 16 en ++ leBytes 16 hi ++ List.replicate 60 0
  l ++ leBytes 4 (crc32c l)

/-- The link fields of a flit. -/
def Flit.fields (f : Flit) : LinkFields :=
  { cv := f.crd.isSome, ccl := (f.crd.getD (0, 0)).1, crd := (f.crd.getD (0, 0)).2, av := true, ack := f.ack, rq := f.rq }

/-- The bytes of a flit on a link (R401). -/
def Flit.bytes (f : Flit) : List Byte := flitOf (f.msg.head f.seq f.fields) f.msg.wire f.msg.enables.1 f.msg.enables.2

/-- The bytes of an idle flit: only word 0's link fields (R402). -/
def LinkFields.bytes (f : LinkFields) : List Byte := flitOf [headWord0 0 0 false 0 0 f, 0, 0, 0] [] 0 0

/-! ## What a receiver checks (R401-R403) -/

/-- A word of a flit's head. -/
def headAt (l : List Byte) (i : Nat) : Nat := leNat ((l.drop (8 * i)).take 8)

/-- A flit passes its check (R401). -/
def crcOk (l : List Byte) : Bool := l.length == 256 && leNat (l.drop 252) == crc32c (l.take 252)

/-- The link fields that a flit carries (R402). -/
def linkFieldsOf (l : List Byte) : LinkFields :=
  let w := headAt l 0
  { cv := bitOn w 36, ccl := bits w 39 37, crd := bits w 47 40, av := bitOn w 24, ack := bits w 23 12, rq := bitOn w 25 }

/-- The class that an op belongs to (R404). -/
def opClass (n : Nat) : Nat := if n < 0x40 then 0 else if n < 0x80 then 1 else if n < 0xA0 then 2 else if n < 0xC0 then 3 else 4

/-- The defined ops (R404). -/
def opDefined (n : Nat) : Bool :=
  (1 ≤ n && n ≤ 0x0D) || (0x10 ≤ n && n ≤ 0x1D) || (0x20 ≤ n && n ≤ 0x22) || n == 0x3F || (0x40 ≤ n && n ≤ 0x47) || n == 0x7F || n == 0x80 || n == 0x81
    || n == 0x9F || (0xA0 ≤ n && n ≤ 0xA4) || n == 0xBF || n == 0xC0 || n == 0xC1 || (0xC8 ≤ n && n ≤ 0xCC) || n == 0xFF

/-- A reserved field of a flit is not zero, or holds a reserved value (R401, R402). -/
def flitReserved (l : List Byte) : Bool :=
  let w (i : Nat) : Nat := headAt l i
  let op := bits (w 0) 63 56
  let zero (a n : Nat) : Bool := ((l.drop a).take n).all (· == 0)
  bits (w 0) 55 52 != 0 || bits (w 0) 35 33 != 0 || bits (w 0) 28 26 != 0 || decide (8 < bits (w 0) 51 48) || decide (4 < bits (w 0) 31 29)
    || decide (bits (w 1) 63 62 = 3) || bits (w 1) 61 53 != 0 || (decide (bits (w 1) 63 62 = 0) && bits (w 1) 52 41 != 0)
    || bits (w 2) 63 61 != 0 || bits (w 2) 55 53 != 0 || bits (w 2) 47 45 != 0 || bits (w 2) 39 37 != 0 || bits (w 2) 31 25 != 0 || bits (w 3) 15 11 != 0
    || !(decide (op = 2 ∨ op = 3 ∨ op = 0x0D) || zero 160 16) || !(decide (op = 0x0D) || zero 176 16) || !zero 192 60

/-- A flit that passes its check is one that a receiver takes (R403): no reserved field, an op of the table, of the flit's class. -/
def protocolOk (l : List Byte) : Bool :=
  let op := bits (headAt l 0) 63 56
  !flitReserved l && opDefined op && opClass op == bits (headAt l 0) 31 29

end Sys2Proof.Machine
end

