-- ==== Sys2Proof/Machine/Links.lean ====
section
/-! DEFINITION. The links between sites: flits sent and received one link at a time, credits, resending, links that go down, and the merging of
atomics in routers (R111, R112, R229, R402-R410, R421, R429). What a link's end must still send (credits, acknowledgement, retry request) goes with the
next flit that it sends, whether that carries a message or is idle. -/

namespace Sys2Proof.Machine

open Sys2Proof

/-! ## Counting (R229) -/

/-- Window offset of the retry counters of an edge and a mesh (R229). -/
def lrOffset (d : Nat) (x : Mesh) : Nat := 0xC3000 + 64 * d + (match x with | .oak => 0 | .ash => 32)

/-- A retry counter of a pavilion counts n more; other sites have none. -/
def State.countRetry (s : State) (v off n : Nat) : State :=
  if kindOf v = .pavilion then
    s.modSite v fun t => { t with retries := Tab.put off (Tab.get 0 off t.retries + BitVec.ofNat 64 n) t.retries }
  else s

/-! ## Credits (R405) -/

/-- The credits that the next flit returns: those of the first class that is owed any, 255 at most (R402, R405). -/
def Link.giveBack (l : Link) : Option (Nat × Nat) := (l.owed.find? fun q => q.2 != 0).map fun q => (q.1, min 255 q.2)

/-- Credits owed are returned, or, with `back`, owed again because the flit that carried them was dropped (R421). -/
def Link.owes (l : Link) (back : Bool) (c : Option (Nat × Nat)) : Link :=
  match c with
  | none => l
  | some (k, n) => { l with owed := Tab.put k (if back then Tab.get 0 k l.owed + n else Tab.get 0 k l.owed - n) l.owed }

/-- The link fields that go with a flit sent now are sent: its credits are no longer owed, and its retry request stands no more. -/
def Link.stamp (l : Link) (f : Flit) : Flit × Link :=
  ({ f with crd := l.giveBack, ack := l.got, rq := l.rq }, { l.owes false l.giveBack with rq := false })

/-! ## Sending (R405, R407) -/

/-- A new flit with a message leaves by a link (R405, R407): a credit is spent, and a copy stays in the retry buffer. -/
def Link.send (l : Link) (m : Msg) : Link :=
  let (f, l) := l.stamp { seq := l.seq, msg := m }
  let c := m.op.cls
  { l with seq := (l.seq + 1) % 4096, retry := l.retry ++ [{ seq := f.seq, msg := m }], wire := l.wire ++ [f],
           credits := Tab.put c (Tab.get 0 c l.credits - 1) l.credits }

/-- Every unacknowledged flit is sent again, in order, with current link fields (R407, R421). -/
def Link.resend (l : Link) : Link :=
  l.retry.foldl (fun l f => let (g, l) := l.stamp f; { l with wire := l.wire ++ [g] }) l

/-- The sender of a link resends what is unacknowledged; every flit sent again is counted (R407, R229). -/
def State.resendLink (s : State) (v d : Nat) (x : Mesh) : State :=
  (s.modLink v d x Link.resend).countRetry v (lrOffset d x) ((s.site v).link d x).retry.length

/-- A message that no link can carry, at router v (R408, R421): a request of any kind that a reply answers gets error 0x0007 from there; a drain marker
is so answered, wherever it was going; anything else is dropped with an event of unit u. -/
def State.unsent (s : State) (v u : Nat) (m : Msg) : State :=
  let e : Msg := { id := 0, op := .error Code.unreachableSite.num, mesh := otherMesh m.mesh, src := v, dst := m.src, key := m.key, txn := m.txn }
  match m.op with
  | .drainMarker _ r => s.post { e with op := .drainMarker 1 true, dst := if r then m.dst else m.src, full := true }
  | op => if op.answered then s.post e else s.raise v u sevUncorrected 0x0106 none 0

/-- The message raises an event when no link can carry it. -/
def Msg.raises (m : Msg) : Bool := match m.op with | .drainMarker _ _ => false | op => !op.answered

/-- The first of a queue leaves for the next link of its way: with a credit of its class and room in the retry buffer it is sent; a link that is down has
its router answer the message or drop it (R405, R407, R408). -/
def State.sendFlit (s : State) (n : Nat) : Option State :=
  match s.headOf n with
  | none => none
  | some m => match m.next, m.mesh with
    | some (v, d), some x =>
      let l := (s.site v).link d x
      if l.up then
        if !l.hasCredit m.op.cls ∨ 512 ≤ l.retry.length then none
        else
          let s := (s.unbuffer m).modLink v d x fun l => l.send m
          some { s with net := s.net.map fun q => if q.id = n then { q with sent := true, buf := none } else q }
      else if m.raises && s.holdFull v 7 then none
      else some ((s.consume n).unsent v 7 m)
    | _, _ => none

/-! ## What a flit brings (R402, R407) -/

/-- The retry buffer without the flits up to an acknowledged number; one older than any that it holds frees nothing (R407). -/
def ackedFlits (a : Nat) (l : List Flit) : List Flit := l.dropWhile fun q => decide ((a + 4096 - q.seq) % 4096 < 2048)

/-- The link fields of a flit that arrives at site v over edge d (R402, R405, R407): an acknowledgement frees the retry buffer, credits return, and a
retry request brings a resend. -/
def State.linkFields (s : State) (v d : Nat) (x : Mesh) (f : LinkFields) : State :=
  let s := s.modLink v d x fun l =>
    { l with retry := if f.av then ackedFlits f.ack l.retry else l.retry, acked := if f.av then f.ack else l.acked,
             credits := if f.cv then Tab.put f.ccl (Tab.get 0 f.ccl l.credits + f.crd) l.credits else l.credits }
  if f.rq then s.resendLink v d x else s

/-- A receiver has detected an error (R407): it counts it, asks for a resend, and drops what comes until the flit that is due. -/
def State.detected (s : State) (v d : Nat) (x : Mesh) : State :=
  (s.modLink v d x fun l => { l with dropping := true, rq := true }).countRetry v (lrOffset d x + 16) 1

/-- The end of a link at the other side of edge d of site v. -/
def State.peerLink (s : State) (v d : Nat) (x : Mesh) : Option (Nat × Link) := (neighbour v d).map fun w => (w, (s.site w).link (opposite d) x)

/-- The first flit on its way to site v over edge d is taken off the link. -/
def State.takeFlit (s : State) (w d : Nat) (x : Mesh) : State := s.modLink w (opposite d) x fun l => { l with wire := l.wire.drop 1 }

/-- The message of a flit stands at site v, in the receive buffer of edge d, behind what stands there (R405, R409). -/
def State.landed (s : State) (d n : Nat) : State :=
  match s.net.find? (fun m => m.id == n) with
  | none => s
  | some m => { s with net := s.net.filter (fun q => q.id != n) ++ [{ m with hops := m.hops + 1, sent := false, via := [d], buf := some d }] }

/-- The copies of a flit, kept and on their way, with or without the mark of a failed sending (R408). -/
def Link.strike (n : Nat) (hit : Bool) (l : Link) : Link :=
  let mark (g : Flit) : Flit := if g.seq = n then { g with hit } else g
  { l with retry := l.retry.map mark, wire := l.wire.map mark }

/-- The receiver of site v's link of edge d takes the next flit (R407, R408): the flit that is due is delivered, with a corrected event if it had failed
its check before; a flit delivered already is dropped without effect; a flit that comes too early shows a gap. -/
def State.recvFlit (s : State) (v d : Nat) (x : Mesh) : Option State :=
  match s.peerLink v d x with
  | none => none
  | some (w, p) => match p.wire with
    | [] => none
    | f :: _ =>
      let l := (s.site v).link d x
      let ahead := (f.seq + 4096 - (l.got + 1) % 4096) % 4096
      let lose (s : State) : State := s.modLink w (opposite d) x fun q => q.owes true f.crd
      if !l.up then none
      else if ahead = 0 then
        if f.hit && s.holdFull v 8 then none
        else
          let s := (s.takeFlit w d x).modLink v d x fun l => { l with got := f.seq, dropping := false }
          let s := if f.hit then s.modLink w (opposite d) x (Link.strike f.seq false) else s
          let s := (s.linkFields v d x f.fields).landed d f.msg.id
          some (if f.hit then s.raise v 8 sevCorrected 0x0104 none 0 else s)
      else if 2048 ≤ ahead ∨ l.dropping then some (lose (s.takeFlit w d x))
      else some ((lose (s.takeFlit w d x)).detected v d x)

/-! ## Links going down (R408, R416, R429) -/

/-- The end of a link goes down: what its retry buffer holds is answered or dropped (R408). -/
def State.endDown (s : State) (v d : Nat) (x : Mesh) : State :=
  let fs := ((s.site v).link d x).retry
  let gone (m : Msg) : Bool := m.sent && decide (m.mesh = some x) && decide (m.next = some (v, d))
  let s := s.modLink v d x fun _ => { dead := true }
  let s : State := { s with net := s.net.filter fun m => !gone m }
  each fs (fun s f => match f.msg.op with
    | .drainMarker .. => s.unsent v 8 f.msg
    | op => if op.cls = 0 then s.unsent v 8 f.msg else s.raise v 8 sevUncorrected 0x0106 none 0) s

/-- An end of a link that goes down raises an event, for an unacknowledged flit that it drops (R408). -/
def Link.dropRaises (l : Link) : Bool :=
  l.retry.any fun f => match f.msg.op with | .drainMarker .. => false | op => op.cls != 0

/-- A link cannot go down: one of its ends could not hold the event of what it drops (R165). -/
def State.dropStalls (s : State) (v d : Nat) (x : Mesh) : Bool :=
  (((s.site v).link d x).dropRaises && s.holdFull v 8) ||
    (match s.peerLink v d x with
    | some (w, l) => l.dropRaises && s.holdFull w 8
    | none => false)

/-- A link goes down in both directions and stays down until its sites return to COLD (R408). -/
def State.dropLink (s : State) (v d : Nat) (x : Mesh) : State :=
  match neighbour v d with
  | none => s
  | some w => (s.endDown v d x).endDown w (opposite d) x

/-- A link goes down with the event that names its edge and mesh, in the record of site v (R408, log 36). -/
def State.linkDown (s : State) (v d : Nat) (x : Mesh) : State :=
  (s.raise v 8 sevUncorrected 0x0105 none (Config.linkName d (x == .ash))).dropLink v d x

/-! ## Detection and resending (R407, R408) -/

/-- LINK_CRC_ERROR: the next flit to reach site v over edge d fails its check, or an idle one does. It is dropped and asked for again; a flit that had
failed already marks a lasting fault, and the link goes down (R407, R408). -/
def State.crcError (s : State) (v d : Nat) (x : Mesh) : Option State :=
  match s.peerLink v d x with
  | none => none
  | some (w, p) =>
    if !((s.site v).link d x).up then none
    else match p.wire with
      | [] => some (s.detected v d x)
      | f :: _ =>
        if f.hit then
          if s.holdFull w 8 || s.dropStalls v d x then none
          else some (((s.detected v d x).countRetry w (lrOffset (opposite d) x + 8) 1).linkDown w (opposite d) x)
        else
          some (((s.takeFlit w d x).modLink w (opposite d) x fun l => (l.owes true f.crd).strike f.seq true).detected v d x)

/-- LINK_CRC_ERROR (R407). -/
def execLinkCrcError (v d : Nat) (x : Mesh) (s : State) : Out := due "LINK_CRC_ERROR" (s.crcError v d x)

/-- LINK_RETRY_TIMEOUT (R407). -/
def execLinkRetryTimeout (v d : Nat) (x : Mesh) (s : State) : Out :=
  due "LINK_RETRY_TIMEOUT" (let l := (s.site v).link d x
    if l.up ∧ !l.retry.isEmpty then some (s.resendLink v d x) else none)

/-- Fields that an end of a link can send in a flit now: its last good number, its retry request, and credits that it owes (R402, R405, R407). -/
def Link.canSay (l : Link) (f : LinkFields) : Bool :=
  f.av && f.ack == l.got && f.rq == l.rq && (if f.cv then decide (0 < f.crd ∧ f.crd < 256 ∧ f.crd ≤ Tab.get 0 f.ccl l.owed) else f.crd == 0 && f.ccl == 0)

/-- IDLE_FLIT: the other end of a link tells its link fields in a flit that carries nothing else, when no flit is on its way (R402, R405, R407; log 35). -/
def State.idleFlit (s : State) (v d : Nat) (x : Mesh) (f : LinkFields) : Option State :=
  match s.peerLink v d x with
  | none => none
  | some (w, p) =>
    if ((s.site v).link d x).up ∧ p.wire.isEmpty ∧ p.canSay f then
      some ((s.modLink w (opposite d) x fun l => { l.owes false (if f.cv then some (f.ccl, f.crd) else none) with rq := false }).linkFields v d x f)
    else none

/-- IDLE_FLIT (R407). -/
def execIdleFlit (v d : Nat) (x : Mesh) (f : LinkFields) (s : State) : Out := due "IDLE_FLIT" (s.idleFlit v d x f)

/-- Class of the buffer that a flit takes: the class it names, or that of its op where it names none (R402, R405). -/
def bufferClass (l : List Byte) : Nat :=
  let c := bits (headAt l 0) 31 29
  if c < 5 then c else opClass (bits (headAt l 0) 63 56)

/-- The bytes of a flit that passes its check are none of the protocol: an idle flit with a reserved field that is not zero, or any other that R403
does not take. -/
def protocolBad (b : List Byte) : Bool := if bits (headAt b 0) 63 56 = 0 then flitReserved b else !protocolOk b

/-- FLIT_PROTOCOL_ERROR: a flit from outside (log 18) that passes its check and is not of the protocol comes as the next of its direction, after the
flits that are on their way. It is consumed with its credit returned, its link fields are taken, and the event is raised; nothing is answered
(R403, R421). An idle flit has no number and takes no credit (R402). -/
def State.protocolError (s : State) (v d : Nat) (x : Mesh) (b : List Byte) : Option State :=
  match s.peerLink v d x with
  | none => none
  | some (w, p) =>
    let l := (s.site v).link d x
    let c := bufferClass b
    let f := linkFieldsOf b
    if !l.up ∨ !crcOk b ∨ !protocolBad b ∨ !p.wire.isEmpty ∨ !p.canSay f ∨ s.holdFull v 8 then none
    else
      let told (q : Link) : Link := { q.owes false (if f.cv then some (f.ccl, f.crd) else none) with rq := false }
      let event (s : State) : State := (s.linkFields v d x f).raise v 8 sevUncorrected 0x0107 none 0
      if bits (headAt b 0) 63 56 = 0 then some (event (s.modLink w (opposite d) x told))
      else if headAt b 0 % 4096 = p.seq ∧ p.seq = (l.got + 1) % 4096 ∧ p.hasCredit c ∧ p.retry.length < 512 then
        let s := s.modLink w (opposite d) x fun q =>
          { told q with seq := (q.seq + 1) % 4096, acked := q.seq, credits := Tab.put c (Tab.get 0 c q.credits - 1) q.credits }
        some (event (s.modLink v d x fun q => { q.owes true (some (c, 1)) with got := p.seq, dropping := false }))
      else none

/-- FLIT_PROTOCOL_ERROR (R403). -/
def execFlitProtocolError (v d : Nat) (x : Mesh) (b : List (BitVec 8)) (s : State) : Out := due "FLIT_PROTOCOL_ERROR" (s.protocolError v d x b)

/-- The meshes whose link of an edge is up. -/
def Site.meshesUp (t : Site) (d : Nat) : List Mesh := [Mesh.oak, .ash].filter fun x => (t.link d x).up

/-- REFERENCE_CLOCK_LOSS: the links of the edge go down (R408, R429). -/
def execReferenceClockLoss (v d : Nat) (s : State) : Out :=
  due "REFERENCE_CLOCK_LOSS" (let l := (s.site v).meshesUp d
    if l.isEmpty ∨ s.holdFull v 8 ∨ l.any (s.dropStalls v d) then none else some (each l (fun s x => s.linkDown v d x) s))

/-! ## Merging (R111, R112, R410) -/

/-- The operand of a merged atomic, with the input flags of its contributions (R112, R251). -/
def mergeOperand (op : AmoOp) (a b : Nat) (g : FFlags) : Nat := if op = .fadd then fp32.sumBy g (fp32.addR .rne a b) else amoApply op a b {}

/-- Two requests meet the conditions of a merge (R111); the modes agree too, so that the home's check is one for both. -/
def State.mergeable (s : State) (v : Nat) (a b : Msg) : Bool :=
  a.id != b.id && a.dst == b.dst && a.unit == b.unit && a.off == b.off && a.host == b.host && decide (a.tag = b.tag) && decide (a.mesh = b.mesh)
    && decide (a.op = b.op) && a.place == v && b.place == v && a.next.isSome && decide (a.next = b.next) && s.userAccess a == s.userAccess b

/-- ROUTER_MERGE_AMO: two requests that wait in a router for one output become one, whose source is the router (R111, R410). -/
def State.mergeAmo (s : State) (v n1 n2 : Nat) : Option State :=
  match s.headOf n1, s.headOf n2 with
  | some a, some b => match a.op with
    | .req (.amo op) =>
      if !s.mergeable v a b then none
      else
        let x := leNat (a.data.take op.size)
        let y := leNat (b.data.take op.size)
        let g := (a.addFlags op x).or (b.addFlags op y)
        let acc : Acc := { op := .amo op, size := op.size, sup := !s.userAccess a, owner := .nobody }
        let s := (s.unbuffer a).unbuffer b
        let (t, s) := s.fresh
        let (i, s) := s.fresh
        let m : Msg :=
          { a with id := i, src := v, hops := 0, buf := none, via := a.via ++ b.via, key := max a.key b.key,
                   data := leBytes op.size (mergeOperand op x y g), count := a.count + b.count, flags := g, txn := t }
        let first := match s.net.find? (fun q => q.id == n1 || q.id == n2) with | some q => q.id | none => n1
        let net := (s.net.map fun q => if q.id = first then m else q).filter fun q => q.id != n1 && q.id != n2
        some { s with net, txns := s.txns ++ [{ id := t, acc, req := m, parts := [a, b] }] }
    | _ => none
  | _, _ => none

/-- ROUTER_MERGE_AMO (R111). -/
def execRouterMergeAmo (v m1 m2 : Nat) (s : State) : Out := due "ROUTER_MERGE_AMO" (s.mergeAmo v m1 m2)

end Sys2Proof.Machine
end

