-- ==== Sys2Proof/Machine/Tables.lean ====
section
/-! DEFINITION. The site map, the network-select table and the banded-latency table as firmware writes them (R201-R207, R213, R214). -/

namespace Sys2Proof.Machine

/-! ## The site map (R201, R203) -/

/-- Virtual site of entry i = 20 y + x of the site map and the network-select table. -/
def entrySite (i : Nat) : Nat := siteAt (i % 20) (i / 20)

/-- Entry i of the site map written with a 16-bit field: a memory site's and a gatehouse's entry, and one whose site is not marked
unreachable, keep what they hold (R201). -/
def Site.writeMap (t : Site) (i f : Nat) : Site :=
  let k := entrySite i
  if kindOf k ≠ .pavilion ∨ Tab.get 0 k t.ns ≠ 3 then t
  else
    let p := siteAt (bits f 4 0) (bits f 12 8)
    if bitOn f 15 then { t with smap := Tab.put k p t.smap, smapClear := Tab.del k t.smapClear }
    else { t with smap := Tab.del k t.smap, smapClear := Tab.put k p t.smapClear }

/-- Entry i as it reads (R201): an entry with V clear keeps its coordinates. -/
def Site.mapEntry (t : Site) (i : Nat) : Nat :=
  let k := entrySite i
  let f (p : Nat) : Nat := yOf p * 2 ^ 8 + xOf p
  if kindOf k ≠ .pavilion then 2 ^ 15 + f k else match Tab.find k t.smap with | some p => 2 ^ 15 + f p | none => f (Tab.get 0 k t.smapClear)

/-- Word j of the site map. -/
def Site.mapWord (t : Site) (j : Nat) : Word := BitVec.ofNat 64 (((List.range 4).map fun i => t.mapEntry (4 * j + i) * 2 ^ (16 * i)).sum)

/-- A write of word j of the site map of a site: before READY nothing but the image sets it (R26, R419). -/
def State.writeMapWord (s : State) (v j : Nat) (w : Word) : State :=
  s.modSite v fun t => if !t.inService then t else (List.range 4).foldl (fun t i => t.writeMap (4 * j + i) (bits w.toNat (16 * i + 15) (16 * i))) t

/-- SM_MAP_WRITE (R201). -/
def execSmMapWrite (v ix : Nat) (w : BitVec 64) (s : State) : Out :=
  due "SM_MAP_WRITE" (if ix < 100 then some (s.writeMapWord v ix w) else none)

/-- sm.self as it reads (R201). -/
def Site.selfWord (t : Site) : Word := match t.self with | some (x, y) => BitVec.ofNat 64 (2 ^ 63 + y * 2 ^ 8 + x) | none => 0

/-- sm.self written (R203, R213, R419; log 37): before READY nothing but the image sets it (R26). -/
def State.writeSelf (s : State) (v : Nat) (w : Word) : State :=
  s.modSite v fun t => if !t.inService then t else { t with self := if bitOn w.toNat 63 then some (bits w.toNat 7 0, bits w.toNat 15 8) else none }

/-! ## sm.refs (R202) -/

/-- The virtual site that a placed address names from site v. -/
def State.placedSite (s : State) (v : Nat) (a : Addr) : Option Nat :=
  if kindBits a.toNat = 1 ∨ kindBits a.toNat = 2 then (s.absolute v a).map fun b => siteAt (bits b.toNat 56 49) (bits b.toNat 48 41) else none

/-- The virtual site that the operation of a trigger-list entry names (R202, R360): a put, an amo and their remote counter by the address, a
remote add by its target word, a launch by its descriptor. DESIGN CHOICE (log 54): a copy names none, for the spec does not say whether the sites of
its segments or of its parameter block count. -/
def State.trigSite (s : State) (v : Nat) (e : Trig) : Option Nat :=
  match blockOp e.block with
  | 0 | 1 | 6 => s.placedSite v (BitVec.ofNat 60 (blockWord e.block 2))
  | 4 =>
    let w := blockWord e.block 3
    let (x, y) := s.virt v
    let nx : Int := if bitOn w 48 then x + sextNat 8 (bits w 39 32) else bits w 39 32
    let ny : Int := if bitOn w 48 then y + sextNat 8 (bits w 47 40) else bits w 47 40
    if 0 ≤ nx ∧ 0 ≤ ny ∧ (s.kindAt v nx.toNat ny.toNat).isSome then some (siteAt nx.toNat ny.toNat) else none
  | _ => none

/-- The directions that a trellis entry names. -/
def Trellis.directions (e : Trellis) : List Nat := (List.range 4).filter fun d => e.parent == d || bitOn e.children d

/-- sm.refq: the references to a virtual site are counted (R202). DESIGN CHOICE (log 55): once, at the write, and sm.refs keeps that count. -/
def State.refq (s : State) (v : Nat) (w : Word) : State :=
  let k := w.toNat % 2 ^ 16
  let t := s.site v
  let p := s.physical v (k % 256) (k / 256)
  let own := decide (s.virt v = (k % 256, k / 256))
  let trig := (t.trigs.filter fun q => q.2.st != .free && decide (s.trigSite v q.2 = some k)).length
  let trel := (t.trellis.filter fun q =>
    q.2.st != .free && (own || q.2.directions.any fun d => (neighbour v d).isSome && decide (neighbour v d = p))).length
  s.setSite v { t with refs := trel * 2 ^ 16 + trig }

/-- SM_REFQ (R202). -/
def execSmRefq (v : Nat) (w : BitVec 64) (s : State) : Out := due "SM_REFQ" (if kindOf v = .pavilion then some (s.refq v w) else none)

/-! ## The network-select table (R204-R206) -/

/-- Word j of the network-select table. -/
def Site.nsWord (t : Site) (j : Nat) : Word :=
  BitVec.ofNat 64 (((List.range 32).map fun i => if 32 * j + i < 400 then Tab.get 0 (entrySite (32 * j + i)) t.ns * 2 ^ (2 * i) else 0).sum)

/-- The meshes that a setting uses. -/
def settingMeshes (n : Nat) : List Mesh := if n = 0 then [.oak] else if n = 1 then [.ash] else if n = 2 then [.oak, .ash] else []

/-- The messages that a change has held leave under the new setting; a write-back to a site that is still unreachable stays (R205, log 17). -/
def State.releaseHeld (s : State) (v k : Nat) : State :=
  let n := Tab.get 0 k (s.site v).ns
  let back (m : Msg) : Bool := match s.txn m.txn with | some t => decide (t.acc.owner = .writeBack) | none => false
  let ms := s.net.filter fun m => m.held && m.src == v && decide (s.virtualOf v m.dst = some k) && !(decide (n = 3) && back m)
  let s : State := { s with net := s.net.filter fun m => !ms.any fun q => q.id == m.id }
  each ms (fun s m => s.sendAgain { m with held := false }) s

/-- The end of the drain: the setting is written, the held messages are released and BUSY clears (R205). -/
def State.nsFinish (s : State) (v : Nat) : State :=
  match (s.site v).nsBusy with
  | some (k, n) => (s.modSite v fun t => { t with ns := Tab.put k n t.ns, nsBusy := none, nsMarkers := 0 }).releaseHeld v k
  | none => s

/-- A write of ns.update or cfg.nsupdate: BUSY is set and the drain markers of every class go out on each mesh of the old setting; with none to
send the change is complete. A write while BUSY is set is ignored (R205), and so is one before READY (R26). -/
def State.nsUpdate (s : State) (v : Nat) (w : Word) : State :=
  let x := bits w.toNat 7 0
  let y := bits w.toNat 15 8
  let k := siteAt x y
  let t := s.site v
  if t.nsBusy.isSome ∨ !t.inService ∨ !onGrid x y then s
  else
    let s := s.setSite v { t with nsBusy := some (k, bits w.toNat 17 16) }
    let ms := if s.virt v = (x, y) then [] else settingMeshes (Tab.get 0 k t.ns)
    match s.physical v x y with
    | none => s.nsFinish v
    | some d =>
      let l := ms.flatMap fun m => (List.range 5).map fun c => (m, c)
      let s := s.modSite v fun t => { t with nsMarkers := l.length }
      let s := each l (fun s p => s.post { id := 0, op := .drainMarker p.2 false, mesh := some p.1, src := v, dst := d }) s
      if l.isEmpty then s.nsFinish v else s

/-- NS_UPDATE (R205). -/
def execNsUpdate (v : Nat) (w : BitVec 64) (s : State) : Out := due "NS_UPDATE" (if kindOf v = .memory then none else some (s.nsUpdate v w))
/-- CFG_NSUPDATE (R206). -/
def execCfgNsupdate (v : Nat) (w : BitVec 64) (s : State) : Out := due "CFG_NSUPDATE" (if kindOf v = .memory then some (s.nsUpdate v w) else none)

/-- REQ_DRAIN_MARKER: the destination returns the marker on the other mesh (R205). -/
def State.drainMarker (s : State) (n : Nat) : Option State :=
  match s.arriving n with
  | some m => match m.op with
    | .drainMarker c false =>
      some ((s.consume n).post { id := 0, op := .drainMarker c true, mesh := otherMesh m.mesh, src := m.dst, dst := m.src })
    | _ => none
  | none => none

/-- REQ_DRAIN_MARKER (R205). -/
def execReqDrainMarker (m : Nat) (s : State) : Out := due "REQ_DRAIN_MARKER" (s.drainMarker m)

/-- DRAIN_MARKER_RETURN: with the last marker the change is complete (R205, R421). -/
def State.markerReturn (s : State) (n : Nat) : Option State :=
  match s.arriving n with
  | some m => match m.op with
    | .drainMarker _ true =>
      let s := (s.consume n).modSite m.dst fun t => { t with nsMarkers := t.nsMarkers - 1 }
      some (if (s.site m.dst).nsMarkers = 0 then s.nsFinish m.dst else s)
    | _ => none
  | none => none

/-- DRAIN_MARKER_RETURN (R205). -/
def execDrainMarkerReturn (m : Nat) (s : State) : Out := due "DRAIN_MARKER_RETURN" (s.markerReturn m)

/-! ## The banded-latency table (R207) -/

/-- A write of a band word (R207); before READY nothing but the image sets one (R26). -/
def State.bandWrite (s : State) (v r : Nat) (w : Word) : State :=
  let mn := bits w.toNat 31 16
  s.modSite v fun t => if !t.inService then t else { t with band := Tab.put r (mn, max mn (bits w.toNat 47 32)) t.band }

/-- BAND_WRITE (R207). -/
def execBandWrite (v r : Nat) (w : BitVec 64) (s : State) : Out :=
  due "BAND_WRITE" (if kindOf v = .pavilion ∧ r < 100 then some (s.bandWrite v r w) else none)

end Sys2Proof.Machine
end

