-- ==== Sys2Proof/Machine/BringUp.lean ====
section
/-! DEFINITION. Bring-up: the states of a site, links, hellos, coordinates, the configuration image and its check (R26, R66, R124,
R400, R414-R419, R421, R432-R434). -/

namespace Sys2Proof.Machine

/-! ## States (R66, R415) -/

/-- A site enters a state; prev keeps the one before (R415). -/
def Site.enter (t : Site) (n : SiteState) : Site := { t with prev := t.state, state := n }
/-- A site of the state enters a state. -/
def State.enter (s : State) (v : Nat) (n : SiteState) : State := s.modSite v fun t => t.enter n

/-- A key of a site on the grid (R13). -/
def siteKey (v : Nat) : Bool := onGrid (xOf v) (yOf v)

/-- A transition of a site between two states. -/
def State.move (s : State) (v : Nat) (a b : SiteState) : Option State :=
  if siteKey v ∧ (s.site v).state = a then some (s.enter v b) else none

/-- POWER_GOOD (R415). -/
def execPowerGood (v : Nat) (s : State) : Out := due "POWER_GOOD" (s.move v .cold .listen)

/-- The sites of a region beside that of a site that has gone COLD forget the offset to it, once no site of it stands past LOCK (R65). -/
def State.forgetRegion (s : State) (v : Nat) : State :=
  if (regionSites (regionOf v).1 (regionOf v).2).any fun w => (s.site w).clocked then s
  else each (List.range 4) (fun s d => each (regionBeside v d) (fun s w => s.modSite w fun t => { t with timeOffset := Tab.del (opposite d) t.timeOffset }) s) s

/-- What a site loses when it returns to COLD: its registers, its cores with their strands, its links, and the messages that stand in it. A neighbour
sees its links to the site go: what it had sent there is answered or dropped (R408, R415, log 38). Nothing holds a reset off, so the events of what
is dropped follow one another in the hold of the neighbour's link layer (R165, log 58). -/
def State.coldSite (s : State) (v : Nat) : State :=
  let p := (s.site v).state
  let s := each (List.range 4) (fun s d => match neighbour v d with
    | some w => each [Mesh.oak, .ash] (fun s x =>
        let l := (s.site w).link (opposite d) x
        (if l.up then s.endDown w (opposite d) x else s).modLink w (opposite d) x fun _ => { dead := l.dead }) s
    | none => s) s
  let s : State :=
    { s with
      strands := s.strands.filter (fun q => siteOfK q.1 != v), cores := s.cores.filter (fun q => siteOfC q.1 != v)
      bowers := s.bowers.filter (fun q => q.1 / 4 != v), txns := s.txns.filter (fun t => t.req.src != v)
      net := s.net.filter (fun m => m.place != v) }
  (s.setSite v { prev := p }).forgetRegion v

/-- MODULE_RESET (R415). -/
def execModuleReset (v : Nat) (s : State) : Out := due "MODULE_RESET" (if siteKey v then some (s.coldSite v) else none)

/-! ## Links and hellos (R400, R405, R417) -/

/-- Flits of each class that a die advertises (R405). -/
def advertised : List Nat := [64, 64, 32, 32, 8]

/-- A link that has completed its initialisation: nothing has been sent, and each end holds the credits that the other advertises. -/
def Link.start (_ : Link) : Link := { up := true, credits := (List.range 5).map fun c => (c, advertised.getD c 0) }

/-- The coordinates that a site holds (R417). -/
def State.coord (s : State) (v : Nat) : Option (Nat × Nat) := (s.site v).coord

/-- A site sends a hello over a link (R417). -/
def State.sendHello (s : State) (v d : Nat) (x : Mesh) : State :=
  match neighbour v d with
  | none => s
  | some w =>
    let (px, py) := (s.coord v).getD (0, 0)
    s.post { id := 0, op := .hello (kindNo v) py px (s.coord v).isSome, mesh := some x, src := v, dst := w, edge := opposite d }

/-- The site can use its links: it has power and is not ISOLATED. -/
def Site.wired (t : Site) : Bool := t.state != .cold && t.state != .isolated

/-- LINK_INIT_COMPLETE: a link between two powered sites, one of which forwards the reference, comes up at both ends, and each end sends a hello
(R400, R415, R417). -/
def State.linkInit (s : State) (v d : Nat) (x : Mesh) : Option State :=
  match neighbour v d with
  | none => none
  | some w =>
    let t := s.site v
    let u := s.site w
    let l := t.link d x
    if l.up ∨ l.dead ∨ (u.link (opposite d) x).dead ∨ !t.wired ∨ !u.wired ∨ !(t.clocked || u.clocked) then none
    else
      let s := (s.modLink v d x Link.start).modLink w (opposite d) x Link.start
      some ((s.sendHello v d x).sendHello w (opposite d) x)

/-- LINK_INIT_COMPLETE (R417). -/
def execLinkInitComplete (v d : Nat) (x : Mesh) (s : State) : Out := due "LINK_INIT_COMPLETE" (s.linkInit v d x)

/-- HELLO_RESEND: until the site has received a hello on the link (R417). -/
def execHelloResend (v d : Nat) (x : Mesh) (s : State) : Out :=
  due "HELLO_RESEND" (let l := (s.site v).link d x
    if l.up ∧ !l.helloGot then some (s.sendHello v d x) else none)

/-! ## LOCK (R65, R415, R418) -/

/-- The time of a site that reaches LOCK: its region's, which starts at 0 with the first site (R65). -/
def State.regionTime (s : State) (v : Nat) : Word :=
  let r := regionOf v
  match (regionSites r.1 r.2).find? fun w => (s.site w).clocked with
  | some w => (s.site w).time
  | none => 0

/-- The measured offsets of a site that reaches LOCK: its region's (R65). -/
def State.regionOffsets (s : State) (v : Nat) : List (Nat × BitVec 16) :=
  let r := regionOf v
  match (regionSites r.1 r.2).find? fun w => (s.site w).clocked with
  | some w => (s.site w).timeOffset
  | none => []

/-- Hello has been exchanged on an edge. -/
def Site.met (t : Site) (d : Nat) : Bool := (t.link d .oak).helloGot || (t.link d .ash).helloGot

/-- A site in LOCK whose upstream edge has exchanged hello goes to TEST (R415). -/
def Site.leaveLock (t : Site) : Site :=
  match t.state, t.upstream with
  | .lock, some d => if t.met d then t.enter .test else t
  | _, _ => t

/-- REFERENCE_LOCK (R415). -/
def State.referenceLock (s : State) (v d : Nat) : Option State :=
  let t := s.site v
  match neighbour v d with
  | none => none
  | some w =>
    if t.state = .listen ∧ kindOf v ≠ .gatehouse ∧ (t.meshUp d).isSome ∧ (s.site w).clocked then
      some (s.setSite v ({ t with upstream := some d, time := s.regionTime v, timeOffset := s.regionOffsets v }.enter .lock).leaveLock)
    else none

/-- REFERENCE_LOCK (R415). -/
def execReferenceLock (v d : Nat) (s : State) : Out := due "REFERENCE_LOCK" (s.referenceLock v d)

/-- GATEHOUSE_REFERENCE_STABLE: LOCK, with the coordinates of the straps, and TEST, since a gatehouse waits for no hello (R415, R417). -/
def State.gateStable (s : State) (v : Nat) : Option State :=
  let t := s.site v
  if t.state = .listen ∧ kindOf v = .gatehouse then
    some (s.setSite v (({ t with coord := some (xOf v, yOf v), time := s.regionTime v, timeOffset := s.regionOffsets v }.enter .lock).enter .test))
  else none

/-- GATEHOUSE_REFERENCE_STABLE (R415). -/
def execGatehouseReferenceStable (v : Nat) (s : State) : Out := due "GATEHOUSE_REFERENCE_STABLE" (s.gateStable v)

/-- No edge of a site presents a forwarded reference. -/
def State.noReference (s : State) (v : Nat) : Bool :=
  (List.range 4).all fun d => match neighbour v d with | some w => !((s.site w).clocked && (s.site w).wired) | none => true

/-- An event of a link that goes down with its site cannot be held, at a neighbour or at the site (R165). -/
def State.downStalls (s : State) (v : Nat) : Bool :=
  (List.range 4).any fun d => ((s.site v).meshesUp d).any fun x =>
    s.dropStalls v d x || (match neighbour v d with | some w => s.holdFull w 8 | none => false)

/-- A site takes down every link; its neighbours see them go down (R416). -/
def State.isolate (s : State) (v : Nat) : State :=
  let s := each (List.range 4) (fun s d => each ((s.site v).meshesUp d) (fun s x => match neighbour v d with
    | some w => s.linkDown w (opposite d) x
    | none => s) s) s
  s.enter v .isolated

/-- LISTEN_TIMEOUT (R415). -/
def State.listenTimeout (s : State) (v : Nat) : Option State :=
  if !siteKey v ∨ (s.site v).state ≠ .listen then none
  else if kindOf v = .gatehouse then some (s.enter v .failed)
  else if s.noReference v ∧ !s.downStalls v then some (s.isolate v) else none

/-- LISTEN_TIMEOUT (R415). -/
def execListenTimeout (v : Nat) (s : State) : Out := due "LISTEN_TIMEOUT" (s.listenTimeout v)

/-- CFG_ISOLATE (R414-R416). -/
def State.cfgIsolate (s : State) (v : Nat) : State :=
  if (s.site v).state = .cold ∨ (s.site v).state = .isolated then s else s.isolate v

/-- CFG_ISOLATE (R414). -/
def execCfgIsolate (v : Nat) (s : State) : Out :=
  due "CFG_ISOLATE" (if siteKey v ∧ (s.site v).state ≠ .cold ∧ !s.downStalls v then some (s.cfgIsolate v) else none)

/-! ## Coordinates (R417) -/

/-- The coordinates that a hello from (x, y) over edge d implies (R417); none off the grid. -/
def implied (d x y : Nat) : Option (Nat × Nat) :=
  if d = 0 then (if y = 0 then none else some (x, y - 1)) else if d = 1 then (if x = 0 then none else some (x - 1, y))
  else if d = 2 then some (x, y + 1) else some (x + 1, y)

/-- The coordinates against which a site holds what a hello implies: those that it has taken, or, at a gatehouse, those of its straps (R417). -/
def State.knownCoord (s : State) (v : Nat) : Option (Nat × Nat) := if kindOf v = .gatehouse then some (xOf v, yOf v) else s.coord v

/-- A conflict of coordinates: a fatal event, and FAILED at MAP; of two hellos that disagree in one instant neither is kept (R417). -/
def State.coordConflict (s : State) (v : Nat) : State :=
  let s := (s.modSite v fun t => { t with conflict := true, coord := if t.coordNow then none else t.coord }).raise v 15 sevFatal 0x0111 none 0
  if (s.site v).state = .map then s.enter v .failed else s

/-- REQ_HELLO: the peer is noted, coordinates are taken or compared, and a site in LOCK may go on (R414, R415, R417). -/
def State.helloArrives (s : State) (n : Nat) : Option State :=
  match s.arriving n with
  | some m => match m.op, m.mesh with
    | .hello kind y x valid, some mesh =>
      let v := m.dst
      let d := m.edge
      let clash := valid && (match s.knownCoord v with | some c => decide (implied d x y ≠ some c) | none => (implied d x y).isNone)
      if clash && s.holdFull v 15 then none
      else
        let s := (s.consume n).modLink v d mesh fun l => { l with helloGot := true }
        let s := s.modSite v fun t => { t with peers := Tab.put d { valid, kind, y, x } t.peers }
        let s := if valid && (s.knownCoord v).isNone && !(s.site v).conflict then
            s.modSite v fun t => { t with coord := implied d x y, coordNow := s.instant.isSome }
          else s
        let s := if clash then s.coordConflict v else s
        some (s.modSite v Site.leaveLock)
    | _, _ => none
  | none => none

/-- REQ_HELLO (R417). -/
def execReqHello (m : Nat) (s : State) : Out := due "REQ_HELLO" (s.helloArrives m)

/-! ## The image (R415, R418, R419, R432) -/

/-- A request for block n of a site's section goes up the upstream edge, or, at a gatehouse, to its own copy (R418, R419). -/
def State.askBlock (s : State) (v n forSite : Nat) : State :=
  match (s.site v).upstream with
  | none => s.post { id := 0, op := .imageRequest n, src := v, dst := v, edge := 4, off := forSite }
  | some d =>
    match neighbour v d with
    | none => s
    | some w => s.post { id := 0, op := .imageRequest n, mesh := some (((s.site v).meshUp d).getD .oak), src := v, dst := w, edge := opposite d, off := forSite }

/-- The image that the blocks of a site make up: as many bytes as its header says (R432). -/
def imageOf (l : List (Nat × List Byte)) : List Byte :=
  let b := l.flatMap (·.2)
  b.take (leNat ((b.drop 20).take 4))

/-- The form and the signature of an image: kind 1 is a configuration image, 2 keeper firmware (R432). -/
def imageVerifies (kind : Nat) (l : List Byte) : Bool :=
  let f (i n : Nat) : Nat := leNat ((l.drop i).take n)
  let n := l.length
  decide (128 ≤ n) && f 20 4 == n && f 0 4 == 0x49434E4C && f 4 2 == kind && f 6 2 == 1 && f 24 40 == 0
    && ecdsaVerify Config.rootKey (l.take (n - 64)) (beNat ((l.drop (n - 64)).take 32)) (beNat ((l.drop (n - 32)).take 32))

/-- The keeper firmware that gatehouse v has been given verifies (R432). -/
def State.keeperVerifies (s : State) (v : Nat) : Bool := imageVerifies 2 (s.gate v).firmware

/-- A site answers image requests: in READY, and a gatehouse from MAP on, once its copy of the image is present and its keeper's image has verified
(R418, R432). -/
def State.answersImage (s : State) (v : Nat) : Bool :=
  let t := s.site v
  (t.state == .ready || (kindOf v == .gatehouse && t.state == .map && s.keeperVerifies v)) && (kindOf v != .gatehouse || t.gate.imageHere)

/-- The answer to a request for block b of a site's section, by the edge over which it came, or by 4 to the site itself (R418). -/
def State.answerImage (s : State) (v : Nat) (r : Nat × Nat × Nat) : State :=
  let (d, last) := Config.imageBlock r.2.2 r.2.1
  let q : Msg := { id := 0, op := .imageBlock r.2.1 last, src := v, dst := v, edge := 4, off := r.2.2, data := d }
  match neighbour v r.1 with
  | none => s.post q
  | some w => s.post { q with mesh := some (((s.site v).meshUp r.1).getD .oak), dst := w, edge := opposite r.1 }

/-- The requests that a gatehouse has held are answered once it can answer them, in the order in which they came (R418). -/
def State.serveImages (s : State) (v : Nat) : State :=
  if kindOf v = .gatehouse ∧ s.answersImage v then
    each (s.site v).imageReqs (fun s r => s.answerImage v r) (s.modSite v fun t => { t with imageReqs := [] })
  else s

/-- The host, or attached storage, has given a gatehouse its copy of the signed image (R418). -/
def State.placeImage (s : State) (v : Nat) : Option State :=
  if siteKey v ∧ kindOf v = .gatehouse ∧ (s.site v).state ≠ .cold then some ((s.modGate v fun g => { g with imageHere := true }).serveImages v) else none

/-- Attached storage gives a gatehouse the image of its keeper core's firmware (R432, log 83). -/
def State.placeFirmware (s : State) (v : Nat) (l : List Byte) : Option State :=
  if siteKey v ∧ kindOf v = .gatehouse ∧ (s.site v).state ≠ .cold then some ((s.modGate v fun g => { g with firmware := l }).serveImages v) else none

/-- SELF_TEST_DONE: every SRAM granule is zero and empty, and the site enters MAP and asks for its first block; a failed test or a conflict is
FAILED (R88, R415, R417, R431). -/
def State.selfTest (s : State) (v : Nat) (ok : Bool) : Option State :=
  if (s.site v).state ≠ .test ∨ (!ok && s.holdFull v 15) then none
  else if !ok then some ((s.enter v .failed).raise v 15 sevFatal 0x0112 none 0)
  else
    let s := if kindOf v = .pavilion then
        (each (List.range 4) (fun s u => s.zeroBytes (homeKey v u 0) storeBytes) s).zeroBytes (homeKey v 4 0) (32 * 2 ^ 20)
      else s
    let s := s.enter v .map
    some (if (s.site v).conflict then s.enter v .failed else (s.askBlock v 0 v).serveImages v)

/-- SELF_TEST_DONE (R415). -/
def execSelfTestDone (v : Nat) (ok : Bool) (s : State) : Out := due "SELF_TEST_DONE" (s.selfTest v ok)

/-- REQ_IMAGE_REQUEST: answered; or relayed up the upstream edge; or held by a gatehouse until it can answer; a FAILED site answers with an error
(R406, R416, R418). A request carries the site whose section it asks for (log 39). -/
def State.imageAsked (s : State) (n : Nat) : Option State :=
  match s.arriving n with
  | some m => match m.op with
    | .imageRequest b =>
      let v := m.dst
      let t := s.site v
      let r := (m.edge, b, m.off)
      if t.outOfService then some (s.turnAway m)
      else if s.answersImage v then some ((s.consume n).answerImage v r)
      else
        let s := (s.consume n).modSite v fun t => { t with imageReqs := t.imageReqs ++ [r] }
        some (if t.upstream.isSome then s.askBlock v b m.off else s)
    | _ => none
  | none => none

/-- REQ_IMAGE_REQUEST (R418). -/
def execReqImageRequest (m : Nat) (s : State) : Out := due "REQ_IMAGE_REQUEST" (s.imageAsked m)

/-- The neighbour of an edge as a section would expect it: kind, y and x of the peer where the edge is up (R419). -/
def Site.peerSeen (t : Site) (d : Nat) : Option (Nat × Nat × Nat) :=
  if (t.meshUp d).isSome then match Tab.find d t.peers with | some p => if p.valid then some (p.kind, p.y, p.x) else some (0, 0, 0) | none => some (0, 0, 0)
  else none

/-- Every field of a section has a value that the image may give it (R52, R193, R201, R204, R207, R419, R423). -/
def sectionFits (c : Config.ImageSection) : Bool :=
  let place (p : Nat × Nat) : Bool := onGrid p.1 p.2 && siteKind p.1 p.2 == .pavilion
  let maxOk (m : Nat) : Bool := [32, 28, 24, 20, 16, 0].contains m
  (match c.self with | some p => place p | none => true) && c.smap.all (fun p => place (p.1 % 256, p.1 / 256) && place (p.2 % 256, p.2 / 256))
    && c.ns.all (fun p => onGrid (p.1 % 256) (p.1 / 256) && decide (p.2 < 4))
    && c.band.all (fun p => decide (p.1 < 100 ∧ p.2.1 ≤ p.2.2 ∧ p.2.2 < 2 ^ 16)) && c.maxm.all (fun p => decide (p.1 < 16) && maxOk p.2)
    && decide (c.evTarget < 16 ∧ c.fqRim < 16 ∧ c.ilimit < 2 ^ 16) && c.caps.all (fun p => decide (p.1 < 4 ∧ p.2.1 < 16))

/-- Why a section is rejected, as the code of the event (R419, R431, R434); none for one that is accepted. -/
def State.rejects (s : State) (v : Nat) (img : List Byte) : Option Nat :=
  let t := s.site v
  let c := Config.sectionOf v (sectionBytes img)
  if !imageVerifies 1 img || decide (t.coord ≠ some (c.x, c.y)) || c.kind != kindNo v
      || !((List.range 4).all fun d => decide (Tab.find d c.peers = t.peerSeen d)) || !sectionFits c then some 0x0110
  else if decide (times (dieKey v c.helper) p256G ≠ some (c.certX, c.certY)) then some 0x0114
  else none

/-- The service strand of slot n of a core as it stands at READY: at rest, with the code of the image (R61, R124). -/
def State.serviceStrand (s : State) (c n : Nat) (e : Addr) (segs : List (Nat × Word × Word)) : State :=
  let k := slotKey c n
  let why := if n = 13 then Park.missIdle else if n = 14 then .copyIdle else .queueIdle
  s.setStrand k
    { st := .parked, why := some why, pc := e, sup := true, entry := 32, segs := segs.map fun p => (p.1, Seg.ofWords p.2.1 p.2.2),
      seed := BitVec.ofNat 64 (s.number k) }

/-- A strand of a gatehouse's keeper core at READY: site firmware, in supervisor mode, which runs from its entry (R25, R377). -/
def State.keeperStrand (s : State) (c n : Nat) (e : Addr) (segs : List (Nat × Word × Word)) : State :=
  let s := s.serviceStrand c n e segs
  if n < 13 then s.modStrand (slotKey c n) fun x => { x with st := .ready, why := none } else s

/-- The core of a gatehouse starts with the strands whose code its section gives (R25, R419). -/
def State.startKeeper (s : State) (v : Nat) (l : List (Nat × Addr × List (Nat × Word × Word))) : State :=
  let c := v * 16
  let s := s.setCore c { walkEntry := (Tab.get (0, []) 13 l).1 }
  each (l.filter fun p => p.1 < 16) (fun s p => s.keeperStrand c p.1 p.2.1 p.2.2) s

/-- IMAGE_APPLY: everything that the section gives is applied in one step, and the site is READY (R124, R215, R229, R419, R423). -/
def State.applyImage (s : State) (v : Nat) (img : List Byte) : State :=
  let c := Config.sectionOf v (sectionBytes img)
  let s := s.modSite v fun t =>
    { t with
      section_ := img, image := [], imageVersion := leNat ((img.drop 8).take 8), self := if kindOf v = .pavilion then c.self else none
      smap := c.smap.foldl (fun m p => Tab.put p.1 p.2 m) [], smapClear := [], ns := c.ns.foldl (fun m p => Tab.put p.1 p.2 m) []
      band := c.band.foldl (fun m p => Tab.put p.1 p.2 m) [], evTarget := c.evTarget, fqEn := c.fqEn, fqRim := c.fqRim
      listed := c.sites, tc := [], retries := [], power := { t.power with ilimit := c.ilimit } }
  let s := s.enter v .ready
  if kindOf v = .memory then s
  else if kindOf v = .gatehouse then s.startKeeper v c.service
  else
    let s := each (bowersOf v) (fun s b => s.modBower b fun w =>
      match Tab.find (b % 4) (c.caps.map fun p => (p.1, p.2.1, p.2.2)) with | some (hc, bg) => { w with hc, bg } | none => w) s
    let code (n : Nat) : Addr × List (Nat × Word × Word) := Tab.get (0, []) n c.service
    each (coresOf v) (fun s q =>
      let s := s.setCore q { maxm := Tab.get 0 (q % 16) c.maxm, walkEntry := (code 13).1 }
      each [13, 14, 15] (fun s n => s.serviceStrand q n (code n).1 (code n).2) s) s

/-- After its last block a site checks its section: it applies it, or raises the fatal event and is FAILED; a gatehouse whose keeper image does
not verify stays in MAP (R419, R432). None while the coordinates are not held (R417, R421) or the event cannot be. -/
def State.checkImage (s : State) (v : Nat) : Option State :=
  let img := imageOf (s.site v).image
  if (s.site v).coord.isNone then none
  else if kindOf v = .gatehouse ∧ !s.keeperVerifies v then some s
  else match s.rejects v img with
    | none => some (s.applyImage v img)
    | some code => if s.holdFull v 15 then none else some ((s.enter v .failed).raise v 15 sevFatal code none 0)

/-- REQ_IMAGE_BLOCK: a block for the site itself is kept and the next one asked for; another site's goes back the way its request came (R418,
R419). -/
def State.imageArrives (s : State) (n : Nat) : Option State :=
  match s.arriving n with
  | some m => match m.op with
    | .imageBlock b last =>
      let v := m.dst
      let t := s.site v
      let s := s.consume n
      if m.off ≠ v then
        match t.imageReqs.find? (fun r => r.2.1 == b && r.2.2 == m.off) with
        | none => some s
        | some r =>
          match neighbour v r.1 with
          | none => some s
          | some w =>
            let s := s.modSite v fun t => { t with imageReqs := t.imageReqs.erase r }
            some (s.post { id := 0, op := .imageBlock b last, mesh := some ((t.meshUp r.1).getD .oak), src := v, dst := w, edge := opposite r.1,
                           off := m.off, data := m.data })
      else if t.state ≠ .map then some s
      else
        let s := s.modSite v fun t => { t with image := Tab.put b m.data t.image }
        if last then s.checkImage v else some (s.askBlock v (b + 1) v)
    | _ => none
  | none => none

/-- REQ_IMAGE_BLOCK (R419). -/
def execReqImageBlock (m : Nat) (s : State) : Out := due "REQ_IMAGE_BLOCK" (s.imageArrives m)

/-- MAP_IMAGE_TIMEOUT (R415). -/
def execMapImageTimeout (v : Nat) (s : State) : Out := due "MAP_IMAGE_TIMEOUT" (s.move v .map .failed)

end Sys2Proof.Machine
end

