-- ==== Sys2Proof/Machine/Windows.lean ====
section
/-! DEFINITION. The control windows, placed unit 16 of pavilions and gatehouses, and the configuration space of every site: what a word
reads as and what writing it does (R57, R141, R142, R146, R161, R167, R168, R175, R192, R200-R210, R215, R222, R229, R365, R412-R416, R423,
R435). A word that the spec does not assign reads 0 and ignores writes (log 40). -/

namespace Sys2Proof.Machine

open Sys2Proof

/-- An offset lies in n bytes from lo. -/
def inRange (off lo n : Nat) : Bool := decide (lo ≤ off ∧ off < lo + n)

/-! ## Words of the pavilion's window -/

/-- The number of a claim-table entry's state (R175). -/
def GangState.num : GangState → Nat
  | .free => 0 | .running => 1 | .stopping => 2 | .aborting => 3

/-- Word i of claim-table entry e (R175). -/
def State.claimWord (s : State) (v e i : Nat) : Nat :=
  let g := s.gang v e
  let each4 (f : Nat → Nat) : Nat := ((List.range 4).map fun b => f b * 2 ^ (16 * b)).sum
  let hr (c0 : Nat) : Nat := ((List.range 8).map fun j => s.heldBy v e (c0 + j) * 2 ^ (8 * j)).sum
  if g.st = .free then 0
  else match i with
    | 0 => ((s.liveCores v e).map fun c => 2 ^ (32 + c % 16)).sum + g.prio * 2 ^ 8 + g.st.num
    | 1 => g.gang.toNat * 2 ^ 32 + g.launch.toNat
    | 2 => g.desc.mslots * 2 ^ 16 + g.desc.creg * 2 ^ 8 + g.desc.sgran
    | 3 => each4 fun b => g.desc.st.getD b 0
    | 4 => each4 fun b => s.heldBy v e (16 + b)
    | 5 => hr 0
    | 6 => hr 8
    | 7 => ((List.range 16).map fun c => s.heldBy v e (20 + c) * 2 ^ (4 * c)).sum
    | _ => 0

/-- Word i of the free counts (R175). -/
def State.freeWordAt (s : State) (v i : Nat) : Nat :=
  match i with
  | 0 => ((List.range 8).map fun j => s.freeUnits v j * 2 ^ (8 * j)).sum
  | 1 => ((List.range 8).map fun j => s.freeUnits v (8 + j) * 2 ^ (8 * j)).sum
  | 2 => ((List.range 4).map fun b => s.freeUnits v (16 + b) * 2 ^ (16 * b)).sum
  | 3 => ((List.range 16).map fun c => s.freeUnits v (20 + c) * 2 ^ (4 * c)).sum
  | _ => 0

/-- The word at a byte of combine buffer n of a router: elements lie in the buffers that their entry holds, in ascending buffer number; a
buffer that no entry holds reads 0 (R208, log 10). -/
def State.bufferWord (s : State) (v : Nat) (x : Mesh) (n off : Nat) : Nat :=
  match (s.site v).trellis.find? fun q => q.2.st != .free && q.1 / 256 == trellisKey x 0 / 256 && bitOn q.2.bufs n with
  | none => 0
  | some q =>
    let e := q.2
    let z := elemSize e.op
    let a := 4096 * popCount e.bufs n + off
    leNat ((List.range 8).map fun i =>
      let j := a + i
      BitVec.ofNat 8 ((if j / z < e.count then (Tab.get 0 (j / z) e.elems).toNat else 0) / 2 ^ (8 * (j % z))))

/-- Word i of a trigger-list entry (R365). -/
def Trig.wordAt (e : Trig) (i : Nat) : Nat :=
  if e.st = .free then 0
  else match i with
    | 0 => e.launch.toNat * 2 ^ 32 + e.st.num
    | 1 => e.threshold
    | 2 => e.seq
    | 3 => e.strand
    | _ => if 8 ≤ i then blockWord e.block (i - 8) else 0

/-- A word of an event or fault record. -/
def recordWord (w0 w1 w2 w3 : Word) (i : Nat) : Nat := ([w0, w1, w2, w3].getD i 0).toNat

/-- The severity of an event record (R166). -/
def EventRec.severity (r : EventRec) : Nat := bits r.w0.toNat 17 16

/-- ev.count (R167). -/
def Site.eventCount (t : Site) : Nat := (t.events.filter fun r => r.severity == sevFatal).length * 2 ^ 8 + t.events.length

/-- A word of at.nonce, at.status and at.quote (R435). -/
def Power.quoteWord (p : Power) (off : Nat) : Nat :=
  let w (l : List Byte) (i : Nat) : Nat := leNat ((l.drop i).take 8)
  if inRange off 0xD1000 0x20 then w p.nonce (off - 0xD1000)
  else if off = 0xD1028 then bitAt p.done 1 + bitAt p.busy 0
  else if inRange off 0xD1100 160 then w p.quote (off - 0xD1100)
  else 0

/-- The word of a pavilion's window at an 8-byte aligned offset. DESIGN CHOICE (log 89): lead(k) of a crew that has ended reads 0 (R222). -/
def State.pavilionWord (s : State) (v off : Nat) : Nat :=
  let t := s.site v
  let p := t.power
  if off = 0x8000 then t.fqHead
  else if off = 0x8008 then t.fqTail
  else if off = 0x8018 then bitAt t.fqEn 8 + t.fqRim
  else if inRange off 0x9000 0x2000 then
    match Tab.find ((off - 0x9000) / 32) t.fq with | some r => recordWord r.w0 r.w1 r.w2 r.w3 (off / 8 % 4) | none => 0
  else if off = 0xB008 then bitAt t.tlbBusy 0
  else if off = 0xB010 then t.tlbEpoch
  else if off = 0xB800 then t.evTarget
  else if off = 0xB808 then t.eventCount
  else if off = 0xB810 then t.evSeq
  else if inRange off 0xC000 0x1000 then s.claimWord v ((off - 0xC000) / 128) (off / 8 % 16)
  else if inRange off 0xD000 0x40 then s.freeWordAt v (off / 8 % 8)
  else if off = 0x10000 then t.selfWord.toNat
  else if off = 0x10018 then t.refs
  else if inRange off 0x10400 800 then (t.mapWord ((off - 0x10400) / 8)).toNat
  else if inRange off 0x11000 128 then (t.nsWord ((off - 0x11000) / 8)).toNat
  else if off = 0x11088 then bitAt t.nsBusy.isSome 0
  else if inRange off 0x12000 800 then (t.bandWord ((off - 0x12000) / 8)).toNat
  else if inRange off 0x20000 0x4000 then (s.trellis v ((off - 0x20000) / 32)).wordAt (off / 8 % 4)
  else if inRange off 0x30000 0x40000 then s.bufferWord v .oak ((off - 0x30000) / 4096) (off % 4096)
  else if inRange off 0x70000 0x40000 then s.bufferWord v .ash ((off - 0x70000) / 4096) (off % 4096)
  else if inRange off 0xC0000 0x2000 then (s.tc v ((off - 0xC0000) / 8)).toNat
  else if inRange off 0xC2000 512 then
    let g := s.gang v ((off - 0xC2000) / 16)
    if off / 8 % 2 = 0 then g.phase else (g.live.map fun k => g.lead k * 2 ^ (2 * k)).sum
  else if inRange off 0xC3000 0x110 then (Tab.get 0 off t.retries).toNat
  else if inRange off 0xD0000 0x20 then let b := s.bower (v * 4 + (off - 0xD0000) / 8); bitAt b.bg 8 + b.hc
  else if inRange off 0xD0020 0x20 then (s.bower (v * 4 + (off - 0xD0020) / 8)).pwTcap
  else if off = 0xD0040 then p.ilimit
  else if off = 0xD0048 then p.imeas
  else if off = 0xD0050 then wrap 16 p.temp
  else if off = 0xD0058 then p.stage
  else if inRange off 0xD1000 0x1000 then p.quoteWord off
  else if inRange off 0xE0000 0x10000 then (s.trig v ((off - 0xE0000) / 128)).wordAt (off / 8 % 16)
  else 0

/-! ## Words of the gatehouse's window (R146, R168, R413, R435) -/

/-- Word i of a host queue's block (R146). -/
def HostQueue.wordAt (h : HostQueue) (i : Nat) : Nat :=
  match i with
  | 0 => h.base
  | 1 => bitAt h.en 63 + h.prio * 2 ^ 32 + h.lsize * 2 ^ 16
  | 2 => h.tail
  | 3 => h.head
  | 4 => h.cbase
  | 5 => h.cdone
  | 6 => h.cread
  | _ => 0

/-- The word of a gatehouse's window at an 8-byte aligned offset. -/
def State.gatehouseWord (s : State) (v off : Nat) : Nat :=
  let t := s.site v
  let g := t.gate
  if inRange off 0x1000 0x1000 then (s.hostQueue v ((off - 0x1000) / 64)).wordAt (off / 8 % 8)
  else if off = 0x2000 then g.eqHead
  else if off = 0x2008 then g.eqTail
  else if inRange off 0x20000 0x20000 then
    match Tab.find ((off - 0x20000) / 32) g.events with | some r => recordWord r.w0 r.w1 r.w2 r.w3 (off / 8 % 4) | none => 0
  else if inRange off 0x10400 800 then (t.mapWord ((off - 0x10400) / 8)).toNat
  else if inRange off 0x11000 128 then (t.nsWord ((off - 0x11000) / 8)).toNat
  else if off = 0x11088 then bitAt t.nsBusy.isSome 0
  else if off = 0x80000 then g.cfgTarget
  else if inRange off 0xD1000 0x1000 then t.power.quoteWord off
  else 0

/-- The word of a site's window at an offset, rounded down to 8 bytes. -/
def State.windowRead (s : State) (v off : Nat) : Word :=
  BitVec.ofNat 64 (if kindOf v = .pavilion then s.pavilionWord v (off / 8 * 8) else s.gatehouseWord v (off / 8 * 8))

/-- The offset lies in cfg.window, whose words are another site's configuration space (R413). -/
def inCfgWindow (v off : Nat) : Bool := kindOf v == .gatehouse && inRange off 0x81000 0x1000

/-- What the host reads through BAR0, the window of its gatehouse, while the link is up (R412, R420): a read changes nothing. Of cfg.window it gets
what the target has answered (R413): see `State.hostConfigRead`. -/
def State.hostWindow (s : State) (g off : Nat) : Option Word :=
  if !(s.gate g).linkUp then none else if inCfgWindow g off then (s.gate g).hostData else some (s.windowRead g off)

/-! ## Writes -/

/-- A write of at.nonce or at.cmd (R435). -/
def State.quoteWrite (s : State) (v off : Nat) (w : Word) : State :=
  if inRange off 0xD1000 0x20 then
    s.modSite v fun t =>
      if t.power.busy then t
      else
        let n := (List.range 32).map fun i => if i / 8 = (off - 0xD1000) / 8 then BitVec.ofNat 8 (w.toNat / 2 ^ (8 * (i % 8))) else t.power.nonce.getD i 0
        { t with power := { t.power with nonce := n } }
  else if off = 0xD1020 ∧ bitOn w.toNat 0 then s.atGo v
  else s

/-- A write of a word of a pavilion's window. Until READY only the image sets the notice and event targets (R26, R419). -/
def State.pavilionWrite (s : State) (v off : Nat) (w : Word) : State :=
  let n := w.toNat
  if off = 0x8000 then s.writeFqHead v w
  else if off = 0x8010 then s.wakeWord v w
  else if off = 0x8018 then s.modSite v fun t => if !t.inService then t else { t with fqEn := bitOn n 8, fqRim := bits n 3 0 }
  else if off = 0xB000 then s.tlbInv v w
  else if off = 0xB800 then s.modSite v fun t => if !t.inService then t else { t with evTarget := bits n 3 0 }
  else if off = 0x10000 then s.writeSelf v w
  else if off = 0x10010 then s.refq v w
  else if inRange off 0x10400 800 then s.writeMapWord v ((off - 0x10400) / 8) w
  else if off = 0x11080 then s.nsUpdate v w
  else if inRange off 0x12000 800 then s.bandWrite v ((off - 0x12000) / 8) w
  else if off = 0x24000 then s.clearTrellis v (n % 256)
  else if off = 0x24008 then s.clearTrellis v (256 + n % 256)
  else if inRange off 0xC0000 0x2000 then s.setTc v ((off - 0xC0000) / 8) w
  else if inRange off 0xC3000 0x110 then
    if off < 0xC3100 ∧ off / 8 % 4 = 3 then s else s.modSite v fun t => { t with retries := Tab.put off w t.retries }
  else if inRange off 0xD0000 0x20 then s.modBower (v * 4 + (off - 0xD0000) / 8) fun b => { b with bg := bitOn n 8, hc := bits n 3 0 }
  else if inRange off 0xD0020 0x20 then s.modBower (v * 4 + (off - 0xD0020) / 8) fun b => { b with pwTcap := bits n 3 0 }
  else if off = 0xD0040 then s.modSite v fun t => { t with power := { t.power with ilimit := n % 2 ^ 16 } }
  else s.quoteWrite v off w

/-- A write of eq.head; beyond eq.tail it stores eq.tail (R168). -/
def Gate.writeEqHead (g : Gate) (w : Word) : Gate :=
  let n := bits w.toNat 31 0
  { g with eqHead := if (g.eqTail + 2 ^ 32 - g.eqHead) % 2 ^ 32 < (n + 2 ^ 32 - g.eqHead) % 2 ^ 32 then g.eqTail else n }

/-- A write of a word of a host queue's block (R146): the bases are fixed while EN is set. -/
def State.queueWrite (s : State) (g q i : Nat) (w : Word) : Option State :=
  match i with
  | 0 => some (s.modQueue g q fun h => if h.en then h else { h with base := bits w.toNat 52 12 * 2 ^ 12 })
  | 1 => s.writeQctl g q w
  | 2 => s.writeQtail g q w
  | 4 => some (s.modQueue g q fun h => if h.en then h else { h with cbase := bits w.toNat 52 4 * 2 ^ 4 })
  | 6 => some (s.writeCread g q w)
  | _ => some s

/-- A write of a word of a gatehouse's window. -/
def State.gatehouseWrite (s : State) (v off : Nat) (w : Word) : Option State :=
  if inRange off 0x1000 0x1000 then s.queueWrite v ((off - 0x1000) / 64) (off / 8 % 8) w
  else if off = 0x2000 then some (s.modGate v fun g => g.writeEqHead w)
  else if inRange off 0x10400 800 then some (s.writeMapWord v ((off - 0x10400) / 8) w)
  else if off = 0x11080 then some (s.nsUpdate v w)
  else if off = 0x80000 then some (s.modGate v fun g => { g with cfgTarget := w.toNat &&& 0x1F1F })
  else some (s.quoteWrite v off w)

/-- The site has a control window (R25, R206). -/
def hasWindow (v : Nat) : Bool := siteKey v && kindOf v != .memory

/-- A store of a word of a site's window; none while an event that it raises cannot be held (R165). -/
def State.windowWrite (s : State) (v off : Nat) (w : Word) : Option State :=
  if kindOf v = .pavilion then some (s.pavilionWrite v (off / 8 * 8) w) else s.gatehouseWrite v (off / 8 * 8) w

/-- n bytes of a window: each as its word reads (log 40). -/
def State.windowBytes (s : State) (v off n : Nat) : List Byte :=
  let ws := (List.range ((off + n + 7) / 8 - off / 8)).flatMap fun i => leBytes 8 (s.windowRead v (off / 8 * 8 + 8 * i)).toNat
  (ws.drop (off % 8)).take n

/-- Bytes stored to a window: each word that has an enabled byte is written whole, its other bytes as they read (log 40). -/
def State.windowStore (s : State) (v off en : Nat) (d : List Byte) : Option State :=
  ((List.range ((off + d.length + 7) / 8 - off / 8)).map (off / 8 * 8 + 8 * ·)).foldlM (fun s a =>
    let named := (List.range 8).any fun j => decide (off ≤ a + j ∧ a + j < off + d.length) && bitOn en (a + j - off)
    if named then
      let old := leBytes 8 (s.windowRead v a).toNat
      let new := old.zipIdx.map fun (b, j) => if off ≤ a + j ∧ a + j < off + d.length ∧ bitOn en (a + j - off) then d.getD (a + j - off) 0 else b
      s.windowWrite v a (leWord new)
    else some s) s

/-! ## cfg.window (R413) -/

/-- The gatehouse can reach the site that cfg.target names (R413, R416). -/
def State.cfgTargets (s : State) (g : Nat) : Bool :=
  let c := (s.gate g).cfgTarget
  !(s.site g).outOfService && onGrid (c % 256) (c / 256)

/-- A configuration request of a gatehouse to the site that cfg.target names, for an access and the requests that it stands for (R413). A
network-select change of the gatehouse holds it (R205). -/
def State.sendConfig (s : State) (g : Nat) (op : MsgOp) (off : Nat) (data : List Byte) (a : Acc) (parts : List Msg) : State :=
  let c := (s.gate g).cfgTarget
  let d := siteAt (c % 256) (c / 256)
  let mesh := if d = g then none else some (if Tab.get 0 d (s.site g).ns = 1 then Mesh.ash else .oak)
  let (t, s) := s.fresh
  let q : Msg := { id := 0, op, mesh, src := g, dst := d, off, len := 8, data, txn := t }
  ({ s with txns := s.txns ++ [{ id := t, acc := a, req := q, parts }] } : State).sendOut q

/-- An access of the host to a word of cfg.window, while the link is up (R412, R413, R420); with no site to reach it ends in an error. -/
def State.hostConfig (s : State) (g : Nat) (op : MsgOp) (off : Nat) (data : List Byte) (o : Owner) : Option State :=
  if !(s.gate g).linkUp || !inCfgWindow g off || off % 8 != 0 then none
  else some (if s.cfgTargets g then s.sendConfig g op (off - 0x81000) data { size := 0, owner := o } [] else s)

/-- The host reads a word of cfg.window: it has what the target answers once the answer is there (R413, R420). -/
def State.hostConfigRead (s : State) (g off : Nat) : Option State :=
  (s.modGate g fun x => { x with hostData := none }).hostConfig g .cfgRead off [] (.hostWindow g)

/-! ## Register writes -/

/-- REGISTER_WRITE: a `setc` whose register has no step of its own completes, or a store reaches a word of a control window (R57, R371); the host's
store to a word of cfg.window goes on to the target (R413, R420). -/
def State.registerWrite (s : State) (t : WriteTarget) : Option State :=
  match t with
  | .pending k =>
    (s.pendingSetc k fun n => n != 0x0304 && n != 0x0900 && n != 0x0912).map fun (n, w) => (s.regWrite k n w).completed k 8
  | .window v off w =>
    if !hasWindow v || decide (0x100000 ≤ off) || off % 8 != 0 then none
    else if inCfgWindow v off then s.hostConfig v .cfgWrite off (leBytes 8 w.toNat) .nobody
    else s.windowWrite v off w

/-- REGISTER_WRITE (R57). -/
def execRegisterWrite (t : WriteTarget) (s : State) : Out := due "REGISTER_WRITE" (s.registerWrite t)

/-! ## Configuration space (R413, R414, R416) -/

/-- cfg.caps (R414): unit 0 of a memory site holds 36 GB (R85), has no full/empty bits (R88) and 128 watch records (R133); no other site's has a
capacity, and the rest is the die's. -/
def capsWord (v : Nat) : Nat :=
  if kindOf v = .memory then 128 * 2 ^ 48 + 36000000000 else bits (Config.dieWord v 1).toNat 56 48 * 2 ^ 48

/-- cfg.edge(d) (R414): a site in COLD advertises nothing. -/
def Site.edgeWord (t : Site) (d : Nat) : Nat :=
  if t.state = .cold then 0 else
  let up := match t.upstream with | some e => e * 2 ^ 46 + bitAt (e == d) 49 | none => 0
  bitAt (t.link d .oak).up 63 + bitAt (t.link d .ash).up 62 + up + ((List.range 5).map fun c => advertised.getD c 0 * 2 ^ (8 * c)).sum

/-- cfg.peer(d) (R414). -/
def Site.peerWord (t : Site) (d : Nat) : Nat :=
  match Tab.find d t.peers with
  | some p => bitAt p.valid 63 + p.kind * 2 ^ 48 + p.y * 2 ^ 8 + p.x
  | none => 0

/-- A word of a site's configuration space; none at an offset that the site does not define (R413, R414). -/
def State.cfgRead (s : State) (v off : Nat) : Option Word :=
  let t := s.site v
  let mem := kindOf v == .memory
  let w (n : Nat) : Option Word := some (BitVec.ofNat 64 n)
  if off % 8 ≠ 0 then none
  else if off = 0 then w (identWord v)
  else if off = 0x008 then some t.stateWord
  else if off = 0x010 then w (match t.coord with | some (x, y) => 2 ^ 63 + y * 2 ^ 8 + x | none => 0)
  else if off = 0x018 then w (capsWord v)
  else if inRange off 0x020 0x20 then w (t.edgeWord ((off - 0x020) / 8))
  else if inRange off 0x040 0x20 then w (t.peerWord ((off - 0x040) / 8))
  else if off = 0x080 then w 0
  else if mem && inRange off 0x400 800 then some (t.mapWord ((off - 0x400) / 8))
  else if mem && inRange off 0x800 128 then some (t.nsWord ((off - 0x800) / 8))
  else if mem && off == 0x880 then w 0
  else if mem && off == 0x888 then w (bitAt t.nsBusy.isSome 0)
  else none

/-- A write of a word of a site's configuration space that the site defines; a read-only word keeps its value. -/
def State.cfgWrite (s : State) (v off : Nat) (w : Word) : State :=
  if off = 0x080 ∧ bitOn w.toNat 0 then s.cfgIsolate v
  else if kindOf v = .memory ∧ inRange off 0x400 800 then s.writeMapWord v ((off - 0x400) / 8) w
  else if kindOf v = .memory ∧ off = 0x880 then s.nsUpdate v w
  else s

/-- REQ_CONFIG_READ (R413, R416). -/
def State.configRead (s : State) (n : Nat) : Option State :=
  match s.arriving n with
  | some m =>
    if m.op = .cfgRead then
      let s := s.consume n
      some (match s.cfgRead m.dst m.off with
        | some w => s.reply m .data (leBytes 8 w.toNat) false
        | none => s.reply m (.error Code.illegal.num) [] false)
    else none
  | none => none

/-- REQ_CONFIG_READ (R413). -/
def execReqConfigRead (m : Nat) (s : State) : Out := due "REQ_CONFIG_READ" (s.configRead m)

/-- REQ_CONFIG_WRITE: a FAILED site answers it with an error, save for cfg.cmd (R413-R416, log 41). The reply leaves before a site isolates, and a
site whose links would raise an event that cannot be held isolates later (R165). -/
def State.configWrite (s : State) (n : Nat) : Option State :=
  match s.arriving n with
  | some m =>
    if m.op = .cfgWrite ∧ m.off = 0x080 ∧ bitOn (leNat m.data) 0 ∧ s.downStalls m.dst then none
    else if m.op = .cfgWrite then
      let s := s.consume n
      if (s.site m.dst).state = .failed ∧ m.off ≠ 0x080 then some (s.reply m (.error Code.unreachableSite.num) [] false)
      else some (match s.cfgRead m.dst m.off with
        | none => s.reply m (.error Code.illegal.num) [] false
        | some _ => (s.reply m .ack [] false).cfgWrite m.dst m.off (leWord m.data))
    else none
  | none => none

/-- REQ_CONFIG_WRITE (R413). -/
def execReqConfigWrite (m : Nat) (s : State) : Out := due "REQ_CONFIG_WRITE" (s.configWrite m)

/-- CFG_WINDOW_ACCESS: a load or store of cfg.window becomes a configuration read or write of the target, whose response answers it (R413). An
access that is not of 8 aligned bytes, or is no read or write, or whose target is not on the grid, is answered with an error (log 41). A
network-select change of the gatehouse holds the request (R205). -/
def State.cfgAccess (s : State) (g n : Nat) : Option State :=
  match s.arriving n with
  | some m =>
    if m.dst ≠ g ∨ m.unit ≠ 16 ∨ m.host ∨ !inCfgWindow g m.off then none
    else
      let op? : Option (MsgOp ⊕ Code) := match m.op with
        | .req .read => some (.inl .cfgRead)
        | .req .write => some (.inl .cfgWrite)
        | .req op => some (.inr (if op.isFe || op == .monArm then .feHome else .illegal))
        | _ => none
      match op? with
      | none => none
      | some (.inr c) => some ((s.consume n).reply m (.error c.num) [] false)
      | some (.inl op) =>
        let s := s.consume n
        if !s.cfgTargets g then some (s.reply m (.error Code.unreachableSite.num) [] false)
        else if m.len ≠ 8 ∨ m.off % 8 ≠ 0 ∨ (op = .cfgWrite ∧ m.en % 256 ≠ 255) then some (s.reply m (.error Code.illegal.num) [] false)
        else some (s.sendConfig g op (m.off - 0x81000) m.data { size := 0, owner := .nobody } [m])
  | none => none

/-- CFG_WINDOW_ACCESS (R413). -/
def execCfgWindowAccess (g t : Nat) (s : State) : Out := due "CFG_WINDOW_ACCESS" (s.cfgAccess g t)

end Sys2Proof.Machine
end

