-- ==== Sys2Proof/Machine/HomeSteps.lean ====
section
/-! DEFINITION. The requests of the table at their homes: memory units, control windows, and host windows at a gatehouse (R80, R88-R91, R99,
R110, R119, R127-R134, R162, R175, R302, R330, R404, R411, R420). -/

namespace Sys2Proof.Machine

open Sys2Proof

/-! ## Control windows (R57, R80) -/

/-- Bytes stored to a window on behalf of a request; none while an event that the store raises cannot be held (R165). -/
def State.windowPut (s : State) (m : Msg) (en : Nat) (d : List Byte) : Option State := s.windowStore m.dst m.off en d

/-- A request at a control window: a word is read, written, or both in one step for an atomic. The other operations name no full/empty home
(log 19). -/
def State.windowStep (s : State) (m : Msg) : Option State :=
  let t := s.consume m.id
  let read (n : Nat) : List Byte := s.windowBytes m.dst m.off n
  match m.op with
  | .req .read => some (t.reply m .data (read m.len) false)
  | .req .write => (t.windowPut m m.en m.data).map fun s => (s.raiseTag m).reply m .ack [] false
  | .req .nibble =>
    let d := (m.data.zip (read m.len)).zipIdx.map fun ((n, o), j) => nibbleByte o n (bitOn m.en j) (bitOn m.hi j)
    (t.windowPut m (m.en ||| m.hi) d).map fun s => s.reply m .ack [] false
  | .req (.amo op) =>
    let n := op.size
    let x := leNat (m.data.take n)
    (t.windowPut m (allOn n) (leBytes n (amoApply op (leNat (read n)) x (m.addFlags op x)))).map fun s => (s.raiseTag m).reply m .ack [] false
  | .req (.famo op) =>
    let n := op.size
    let old := leNat (read n)
    (t.windowPut m (allOn n) (leBytes n (famoApply op old m.data))).map fun s => s.reply m .data (leBytes n old) false
  | .req .monClr => some (t.reply m .ack [] false)
  | _ => some (t.reply m (.error Code.feHome.num) [] false)

/-! ## Host windows (R77, R119, R302) -/

/-- The strand whose fences wait for a host-window access; an access of an engine or of a fetch is no strand's (R120, R121). -/
def State.hostStrand (s : State) (m : Msg) : Nat :=
  match (s.txn m.txn).map (fun (t : Txn) => t.acc.owner) with
  | some (.strand k) | some (.relaxed k _) | some (.element k _) => k
  | _ => 2 ^ 32

/-- n bytes of host memory as a gatehouse reads them. -/
def State.hostBytes (s : State) (g a n : Nat) : List Byte := (List.range n).map fun i => s.hostByte g (a + i)

/-- The gatehouse accepts a posted write (R119). -/
def State.hostPost (s : State) (m : Msg) (en : Nat) (d : List Byte) : State :=
  let (i, s) := s.fresh
  s.modGate m.dst fun g => { g with posted := g.posted ++ [{ id := i, off := m.off, data := d, en, k := s.hostStrand m }] }

/-- The request waits at the gatehouse for the host's completion, behind every write in the buffer (R119). -/
def State.hostWait_ (s : State) (m : Msg) : State :=
  s.modGate m.dst fun g => { g with pending := g.pending ++ [((g.posted.getLast?.map (·.id)).getD 0, m)] }

/-- The atomic that the gatehouse makes a PCIe AtomicOp of (R302). -/
def hostAtomic : ReqOp → Bool
  | .amo .add | .famo .add | .famo .swap | .famo .cas => true
  | _ => false

/-- A request at a host window (R77, R119, R302): a write is accepted into the buffer, a read and an AtomicOp wait for the host. A write of half a
byte is put together with what the gatehouse reads there (log 42). -/
def State.hostStep (s : State) (m : Msg) : State :=
  let t := s.consume m.id
  let bad (c : Code) : State := t.reply m (.error c.num) [] false
  match m.op with
  | .req op =>
    if op.isFe || op == .monArm then bad .feHome
    else if !(s.gate m.dst).linkUp then bad .hostAccess
    else match op with
      | .read => t.hostWait_ m
      | .write => (t.hostPost m m.en m.data).reply m .ack [] false
      | .nibble =>
        let d := (m.data.zip (s.hostBytes m.dst m.off m.len)).zipIdx.map fun ((n, o), j) => nibbleByte o n (bitOn m.en j) (bitOn m.hi j)
        (t.hostPost m (m.en ||| m.hi) d).reply m .ack [] false
      | .monClr => t.reply m .ack [] false
      | op => if hostAtomic op then t.hostWait_ m else bad .hostAccess
  | _ => t

/-! ## Requests in the home's order (R99) -/

/-- The request that reaches its home: a site out of service answers it with an error (R416), a host window and a control window have rules of
their own, and a memory unit performs it (R99). `fe`: the operation needs full/empty bits; `rd`: the granules that it reads (R91). A
memory site has no unit 16 (R411). -/
def State.homeStep (s : State) (n : Nat) (p : ReqOp → Bool) (fe : Bool) (rd : Msg → List Nat) (act : State → Msg → State) : Option State :=
  match s.arrivingReq n p with
  | none => none
  | some m =>
    let t := s.site m.dst
    if t.state = .failed ∨ t.state = .isolated then some ((s.consume n).reply m (.error Code.unreachableSite.num) [] false)
    else if m.host then some (s.hostStep m)
    else if m.unit = 16 ∧ kindOf m.dst ≠ .memory then if inCfgWindow m.dst m.off then none else s.windowStep m
    else s.atHome m fe (max 1 m.len) (rd m) act

/-- The granules of a request. -/
def Msg.touched (m : Msg) : List Nat := granuleKeys m.dst m.unit m.off (max 1 m.len)

/-- REQ_READ (R99). -/
def execReqRead (m : Nat) (s : State) : Out := due "REQ_READ" (s.homeStep m (· == .read) false Msg.touched State.performRead)
/-- REQ_WRITE (R99). -/
def execReqWrite (m : Nat) (s : State) : Out := due "REQ_WRITE" (s.homeStep m (· == .write) false Msg.mixed State.performWrite)
/-- REQ_WRITE_SET_FULL (R88). -/
def execReqWriteSetFull (m : Nat) (s : State) : Out :=
  due "REQ_WRITE_SET_FULL" (s.homeStep m (· == .writeFull) true (fun _ => []) State.performWriteFull)
/-- REQ_LDF (R88). -/
def execReqLdf (m : Nat) (s : State) : Out := due "REQ_LDF" (s.homeStep m (· == .ldf) true Msg.touched State.performLdf)
/-- REQ_LDFC (R88). -/
def execReqLdfc (m : Nat) (s : State) : Out := due "REQ_LDFC" (s.homeStep m (· == .ldfc) true Msg.touched State.performLdfc)
/-- REQ_LDFN (R88). -/
def execReqLdfn (m : Nat) (s : State) : Out := due "REQ_LDFN" (s.homeStep m (· == .ldfn) true Msg.touched State.performLdfn)
/-- REQ_STEF (R88). -/
def execReqStef (m : Nat) (s : State) : Out := due "REQ_STEF" (s.homeStep m (· == .stef) true (fun _ => []) State.performStef)
/-- REQ_CLRE (R88). -/
def execReqClre (m : Nat) (s : State) : Out := due "REQ_CLRE" (s.homeStep m (· == .clre) true Msg.touched State.performClre)
/-- REQ_SETF (R88). -/
def execReqSetf (m : Nat) (s : State) : Out := due "REQ_SETF" (s.homeStep m (· == .setf) true Msg.touched State.performSetf)

/-- The operation is a `vldf`. -/
def ReqOp.isVldf : ReqOp → Bool
  | .vldf _ => true
  | _ => false

/-- REQ_VLDF (R331). -/
def execReqVldf (m : Nat) (s : State) : Out :=
  due "REQ_VLDF" (s.homeStep m ReqOp.isVldf true Msg.touched fun s q => s.performVldf q (decide (q.op = .req (.vldf true))))

/-- REQ_NIBBLE_WRITE (R330). -/
def execReqNibbleWrite (m : Nat) (s : State) : Out :=
  due "REQ_NIBBLE_WRITE" (s.homeStep m (· == .nibble) false Msg.mixed State.performNibble)

/-- The non-fetching atomic of a request. -/
def ReqOp.amoOp : ReqOp → Option AmoOp
  | .amo op => some op
  | _ => none

/-- The fetching atomic of a request. -/
def ReqOp.famoOp : ReqOp → Option FamoOp
  | .famo op => some op
  | _ => none

/-- The operation of a request. -/
def Msg.reqOp (m : Msg) : ReqOp := match m.op with | .req op => op | _ => .read

/-- REQ_AMO (R110). -/
def execReqAmo (m : Nat) (s : State) : Out :=
  due "REQ_AMO" (s.homeStep m (fun o => o.amoOp.isSome) false Msg.touched fun s q => s.performAmo q (q.reqOp.amoOp.getD .add))

/-- REQ_FAMO (R110). -/
def execReqFamo (m : Nat) (s : State) : Out :=
  due "REQ_FAMO" (s.homeStep m (fun o => o.famoOp.isSome) false Msg.touched fun s q => s.performFamo q (q.reqOp.famoOp.getD .add))

/-! ## Withdrawals (R132) -/

/-- The home removes the record of an operation; one that it has served, or never admitted, leaves nothing to remove (R132). -/
def State.feWithdrawn (s : State) (n : Nat) : Option State :=
  match s.arriving n with
  | some m => match m.op with
    | .feWithdraw t =>
      let s := s.consume n
      let v := s.site m.dst
      if v.state = .failed ∨ v.state = .isolated then some (s.reply m (.error Code.unreachableSite.num) [] false)
      else if kindOf m.dst ≠ .pavilion then some (s.reply m (.error Code.feHome.num) [] false)
      else some ((s.modSite m.dst fun v => { v with waits := v.waits.filter fun r => r.txn != t }).reply m .ack [] false)
    | _ => none
  | none => none

/-- REQ_FE_WITHDRAW (R132). -/
def execReqFeWithdraw (m : Nat) (s : State) : Out := due "REQ_FE_WITHDRAW" (s.feWithdrawn m)

/-! ## Monitors (R133, R134) -/

/-- Watch records of a unit (R133). -/
def watchRecords : Nat := 128

/-- A watch is recorded, or, with the unit's table full, the monitor fires (R133, R134). -/
def State.performMonArm (s : State) (m : Msg) : State :=
  let t := s.site m.dst
  let k := match s.txn m.txn with | some q => q.acc.k | none => 0
  let s := s.reply m .ack [] false
  if (s.txn m.txn).any (fun q => q.acc.owner.gone) then s
  else if (t.watches.filter fun w => w.unit == m.unit).length < watchRecords then
    s.modSite m.dst fun t => { t with watches := t.watches ++ [{ unit := m.unit, granule := m.off / 16, k, src := m.src }] }
  else s.reply m (.monFire (slotOf k)) [] false

/-- REQ_MONITOR_ARM (R133). -/
def execReqMonitorArm (m : Nat) (s : State) : Out :=
  due "REQ_MONITOR_ARM" (s.homeStep m (· == .monArm) (fe := false) Msg.touched State.performMonArm)

/-- The strand's watch on a granule is removed (R133). -/
def State.performMonClr (s : State) (m : Msg) : State :=
  let k := match s.txn m.txn with | some q => q.acc.k | none => 0
  (s.modSite m.dst fun t => { t with watches := t.watches.filter fun w => !(w.unit == m.unit && w.granule == m.off / 16 && w.k == k) }).reply m .ack [] false

/-- REQ_MONITOR_CLEAR (R133). -/
def execReqMonitorClear (m : Nat) (s : State) : Out :=
  due "REQ_MONITOR_CLEAR" (s.homeStep m (· == .monClr) false (fun _ => []) State.performMonClr)

/-! ## The gatehouse and the host (R119-R121, R162, R302, R420) -/

/-- GATEHOUSE_ZERO_LENGTH_READ: a zero-length read goes out behind the newest write in the buffer (R119). -/
def State.zeroLengthRead (s : State) (g : Nat) : Option State :=
  let x := s.gate g
  match x.probe, x.posted.getLast? with
  | none, some p => if x.linkUp then some (s.modGate g fun x => { x with probe := some p.id }) else none
  | _, _ => none

/-- GATEHOUSE_ZERO_LENGTH_READ (R119). -/
def execGatehouseZeroLengthRead (g : Nat) (s : State) : Out := due "GATEHOUSE_ZERO_LENGTH_READ" (s.zeroLengthRead g)

/-- A posted write stands in host memory. -/
def State.hostShow (s : State) (p : Posted) : State :=
  if p.atHost then s else { s with mem := Memory.writeN s.mem (hostKey p.off) p.en p.data }

/-- The strands that wait in a fence. -/
def State.fenceStrands (s : State) : List Nat :=
  (s.strands.filter fun (_, x) => match x.cont with | .flush _ _ _ => true | _ => false).map (·.1)

/-- HOST_WRITE_COMPLETE: the zero-length read is complete, and the writes ahead of it leave the buffer, completed at the host (R119); fences that
waited for them go on (R120, R121). DESIGN CHOICE (log 52): when host memory shows a write that the link has carried is left to the host's system; in
the model it does so here, or when an AtomicOp behind it is complete. -/
def State.hostWriteComplete (s : State) (g : Nat) : Option State :=
  match (s.gate g).probe with
  | none => none
  | some w =>
    let out := (s.gate g).posted.filter fun p => decide (p.id ≤ w)
    let s := each out State.hostShow s
    let s := s.modGate g fun x =>
      { x with posted := x.posted.filter (fun p => !decide (p.id ≤ w)), probe := none, served := x.served.filter fun r => !decide (r.2 ≤ w) }
    some (each s.fenceStrands State.testFence s)

/-- HOST_WRITE_COMPLETE (R119). -/
def execHostWriteComplete (g : Nat) (s : State) : Out := due "HOST_WRITE_COMPLETE" (s.hostWriteComplete g)

/-- The request that waits at a gatehouse under a transaction number. -/
def State.hostPending (s : State) (g t : Nat) (p : ReqOp → Bool) : Option (Nat × Msg) :=
  (s.gate g).pending.find? fun q => q.2.txn == t && p q.2.reqOp

/-- A request waits no longer. -/
def State.hostAnswered (s : State) (g : Nat) (m : Msg) : State := s.modGate g fun x => { x with pending := x.pending.filter fun q => q.2.id != m.id }

/-- HOST_ATOMICOP_COMPLETE: the writes ahead of the atomic stand in host memory, the host has performed it, and its strand is answered; what the
buffer held for its bytes is older (R119, R302). -/
def State.hostAtomicDone (s : State) (g t : Nat) (ok : Bool) : Option State :=
  match s.hostPending g t hostAtomic with
  | none => none
  | some (w, m) =>
    let s := s.hostAnswered g m
    if !ok then some (s.reply m (.error Code.hostAccess.num) [] false)
    else
      let s := each ((s.gate g).posted.filter fun p => decide (p.id ≤ w)) State.hostShow s
      let a := hostKey m.off
      let old := leNat (Memory.readN s.mem a 8)
      let new := match m.reqOp with
        | .famo op => famoApply op old m.data
        | _ => amoApply .add old (leNat (m.data.take 8)) {}
      let keep (p : Posted) (j : Nat) : Bool := bitOn p.en j && !decide (m.off ≤ p.off + j ∧ p.off + j < m.off + 8)
      let s : State := { s with mem := Memory.writeN s.mem a (allOn 8) (leBytes 8 new) }
      let s := s.modGate g fun x =>
        { x with posted := x.posted.map fun p =>
            if p.id ≤ w then { p with atHost := true, en := ((List.range p.data.length).filter (keep p)).foldl setBit 0 } else p }
      some (match m.reqOp with
        | .famo _ => s.reply m .data (leBytes 8 old) false
        | _ => s.reply m .ack [] false)

/-- HOST_ATOMICOP_COMPLETE (R302). -/
def execHostAtomicopComplete (g t : Nat) (ok : Bool) (s : State) : Out := due "HOST_ATOMICOP_COMPLETE" (s.hostAtomicDone g t ok)

/-- HOST_READ_COMPLETION: the read is answered with the newest bytes that the gatehouse holds, else the host's, and its strand's next acquire at sys
scope waits for the writes that were in the buffer (R119, R121). -/
def State.hostReadDone (s : State) (g t : Nat) (ok : Bool) : Option State :=
  match s.hostPending g t (· == .read) with
  | none => none
  | some (_, m) =>
    let s := s.hostAnswered g m
    if !ok then some (s.reply m (.error Code.hostAccess.num) [] false)
    else
      let k := s.hostStrand m
      let s := match (s.gate g).posted.getLast? with
        | some p => s.modGate g fun x => { x with served := (k, p.id) :: x.served.filter fun r => r.1 != k }
        | none => s
      some (s.reply m .data (s.hostBytes g m.off m.len) false)

/-- HOST_READ_COMPLETION (R119). -/
def execHostReadCompletion (g t : Nat) (ok : Bool) (s : State) : Out := due "HOST_READ_COMPLETION" (s.hostReadDone g t ok)

/-- HOST_LINK_STATE_CHANGE: a link that goes down leaves the requests that wait for the host with the host-access fault (R77, R420, log 43). -/
def State.hostLinkChange (s : State) (g : Nat) (up : Bool) : Option State :=
  if kindOf g ≠ .gatehouse ∨ (s.gate g).linkUp = up then none
  else if up then some (s.modGate g fun x => { x with linkUp := true })
  else
    let ms := (s.gate g).pending.map (·.2)
    let s := s.modGate g fun x => { x with linkUp := false, pending := [], probe := none }
    some (each ms (fun s m => s.reply m (.error Code.hostAccess.num) [] false) s)

/-- HOST_LINK_STATE_CHANGE (R420). -/
def execHostLinkStateChange (g : Nat) (up : Bool) (s : State) : Out := due "HOST_LINK_STATE_CHANGE" (s.hostLinkChange g up)

/-- GATEHOUSE_RETRY_ANSWER: the read of a strand whose gang's forced-save deadline has expired gets a retry answer (R162, log 44). -/
def State.hostRetryAnswer (s : State) (g t : Nat) : Option State :=
  match s.hostPending g t (· == .read), (s.txn t).map (fun (q : Txn) => q.acc.owner) with
  | some (_, m), some (.strand k) | some (_, m), some (.fetch k _) =>
    if (s.gang (siteOfK k) (s.strand k).entry).expired then some ((s.hostAnswered g m).reply m .hostRetry [] false) else none
  | _, _ => none

/-- GATEHOUSE_RETRY_ANSWER (R162). -/
def execGatehouseRetryAnswer (g t : Nat) (s : State) : Out := due "GATEHOUSE_RETRY_ANSWER" (s.hostRetryAnswer g t)

end Sys2Proof.Machine
end

