-- ==== Sys2Proof/Machine/Reply.lean ====
section
/-! DEFINITION. Replies: what they do to the access, the operation or the unit that they answer, and the fills of the caches (R43, R86, R125, R128,
R132-R136, R162, R292, R295, R310, R333, R341, R354, R355, R363, R364, R367, R404, R410, R413, R436). -/

namespace Sys2Proof.Machine

open Sys2Proof

/-! ## Completion, by owner -/

/-- The core whose replay queue may hold an access of an owner (R136). -/
def Owner.core? : Owner → Option Nat
  | .relaxed k _ | .element k _ | .strand k => some (coreOfK k)
  | .copyRead c _ _ | .copyWrite c _ _ => some c
  | .aborted _ o => o.core?
  | _ => none

/-- Accesses of an owner that are still to be answered. -/
def State.outstanding (s : State) (o : Owner) : Nat :=
  (s.txns.filter fun t => decide (t.acc.owner = o)).length
    + (s.sites.map fun q => (q.2.port.filter fun p => decide (p.acc.owner = o)).length).sum

/-- An access that a replay entry had issued again is answered: the entry counts it no longer (R136). -/
def State.replayAnswered (s : State) (o : Owner) : State :=
  match o.core? with
  | none => s
  | some c =>
    let n := s.outstanding o
    if (s.core c).replays.any fun r => decide (n < (r.issued.filter fun p => decide (p = o)).length) then
      s.modCore c fun x => { x with replays := x.replays.map fun r =>
        if n < (r.issued.filter fun p => decide (p = o)).length then { r with issued := r.issued.erase o } else r }
    else s

/-- `launch` has read another 64 bytes of its descriptor (R341). -/
def State.launchBytes (s : State) (k d : Nat) (a : Addr) (buf : List Byte) : State :=
  if 256 ≤ buf.length then s.launchSend k d a buf else s.launchPiece k d a buf

/-- The reply to a strand's own access: the instruction completes, or goes on with its next part (R125, R293). -/
def State.strandDone (s : State) (k : Nat) (d : List Byte) (full : Bool) : State :=
  let x := s.strand k
  if x.st ≠ .parked then s
  else match x.cont with
    | .engine => s.elemDone k 0 d
    | .barAsk => s.barAnswer k
    | .getc n r => (s.modStrand k fun x => x.setReg r (s.regRead k n)).completed k 8
    | .launchRead r a buf => s.launchBytes k r a (buf ++ d)
    | c => (s.modStrand k fun x => x.finish c d full).wake k

/-- Write-backs of a pavilion have been performed: what waits for them goes on, fences, range instructions, a `launch` and the releases of gangs
(R106, R114, R307, R341). -/
def State.writeBackDone (s : State) (v : Nat) : State :=
  let go (s : State) (k : Nat) : State := match (s.strand k).cont with
    | .launchRelease d a l => if (s.strand k).st = .parked && !s.unwritten v l then s.launchGo k d a else s
    | _ => s.testFence k
  (each (s.strandKeys.filter fun k => siteOfK k == v) go s).releasesDone v

/-- The monitor has fired and its watch is settled: `mon.wait` completes, unless its wait has another cause (R134, R310). -/
def State.monitorWake (s : State) (k : Nat) : State :=
  let x := s.strand k
  if x.monitor.fired && x.monitor.inFlight.isEmpty && x.st == .parked && decide (x.why = some Park.monitor) then
    match x.cont with
    | .done n => s.completed k n
    | _ => s.wake k
  else s

/-- A watch is no longer on its way. -/
def Monitor.arrived (m : Monitor) (n : Nat) : Monitor := { m with inFlight := m.inFlight.filter fun p => p.1 != n }

/-- The home has recorded watch n of a strand, or found its table full (R133, R309): a watch that a later arm or a removal has overtaken is removed
now that its home is known (R133, R310). -/
def State.monitorArmed (s : State) (k n : Nat) (q : Msg) : State :=
  let s := s.modStrand k fun x => { x with monitor := x.monitor.arrived n }
  let s :=
    if (s.strand k).monitor.current = some n then
      s.modStrand k fun x => { x with monitor := { x.monitor with watch := some (q.dst, q.unit, q.off / 16) } }
    else s.removeWatch k q.dst q.unit (q.off / 16)
  (s.settle k).monitorWake k

/-- What follows every answer: a replay entry counts it, and the release of an aborted gang that left the access behind may be over (R114, R136). -/
def State.answered (s : State) (a : Acc) : State :=
  let s := s.replayAnswered a.owner
  match a.owner with
  | .aborted .. => s.releasesDone (siteOfK a.k)
  | _ => s

/-- An access is performed: what waits for it goes on. `d` is what a data response carries. -/
def State.accDone (s : State) (a : Acc) (q : Msg) (d : Option (List Byte)) (full : Bool) : State :=
  let b := d.getD []
  let s := match a.owner with
    | .strand k => s.strandDone k b full
    | .relaxed k t => s.relaxedDone k t d
    | .element k i => s.elemDone k i b
    | .writeBack => s.writeBackDone q.src
    | .copyRead c n _ => s.copyReadDone c n a b
    | .copyWrite c n i => s.copyWriteDone c n i
    | .trigger v o => s.opAck v o
    | .monitor k n => s.monitorArmed k n q
    | .gangEnd rim l => s.gangDone rim (BitVec.ofNat 32 l) false
    | .hostWindow g => s.modGate g fun x => { x with hostData := some (leWord b) }
    | .fetch .. | .prefetch .. | .arm .. | .aborted .. | .nobody => s
  s.answered a

/-! ## Errors, by owner (R292, R355, R364) -/

/-- Address of the first element of a chunk that touches the granule of an access (R355). -/
def State.copyElemAddr (s : State) (c n i : Nat) (dst : Bool) (a : Addr) : Addr :=
  match (s.core c).copy n with
  | none => a
  | some q =>
    match (q.block.chunkElems i).findSome? fun e => (s.copyAddr c q dst e).bind fun p => if p / 16 = a.toNat / 16 then some p else none with
    | some p => BitVec.ofNat 60 p
    | none => a

/-- A fault of a strand's own access (R292): a walk ends with the code (R198), `launch` takes some as its status (R341), and any other is precise. -/
def State.strandFault (s : State) (k code : Nat) (a : Acc) : State :=
  let x := s.strand k
  if x.st ≠ .parked then s
  else match x.cont with
    | .engine => s.elemFault k 0 { code, addr := a.addr, pc := a.pc, kind := a.kind }
    | .status d => s.launchStatus k d 4
    | .launchRead d _ _ =>
      if code = Code.uncorrectable.num then s.launchStatus k d 4
      else (s.takeFault k { code := Code.ofNum code, addr := some a.addr, pc := a.pc, kind := a.kind }).testHalt k
    | _ =>
      if slotOf k = walkSlot then s.endWalk k code
      else (s.takeFault k { code := Code.ofNum code, addr := if a.kind = 0 then none else some a.addr, pc := a.pc, kind := a.kind }).testHalt k

/-- A fault of a fetch names the word fetched (R252, R285). -/
def State.fetchFault (s : State) (k code : Nat) (a : Acc) : State :=
  if (s.strand k).st ≠ .parked then s
  else (s.takeFault k { code := Code.ofNum code, addr := some (s.namedAddr a), pc := a.pc, kind := 0x01 }).testHalt k

/-- Arm n of a monitor has met a fault: a late fault, and the arm has no effect (R309). -/
def State.monitorFault (s : State) (k n : Nat) (f : Late) : State :=
  (((s.lateFault k f).modStrand k fun x => { x with monitor := x.monitor.arrived n }).settle k).monitorWake k

/-- The completion add of a gang end found its counter's site out of service: a notice event, once the claim unit can hold it (R165), and the gang
counts as ended (R155). -/
def State.gangAddFailed (s : State) (v rim launch : Nat) : State :=
  (s.modSite v fun t => { t with releases := t.releases ++ [{ txns := [], what := .addFailed rim launch }] }).releasesDone v

/-- An access is answered with a fault code. -/
def State.accFault (s : State) (a : Acc) (q : Msg) (code : Nat) : State :=
  let f : Late := { code, addr := a.addr, pc := a.pc, kind := a.kind }
  let s := match a.owner with
    | .strand k => s.strandFault k code a
    | .relaxed k t => (s.lateFault k f).relaxedDone k t none
    | .element k i => s.elemFault k i f
    | .fetch k _ => s.fetchFault k code a
    | .writeBack => s.writeBackDone q.src
    | .copyRead c n i =>
      (s.copyFault c n { f with addr := s.copyElemAddr c n i false a.addr }).modCore c fun x => x.modCopy n fun q => { q with reads := q.reads - 1 }
    | .copyWrite c n i => (s.copyFault c n { f with addr := s.copyElemAddr c n i true a.addr }).copyWriteDone c n i
    | .trigger v o =>
      match q.op with
      | .launchSub .. => s.opStatus v o 4 q a
      | _ => s.opFault v o code a.addr
    | .monitor k n => s.monitorFault k n f
    | .gangEnd rim l => s.gangAddFailed q.src rim l
    | .arm v o => s.armAnswer v o q.dst 1
    | .hostWindow g => s.modGate g fun x => { x with hostData := none }
    | .prefetch .. | .aborted .. | .nobody => s
  s.answered a

/-! ## Arrival -/

/-- A reply that arrives, and the transaction that it ends. -/
def State.replied (s : State) (n : Nat) (p : MsgOp → Bool) : Option (Msg × Txn) :=
  match s.arriving n with
  | some m => if p m.op then (s.txn m.txn).map fun t => (m, t) else none
  | none => none

/-- The state after the reply has been taken. -/
def State.settled (s : State) (m : Msg) : State := (s.consume m.id).dropTxn m.txn

/-- A reply whose transaction nobody knows is taken and does nothing. -/
def State.stray (s : State) (n : Nat) (p : MsgOp → Bool) : Option State :=
  match s.arriving n with
  | some m => if p m.op && (s.txn m.txn).isNone then some (s.consume n) else none
  | none => none

/-- The transaction relays an access of cfg.window (R413). -/
def Txn.relays (t : Txn) : Bool := match t.req.op with | .cfgRead | .cfgWrite => true | _ => false

/-- The requests that a relay or a merged request stands for are answered from where they were held (R410, R413). -/
def State.answerParts (s : State) (v : Nat) (t : Txn) (op : MsgOp) (d : List Byte) : State :=
  each t.parts (fun s p => s.post { id := 0, op, mesh := otherMesh p.mesh, src := v, dst := p.src, key := p.key, data := d, txn := p.txn }) s

/-- RSP_DATA: a data response that fills no cache (R125). -/
def State.rspData (s : State) (n : Nat) : Option State :=
  match s.replied n (· == .data) with
  | none => s.stray n (· == .data)
  | some (m, t) =>
    match t.fill, t.acc.owner with
    | some _, _ => none
    | none, .fetch .. => none
    | none, _ =>
      some (((s.settled m).answerParts m.dst t .data m.data).accDone t.acc t.req (some m.data) m.full)

/-- RSP_DATA (R125). -/
def execRspData (m : Nat) (s : State) : Out := due "RSP_DATA" (s.rspData m)

/-- The home has answered a withdrawal: the operation, if no reply came before, is gone, and its strand stops or issues it again (R132, R162). -/
def State.withdrawn (s : State) (t : Nat) : State :=
  match s.txn t with
  | none => s
  | some u =>
    let s := s.dropTxn t
    match u.acc.owner with
    | .strand k => s.endFe k
    | _ => s

/-- RSP_ACKNOWLEDGE: an acknowledgement of anything but a merged request (R102). -/
def State.rspAck (s : State) (n : Nat) : Option State :=
  match s.replied n (· == .ack) with
  | none => s.stray n (· == .ack)
  | some (m, t) =>
    if t.relays then some ((s.settled m).answerParts m.dst t .ack [])
    else if !t.parts.isEmpty then none
    else match t.req.op with
      | .feWithdraw r => some ((s.settled m).withdrawn r)
      | _ => some ((s.settled m).accDone t.acc t.req none false)

/-- RSP_ACKNOWLEDGE (R102). -/
def execRspAcknowledge (m : Nat) (s : State) : Out := due "RSP_ACKNOWLEDGE" (s.rspAck m)

/-- MERGED_AMO_ANSWER: the router answers every contribution once the home has acknowledged the merged request (R111, R410). -/
def State.mergedAnswer (s : State) (n : Nat) : Option State :=
  match s.replied n (· == .ack) with
  | none => none
  | some (m, t) => if t.parts.isEmpty || t.relays then none else some ((s.settled m).answerParts m.dst t .ack [])

/-- MERGED_AMO_ANSWER (R410). -/
def execMergedAmoAnswer (m : Nat) (s : State) : Out := due "MERGED_AMO_ANSWER" (s.mergedAnswer m)

/-- RSP_ERROR: a response with a fault code (R404). A router answers each contribution of a merged request with it. -/
def State.rspError (s : State) (n : Nat) : Option State :=
  match s.arriving n with
  | none => none
  | some m => match m.op with
    | .error code =>
      match s.txn m.txn with
      | none => some (s.consume n)
      | some t =>
        let s := s.settled m
        if !t.parts.isEmpty then some (s.answerParts m.dst t (.error code) [])
        else match t.req.op with
          | .feWithdraw r => some (s.withdrawn r)
          | _ => some (s.accFault t.acc t.req code)
    | _ => none

/-- RSP_ERROR (R404). -/
def execRspError (m : Nat) (s : State) : Out := due "RSP_ERROR" (s.rspError m)

/-- RSP_DEFERRAL: the operation is to be sent again (R128); one that nothing waits for is not, and one that is withdrawn ends here (R132). -/
def State.rspDeferral (s : State) (n : Nat) : Option State :=
  match s.replied n (· == .deferral) with
  | none => s.stray n (· == .deferral)
  | some (m, t) =>
    let s := (s.consume n).count (coreOfK t.acc.k) 0x00F 1
    some (match t.acc.owner with
      | .nobody | .aborted .. => (s.dropTxn m.txn).answered t.acc
      | .strand k => if t.withdrawn then (s.dropTxn m.txn).endFe k else s.holdBack m.txn
      | _ => s.holdBack m.txn)

/-- RSP_DEFERRAL (R128). -/
def execRspDeferral (m : Nat) (s : State) : Out := due "RSP_DEFERRAL" (s.rspDeferral m)

/-- RSP_HOST_RETRY: the wait ends, and the instruction issues again (R162). -/
def State.rspHostRetry (s : State) (n : Nat) : Option State :=
  match s.replied n (· == .hostRetry) with
  | none => s.stray n (· == .hostRetry)
  | some (m, t) =>
    match t.acc.owner with
    | .strand k | .fetch k _ => some ((s.settled m).wake k)
    | _ => some (s.settled m)

/-- RSP_HOST_RETRY (R162). -/
def execRspHostRetry (m : Nat) (s : State) : Out := due "RSP_HOST_RETRY" (s.rspHostRetry m)

/-- RSP_STATUS: the answer to a launch submission or to an arm message (R341, R363, R367). -/
def State.rspStatus (s : State) (n : Nat) : Option State :=
  match s.arriving n with
  | none => none
  | some m => match m.op with
    | .status r =>
      match s.txn m.txn with
      | none => some (s.consume n)
      | some t =>
        let s := s.settled m
        some (match t.acc.owner with
          | .strand k => match (s.strand k).cont with
            | .status d => s.launchStatus k d r
            | _ => s
          | .trigger v o => s.opStatus v o r t.req t.acc
          | .arm v o => s.armAnswer v o t.req.dst r
          | _ => s)
    | _ => none

/-- RSP_STATUS (R367). -/
def execRspStatus (m : Nat) (s : State) : Out := due "RSP_STATUS" (s.rspStatus m)

/-- RSP_MONITOR_FIRE: the monitor of the strand that the ordering key names is fired, and a `mon.wait` completes (R134). -/
def State.rspMonitorFire (s : State) (n : Nat) : Option State :=
  match s.arriving n with
  | none => none
  | some m => match m.op with
    | .monFire slot =>
      let k := m.dst * 256 + m.key % 256 / 16 * 16 + slot
      let s := s.consume n
      some (if (s.strand k).st = .free then s
        else (s.modStrand k fun x => { x with monitor := { x.monitor with fired := true } }).monitorWake k)
    | _ => none

/-- RSP_MONITOR_FIRE (R134). -/
def execRspMonitorFire (m : Nat) (s : State) : Out := due "RSP_MONITOR_FIRE" (s.rspMonitorFire m)

/-! ## Fills (R86, R92, R295, R436) -/

/-- A line that has come from its home fills the slice, and then the L1D; one from the slice fills the L1D (R86). What has been invalidated
meanwhile is not kept (R95, R104). -/
def State.fillCaches (s : State) (c : Nat) (m : Msg) (t : Txn) (l : Line) : State :=
  let l := { l with data := m.data, dirty := 0, flaw := 0 }
  let s := if m.src = m.dst ∨ t.staleSlice then s else s.fillSlice m.dst { l with mark := false, unread := false }
  if t.stale then s else s.fillL1d c l

/-- A line comes for a core whose L1D holds it, struck (R90, R91): none where the event that tells of it cannot be held (R165), else whether the
dirty bytes are lost, and the state without the error. -/
def State.mendFilled (s : State) (c : Nat) (l : Line) : Option (Bool × State) :=
  match lineOf l.line (s.core c).l1d with
  | some w => if w.flaw ≠ 0 ∧ s.holdFull (siteOfC c) (16 + c % 16) then none else some (lineLost l.line (s.core c).l1d, s.mendL1d c l.line)
  | none => some (false, s)

/-- The access that missed is performed on its line (R86, R295): a store sets the write mark, and, where the line is not to be kept, its bytes leave
at once. -/
def State.accOnLine (s : State) (c : Nat) (m : Msg) (t : Txn) (l : Line) : State :=
  let a := t.acc
  let o := a.addr.toNat % 128
  match lineOf l.line (s.core c).l1d, a.op with
  | some w, .write => (s.modCore c fun x => { x with l1d := toFront { w.write o a.en a.data with mark := true } x.l1d }).accDone a t.req none false
  | none, .write => (s.lineLeaves (siteOfC c) (16 + c % 16) ({ l with data := m.data, dirty := 0, flaw := 0 }.write o a.en a.data)).accDone a t.req none false
  | some w, _ => s.accDone a t.req (some (w.read o a.size)) false
  | none, _ => s.accDone a t.req (some ((m.data.drop o).take a.size)) false

/-- A fill that the L1D cannot take yet, its line being struck there and the event not to be held: the response is consumed (R406), and the access looks
again in the memory port, where it waits (R165). A prefetch needs the line no more. -/
def State.lookAgain (s : State) (m : Msg) (a : Acc) : State :=
  match a.owner with
  | .prefetch .. => s.settled m
  | _ => (s.settled m).sendAccess a

/-- L1D_FILL: the line of a miss arrives, and the access that missed is performed on it (R86, R295). A prefetch is counted (R92, R230). -/
def State.l1dFill (s : State) (n : Nat) : Option State :=
  match s.replied n (· == .data) with
  | none => none
  | some (m, t) =>
    match t.fill, t.acc.owner with
    | none, _ => none
    | some _, .fetch .. => none
    | some l, o =>
      let c := coreOfK t.acc.k
      match s.mendFilled c l with
      | none => some (s.lookAgain m t.acc)
      | some (lost, s) =>
        let s := (s.settled m).fillCaches c m t l
        some (match o with
          | .prefetch .. => s.count c 0x008 1
          | _ => if lost then s.accFault t.acc t.req Code.uncorrectable.num else s.accOnLine c m t l)

/-- L1D_FILL (R86). -/
def execL1dFill (m : Nat) (s : State) : Out := due "L1D_FILL" (s.l1dFill m)

/-- The line of a fetch enters the instruction cache, unless that has been invalidated meanwhile, and its strand is woken (R95, R436). -/
def State.fetched (s : State) (k line : Nat) (t : Txn) (d : List Byte) : State :=
  let s := if t.stale then s else s.modCore (coreOfK k) fun x => x.fillIcache { line, data := d }
  if (s.strand k).st = .parked ∧ (s.strand k).why = some Park.fetch then s.wake k else s

/-- ICACHE_FILL: the line of a fetch arrives and its strand is woken; a line of a class-0b00 page fills the L1D and the slice as a load's would
(R436). -/
def State.icacheFill (s : State) (n : Nat) : Option State :=
  match s.replied n (· == .data) with
  | none => none
  | some (m, t) =>
    match t.acc.owner with
    | .fetch k line =>
      let c := coreOfK k
      match t.fill with
      | none => some ((s.settled m).fetched k line t m.data)
      | some l =>
        match s.mendFilled c l with
        | none => some (s.lookAgain m t.acc)
        | some (lost, s) =>
          let s := (s.settled m).fillCaches c m t l
          some (if lost then s.accFault t.acc t.req Code.uncorrectable.num
            else s.fetched k line t (match lineOf l.line (s.core c).l1d with | some w => w.data | none => m.data))
    | _ => none

/-- ICACHE_FILL (R436). -/
def execIcacheFill (m : Nat) (s : State) : Out := due "ICACHE_FILL" (s.icacheFill m)

/-- The segment of a stream admits a read of the line at an address (R93): the check is that of the first byte of the line that the segment holds. -/
def State.streamAdmits (s : State) (k : Nat) (g : Seg) (a : Nat) : Bool :=
  let lo := max a g.base.toNat
  if a + 128 ≤ lo then false
  else match s.checkAccess k g (lo - g.base.toNat) 1 rR 1 with
    | .ok p => decide (p.toNat = lo)
    | .error _ => false

/-- STRIDE_PREFETCH: a stream after three misses with one stride asks for the next line ahead of it, up to four (R92); one that fails the check of
its segment is dropped and counted (R93). -/
def State.stridePrefetch (s : State) (c slot ahead : Nat) : Option State :=
  match (s.core c).streams.find? fun t => t.slot == slot with
  | none => none
  | some t =>
    let n : Int := t.last + ahead * t.stride
    if 3 ≤ t.hits ∧ ahead = t.ahead + 1 ∧ ahead ≤ 4 ∧ 0 ≤ n ∧ n < 2 ^ 50 then
      let s := s.modCore c fun x => { x with streams := x.streams.map fun q => if q.slot = slot then { q with ahead } else q }
      let k := slotKey c slot
      some (if s.streamAdmits k ((s.strand k).seg t.seg) (n.toNat * 128) then s.prefetch k (BitVec.ofNat 60 (n.toNat * 128)) else s.count c 0x009 1)
    else none

/-- STRIDE_PREFETCH (R92). -/
def execStridePrefetch (c slot ahead : Nat) (s : State) : Out := due "STRIDE_PREFETCH" (s.stridePrefetch c slot ahead)

/-- MEMORY_PORT_TRANSLATE (R137). -/
def execMemoryPortTranslate (v p : Nat) (s : State) : Out := due "MEMORY_PORT_TRANSLATE" (s.portTranslate v p)

end Sys2Proof.Machine
end

