-- ==== Sys2Proof/Machine/Events.lean ====
section
/-! DEFINITION. Events on their way to the host: holds, records, the gatehouse's queue, and the scrubbers (R91, R165-R168, R430, R431). -/

namespace Sys2Proof.Machine

open Sys2Proof

/-! ## Records (R165, R166) -/

/-- Records of an event buffer (R165). -/
def eventRecords : Nat := 16
/-- Records that non-fatal events may hold (R165). -/
def nonFatalRecords : Nat := 12

/-- The buffer has a record for an event (R165). -/
def Site.roomFor (t : Site) (r : EventRec) : Bool :=
  decide (t.events.length < eventRecords) &&
    (r.severity == sevFatal || decide ((t.events.filter fun q => q.severity != sevFatal).length < nonFatalRecords))

/-- The first held event for which there is a record; one that stands behind another of its unit waits for that one (log 58). -/
def nextHeld (t : Site) : List Nat → List (Nat × EventRec) → Option (Nat × EventRec)
  | _, [] => none
  | us, (u, r) :: rest => if t.roomFor r && !us.contains u then some (u, r) else nextHeld t (u :: us) rest

/-- The strands of a core that wait with a fault until the core's hold is empty (R165): the first of them acts. -/
def State.actStalled (s : State) (v u : Nat) : State :=
  if u < 16 ∨ s.holdFull v u then s
  else
    let ks := s.strandKeys.filter fun k => siteOfK k == v && coreNo k == u - 16 && (s.strand k).st == .parked &&
      (match (s.strand k).cont with | .stalled _ => true | _ => false)
    match ks with
    | [] => s
    | k :: _ => match (s.strand k).cont with
      | .stalled f => s.faultAct k f
      | _ => s

/-- The hold of a unit is empty again: the lines on their way out of a cache, the wait lists of a home and the releases of gangs that waited for it
go on (R114, R131, R165). -/
def State.holdEmptied (s : State) (v u : Nat) : State :=
  if s.holdFull v u then s else ((s.nextLeaving v).serveRest v u).writeBackDone v

/-- EVENT_HOLD_TO_RECORD: a held event takes a record, and what waited for the hold goes on (R165). -/
def State.holdToRecord (s : State) (v : Nat) : Option State :=
  let t := s.site v
  match nextHeld t [] t.evHolds with
  | none => none
  | some (u, r) =>
    let s := s.setSite v { t with evHolds := t.evHolds.erase (u, r), events := t.events ++ [r] }
    let ks := s.strandKeys.filter fun k => siteOfK k == v && (s.strand k).st == .parked && (s.strand k).cont == .eventHold
    some (((each ks State.wake s).holdEmptied v u).actStalled v u)

/-- EVENT_HOLD_TO_RECORD (R165). -/
def execEventHoldToRecord (v : Nat) (s : State) : Out := due "EVENT_HOLD_TO_RECORD" (s.holdToRecord v)

/-! ## To the gatehouse (R167, R168) -/

/-- The sequence number of a record. -/
def EventRec.seq (r : EventRec) : Nat := bits r.w3.toNat 31 0

/-- The record of a list that was raised first; sequence numbers count modulo 2^32 up to the next one, `n`. -/
def oldest (n : Nat) : List EventRec → Option EventRec
  | [] => none
  | r :: rest => match oldest n rest with
    | none => some r
    | some q => if (r.seq + 2 ^ 32 - n) % 2 ^ 32 ≤ (q.seq + 2 ^ 32 - n) % 2 ^ 32 then some r else some q

/-- The record that goes next: fatal ones first, each class in sequence order (R167). -/
def Site.nextRecord (t : Site) : Option EventRec :=
  (oldest t.evSeq (t.events.filter fun r => r.severity == sevFatal)).or (oldest t.evSeq (t.events.filter fun r => r.severity != sevFatal))

/-- Records of a gatehouse's event queue (R168). -/
def eventQueue : Nat := 4096

/-- The next record goes to the gatehouse that ev.target names, which takes it and tells the host, or refuses it while its queue is full (R167, R168, R420). None without a
record, without a way to a gatehouse in service (R408, R416), or while a network-select change holds what goes to it (R205, R206). -/
def State.sendRecord (s : State) (v : Nat) : Option State :=
  let t := s.site v
  let g := rimSite t.evTarget
  match t.nextRecord, s.resolve v (xOf g) (yOf g) 0 with
  | some r, some (d, m) =>
    let x := s.gate d
    let open_ := match m with
      | some m => (Machine.route 40 m v d).all fun p => ((s.site p.1).link p.2 m).up
      | none => true
    if (s.site d).state = .failed ∨ (s.site d).state = .isolated ∨ !open_ ∨ s.nsHolds v d then none
    else if eventQueue ≤ (x.eqTail + 2 ^ 32 - x.eqHead) % 2 ^ 32 then some (s.setSite v { t with evRefused := true })
    else
      some ((s.setSite v { t with evRefused := false, events := t.events.erase r }).modGate d fun x =>
        { x with events := Tab.put (x.eqTail % eventQueue) r x.events, eqTail := (x.eqTail + 1) % 2 ^ 32, eventNotices := x.eventNotices + 1 }.interrupt 64)
  | _, _ => none

/-- EVENT_FORWARD (R167). -/
def execEventForward (v : Nat) (s : State) : Out := due "EVENT_FORWARD" (if (s.site v).evRefused then none else s.sendRecord v)

/-- EVENT_RESEND: a refused record is sent again and counted (R167, R229). -/
def execEventResend (v : Nat) (s : State) : Out :=
  due "EVENT_RESEND" (if (s.site v).evRefused then (s.sendRecord v).map fun s => s.countRetry v 0xC3108 1 else none)

/-! ## Scrubbing (R91, R430) -/

/-- Granules of a unit that holds memory; none for any other (R85). -/
def unitGranules (v u : Nat) : Nat :=
  match kindOf v with
  | .pavilion => if u < 4 then 262144 else if u = 4 then 2097152 else 0
  | .memory => if u = 0 then 2250000000 else 0
  | .gatehouse => 0

/-- The lines of a cache that a scrubber reads: unit 5 the slice's cache part, 16 + c the L1D of core c (R91). -/
def State.scrubbed (s : State) (v u : Nat) : List Line := if u = 5 then (s.site v).slice else if 16 ≤ u ∧ u < 32 then (s.core (v * 16 + u - 16)).l1d else []

/-- The lines of such a cache changed. -/
def State.modLines (s : State) (v u : Nat) (f : List Line → List Line) : State :=
  if u = 5 then s.modSite v fun t => { t with slice := f t.slice } else s.modCore (v * 16 + u - 16) fun x => { x with l1d := f x.l1d }

/-- The scrubber finds an error in a cache line (R90, R91, R430): a correctable one is corrected, and a line with an uncorrectable one is invalidated.
A line whose error is recorded has that one, else the event says which it is. -/
def State.scrubLine (s : State) (v u : Nat) (l : Line) (lasting uncorrectable : Bool) : State :=
  if l.flaw = 2 ∨ (l.flaw = 0 ∧ uncorrectable) then
    let s := if l.dirty = 0 then s.raise v 14 sevCorrected 0x0102 none 0 else s.raise v 14 sevUncorrected 0x0103 none (BitVec.ofNat 60 (l.line * 128))
    s.modLines v u fun ls => ls.filter fun q => q.line != l.line
  else
    let stays := l.flaw = 3 ∨ (l.flaw = 0 ∧ lasting)
    let s := s.raise v 14 sevCorrected (if stays then 0x0101 else 0x0100) none 0
    s.modLines v u fun ls => ls.map fun q => if q.line = l.line then { q with flaw := if stays then 3 else 0 } else q

/-- SCRUB_PASS: the scrubber finds an error in granule g of a unit, or of line g / 8 of a cache, and reads the granule once more (R91, R430). The
nature of the error is the memory's, where it has one recorded, else what the event says. -/
def State.scrub (s : State) (v u g : Nat) (lasting uncorrectable : Bool) : Option State :=
  if !(siteKey v) || s.holdFull v 14 then none
  else if kindOf v = .pavilion ∧ 5 ≤ u then (lineOf (g / 8) (s.scrubbed v u)).map fun l => s.scrubLine v u l lasting uncorrectable
  else if unitGranules v u ≤ g then none
  else
    let key := homeKey v u 0 / 16 + g
    let n := (Tab.find key s.flaws).getD ((if lasting then 1 else 0) + (if uncorrectable then 2 else 0))
    let code := if n = 1 then 0x0101 else if n = 3 then 0x0103 else 0x0100
    let s := s.raise v 14 (if n = 3 then sevUncorrected else sevCorrected) code none 0
    some { s with flaws := if n = 1 ∨ n = 3 then Tab.put key n s.flaws else Tab.del key s.flaws }

/-- The site and the event hold of a structure with a code of its own (R165, R429). -/
def Guarded.unit : Guarded → Nat × Nat
  | .registers c => (siteOfC c, 16 + c % 16)
  | .router v | .combine v => (v, 7)
  | .triggers v => (v, 6)

/-- The site has the structure. -/
def Guarded.here (g : Guarded) : Bool :=
  match g with
  | .registers c => siteKey (siteOfC c) && (coreNos (siteOfC c)).contains (c % 16)
  | .router v => siteKey v
  | .combine v | .triggers v => siteKey v && kindOf v == .pavilion

/-- A single-bit error in such a structure is met at an access (R429, R430): it is corrected and written back, and the event says whether the second
read was clean; the data are delivered corrected. While the event cannot be held the access waits (R165). -/
def State.mended (s : State) (g : Guarded) (lasting : Bool) : Option State :=
  let (v, u) := g.unit
  if !g.here || (s.site v).state == .cold || s.holdFull v u then none
  else some (s.raise v u sevCorrected (if lasting then 0x0101 else 0x0100) none 0)

/-- SCRUB_PASS (R91). -/
def execScrubPass (v u g : Nat) (lasting uncorrectable : Bool) (s : State) : Out := due "SCRUB_PASS" (s.scrub v u g lasting uncorrectable)

end Sys2Proof.Machine
end

