-- ==== Sys2Proof/Machine/Rotation.lean ====
section
/-! DEFINITION. The rotation of a core: what the turn of a position comes to, the core's cycle, and what one step of the schedule runs: an event, a
cycle, a flit, or everything that meets in one cycle (R27, R73, R100, R122-R124, R162, R216, R226, R292, R353). A meaning is run through the
parameter `ex`, for which the step gives `exec`. -/

namespace Sys2Proof.Machine

open Sys2Proof

/-! ## The turn of a position (R122-R124) -/

/-- The turn of position 14 (R124, R353): a take of a parameter block, or one beat; it issues no words. -/
def State.copyTurn (s : State) (c : Nat) : Turn :=
  let made := if (s.core c).canTake then s.copyTake c else (s.nextBeat c).bind fun q => s.copyBeat c q.n
  match made with
  | some t => .copied t
  | none => .bubble (if (s.core c).copyIdle then s.count c 0x003 1 else s)

/-- A relaxed page fault whose replay entries have ended waits for nothing (R139, R142). -/
def State.dropStale (s : State) (k : Nat) : State :=
  if s.relaxedReplay k then s else s.modStrand k fun x => { x with late := x.late.filter fun f => f.code != Code.pageFault.num }

/-- The turn of a strand that is ready (R123): a fault that waits for it comes first (R292, R309), a gang that is halting stops it before it issues
(R144, R162), the walk strand rests while its mailbox is empty (R124, log 14), and else it issues the instruction at pc. -/
def State.strandTurn (s : State) (k : Nat) : Turn :=
  let c := coreOfK k
  let s := (s.modStrand k fun x => { x with st := .ready }).dropStale k
  let x := s.strand k
  if !x.late.isEmpty then .issue (.lateFaultTaken k) s
  else if slotOf k < 13 ∧ (s.gang (siteOfK k) x.entry).halting then .bubble ((s.stop k).count c 0x003 1)
  else if slotOf k = walkSlot ∧ (s.core c).misses.isEmpty then .bubble (s.park k .missIdle .reissue)
  else s.fetchInstr k

/-- The turn of a position (R123): withdrawn, empty, the copy sequencer's, or a strand's. -/
def State.turn (s : State) (k : Nat) : Turn :=
  let c := coreOfK k
  let x := s.strand k
  if (s.core c).isWithdrawn (slotOf k) then .bubble (s.count c 0x005 1)
  else if slotOf k = 14 then s.copyTurn c
  else if x.st = .ready ∨ x.st = .held then s.strandTurn k
  else .bubble (s.count c 0x003 1)

/-- The strand whose turn comes in the next cycle of a core (R122). -/
def State.dueStrand (s : State) (c : Nat) : Nat := slotKey c ((s.core c).cycle % 16)

/-- The end of a core's cycle: the cycles of a core count from the READY of its site (R122, R226). -/
def State.endTurn (s : State) (c : Nat) : State :=
  if (s.site (siteOfC c)).inService && (coreNos (siteOfC c)).contains (c % 16) then s.coreCycle c else s

/-- PERMIT_REFILL: a core cycle in which the position issues nothing; the refill belongs to every cycle of the core (R226). -/
def State.permitRefill (s : State) (c : Nat) : Option State :=
  if s.instant.isSome ∨ !(s.site (siteOfC c)).inService ∨ !(coreNos (siteOfC c)).contains (c % 16) then none
  else match s.turn (s.dueStrand c) with
    | .bubble t => some (t.endTurn c)
    | .copied _ | .issue _ _ => none

/-- PERMIT_REFILL (R226). -/
def execPermitRefill (c : Nat) (s : State) : Out := due "PERMIT_REFILL" (s.permitRefill c)

/-- The next cycle of a core (R122, R123): the turn of its position, then the end of the cycle. -/
def runCycle (ex : Instr → State → Out) (c : Nat) (s : State) : Out :=
  let k := s.dueStrand c
  match ({ s with cur := k } : State).turn k with
  | .bubble t | .copied t => .next (t.endTurn c)
  | .issue i t =>
    match ex i t with
    | .next u => .next ((u.issued k i).endTurn c)
    | .fault r => .fault r
    | .refused r => .refused r

/-! ## Events (log 1) -/

/-- The events that only the turn of a position brings (R292, R353). -/
def ofTurn : Instr → Bool
  | .lateFaultTaken _ | .copyTake _ | .copyBeat _ _ => true
  | _ => false

/-- An event of the device or of the outside; an instruction comes only in the turn of a strand. -/
def runEvent (ex : Instr → State → Out) (i : Instr) (s : State) : Out :=
  if (encode i).isEmpty && !ofTurn i then ex i s else .refused (.notDue "INSTRUCTION")

/-! ## What meets in one cycle (R73, R100, R145, R178, R192, R214, R232, R375) -/

/-- What a cycle brings: an event, or the cycle of a core. -/
inductive Item where
  | event (i : Instr)
  | cycle (c : Nat)
deriving DecidableEq, Repr

/-- The message that an event takes in. -/
def messageOf : Instr → Option Nat
  | .reqRead m | .reqWrite m | .reqWriteSetFull m | .reqLdf m | .reqLdfc m | .reqLdfn m | .reqStef m | .reqClre m | .reqSetf m | .reqVldf m
  | .reqFeWithdraw m | .reqNibbleWrite m | .reqAmo m | .reqFamo m | .reqMonitorArm m | .reqMonitorClear m | .reqNqWord m | .reqCounterAdd m
  | .rspData m | .rspAcknowledge m | .rspDeferral m | .rspError m | .rspMonitorFire m | .rspQueueRefusal m | .rspHostRetry m | .rspStatus m
  | .icacheFill m | .l1dFill m | .mergedAmoAnswer m | .drainMarkerReturn m | .reqLaunchSubmission m | .reqArmReserve m | .reqArmCommit m
  | .reqArmRelease m | .reqContribution m | .reqResult m | .reqProbeTimestamp m | .reqProbeEcho m | .reqConfigRead m | .reqConfigWrite m
  | .reqHello m | .reqImageRequest m | .reqImageBlock m | .reqDrainMarker m | .faultQueueNotice m => some m
  | _ => none

/-- The place of an access among those that reach homes in one cycle (R100): the ordering key decides, then, from one source, the order of sending, and
of two sent in one cycle the one on Oak. -/
def Msg.order (m : Msg) : List Nat := [m.key, m.batch, if m.mesh = some .ash then 1 else 0, m.id]

/-- The words of control windows that an event writes: sites and offsets. -/
def State.wordsOf (s : State) (i : Instr) : List (Nat × Nat) :=
  match i with
  | .trClear v x _ => [(v, if x = .oak then 0x24000 else 0x24008)]
  | .nsUpdate v _ | .cfgNsupdate v _ => [(v, 0x11080)]
  | .smMapWrite v ix _ => [(v, 0x10400 + 8 * ix)]
  | .bandWrite v r _ => [(v, 0x12000 + 8 * r)]
  | .registerWrite (.window v off _) => [(v, off)]
  | .reqWrite n => match s.arriving n with
    | some m => if m.unit = 16 ∧ !m.host then (List.range ((m.off % 8 + m.data.length + 7) / 8)).map fun j => (m.dst, m.off / 8 * 8 + 8 * j) else []
    | none => []
  | .reqConfigWrite n => match s.arriving n with
    | some m => if m.off = 0x880 then [(m.dst, 0x11080)] else if inRange m.off 0x400 800 then [(m.dst, 0x10000 + m.off)] else []
    | none => []
  | _ => []

/-- A write of tr.clear or of a network-select change goes before what it meets in a cycle (R205, R210, R214). -/
def firstWord (off : Nat) : Bool := off == 0x24000 || off == 0x24008 || off == 0x11080

/-- A write of the site map, sm.self, a band or a cap is seen from the next cycle on (R192, R214, R424). -/
def lastWord (off : Nat) : Bool := off == 0x10000 || inRange off 0x10400 800 || inRange off 0x12000 800 || inRange off 0xD0000 0x48

/-- The event changes something that what it meets in a cycle still finds as it stood (R192, R214, R421, R424). -/
def State.changesLast (s : State) (i : Instr) : Bool :=
  match i with
  | .cfgIsolate _ => true
  | .registerWrite (.pending k) => (s.pendingSetc k (· == 0x0930)).isSome
  | .reqConfigWrite n => (match s.arriving n with | some m => m.off == 0x080 | none => false) || (s.wordsOf i).any fun p => lastWord p.2
  | i => (s.wordsOf i).any fun p => lastWord p.2

/-- The instruction that the position of a core issues in the cycle to come. -/
def State.issues (s : State) (c : Nat) : Option Instr := match s.turn (s.dueStrand c) with | .issue i _ => some i | _ => none

/-- The strand at the position of a core ends in the cycle to come (R337). -/
def State.endsNow (s : State) (c : Nat) : Bool :=
  let k := s.dueStrand c
  decide (s.issues c = some .endStrand) && (s.strand k).tracker.isEmpty && !s.copying k && !(s.strand k).drain && decide (slotOf k < 13)

/-- The last strands of the gang at the position of a core end in the cycle to come, on some of the cores `cs`: the gang ends in it (R155, R178). -/
def State.endsGang (s : State) (cs : List Nat) (c : Nat) : Bool :=
  let k := s.dueStrand c
  s.endsNow c && (s.gangStrands (siteOfC c) (s.strand k).entry).all fun j =>
    cs.contains (coreOfK j) && s.dueStrand (coreOfK j) == j && s.endsNow (coreOfK j)

/-- The global strand number of the strand whose `coll.arm` sent a message (R375). -/
def State.armer (s : State) (m : Msg) : Nat :=
  match m.op with
  | .armReserve _ o _ => match (s.site m.src).arms.find? fun q => q.id == o with | some q => s.number q.k | none => 0
  | _ => 0

/-- The rank from which on the counters have taken the changes of the cycle (R145, R216). -/
def endsInstant : Nat := 14

/-- The place of an event in its cycle: it precedes those of higher rank. Before the cores: what is evaluated as it stood (R424), writes that go first
(R205, R210, R214), replies, which an instruction of the cycle can use (R122), releases of gangs (R178) and fires of trigger entries (R232, R375).
After them: resumptions and offers (R154, R178), accesses at their homes (R95, R100), contributions (R209), reservations by strand (R375), words for
queue registers (R375), records by virtual site (R168), cores by number (R141, R224), and what changes the time (R232). Then the instant ends, with the
wakes of counters, and the stops follow (R145, R190); last come the writes that this cycle does not see yet (R192). -/
def State.eventRank (s : State) (i : Instr) : List Nat :=
  let key (n : Nat) : List Nat := match s.arriving n with | some m => m.order | none => []
  if s.changesLast i then 15 :: (match messageOf i with | some n => key n | none => [])
  else if (s.wordsOf i).any fun p => firstWord p.2 then 1 :: (match messageOf i with | some n => key n | none => [])
  else match i with
  | .controlInterval _ => [0]
  | .rspData _ | .rspAcknowledge _ | .rspDeferral _ | .rspError _ | .rspQueueRefusal _ | .rspHostRetry _ | .rspStatus _ | .icacheFill _ | .l1dFill _
  | .vectorResult _ | .matrixOpComplete .. | .replayEntryEnd .. => [2]
  | .abortComplete .. | .gangSaveComplete .. => [4]
  | .triggerFire v n => [7, (s.trig v n).due, (s.trig v n).seq]
  | .resumption _ => [9, 0]
  | .gangOffer g _ _ => [9, 1, rimOf g]
  | .trellisDeliver v x _ => [10, s.engineKey v (if x = .oak then 0x01 else 0x02)]
  | .memoryPortTranslate v _ => [10, s.engineKey v 0x30]
  | .reqNqWord n => match s.arriving n with
    | some m => match m.op with | .nqWord c q => [11, 2, m.dst, c, q] ++ m.order | _ => [11, 2]
    | none => [11, 2]
  | .reqContribution n => match s.arriving n with
    | some m => match m.op with | .contribution _ d => [11, 0, d] | _ => [11, 0]
    | none => [11, 0]
  | .reqArmReserve n => match s.arriving n with | some m => [11, 1, s.armer m] | none => [11, 1]
  | .eventForward v | .eventResend v => let p := s.virt v; [11, 3, p.2 * 256 + p.1]
  | .missDoneNotPresent k => [11, 4, k]
  | .nestClaim k => [11, 5, k]
  | .reqRead n | .reqWrite n | .reqWriteSetFull n | .reqLdf n | .reqLdfc n | .reqLdfn n | .reqStef n | .reqClre n | .reqSetf n | .reqVldf n
  | .reqFeWithdraw n | .reqNibbleWrite n | .reqAmo n | .reqFamo n | .reqMonitorArm n | .reqMonitorClear n | .reqCounterAdd n => 10 :: key n
  | .reqHello _ => [12, 0]
  | .tick .. | .reqProbeEcho _ => [13]
  | .psaveDeadlineExpiry .. | .preemptRequest .. | .hostCmdPreempt .. => [endsInstant]
  | _ => [12, 1]

/-- The place of an item in its cycle, with the cores whose cycles are still to come. A message that stands behind another in its queue waits for that
one (R409). The cores run in ascending order, but for those whose strands end a gang, and those that cancel a trigger entry, which go before the fires
of the cycle (R178, R232, R375). -/
def State.rank (s : State) (cs : List Nat) : Item → List Nat
  | .cycle c =>
    if s.endsGang cs c then [5, c] else match s.issues c with
      | some (.trigCancel ..) => [6, c]
      | _ => [8, c]
  | .event i => match messageOf i with
    | some n => if (s.arriving n).isSome then s.eventRank i else [99]
    | none => s.eventRank i

/-- One list comes before another in the order of their first difference. -/
def before : List Nat → List Nat → Bool
  | [], [] => false
  | [], _ :: _ => true
  | _ :: _, [] => false
  | a :: s, b :: t => decide (a < b) || (a == b && before s t)

/-- The first of the positions whose rank no other's comes before. -/
def earliest : List (Nat × List Nat) → Option (Nat × List Nat)
  | [] => none
  | p :: t => some (t.foldl (fun q r => if before r.2 q.2 then r else q) p)

/-- What comes next in a cycle: its position in the list, and its rank; of equal rank the first as given (log 68). -/
def State.pick (s : State) (l : List Item) : Option (Nat × List Nat) :=
  let cs := l.filterMap fun | .cycle c => some c | .event _ => none
  earliest (l.zipIdx.map fun (i, j) => (j, s.rank cs i))

/-- One thing of a cycle. -/
def runItem (ex : Instr → State → Out) (i : Item) (s : State) : Out := match i with | .event i => runEvent ex i s | .cycle c => runCycle ex c s

/-- What one cycle brings, in its order. The counters take their changes, and wake what waits for them, before anything stops (R145, R216). -/
def runItems (ex : Instr → State → Out) : Nat → List Item → State → Out
  | 0, _, s => .next s
  | n + 1, l, s =>
    match s.pick l with
    | none => .next s
    | some (j, r) => match l[j]? with
      | none => .next s
      | some i => match runItem ex i (if endsInstant ≤ r.headD 0 then s.endInstant else s) with
        | .next t => runItems ex n (l.eraseIdx j) t
        | .fault r => .fault r
        | .refused r => .refused r

/-- One cycle in which several things meet (R73, R100, R216): each core has one cycle of its own in it. -/
def runInstant (ex : Instr → State → Out) (cs : List Nat) (l : List Instr) (s : State) : Out :=
  let is := l.map Item.event ++ (cs.foldl (fun r c => NatSet.add c r) []).map Item.cycle
  match runItems ex is.length is { s with instant := some [] } with
  | .next t => .next t.endInstant
  | .fault r => .fault r
  | .refused r => .refused r

/-- What comes next, as the schedule has it. -/
def runSched (ex : Instr → State → Out) (a : Sched) (s : State) : Out :=
  match a with
  | .event i => runEvent ex i s
  | .cycle c => runCycle ex c s
  | .send n => due "FLIT_SEND" (s.sendFlit n)
  | .recv v d x => due "FLIT_RECEIVE" (s.recvFlit v d x)
  | .together cs l => runInstant ex cs l s
  | .withdraw n => due "RESUMPTION_WITHDRAWAL" (s.withdrawResumption n)
  | .placeImage g => due "IMAGE_PLACEMENT" (s.placeImage g)
  | .placeFirmware g l => due "FIRMWARE_PLACEMENT" (s.placeFirmware g l)
  | .mended g lasting => due "ERROR_CORRECTION" (s.mended g lasting)
  | .hostConfigRead g off => due "HOST_CONFIG_READ" (s.hostConfigRead g off)

/-- One step of the module: the head of the agenda, or, when it is empty, the next cycle of the core that ran last (log 1). -/
def runStep (ex : Instr → State → Out) (s : State) : Out :=
  let s : State := { s with batch := s.nextId }
  match s.agenda with
  | [] => runCycle ex (coreOfK s.cur) s
  | a :: rest => runSched ex a { s with agenda := rest }

end Sys2Proof.Machine
end

