-- ==== Sys2Proof/Machine/Dispatch.lean ====
section
/-! DEFINITION. One arm for every row of spec/opcode_table.json, each one direct call of its meaning. -/

namespace Sys2Proof.Machine

open Sys2Proof

/-- One step of the part: the meaning of an instruction, issued by the strand whose turn it is, or of an event. -/
def exec (i : Instr) (s : State) : Host.Outcome State Fault Refusal :=
  match i with
  | .add d a b => Sys2Proof.Machine.execAdd d a b s
  | .sub d a b => Sys2Proof.Machine.execSub d a b s
  | .mul d a b => Sys2Proof.Machine.execMul d a b s
  | .mulhI d a b => Sys2Proof.Machine.execMulhI d a b s
  | .mulhN d a b => Sys2Proof.Machine.execMulhN d a b s
  | .divI d a b => Sys2Proof.Machine.execDivI d a b s
  | .divN d a b => Sys2Proof.Machine.execDivN d a b s
  | .remI d a b => Sys2Proof.Machine.execRemI d a b s
  | .remN d a b => Sys2Proof.Machine.execRemN d a b s
  | .and d a b => Sys2Proof.Machine.execAnd d a b s
  | .or d a b => Sys2Proof.Machine.execOr d a b s
  | .xor d a b => Sys2Proof.Machine.execXor d a b s
  | .shl d a b => Sys2Proof.Machine.execShl d a b s
  | .shr d a b => Sys2Proof.Machine.execShr d a b s
  | .sra d a b => Sys2Proof.Machine.execSra d a b s
  | .minI d a b => Sys2Proof.Machine.execMinI d a b s
  | .maxI d a b => Sys2Proof.Machine.execMaxI d a b s
  | .minN d a b => Sys2Proof.Machine.execMinN d a b s
  | .maxN d a b => Sys2Proof.Machine.execMaxN d a b s
  | .seq d a b => Sys2Proof.Machine.execSeq d a b s
  | .sltI d a b => Sys2Proof.Machine.execSltI d a b s
  | .sltN d a b => Sys2Proof.Machine.execSltN d a b s
  | .sel d a b => Sys2Proof.Machine.execSel d a b s
  | .clz d a => Sys2Proof.Machine.execClz d a s
  | .popc d a => Sys2Proof.Machine.execPopc d a s
  | .sext d a b => Sys2Proof.Machine.execSext d a b s
  | .zext d a b => Sys2Proof.Machine.execZext d a b s
  | .addW d a b => Sys2Proof.Machine.execAddW d a b s
  | .mulW d a b => Sys2Proof.Machine.execMulW d a b s
  | .bfx d a b => Sys2Proof.Machine.execBfx d a b s
  | .bfi d a b => Sys2Proof.Machine.execBfi d a b s
  | .addi d a im => Sys2Proof.Machine.execAddi d a im s
  | .andi d a im => Sys2Proof.Machine.execAndi d a im s
  | .ori d a im => Sys2Proof.Machine.execOri d a im s
  | .xori d a im => Sys2Proof.Machine.execXori d a im s
  | .shli d a im => Sys2Proof.Machine.execShli d a im s
  | .shri d a im => Sys2Proof.Machine.execShri d a im s
  | .srai d a im => Sys2Proof.Machine.execSrai d a im s
  | .seqi d a im => Sys2Proof.Machine.execSeqi d a im s
  | .sltiI d a im => Sys2Proof.Machine.execSltiI d a im s
  | .sltiN d a im => Sys2Proof.Machine.execSltiN d a im s
  | .miniI d a im => Sys2Proof.Machine.execMiniI d a im s
  | .maxiI d a im => Sys2Proof.Machine.execMaxiI d a im s
  | .bz a im => Sys2Proof.Machine.execBz a im s
  | .bnz a im => Sys2Proof.Machine.execBnz a im s
  | .blt a im => Sys2Proof.Machine.execBlt a im s
  | .bge a im => Sys2Proof.Machine.execBge a im s
  | .j im => Sys2Proof.Machine.execJ im s
  | .call im => Sys2Proof.Machine.execCall im s
  | .jr a => Sys2Proof.Machine.execJr a s
  | .callr d a => Sys2Proof.Machine.execCallr d a s
  | .nest im => Sys2Proof.Machine.execNest im s
  | .next im => Sys2Proof.Machine.execNext im s
  | .trap im => Sys2Proof.Machine.execTrap im s
  | .eret => Sys2Proof.Machine.execEret s
  | .ldI8 d x sg o => Sys2Proof.Machine.execLdI8 d x sg o s
  | .ldN8 d x sg o => Sys2Proof.Machine.execLdN8 d x sg o s
  | .ldI16 d x sg o => Sys2Proof.Machine.execLdI16 d x sg o s
  | .ldN16 d x sg o => Sys2Proof.Machine.execLdN16 d x sg o s
  | .ldI32 d x sg o => Sys2Proof.Machine.execLdI32 d x sg o s
  | .ldN32 d x sg o => Sys2Proof.Machine.execLdN32 d x sg o s
  | .ld64 d x sg o => Sys2Proof.Machine.execLd64 d x sg o s
  | .ld128 d x sg o => Sys2Proof.Machine.execLd128 d x sg o s
  | .ldr64 d x sg o => Sys2Proof.Machine.execLdr64 d x sg o s
  | .ldf64 d x sg o => Sys2Proof.Machine.execLdf64 d x sg o s
  | .ldfc64 d x sg o => Sys2Proof.Machine.execLdfc64 d x sg o s
  | .ldfn64 d x sg o => Sys2Proof.Machine.execLdfn64 d x sg o s
  | .pref x sg o => Sys2Proof.Machine.execPref x sg o s
  | .st8 d x sg o => Sys2Proof.Machine.execSt8 d x sg o s
  | .st16 d x sg o => Sys2Proof.Machine.execSt16 d x sg o s
  | .st32 d x sg o => Sys2Proof.Machine.execSt32 d x sg o s
  | .st64 d x sg o => Sys2Proof.Machine.execSt64 d x sg o s
  | .st128 d x sg o => Sys2Proof.Machine.execSt128 d x sg o s
  | .str64 d x sg o => Sys2Proof.Machine.execStr64 d x sg o s
  | .stf64 d x sg o => Sys2Proof.Machine.execStf64 d x sg o s
  | .stef64 d x sg o => Sys2Proof.Machine.execStef64 d x sg o s
  | .clre x sg o => Sys2Proof.Machine.execClre x sg o s
  | .setf x sg o => Sys2Proof.Machine.execSetf x sg o s
  | .amoAdd d x sg o => Sys2Proof.Machine.execAmoAdd d x sg o s
  | .amoFadd d x sg o => Sys2Proof.Machine.execAmoFadd d x sg o s
  | .amoMinI d x sg o => Sys2Proof.Machine.execAmoMinI d x sg o s
  | .amoMaxI d x sg o => Sys2Proof.Machine.execAmoMaxI d x sg o s
  | .amoMinN d x sg o => Sys2Proof.Machine.execAmoMinN d x sg o s
  | .amoMaxN d x sg o => Sys2Proof.Machine.execAmoMaxN d x sg o s
  | .amoAnd d x sg o => Sys2Proof.Machine.execAmoAnd d x sg o s
  | .amoOr d x sg o => Sys2Proof.Machine.execAmoOr d x sg o s
  | .amoXor d x sg o => Sys2Proof.Machine.execAmoXor d x sg o s
  | .famoAdd d x sg o => Sys2Proof.Machine.execFamoAdd d x sg o s
  | .famoFadd d x sg o => Sys2Proof.Machine.execFamoFadd d x sg o s
  | .famoOr d x sg o => Sys2Proof.Machine.execFamoOr d x sg o s
  | .famoSwap d x sg o => Sys2Proof.Machine.execFamoSwap d x sg o s
  | .famoCas d x sg o => Sys2Proof.Machine.execFamoCas d x sg o s
  | .fenceAcq sg => Sys2Proof.Machine.execFenceAcq sg s
  | .fenceRel sg => Sys2Proof.Machine.execFenceRel sg s
  | .fenceAr sg => Sys2Proof.Machine.execFenceAr sg s
  | .barArr => Sys2Proof.Machine.execBarArr s
  | .barWait => Sys2Proof.Machine.execBarWait s
  | .barSync => Sys2Proof.Machine.execBarSync s
  | .monArm x sg o => Sys2Proof.Machine.execMonArm x sg o s
  | .monWait => Sys2Proof.Machine.execMonWait s
  | .monClr => Sys2Proof.Machine.execMonClr s
  | .waitR => Sys2Proof.Machine.execWaitR s
  | .inv d x sg o => Sys2Proof.Machine.execInv d x sg o s
  | .wb d x sg o => Sys2Proof.Machine.execWb d x sg o s
  | .start d a n => Sys2Proof.Machine.execStart d a n s
  | .join n => Sys2Proof.Machine.execJoin n s
  | .endStrand => Sys2Proof.Machine.execEndStrand s
  | .halt => Sys2Proof.Machine.execHalt s
  | .idget d im => Sys2Proof.Machine.execIdget d im s
  | .acqW a k b => Sys2Proof.Machine.execAcqW a k b s
  | .acqF d a k b => Sys2Proof.Machine.execAcqF d a k b s
  | .rel a k b => Sys2Proof.Machine.execRel a k b s
  | .relAll => Sys2Proof.Machine.execRelAll s
  | .claimqHeld d a k b => Sys2Proof.Machine.execClaimqHeld d a k b s
  | .claimqRem d a k b => Sys2Proof.Machine.execClaimqRem d a k b s
  | .claimqFree d a k b => Sys2Proof.Machine.execClaimqFree d a k b s
  | .claimqGran d a b => Sys2Proof.Machine.execClaimqGran d a b s
  | .launch d a => Sys2Proof.Machine.execLaunch d a s
  | .ckpt e => Sys2Proof.Machine.execCkpt e s
  | .ctrAdd a b => Sys2Proof.Machine.execCtrAdd a b s
  | .ctrSet a b => Sys2Proof.Machine.execCtrSet a b s
  | .ctrRead d a => Sys2Proof.Machine.execCtrRead d a s
  | .ctrWait a b => Sys2Proof.Machine.execCtrWait a b s
  | .ctrAddr a b => Sys2Proof.Machine.execCtrAddr a b s
  | .trigPost d a b => Sys2Proof.Machine.execTrigPost d a b s
  | .trigCancel d a => Sys2Proof.Machine.execTrigCancel d a s
  | .trigQuery d a b => Sys2Proof.Machine.execTrigQuery d a b s
  | .collArm d a => Sys2Proof.Machine.execCollArm d a s
  | .collPut d a b => Sys2Proof.Machine.execCollPut d a b s
  | .collGetr d a => Sys2Proof.Machine.execCollGetr d a s
  | .nqSend a b => Sys2Proof.Machine.execNqSend a b s
  | .nqRecv d a => Sys2Proof.Machine.execNqRecv d a s
  | .cpost a b => Sys2Proof.Machine.execCpost a b s
  | .cquery d a => Sys2Proof.Machine.execCquery d a s
  | .ccancel a => Sys2Proof.Machine.execCcancel a s
  | .lset a n => Sys2Proof.Machine.execLset a n s
  | .lget d n => Sys2Proof.Machine.execLget d n s
  | .mzero a => Sys2Proof.Machine.execMzero a s
  | .mload a b => Sys2Proof.Machine.execMload a b s
  | .mstore a b => Sys2Proof.Machine.execMstore a b s
  | .mdrain a b => Sys2Proof.Machine.execMdrain a b s
  | .mcapr d => Sys2Proof.Machine.execMcapr d s
  | .vadd d a b t k z y sg => Sys2Proof.Machine.execVadd d a b t k z y sg s
  | .vsub d a b t k z y sg => Sys2Proof.Machine.execVsub d a b t k z y sg s
  | .vmul d a b t k z y sg => Sys2Proof.Machine.execVmul d a b t k z y sg s
  | .vmulh d a b t k z y => Sys2Proof.Machine.execVmulh d a b t k z y s
  | .vmin d a b t k z y => Sys2Proof.Machine.execVmin d a b t k z y s
  | .vmax d a b t k z y => Sys2Proof.Machine.execVmax d a b t k z y s
  | .vand d a b t k z y => Sys2Proof.Machine.execVand d a b t k z y s
  | .vor d a b t k z y => Sys2Proof.Machine.execVor d a b t k z y s
  | .vxor d a b t k z y => Sys2Proof.Machine.execVxor d a b t k z y s
  | .vshl d a b t k z y => Sys2Proof.Machine.execVshl d a b t k z y s
  | .vshr d a b t k z y => Sys2Proof.Machine.execVshr d a b t k z y s
  | .vsra d a b t k z y => Sys2Proof.Machine.execVsra d a b t k z y s
  | .vabs d a t k z sg => Sys2Proof.Machine.execVabs d a t k z sg s
  | .vcmp d a b t k y p => Sys2Proof.Machine.execVcmp d a b t k y p s
  | .vsel d a b t k y => Sys2Proof.Machine.execVsel d a b t k y s
  | .vpopc d a t k z => Sys2Proof.Machine.execVpopc d a t k z s
  | .vfadd d a b t k z y r => Sys2Proof.Machine.execVfadd d a b t k z y r s
  | .vfsub d a b t k z y r => Sys2Proof.Machine.execVfsub d a b t k z y r s
  | .vfmul d a b t k z y r => Sys2Proof.Machine.execVfmul d a b t k z y r s
  | .vfma d a b t k z y r => Sys2Proof.Machine.execVfma d a b t k z y r s
  | .vfms d a b t k z y r => Sys2Proof.Machine.execVfms d a b t k z y r s
  | .vfmin d a b t k z y => Sys2Proof.Machine.execVfmin d a b t k z y s
  | .vfmax d a b t k z y => Sys2Proof.Machine.execVfmax d a b t k z y s
  | .vfabs d a t k z => Sys2Proof.Machine.execVfabs d a t k z s
  | .vfcmp d a b t k y p => Sys2Proof.Machine.execVfcmp d a b t k y p s
  | .vcvt d a b t k q sg r => Sys2Proof.Machine.execVcvt d a b t k q sg r s
  | .vrcp d a t k z r => Sys2Proof.Machine.execVrcp d a t k z r s
  | .vrsq d a t k z r => Sys2Proof.Machine.execVrsq d a t k z r s
  | .vexp2 d a t k z r => Sys2Proof.Machine.execVexp2 d a t k z r s
  | .vlog2 d a t k z r => Sys2Proof.Machine.execVlog2 d a t k z r s
  | .vtanh d a t k z r => Sys2Proof.Machine.execVtanh d a t k z r s
  | .vfsum d a b t k r => Sys2Proof.Machine.execVfsum d a b t k r s
  | .vld d a t k z g => Sys2Proof.Machine.execVld d a t k z g s
  | .vst d a t k g => Sys2Proof.Machine.execVst d a t k g s
  | .vldf d a t c g => Sys2Proof.Machine.execVldf d a t c g s
  | .vstf d a t g => Sys2Proof.Machine.execVstf d a t g s
  | .vgather d a b t k z g => Sys2Proof.Machine.execVgather d a b t k z g s
  | .vscatter d a b t k g => Sys2Proof.Machine.execVscatter d a b t k g s
  | .vbcast d a b t k z => Sys2Proof.Machine.execVbcast d a b t k z s
  | .vext d a b t => Sys2Proof.Machine.execVext d a b t s
  | .vins d a b t => Sys2Proof.Machine.execVins d a b t s
  | .vperm d a b t k z => Sys2Proof.Machine.execVperm d a b t k z s
  | .vred d a b t k o => Sys2Proof.Machine.execVred d a b t k o s
  | .vscan d a b t k z o => Sys2Proof.Machine.execVscan d a b t k z o s
  | .mop d a b t o => Sys2Proof.Machine.execMop d a b t o s
  | .vsplat d a t k z => Sys2Proof.Machine.execVsplat d a t k z s
  | .li d imm => Sys2Proof.Machine.execLi d imm s
  | .lih d imm => Sys2Proof.Machine.execLih d imm s
  | .addl d a imm => Sys2Proof.Machine.execAddl d a imm s
  | .getc d n => Sys2Proof.Machine.execGetc d n s
  | .setc a n => Sys2Proof.Machine.execSetc a n s
  | .mma d a acc k x tb ta m => Sys2Proof.Machine.execMma d a acc k x tb ta m s
  | .mmaIdx d a acc k x vi tb ta m => Sys2Proof.Machine.execMmaIdx d a acc k x vi tb ta m s
  | .segset d a st sp rights => Sys2Proof.Machine.execSegset d a st sp rights s
  | .ldl d a sg t imm => Sys2Proof.Machine.execLdl d a sg t imm s
  | .stl d a sg z imm => Sys2Proof.Machine.execStl d a sg z imm s
  | .trigPostl d a imm => Sys2Proof.Machine.execTrigPostl d a imm s
  | .illegalInstruction a => Sys2Proof.Machine.execIllegalInstruction a s
  | .abortComplete v e => Sys2Proof.Machine.execAbortComplete v e s
  | .lateFaultTaken k => Sys2Proof.Machine.execLateFaultTaken k s
  | .rspData m => Sys2Proof.Machine.execRspData m s
  | .rspAcknowledge m => Sys2Proof.Machine.execRspAcknowledge m s
  | .rspDeferral m => Sys2Proof.Machine.execRspDeferral m s
  | .feDeferralResend t => Sys2Proof.Machine.execFeDeferralResend t s
  | .rspError m => Sys2Proof.Machine.execRspError m s
  | .rspMonitorFire m => Sys2Proof.Machine.execRspMonitorFire m s
  | .rspQueueRefusal m => Sys2Proof.Machine.execRspQueueRefusal m s
  | .nqResend t => Sys2Proof.Machine.execNqResend t s
  | .rspHostRetry m => Sys2Proof.Machine.execRspHostRetry m s
  | .rspStatus m => Sys2Proof.Machine.execRspStatus m s
  | .icacheFill m => Sys2Proof.Machine.execIcacheFill m s
  | .reqRead m => Sys2Proof.Machine.execReqRead m s
  | .reqWrite m => Sys2Proof.Machine.execReqWrite m s
  | .reqWriteSetFull m => Sys2Proof.Machine.execReqWriteSetFull m s
  | .reqLdf m => Sys2Proof.Machine.execReqLdf m s
  | .reqLdfc m => Sys2Proof.Machine.execReqLdfc m s
  | .reqLdfn m => Sys2Proof.Machine.execReqLdfn m s
  | .reqStef m => Sys2Proof.Machine.execReqStef m s
  | .reqClre m => Sys2Proof.Machine.execReqClre m s
  | .reqSetf m => Sys2Proof.Machine.execReqSetf m s
  | .reqVldf m => Sys2Proof.Machine.execReqVldf m s
  | .reqFeWithdraw m => Sys2Proof.Machine.execReqFeWithdraw m s
  | .reqNibbleWrite m => Sys2Proof.Machine.execReqNibbleWrite m s
  | .reqAmo m => Sys2Proof.Machine.execReqAmo m s
  | .reqFamo m => Sys2Proof.Machine.execReqFamo m s
  | .reqMonitorArm m => Sys2Proof.Machine.execReqMonitorArm m s
  | .reqMonitorClear m => Sys2Proof.Machine.execReqMonitorClear m s
  | .reqNqWord m => Sys2Proof.Machine.execReqNqWord m s
  | .drainMarkerReturn m => Sys2Proof.Machine.execDrainMarkerReturn m s
  | .routerMergeAmo v m1 m2 => Sys2Proof.Machine.execRouterMergeAmo v m1 m2 s
  | .mergedAmoAnswer m => Sys2Proof.Machine.execMergedAmoAnswer m s
  | .l1dFill m => Sys2Proof.Machine.execL1dFill m s
  | .stridePrefetch c slot ahead => Sys2Proof.Machine.execStridePrefetch c slot ahead s
  | .scrubPass v u g lasting uncorrectable => Sys2Proof.Machine.execScrubPass v u g lasting uncorrectable s
  | .memoryPortTranslate v p => Sys2Proof.Machine.execMemoryPortTranslate v p s
  | .missDoneInstall k => Sys2Proof.Machine.execMissDoneInstall k s
  | .missDoneNotPresent k => Sys2Proof.Machine.execMissDoneNotPresent k s
  | .missDoneFault k => Sys2Proof.Machine.execMissDoneFault k s
  | .missDoneIgnored k => Sys2Proof.Machine.execMissDoneIgnored k s
  | .fqWake v w => Sys2Proof.Machine.execFqWake v w s
  | .replayEntryEnd c r => Sys2Proof.Machine.execReplayEntryEnd c r s
  | .tlbInvAddr v a => Sys2Proof.Machine.execTlbInvAddr v a s
  | .tlbInvAll v => Sys2Proof.Machine.execTlbInvAll v s
  | .tlbBusyClear v => Sys2Proof.Machine.execTlbBusyClear v s
  | .smMapWrite v ix w => Sys2Proof.Machine.execSmMapWrite v ix w s
  | .smRefq v w => Sys2Proof.Machine.execSmRefq v w s
  | .nsUpdate v w => Sys2Proof.Machine.execNsUpdate v w s
  | .cfgNsupdate v w => Sys2Proof.Machine.execCfgNsupdate v w s
  | .bandWrite v r w => Sys2Proof.Machine.execBandWrite v r w s
  | .trClear v x w => Sys2Proof.Machine.execTrClear v x w s
  | .slicePinWrite k => Sys2Proof.Machine.execSlicePinWrite k s
  | .permitWrite c p w => Sys2Proof.Machine.execPermitWrite c p w s
  | .permitRefill c => Sys2Proof.Machine.execPermitRefill c s
  | .watchdogWrite k => Sys2Proof.Machine.execWatchdogWrite k s
  | .watchdogExpiry v => Sys2Proof.Machine.execWatchdogExpiry v s
  | .counterWindowStore v n w => Sys2Proof.Machine.execCounterWindowStore v n w s
  | .registerWrite t => Sys2Proof.Machine.execRegisterWrite t s
  | .reqCounterAdd m => Sys2Proof.Machine.execReqCounterAdd m s
  | .triggerFire v n => Sys2Proof.Machine.execTriggerFire v n s
  | .triggerOpComplete v o => Sys2Proof.Machine.execTriggerOpComplete v o s
  | .triggerLaunchRetry v o => Sys2Proof.Machine.execTriggerLaunchRetry v o s
  | .barrierArrival k => Sys2Proof.Machine.execBarrierArrival k s
  | .nestClaim k => Sys2Proof.Machine.execNestClaim k s
  | .vectorQueueTake c => Sys2Proof.Machine.execVectorQueueTake c s
  | .vectorResult k => Sys2Proof.Machine.execVectorResult k s
  | .matrixOpBegin c drain => Sys2Proof.Machine.execMatrixOpBegin c drain s
  | .matrixKgroupStep c => Sys2Proof.Machine.execMatrixKgroupStep c s
  | .matrixOpComplete c drain => Sys2Proof.Machine.execMatrixOpComplete c drain s
  | .drainRowEnd c => Sys2Proof.Machine.execDrainRowEnd c s
  | .copyTake c => Sys2Proof.Machine.execCopyTake c s
  | .copyBeat c im => Sys2Proof.Machine.execCopyBeat c im s
  | .copyComplete c im => Sys2Proof.Machine.execCopyComplete c im s
  | .copyFaultDelivery c im => Sys2Proof.Machine.execCopyFaultDelivery c im s
  | .hostCmdLaunch g q => Sys2Proof.Machine.execHostCmdLaunch g q s
  | .hostCmdReplay g q => Sys2Proof.Machine.execHostCmdReplay g q s
  | .hostCmdPreempt g q => Sys2Proof.Machine.execHostCmdPreempt g q s
  | .hostCmdDrain g q => Sys2Proof.Machine.execHostCmdDrain g q s
  | .hostCmdReserved g q => Sys2Proof.Machine.execHostCmdReserved g q s
  | .qtailWrite g q w => Sys2Proof.Machine.execQtailWrite g q w s
  | .qctlWrite g q w => Sys2Proof.Machine.execQctlWrite g q w s
  | .creadWrite g q w => Sys2Proof.Machine.execCreadWrite g q w s
  | .completionRecordWrite g q => Sys2Proof.Machine.execCompletionRecordWrite g q s
  | .replayStart g r => Sys2Proof.Machine.execReplayStart g r s
  | .graphNodeStart g r im => Sys2Proof.Machine.execGraphNodeStart g r im s
  | .reqLaunchSubmission m => Sys2Proof.Machine.execReqLaunchSubmission m s
  | .gangOffer g l v => Sys2Proof.Machine.execGangOffer g l v s
  | .placementReservation g l => Sys2Proof.Machine.execPlacementReservation g l s
  | .preemptRequest v launch gang => Sys2Proof.Machine.execPreemptRequest v launch gang s
  | .psaveDeadlineExpiry v e => Sys2Proof.Machine.execPsaveDeadlineExpiry v e s
  | .gangSaveComplete v e => Sys2Proof.Machine.execGangSaveComplete v e s
  | .resumption im => Sys2Proof.Machine.execResumption im s
  | .eventHoldToRecord v => Sys2Proof.Machine.execEventHoldToRecord v s
  | .eventForward v => Sys2Proof.Machine.execEventForward v s
  | .eventResend v => Sys2Proof.Machine.execEventResend v s
  | .reqArmReserve m => Sys2Proof.Machine.execReqArmReserve m s
  | .reqArmCommit m => Sys2Proof.Machine.execReqArmCommit m s
  | .reqArmRelease m => Sys2Proof.Machine.execReqArmRelease m s
  | .reqContribution m => Sys2Proof.Machine.execReqContribution m s
  | .reqResult m => Sys2Proof.Machine.execReqResult m s
  | .trellisDeliver v x g => Sys2Proof.Machine.execTrellisDeliver v x g s
  | .tick rx ry => Sys2Proof.Machine.execTick rx ry s
  | .offsetProbe v d => Sys2Proof.Machine.execOffsetProbe v d s
  | .reqProbeTimestamp m => Sys2Proof.Machine.execReqProbeTimestamp m s
  | .reqProbeEcho m => Sys2Proof.Machine.execReqProbeEcho m s
  | .controlInterval v => Sys2Proof.Machine.execControlInterval v s
  | .levelChangeComplete b => Sys2Proof.Machine.execLevelChangeComplete b s
  | .limiterWindow v meas => Sys2Proof.Machine.execLimiterWindow v meas s
  | .thermalTrip v temp => Sys2Proof.Machine.execThermalTrip v temp s
  | .linkCrcError v d x => Sys2Proof.Machine.execLinkCrcError v d x s
  | .linkRetryTimeout v d x => Sys2Proof.Machine.execLinkRetryTimeout v d x s
  | .flitProtocolError v d x f => Sys2Proof.Machine.execFlitProtocolError v d x f s
  | .referenceClockLoss v d => Sys2Proof.Machine.execReferenceClockLoss v d s
  | .gatehouseZeroLengthRead g => Sys2Proof.Machine.execGatehouseZeroLengthRead g s
  | .hostWriteComplete g => Sys2Proof.Machine.execHostWriteComplete g s
  | .hostAtomicopComplete g t ok => Sys2Proof.Machine.execHostAtomicopComplete g t ok s
  | .reqConfigRead m => Sys2Proof.Machine.execReqConfigRead m s
  | .reqConfigWrite m => Sys2Proof.Machine.execReqConfigWrite m s
  | .cfgWindowAccess g t => Sys2Proof.Machine.execCfgWindowAccess g t s
  | .cfgIsolate v => Sys2Proof.Machine.execCfgIsolate v s
  | .powerGood v => Sys2Proof.Machine.execPowerGood v s
  | .moduleReset v => Sys2Proof.Machine.execModuleReset v s
  | .referenceLock v d => Sys2Proof.Machine.execReferenceLock v d s
  | .gatehouseReferenceStable v => Sys2Proof.Machine.execGatehouseReferenceStable v s
  | .listenTimeout v => Sys2Proof.Machine.execListenTimeout v s
  | .linkInitComplete v d x => Sys2Proof.Machine.execLinkInitComplete v d x s
  | .helloResend v d x => Sys2Proof.Machine.execHelloResend v d x s
  | .reqHello m => Sys2Proof.Machine.execReqHello m s
  | .selfTestDone v ok => Sys2Proof.Machine.execSelfTestDone v ok s
  | .reqImageRequest m => Sys2Proof.Machine.execReqImageRequest m s
  | .reqImageBlock m => Sys2Proof.Machine.execReqImageBlock m s
  | .mapImageTimeout v => Sys2Proof.Machine.execMapImageTimeout v s
  | .atGo v => Sys2Proof.Machine.execAtGo v s
  | .quoteDone v => Sys2Proof.Machine.execQuoteDone v s
  | .idleFlit v d x f => Sys2Proof.Machine.execIdleFlit v d x f s
  | .reqDrainMarker m => Sys2Proof.Machine.execReqDrainMarker m s
  | .hostReadCompletion g t ok => Sys2Proof.Machine.execHostReadCompletion g t ok s
  | .hostLinkStateChange g up => Sys2Proof.Machine.execHostLinkStateChange g up s
  | .fqHeadWrite v w => Sys2Proof.Machine.execFqHeadWrite v w s
  | .faultQueueNotice m => Sys2Proof.Machine.execFaultQueueNotice m s
  | .gatehouseRetryAnswer g t => Sys2Proof.Machine.execGatehouseRetryAnswer g t s

end Sys2Proof.Machine
end

