-- ==== Sys2Proof/Machine/Step.lean ====
section
/-! DEFINITION. One step of the module, and a state whose next step runs a given word. -/

namespace Sys2Proof.Machine

open Sys2Proof

/-- One step (log 1): see `runStep` in Machine/Rotation.lean. -/
def step (s : State) : Host.Outcome State Fault Refusal := runStep exec s

/-- The strand that `withFetchWord` runs: slot 0 of core 0 of the pavilion (0,0). -/
def probeStrand : Nat := 0

/-- A state whose next step fetches and runs the word (log 4): it stands for a launch whose code image holds the word at address
0x1000_0000, placed on the pavilion (0,0) and its line fetched, with the core at the cycle of its position 0. -/
def State.withFetchWord (s : State) (nbits w : Nat) : State :=
  let bytes := tableBytes (w % 2 ^ nbits)
  let pc : Addr := 0x10000000
  let s := s.modCore 0 fun c =>
    { c.fillIcache { line := pc.toNat / 128, data := bytes ++ List.replicate 120 0 } with cycle := c.cycle / 16 * 16, limited := none }
  let s := s.modStrand probeStrand fun x =>
    { x with st := .ready, why := none, cont := .reissue, pc, late := [],
             segs := Tab.put 0 { base := pc, limit := 0x1000, rights := 0b000101 } x.segs }
  { s with agenda := [], cur := probeStrand }

end Sys2Proof.Machine
end

