-- ==== Sys2Proof/Safety.lean ====
section
/-! DEFINITION. What counts as a safe run of the module: it never stops, and its state keeps its form. -/

namespace Sys2Proof

/-- The keys of a sparse table rise, so that each is listed once. -/
def Rising {α : Type} (t : List (Nat × α)) : Prop := (t.map (·.1)).Pairwise (· < ·)

/-- The form that every step keeps: memory in canonical form (R85), and each table of strands, cores, bowers and sites with rising keys: one record
for each. -/
def Sound (s : Machine.State) : Prop :=
  Machine.Memory.wf s.mem = true ∧ Rising s.strands ∧ Rising s.cores ∧ Rising s.bowers ∧ Rising s.sites

/-- k steps from a state end in a state. -/
def Runs : Nat → Machine.State → Machine.State → Prop
  | 0, s, t => s = t
  | n + 1, s, t => ∃ u, Machine.step s = .next u ∧ Runs n u t

/-- A state is safe when no step from it stops with a fault of the model. -/
def Safe (s : Machine.State) : Prop := ∀ r, Machine.step s ≠ .fault r

end Sys2Proof
end

