-- ==== Sys2Proof/Certificates/Slice0/Obligations.lean ====
section
/-! DEFINITION. The statements. The first sections give the words that the statements use; then one definition per statement, its rules of
spec/ named in its docstring. A free value (log 11) is under every quantifier: a statement holds whatever it is. -/

/-! ## Words used in the statements -/

namespace Sys2Proof.Spec

open Sys2Proof.Machine

/-- The issuing strand holds each named register, and none of them is pending (R42, R43). -/
def Ready (s : State) (names : List (BitVec 8)) : Prop :=
  ∀ r ∈ names, s.me.holds r.toNat = true ∧ s.me.pend.contains r.toNat = false

/-- A strand with a scalar register written; a write to z is discarded (R38). -/
def put (x : Strand) (d : BitVec 8) (w : Word) : Strand := if d = 0 then x else { x with regs := Tab.put d.toNat w x.regs }

/-- The state after the issuing strand has written d and moved pc by n bytes, and nothing else has happened. -/
def wrote (s : State) (d : BitVec 8) (w : Word) (n : Nat) : State :=
  s.modStrand s.cur fun x => { put x d w with pc := x.pc + BitVec.ofNat 60 n }

/-- The state after the issuing strand has moved pc to an address, and nothing else has happened. -/
def went (s : State) (a : Addr) : State := s.modStrand s.cur fun x => { x with pc := a }

/-- The instruction completes in its turn: d gets the value v, pc moves on by n bytes, and nothing else of the state changes. -/
def Gives (i : Instr) (names : List (BitVec 8)) (d : BitVec 8) (n : Nat) (v : State → Word) : Prop :=
  ∀ s, Ready s names → exec i s = .next (wrote s d (v s) n)

/-- The instruction completes in its turn: pc becomes p, and nothing else of the state changes. -/
def Goes (i : Instr) (names : List (BitVec 8)) (p : State → Addr) : Prop :=
  ∀ s, Ready s names → exec i s = .next (went s (p s))

/-- The destination of an instruction of the integer operations (R275-R281). -/
def intDest : Instr → Option (BitVec 8)
  | .add d _ _ | .sub d _ _ | .mul d _ _ | .mulhI d _ _ | .mulhN d _ _ | .divI d _ _ | .divN d _ _ | .remI d _ _ | .remN d _ _
  | .and d _ _ | .or d _ _ | .xor d _ _ | .shl d _ _ | .shr d _ _ | .sra d _ _ | .minI d _ _ | .maxI d _ _ | .minN d _ _ | .maxN d _ _
  | .seq d _ _ | .sltI d _ _ | .sltN d _ _ | .sel d _ _ | .sext d _ _ | .zext d _ _ | .addW d _ _ | .mulW d _ _ | .bfx d _ _ | .bfi d _ _
  | .clz d _ | .popc d _ | .addi d _ _ | .andi d _ _ | .ori d _ _ | .xori d _ _ | .shli d _ _ | .shri d _ _ | .srai d _ _ | .seqi d _ _
  | .sltiI d _ _ | .sltiN d _ _ | .miniI d _ _ | .maxiI d _ _ | .li d _ | .lih d _ | .addl d _ _ => some d
  | _ => none

/-- The registers that an instruction of the integer operations names (R274, R277). -/
def intNames : Instr → List (BitVec 8)
  | .add d a b | .sub d a b | .mul d a b | .mulhI d a b | .mulhN d a b | .divI d a b | .divN d a b | .remI d a b | .remN d a b
  | .and d a b | .or d a b | .xor d a b | .shl d a b | .shr d a b | .sra d a b | .minI d a b | .maxI d a b | .minN d a b | .maxN d a b
  | .seq d a b | .sltI d a b | .sltN d a b | .sel d a b | .sext d a b | .zext d a b | .addW d a b | .mulW d a b | .bfx d a b
  | .bfi d a b => [d, a, b]
  | .clz d a | .popc d a => [d, a]
  | .addi d a _ | .andi d a _ | .ori d a _ | .xori d a _ | .seqi d a _ | .sltiI d a _ | .sltiN d a _ | .miniI d a _ | .maxiI d a _ => [d, a]
  | .shli d a _ | .shri d a _ | .srai d a _ => [d, a]
  | .li d _ | .lih d _ => [d]
  | .addl d a _ => [d, a]
  | _ => []

/-- The schedule has the next cycle of core c next, with rest behind it: the agenda says so, or it is empty and c is the core that ran last
(log 1). -/
def NextIs (s : State) (c : Nat) (rest : List Sched) : Prop :=
  s.agenda = .cycle c :: rest ∨ (s.agenda = [] ∧ rest = [] ∧ c = coreOfK s.cur)

/-- Strand k, in the slot of the cycle that core c has reached, issues an instruction in it: its position is not withdrawn and not the copy
strand's, it is READY or HELD, not stopped by its gang, without a late fault, and, for the walk strand, with a miss to serve (R122-R124, R162,
R292). -/
def Issues (s : State) (c k : Nat) : Prop :=
  k = slotKey c ((s.core c).cycle % 16) ∧ slotOf k ≠ 14 ∧ (s.core c).isWithdrawn (slotOf k) = false ∧
    ((s.strand k).st = .ready ∨ (s.strand k).st = .held) ∧
    (slotOf k < 13 → (s.gang (siteOfK k) (s.strand k).entry).halting = false) ∧ (s.strand k).late = [] ∧
    (slotOf k = walkSlot → (s.core c).misses ≠ [])

/-- The state as strand k issues, READY, with rest behind it on the agenda. -/
def atTurn (s : State) (k : Nat) (rest : List Sched) : State :=
  State.modStrand { s with cur := k, agenda := rest, batch := s.nextId } k fun x => { x with st := .ready }

end Sys2Proof.Spec

/-! ## Words used about memory -/

namespace Sys2Proof.Spec

open Sys2Proof.Machine

/-- An access instruction gets past the checks that every access shares (R290): a permit is at hand, the segment and the site admit the access
and form address a, and no relaxed access of the strand stands on its granules. -/
def Reaches (s : State) (g off size need align : Nat) (a : Addr) : Prop :=
  s.hasPermit (coreOfK s.cur) .memory = true ∧ s.checkAccess s.cur (s.me.seg g) off size need align = .ok a ∧
    s.granuleBusy s.cur (a, size) = false

/-- The L1D of the issuing strand's core holds line l for address a, not struck and readable (R82, R86, R91). -/
def Cached (s : State) (a : Addr) (l : Line) : Prop :=
  kindBits a.toNat = 0 ∧ lineOf (a.toNat / 128) (s.core (coreOfK s.cur)).l1d = some l ∧ l.flaw = 0 ∧ l.unread = false

/-- Nothing outside the issuing strand and its core differs: no byte of memory, no full/empty bit, no other strand, no site, no message. -/
def OnlyMine (s t : State) : Prop :=
  t.mem = s.mem ∧ t.full = s.full ∧ t.sites = s.sites ∧ t.bowers = s.bowers ∧ t.net = s.net ∧ t.txns = s.txns ∧ t.cur = s.cur ∧
    ∀ k, k ≠ s.cur → t.strand k = s.strand k

/-- A plain access to a placed or host address (R291): the strand parks with reason access and the access goes to its home; c says what the reply
does. -/
def Asks (i : Instr) (names : List (BitVec 8)) (g : Nat) (off : State → Nat) (size need align : Nat) (q : State → Acc) (c : Cont) : Prop :=
  ∀ s a, Ready s names → Reaches s g (off s) size need align a → kindBits a.toNat ≠ 0 →
    ((q s).op.isFe = true → s.feCore (siteOfK s.cur) a false = false) →
    exec i s = .next (((s.takePermit (coreOfK s.cur) .memory).park s.cur .access c).sendAccess
      { q s with addr := a, size := size, pc := s.me.pc, k := s.cur, seg := g, sup := s.me.sup, owner := .strand s.cur })

/-- A relaxed access to a placed or host address (R135, R297): it takes a tracker entry, the destination becomes pending, pc moves on, and the
access goes to its home without a park. -/
def AsksRelaxed (i : Instr) (names : List (BitVec 8)) (g : Nat) (off : State → Nat) (size need : Nat) (q : State → Acc)
    (dest : Option Nat) : Prop :=
  ∀ s a, Ready s names → Reaches s g (off s) size need size a → kindBits a.toNat ≠ 0 → s.me.tracker.length < 8 →
    ∃ e : Track, e.id = s.nextId ∧ e.dest = dest ∧ e.pc = s.me.pc ∧
      exec i s = .next
        (((State.modStrand { s.takePermit (coreOfK s.cur) .memory with nextId := s.nextId + 1 } s.cur fun x =>
            { x with tracker := x.tracker ++ [e], pend := (match dest with | some r => r :: x.pend | none => x.pend) }).modStrand s.cur fun x =>
            { x with pc := x.pc + 4 }).sendAccess
          { q s with addr := a, size := size, pc := s.me.pc, k := s.cur, seg := g, sup := s.me.sup, owner := .relaxed s.cur s.nextId })

/-- Offset of an M-format access (R260). -/
def mOff (x : BitVec 8) (o : BitVec 5) (n : Nat) (s : State) : Nat := ((s.val x).toNat + o.toNat * n) % 2 ^ 64

/-- The plain loads of the M format with their types. -/
def loadForms (d x : BitVec 8) (g : BitVec 3) (o : BitVec 5) : List (Instr × LoadTy × Nat) :=
  [(.ldI8 d x g o, .i8, 1), (.ldN8 d x g o, .n8, 1), (.ldI16 d x g o, .i16, 2), (.ldN16 d x g o, .n16, 2), (.ldI32 d x g o, .i32, 4),
   (.ldN32 d x g o, .n32, 4), (.ld64 d x g o, .w64, 8)]

/-- The plain stores of the M format with their sizes. -/
def storeForms (d x : BitVec 8) (g : BitVec 3) (o : BitVec 5) : List (Instr × Nat) :=
  [(.st8 d x g o, 1), (.st16 d x g o, 2), (.st32 d x g o, 4), (.st64 d x g o, 8)]

/-- The types of `ldl`, by its type field (R296). -/
def ldlForms : List (BitVec 3 × LoadTy × Nat) := [(0, .i8, 1), (1, .n8, 1), (2, .i16, 2), (3, .n16, 2), (4, .i32, 4), (5, .n32, 4), (6, .w64, 8)]

/-- What a load of a type makes of its bytes (R293). -/
def extended (ty : LoadTy) (b : List Byte) : Word :=
  match ty with
  | .i8 => (BitVec.ofNat 8 (leNat b)).signExtend 64
  | .n8 => (BitVec.ofNat 8 (leNat b)).setWidth 64
  | .i16 => (BitVec.ofNat 16 (leNat b)).signExtend 64
  | .n16 => (BitVec.ofNat 16 (leNat b)).setWidth 64
  | .i32 => (BitVec.ofNat 32 (leNat b)).signExtend 64
  | .n32 => (BitVec.ofNat 32 (leNat b)).setWidth 64
  | .w64 => BitVec.ofNat 64 (leNat b)

/-- The non-fetching atomics with their operations (R300). -/
def amoForms (d x : BitVec 8) (g : BitVec 3) (o : BitVec 5) : List (Instr × AmoOp × Nat) :=
  [(.amoAdd d x g o, .add, 8), (.amoFadd d x g o, .fadd, 4), (.amoMinI d x g o, .minI, 8), (.amoMaxI d x g o, .maxI, 8),
   (.amoMinN d x g o, .minN, 8), (.amoMaxN d x g o, .maxN, 8), (.amoAnd d x g o, .and, 8), (.amoOr d x g o, .or, 8), (.amoXor d x g o, .xor, 8)]

/-- A request that has arrived at a memory unit which serves it: the home is in service and accepts it, no error strikes its memory, and the
request carries no completion tag. -/
def Serves (s : State) (n : Nat) (m : Msg) (op : ReqOp) (fe : Bool) : Prop :=
  s.arriving n = some m ∧ m.op = .req op ∧ m.host = false ∧ m.unit ≠ 16 ∧ s.homeError m fe (max 1 m.len) = none ∧ s.flaws = [] ∧ m.tag = none ∧
    s.unservedFor m (max 1 m.len) = false

/-- A reply to m is on its way in t. -/
def Answered (t : State) (m : Msg) (op : MsgOp) (d : List Byte) (f : Bool) : Prop :=
  ∃ q ∈ t.net, q.op = op ∧ q.src = m.dst ∧ q.dst = m.src ∧ q.mesh = otherMesh m.mesh ∧ q.txn = m.txn ∧ q.data = d ∧ q.full = f

/-- The memory key of the first byte of a request (R74). -/
def keyOf (m : Msg) : Nat := homeKey m.dst m.unit m.off

/-- The full/empty bits after the bits of some granules of m's unit have been set (R88). -/
def bitsNow (t s : State) (m : Msg) (gs : List Nat) (f : Bool) : Prop :=
  ∀ g, t.full.contains g = if ∃ h ∈ gs, g = homeKey m.dst m.unit 0 / 16 + h then f else s.full.contains g

/-- A reply of a kind has arrived for transaction x, which fills no cache, relays nothing and is nobody's part. -/
def Replied (s : State) (n : Nat) (m : Msg) (op : MsgOp) (x : Txn) : Prop :=
  s.arriving n = some m ∧ m.op = op ∧ s.txn m.txn = some x ∧ x.fill = none ∧ x.parts = [] ∧ ∃ o, x.req.op = .req o

end Sys2Proof.Spec

/-! ## Words used about caches, claims and crews -/

namespace Sys2Proof.Spec

open Sys2Proof.Machine

/-- The issuing strand parks for a reason with its registers and pc kept; what it waits for is c. -/
def Parks (s t : State) (r : Park) (c : Cont) : Prop :=
  t.me.st = .parked ∧ t.me.why = some r ∧ t.me.cont = c ∧ t.me.pc = s.me.pc ∧ t.me.regs = s.me.regs ∧ t.me.granules = s.me.granules ∧ t.mem = s.mem

/-- The issuing strand moves on by n bytes and keeps its registers. -/
def Passes (s t : State) (n : Nat) : Prop := t.me = { s.me with pc := s.me.pc + BitVec.ofNat 60 n }

/-- The parked strand k goes on: pc moves by n bytes and the slot is READY. -/
def GoesOn (s t : State) (k n : Nat) : Prop :=
  t.strand k = { s.strand k with pc := (s.strand k).pc + BitVec.ofNat 60 n, st := .ready, why := none, cont := .reissue }

/-- Reads of site v that change nothing: no granule is struck, and the pages that they go through bear their accessed bits (R83, R90). -/
def Quiet (s : State) (v : Nat) (rs : List (Addr × Nat)) : Prop := s.flaws = [] ∧ ∀ r ∈ rs, s.leaves v false r.1 r.2 = []

/-- No line of a list is dirty. -/
def Clean (l : List Line) : Prop := ∀ x ∈ l, x.dirty = 0

/-- The lines of a byte range. -/
def lineIn (a : Addr) (n : Nat) (l : Line) : Bool := decide (a.toNat / 128 ≤ l.line) && decide (l.line ≤ (a.toNat + n - 1) / 128)

/-- A reply formed in the own pavilion for the issuing strand is on its way. -/
def OwnReply (s t : State) (op : MsgOp) (d : List Byte) : Prop :=
  ∃ q ∈ t.net, q.op = op ∧ q.src = siteOfK s.cur ∧ q.dst = siteOfK s.cur ∧ q.data = d ∧
    ∃ x ∈ t.txns, x.id = q.txn ∧ x.acc.owner = .strand s.cur

end Sys2Proof.Spec

/-! ## Words used about vectors -/

namespace Sys2Proof.Spec

open Sys2Proof.Machine

/-- The issuing strand holds each register by number and none is pending (R42-R44). -/
def ReadyN (s : State) (names : List Nat) : Prop := ∀ r ∈ names, s.me.holds r = true ∧ s.me.pend.contains r = false

/-- A vector instruction without memory (R312, R316): with a permit of its class at hand the strand parks with reason vector, and the core's queue
holds its operation, whose result meets f. Nothing outside the strand and its core changes. -/
def Queued (i : Instr) (names : List Nat) (p : PClass) (f : State → VResult → Prop) : Prop :=
  ∀ s, ReadyN s names → s.hasPermit (coreOfK s.cur) p = true →
    ∃ t o, exec i s = .next t ∧ OnlyMine s t ∧ Parks s t .vector .engine ∧ o ∈ (t.core (coreOfK s.cur)).vq ∧ o.k = s.cur ∧ o.taken = false ∧
      o.elems = [] ∧ o.dest = none ∧ o.fault = none ∧ f s o.result

/-- A result that writes vd lane by lane (R313): an active lane takes v, an inactive one keeps its value or with Z becomes 0. -/
def Lanes (t d : BitVec 4) (k : BitVec 2) (z : BitVec 1) (v : State → Nat → Nat) (s : State) (r : VResult) : Prop :=
  r.mask = none ∧ r.seed = none ∧ ∃ w, r.regs = vecWords d.toNat w ∧ ∀ i, i < lanesOf t →
    lane t w i = if (s.me.mask k.toNat).getLsbD i then v s i % 2 ^ valBits t else if z = 1 then 0 else lane t (s.me.vec d.toNat) i

/-- A result that writes one scalar register. -/
def Scalar (d : BitVec 4) (v : State → Word) (s : State) (r : VResult) : Prop := r.mask = none ∧ r.seed = none ∧ r.regs = [(d.toNat, v s)]

/-- A result that writes a mask register: bit i for a lane below the type's count, 0 above (R45). -/
def MaskBits (t : BitVec 4) (d : BitVec 2) (v : State → Nat → Bool) (s : State) (r : VResult) : Prop :=
  r.regs = [] ∧ r.seed = none ∧ ∃ w : BitVec 256, r.mask = some (d.toNat, w) ∧ ∀ i, i < 256 → w.getLsbD i = (decide (i < lanesOf t) && v s i)

/-- Lane i of vector register n, and of operand b, of the issuing strand. -/
def laneOf (t : BitVec 4) (n : BitVec 4) (s : State) (i : Nat) : Nat := lane t (s.me.vec n.toNat) i

/-- Lane i of operand b: of the vector, or with the B modifier the low bits of the anchor (R313). -/
def laneB (t : BitVec 4) (y : BitVec 1) (b : BitVec 4) (s : State) (i : Nat) : Nat :=
  if y = 1 then (s.me.reg b.toNat).toNat % 2 ^ valBits t else laneOf t b s i

/-- The value that an integer type gives to a lane (R257). -/
def asInt (t : BitVec 4) (w : Nat) : Int := if t = 9 ∨ t = 10 ∨ t = 11 then (BitVec.ofNat (valBits t) w).toInt else w

/-- The least value of an integer type. -/
def tyMin (t : BitVec 4) : Int := if t = 9 ∨ t = 10 ∨ t = 11 then -2 ^ (valBits t - 1) else 0
/-- The greatest value of an integer type. -/
def tyMax (t : BitVec 4) : Int := if t = 9 ∨ t = 10 ∨ t = 11 then 2 ^ (valBits t - 1) - 1 else 2 ^ valBits t - 1

/-- An exact result as the lane holds it: wrapped, or with S clamped to the type's range (R245). -/
def asLane (t : BitVec 4) (g : BitVec 1) (x : Int) : Nat :=
  ((if g = 1 then max (tyMin t) (min (tyMax t) x) else x) % 2 ^ valBits t).toNat

/-- The registers of the vector instructions with one or two sources. -/
def namesAB (d a : BitVec 4) (y : BitVec 1) (b : BitVec 4) : List Nat := vecRegs d.toNat ++ (vecRegs a.toNat ++ namesB y b)

/-- A vector memory instruction past its checks: the strand parks with reason vector and its operation, with the elements el, is in the queue. -/
def QueuedMem (i : Instr) (s : State) (dest : Option VDest) (el : List VElem → Prop) : Prop :=
  ∃ t o, exec i s = .next t ∧ OnlyMine s t ∧ Parks s t .vector .engine ∧ o ∈ (t.core (coreOfK s.cur)).vq ∧ o.k = s.cur ∧ o.taken = false ∧
    o.dest = dest ∧ o.fault = none ∧ o.result = {} ∧ el o.elems

/-- The strand may issue a vector access: its registers, a memory permit, and no relaxed access outstanding. -/
def MemReady (s : State) (names : List Nat) : Prop :=
  ReadyN s names ∧ s.hasPermit (coreOfK s.cur) .memory = true ∧ s.me.tracker = [] ∧ s.me.monitor.inFlight = []

/-- The elements of a block access (R330): a 16-byte part is accessed exactly when an active lane lies in it. -/
def blockOfLanes (s : State) (t : BitVec 4) (k : BitVec 2) (p : Addr) (op : ReqOp → Prop) (el : List VElem) : Prop :=
  (∀ i, i < 8 → ((∃ e ∈ el, e.ix = i) ↔ ∃ l, l < lanesOf t ∧ (s.me.mask k.toNat).getLsbD l = true ∧ l * laneBits t / 128 = i)) ∧
    ∀ e ∈ el, e.ix < 8 ∧ e.pos = 16 * e.ix ∧ e.done = false ∧ op e.acc.op ∧ e.acc.addr = p + BitVec.ofNat 60 (16 * e.ix) ∧ e.acc.size = 16 ∧
      e.acc.k = s.cur ∧ e.acc.owner = .element s.cur e.ix

end Sys2Proof.Spec

/-! ## Words used about the matrix engine -/

namespace Sys2Proof.Spec

open Sys2Proof.Machine

/-- An accumulator instruction may issue (R343): its registers are ready, the crew holds the accumulator, nothing relaxed is outstanding, a
matrix permit is at hand and the core has an engine. -/
def MatrixReady (s : State) (names : List Nat) (acc : Nat) : Prop :=
  ReadyN s names ∧ acc < s.heldOf s.cur (20 + coreNo s.cur) ∧ s.me.tracker = [] ∧ s.hasPermit (coreOfK s.cur) .matrix = true ∧
    (s.core (coreOfK s.cur)).maxm ≠ 0

/-- The operation of an accumulator instruction enters its lane behind the others, and the strand parks with reason matrix. -/
def Enlaned (i : Instr) (s : State) (drain : Bool) (acc adv : Nat) (kind : MKind) : Prop :=
  ∃ t o, exec i s = .next t ∧ Parks s t .matrix .engine ∧ (t.core (coreOfK s.cur)).lane drain = (s.core (coreOfK s.cur)).lane drain ++ [o] ∧
    o.k = s.cur ∧ o.acc = acc ∧ o.adv = adv ∧ o.pc = s.me.pc ∧ o.kind = kind ∧ o.begun = false ∧ o.g = 0 ∧ o.fault = none ∧ t.net = s.net

/-- Element i of accumulator a of the gang with entry e, on core c. -/
def accElem (s : State) (c e a i : Nat) : BitVec 32 := Tab.get 0 i ((s.core c).acc (e * 4 + a))

/-- The head operation of a lane, ready to complete, whose strand is parked for it. -/
def AtHead (s : State) (c : Nat) (drain : Bool) (o : MOp) : Prop :=
  (s.core c).lane drain = [o] ∧ coreOfK o.k = c ∧ (s.strand o.k).st = .parked ∧ (s.strand o.k).cont = .engine ∧
    (s.gang (siteOfK o.k) (s.strand o.k).entry).halting = false ∧ slotOf o.k < 13

/-- Every store granule of a byte range of the core's bower store is held by a resident gang, and no error strikes the store (R80, R91). -/
def TileOk (s : State) (k off n : Nat) : Prop :=
  s.flaws = [] ∧ 0 < n ∧ ∀ g, off / 16384 ≤ g → g ≤ (off + n - 1) / 16384 → (s.site (siteOfK k)).storeHeld (coreNo k / 4) g = true

end Sys2Proof.Spec

/-! ## Words used about the memory port, control registers and queues -/

namespace Sys2Proof.Spec

open Sys2Proof.Machine

/-- The line of a miss has come back to the core that asked for it, nothing has invalidated it meanwhile, and the L1D does not hold it (R86, R104). -/
def FillArrives (s : State) (n : Nat) (m : Msg) (x : Txn) (l : Line) : Prop :=
  s.arriving n = some m ∧ m.op = .data ∧ s.txn m.txn = some x ∧ x.fill = some l ∧ x.stale = false ∧
    lineOf l.line (s.core (coreOfK x.acc.k)).l1d = none

/-- Strand k is parked with a continuation, and its gang is not stopping. -/
def WaitsFor (s : State) (k : Nat) (c : Cont) : Prop :=
  (s.strand k).st = .parked ∧ (s.strand k).cont = c ∧ (s.gang (siteOfK k) (s.strand k).entry).halting = false

/-- Access p stands in the port of pavilion v and may be translated: it is not held for a miss, it is no prefetch, and its line is neither on the
move nor struck with an event that cannot be held. -/
def AtPort (s : State) (v n : Nat) (p : PortReq) : Prop :=
  (s.site v).portReq n = some p ∧ p.missed = false ∧ p.acc.isPrefetch = false ∧
    (p.acc.cacheable = true →
      s.portStalled v (coreOfK p.acc.k) (p.acc.addr.toNat / 128) = false ∧ s.lineMoves v (p.acc.addr.toNat / 128) = false)

/-- The access is answered with a fault code inside its own pavilion. -/
def Refused (t : State) (a : Acc) (code : Nat) : Prop := ∃ q ∈ t.net, q.op = .error code ∧ ∃ y ∈ t.txns, y.id = q.txn ∧ y.acc = a

/-- The walk strand k has written an outcome to ctl.miss_done, and m heads its core's miss mailbox. -/
def MissWritten (s : State) (k : Nat) (w : Word) (m : Miss) (rest : List Miss) : Prop :=
  slotOf k = 13 ∧ (s.strand k).st = .parked ∧ (s.strand k).cont = .setc 0x0912 w ∧ (s.core (coreOfK k)).misses = m :: rest

/-- A message that waits at its source can leave for its destination. -/
def CanLeave (s : State) (m : Msg) : Prop :=
  m.mesh = none ∨ ∃ k, s.virtualOf m.src m.dst = some k ∧ Tab.get 0 k (s.site m.src).ns ≠ 3

/-- The request of a transaction is on its way again, and the transaction waits for its answer. -/
def SentAgain (t : State) (u : Txn) : Prop :=
  (∃ q ∈ t.net, q.op = u.req.op ∧ q.src = u.req.src ∧ q.dst = u.req.dst ∧ q.txn = u.req.txn ∧ q.data = u.req.data) ∧
    ∀ y ∈ t.txns, y.id = u.id → y.resend = false

/-- The network-select table changes without drain markers: nothing is on its way to the site under the old setting. -/
def NsUpdates (i : Instr) (v : Nat) (w : Word) : Prop :=
  ∀ s : State,
    let x := (w.extractLsb' 0 8).toNat
    let y := (w.extractLsb' 8 8).toNat
    let k := siteAt x y
    let new := (w.extractLsb' 16 2).toNat
    onGrid x y = true → s.virt v ≠ (x, y) → (s.site v).inService = true →
      ((s.site v).nsBusy = none → ∀ d, s.physical v x y = some d → Tab.get 0 k (s.site v).ns = 3 →
        ∃ t, exec i s = .next t ∧ Tab.get 0 k (t.site v).ns = new ∧ (t.site v).nsBusy = none ∧ t.mem = s.mem) ∧
      ((s.site v).nsBusy = none → ∀ d, s.physical v x y = some d → ∀ m n, (n, m) ∈ [(0, Mesh.oak), (1, Mesh.ash)] →
        Tab.get 0 k (s.site v).ns = n →
        ∃ t, exec i s = .next t ∧ (t.site v).ns = (s.site v).ns ∧ (t.site v).nsBusy = some (k, new) ∧ (t.site v).nsMarkers = 5 ∧ t.mem = s.mem ∧
          ∀ c, c < 5 → ∃ q ∈ t.net, q.op = .drainMarker c false ∧ q.src = v ∧ q.dst = d ∧ q.mesh = some m) ∧
      ((s.site v).nsBusy ≠ none → exec i s = .next s)

end Sys2Proof.Spec

/-! ## Words used about counters, triggers, copies and launches -/

namespace Sys2Proof.Spec

open Sys2Proof.Machine

/-- The issuing strand may read n bytes of a bower store: it is in supervisor mode, or some gang holds every granule (R80). -/
def MayRead (s : State) (u o n : Nat) : Prop :=
  s.me.sup = true ∨ ∀ g, o / 16384 ≤ g → g ≤ (o + n - 1) / 16384 → (s.site (siteOfK s.cur)).storeHeld u g = true

/-- The eight words of an operation block in a bower store (R360). -/
def blockAt (s : State) (v u o : Nat) : List Word :=
  (List.range 8).map fun i => BitVec.ofNat 64 (wordAt (Memory.readN s.mem (homeKey v u o) 64) i)

/-- Queue q of a gatehouse takes its next command, whose eight words are c, and no record waits to be written (R146, R148). -/
def Takes (s : State) (g q : Nat) (c : List Nat) : Prop :=
  hostQueueAt g q = true ∧ (s.gate g).linkUp = true ∧ (s.hostQueue g q).en = true ∧ (s.hostQueue g q).stopped = false ∧
    0 < (s.hostQueue g q).ahead ∧ (s.hostQueue g q).ahead ≤ 2 ^ (s.hostQueue g q).lsize ∧ (s.hostQueue g q).blocked = none ∧
    (s.hostQueue g q).held = [] ∧ (s.hostQueue g q).ringFull = false ∧ s.command g q = c

/-- Every launch of the queue has its gangs placed (R148). -/
def Placed (s : State) (g q : Nat) : Prop := ∀ l ∈ (s.gate g).launches, l.queue = some q → l.node = none → l.total ≤ l.next

/-- The command has been taken, and it is complete with a status: its record waits to be written (R148). -/
def Ended (s t : State) (g q op st tag : Nat) : Prop :=
  (t.hostQueue g q).head = ((s.hostQueue g q).head + 1) % 2 ^ 32 ∧ t.mem = s.mem ∧
    ∃ w, (t.hostQueue g q).held = [(BitVec.ofNat 64 (op * 2 ^ 48 + st * 2 ^ 32 + tag), w)]

end Sys2Proof.Spec

/-! ## Words used about collectives, links and bring-up -/

namespace Sys2Proof.Spec

open Sys2Proof.Machine

/-- Element j of a list of element values in an entry, from element i0 on. -/
def HoldsElems (e : Trellis) (i0 : Nat) (ws : List Word) : Prop := ∀ j w, ws[j]? = some w → Tab.find (i0 + j) e.elems = some w

/-- The link of an edge is down for good at both ends. -/
def BothDown (t : State) (v d w : Nat) (x : Mesh) : Prop := ((t.site v).link d x).dead = true ∧ ((t.site w).link (opposite d) x).dead = true

/-- An image request for block n of a section leaves site v: up its upstream edge, or at a gatehouse to itself. -/
def AskedFor (s t : State) (v n forSite : Nat) : Prop :=
  ((s.site v).upstream = none → ∃ q ∈ t.net, q.op = .imageRequest n ∧ q.src = v ∧ q.dst = v ∧ q.off = forSite) ∧
    ∀ d w x, (s.site v).upstream = some d → (s.site v).meshUp d = some x → neighbour v d = some w →
      ∃ q ∈ t.net, q.op = .imageRequest n ∧ q.src = v ∧ q.dst = w ∧ q.off = forSite

/-- Block b of a site's section leaves site v by edge d, or for v itself where it has no neighbour there. -/
def BlockSent (t : State) (v d b forSite : Nat) : Prop :=
  ∃ q ∈ t.net, q.op = .imageBlock b (Config.imageBlock forSite b).2 ∧ q.src = v ∧ q.dst = (neighbour v d).getD v ∧ q.off = forSite ∧
    q.data = (Config.imageBlock forSite b).1

end Sys2Proof.Spec

open Sys2Proof Sys2Proof.Machine Sys2Proof.Spec

/-! ## Encoding and the step -/

/-- Decoding reads back every well-formed instruction from its bytes, with every operand at every value, and leaves the bytes that follow. -/
def Obligations.DecodeOfEncode : Prop :=
  ∀ (i : Instr) (rest : List Byte), encode i ≠ [] → i.wf = true →
    decode ((encode i).flatMap bytesOfWord ++ rest) = .ok (i, rest)

/-- No other bytes decode to an instruction: what decodes is the instruction's own encoding, every reserved field zero (R263). -/
def Obligations.EncodeOfDecode : Prop :=
  ∀ (l rest : List Byte) (i : Instr), decode l = .ok (i, rest) → encode i ≠ [] ∧ l = (encode i).flatMap bytesOfWord ++ rest

/-- Words that the spec writes out decode to the instructions it names beside them (R38, R286 example, R335, R281, R337). -/
def Obligations.SpecWordsDecode : Prop :=
  decodeTableWord 32 0x01000102 = some (.add 0 1 2) ∧ decodeTableWord 32 0x20020001 = some (.addi 2 0 1) ∧
  decodeTableWord 32 0x030A0A0B = some (.mul 0x0A 0x0A 0x0B) ∧ decodeTableWord 32 0x84090010 = some (.idget 9 0x10) ∧
  decodeTableWord 32 0x53080020 = some (.st64 8 0 1 0) ∧ decodeTableWord 32 0x34FFFFF8 = some (.j 0xFFFFF8) ∧
  decodeTableWord 32 0x38000000 = some (.nest 0) ∧ decodeTableWord 32 0x39000003 = some (.next 3) ∧
  decodeTableWord 32 0x80020C01 = some (.start 2 0x0C 1) ∧ decodeTableWord 32 0x82000000 = some .endStrand ∧
  decodeTableWord 64 0x00010000E00C0000 = some (.li 0x0C 0x10000) ∧ decodeTableWord 64 0x02080820E10C0000 = some (.lih 0x0C 0x2080820)

/-- When the next thing is a cycle of a core whose position issues, and the word at pc, or the two words of a long form, decode to a well-formed
instruction, a step is exec of that instruction, then the end of the cycle: the instruction is counted and the core's cycle passes (R122, R123,
R252). The position is that of the core's cycle count, modulo 16. A word so read is clean: what its line keeps of an earlier parity error at it is
forgotten first (R430). -/
def Obligations.StepRunsWord : Prop :=
  ∀ (s : State) (c k : Nat) (rest : List Sched) (i : Instr) (u : State), NextIs s c rest → Issues s c k → i.wf = true →
    let t := atTurn s k rest
    (∀ a w, t.fetchWord k (s.strand k).pc = .word a w → isLong (BitVec.ofNat 32 (leNat w)) = false → decode w = .ok (i, []) →
      exec i (t.readClean (coreOfK k) a) = .next u → step s = .next ((u.issued k i).endTurn c)) ∧
    (∀ a w a2 w2, t.fetchWord k (s.strand k).pc = .word a w → isLong (BitVec.ofNat 32 (leNat w)) = true →
      (t.readClean (coreOfK k) a).fetchWord k ((s.strand k).pc + 4) = .word a2 w2 → decode (w ++ w2) = .ok (i, []) →
      exec i ((t.readClean (coreOfK k) a).readClean (coreOfK k) a2) = .next u → step s = .next ((u.issued k i).endTurn c))

/-- A step takes the event at the head of the agenda (log 1). An instruction standing there is refused, since instructions come from memory, and
so is a late fault or a move of the copy sequencer, which come in the turn of their position. -/
def Obligations.StepRunsEvent : Prop :=
  ∀ (s : State) (i : Instr) (rest : List Sched), s.agenda = .event i :: rest →
    (encode i = [] → ofTurn i = false → step s = exec i { s with agenda := rest, batch := s.nextId }) ∧
      ((encode i ≠ [] ∨ ofTurn i = true) → step s = .refused (.notDue "INSTRUCTION"))

/-- Every instruction word ends in a next state, whatever the state; no step ends in a fault of the model. -/
def Obligations.EveryWordCompletes : Prop :=
  (∀ (i : Instr) (s : State), encode i ≠ [] → ∃ t, exec i s = .next t) ∧ (∀ s : State, Safe s)

/-- Before power is good every site is COLD with nothing placed, no strand runs, and no message is in flight (R66, R415). -/
def Obligations.ResetState : Prop :=
  (∀ v, (State.reset.site v).state = .cold ∧ (State.reset.site v).gangs = [] ∧ (State.reset.site v).coord = none) ∧
  (∀ k, (State.reset.strand k).st = .free) ∧ State.reset.net = [] ∧ State.reset.txns = []

/-- The module at reset is sound: its memory is in canonical form, and its tables of strands, cores, bowers and sites have rising keys. -/
def Obligations.ResetSound : Prop :=
  Sound State.reset

/-- A step from any sound state, reached by a run or not, leads to a sound one: memory stays in canonical form, and the tables of strands, cores,
bowers and sites keep rising keys. -/
def Obligations.StepKeepsSound : Prop :=
  ∀ s t : State, Sound s → step s = .next t → Sound t

/-- Memory, in the model's canonical form (log 2): a byte reads as it was written and every other byte as before, the form stays canonical, and equal
reads are equal memories. -/
def Obligations.MemoryLaws : Prop :=
  (∀ (m : List Host.Cell) (a b : Nat) (x : Byte), Memory.wf m = true →
    Memory.read (Memory.write a x m) b = if b = a then x else Memory.read m b) ∧
  (∀ (m : List Host.Cell) (a : Nat) (x : Byte), Memory.wf m = true → Memory.wf (Memory.write a x m) = true) ∧
  (∀ m n : List Host.Cell, Memory.wf m = true → Memory.wf n = true → (∀ a, Memory.read m a = Memory.read n a) → m = n)

/-! ## Registers and the integer instructions -/

/-- z reads 0 and keeps nothing; any other register reads as it was written, and the rest as before (R38). The window is the granules held
(R40-R42). -/
def Obligations.RegisterFile : Prop :=
  (∀ x : Strand, x.reg 0 = 0) ∧
  (∀ (x : Strand) (d : BitVec 8) (w : Word) (r : Nat), (put x d w).reg r = if r = d.toNat ∧ d ≠ 0 then w else x.reg r) ∧
  (∀ (x : Strand) (r : Nat), x.holds r = true ↔ r < 8 ∨ ∃ j, r = 8 + j ∧ j < 16 * x.granules)

/-- The register forms of R275 but for divisions, shifts and fields, the immediate forms (R280) and the long immediates (R281). -/
def Obligations.IntegerForms : Prop :=
  (∀ d a b : BitVec 8,
    Gives (.add d a b) [d, a, b] d 4 (fun s => s.val a + s.val b) ∧
    Gives (.sub d a b) [d, a, b] d 4 (fun s => s.val a - s.val b) ∧
    Gives (.mul d a b) [d, a, b] d 4 (fun s => s.val a * s.val b) ∧
    Gives (.mulhI d a b) [d, a, b] d 4
      (fun s => ((s.val a).signExtend 128 * (s.val b).signExtend 128).extractLsb' 64 64) ∧
    Gives (.mulhN d a b) [d, a, b] d 4 (fun s => ((s.val a).setWidth 128 * (s.val b).setWidth 128).extractLsb' 64 64) ∧
    Gives (.and d a b) [d, a, b] d 4 (fun s => s.val a &&& s.val b) ∧
    Gives (.or d a b) [d, a, b] d 4 (fun s => s.val a ||| s.val b) ∧
    Gives (.xor d a b) [d, a, b] d 4 (fun s => s.val a ^^^ s.val b) ∧
    Gives (.minI d a b) [d, a, b] d 4 (fun s => if (s.val b).slt (s.val a) then s.val b else s.val a) ∧
    Gives (.maxI d a b) [d, a, b] d 4 (fun s => if (s.val a).slt (s.val b) then s.val b else s.val a) ∧
    Gives (.minN d a b) [d, a, b] d 4 (fun s => if (s.val b).ult (s.val a) then s.val b else s.val a) ∧
    Gives (.maxN d a b) [d, a, b] d 4 (fun s => if (s.val a).ult (s.val b) then s.val b else s.val a) ∧
    Gives (.seq d a b) [d, a, b] d 4 (fun s => if s.val a = s.val b then 1 else 0) ∧
    Gives (.sltI d a b) [d, a, b] d 4 (fun s => if (s.val a).slt (s.val b) then 1 else 0) ∧
    Gives (.sltN d a b) [d, a, b] d 4 (fun s => if (s.val a).ult (s.val b) then 1 else 0) ∧
    Gives (.addW d a b) [d, a, b] d 4 (fun s => ((s.val a + s.val b).setWidth 32).signExtend 64) ∧
    Gives (.mulW d a b) [d, a, b] d 4 (fun s => ((s.val a * s.val b).setWidth 32).signExtend 64) ∧
    Gives (.clz d a) [d, a] d 4
      (fun s => BitVec.ofNat 64 ((List.range 64).takeWhile fun i => !(s.val a).getLsbD (63 - i)).length) ∧
    Gives (.popc d a) [d, a] d 4 (fun s => BitVec.ofNat 64 ((List.range 64).countP fun i => (s.val a).getLsbD i))) ∧
  ((∀ d a i : BitVec 8,
    Gives (.addi d a i) [d, a] d 4 (fun s => s.val a + i.signExtend 64) ∧
    Gives (.andi d a i) [d, a] d 4 (fun s => s.val a &&& i.signExtend 64) ∧
    Gives (.ori d a i) [d, a] d 4 (fun s => s.val a ||| i.signExtend 64) ∧
    Gives (.xori d a i) [d, a] d 4 (fun s => s.val a ^^^ i.signExtend 64) ∧
    Gives (.seqi d a i) [d, a] d 4 (fun s => if s.val a = i.signExtend 64 then 1 else 0) ∧
    Gives (.sltiI d a i) [d, a] d 4 (fun s => if (s.val a).slt (i.signExtend 64) then 1 else 0) ∧
    Gives (.sltiN d a i) [d, a] d 4 (fun s => if (s.val a).ult (i.signExtend 64) then 1 else 0) ∧
    Gives (.miniI d a i) [d, a] d 4 (fun s => if (i.signExtend 64).slt (s.val a) then i.signExtend 64 else s.val a) ∧
    Gives (.maxiI d a i) [d, a] d 4 (fun s => if (s.val a).slt (i.signExtend 64) then i.signExtend 64 else s.val a)) ∧
  (∀ (d a : BitVec 8) (i : BitVec 6),
    Gives (.shli d a i) [d, a] d 4 (fun s => s.val a <<< i.toNat) ∧
    Gives (.shri d a i) [d, a] d 4 (fun s => s.val a >>> i.toNat) ∧
    Gives (.srai d a i) [d, a] d 4 (fun s => (s.val a).sshiftRight i.toNat)) ∧
  (∀ (d a : BitVec 8) (i : BitVec 32),
    Gives (.li d i) [d] d 8 (fun _ => i.signExtend 64) ∧
    Gives (.lih d i) [d] d 8 (fun s => i ++ (s.val d).extractLsb' 0 32) ∧
    Gives (.addl d a i) [d, a] d 8 (fun s => s.val a + i.signExtend 64)))

/-- Division (R246): truncated towards zero, the remainder with the sign of the dividend, quotient times divisor plus remainder the dividend; by zero,
all ones and the dividend. Shifts by a register (R276), extensions (R278), `sel` (R277) and bit fields (R279). -/
def Obligations.DivisionsShiftsFields : Prop :=
  (∀ d a b : BitVec 8,
    Gives (.divI d a b) [d, a, b] d 4 (fun s => if s.val b = 0 then BitVec.allOnes 64 else (s.val a).sdiv (s.val b)) ∧
    Gives (.divN d a b) [d, a, b] d 4 (fun s => if s.val b = 0 then BitVec.allOnes 64 else (s.val a).udiv (s.val b)) ∧
    Gives (.remI d a b) [d, a, b] d 4 (fun s => if s.val b = 0 then s.val a else (s.val a).srem (s.val b)) ∧
    Gives (.remN d a b) [d, a, b] d 4 (fun s => if s.val b = 0 then s.val a else (s.val a).umod (s.val b))) ∧
  (∀ (d a b : BitVec 8) (s : State), Ready s [d, a, b] →
    (∃ q r : Word, exec (.divI d a b) s = .next (wrote s d q 4) ∧ exec (.remI d a b) s = .next (wrote s d r 4) ∧ s.val a = q * s.val b + r) ∧
    ∃ q r : Word, exec (.divN d a b) s = .next (wrote s d q 4) ∧ exec (.remN d a b) s = .next (wrote s d r 4) ∧ s.val a = q * s.val b + r) ∧
  (∀ d a b : BitVec 8,
    Gives (.shl d a b) [d, a, b] d 4
      (fun s => if 64 ≤ (s.val b).toNat then 0 else BitVec.ofNat 64 ((s.val a).toNat * 2 ^ (s.val b).toNat)) ∧
    Gives (.shr d a b) [d, a, b] d 4
      (fun s => if 64 ≤ (s.val b).toNat then 0 else BitVec.ofNat 64 ((s.val a).toNat / 2 ^ (s.val b).toNat)) ∧
    Gives (.sra d a b) [d, a, b] d 4
      (fun s => if 64 ≤ (s.val b).toNat then (if (s.val a).getLsbD 63 then BitVec.allOnes 64 else 0)
        else BitVec.ofInt 64 ((s.val a).toInt / 2 ^ (s.val b).toNat)) ∧
    Gives (.sext d a b) [d, a, b] d 4
      (fun s => if 64 ≤ (s.val b).toNat then s.val a else ((s.val a).setWidth (s.val b).toNat).signExtend 64) ∧
    Gives (.zext d a b) [d, a, b] d 4
      (fun s => if 64 ≤ (s.val b).toNat then s.val a else ((s.val a).setWidth (s.val b).toNat).setWidth 64) ∧
    Gives (.sel d a b) [d, a, b] d 4 (fun s => if s.val d ≠ 0 then s.val a else s.val b) ∧
    (∀ s, Ready s [d, a, b] →
      let pos := ((s.val b).extractLsb' 0 6).toNat
      let top := min (pos + min ((s.val b).extractLsb' 8 7).toNat 64) 64
      ∃ x y : Word, exec (.bfx d a b) s = .next (wrote s d x 4) ∧ exec (.bfi d a b) s = .next (wrote s d y 4) ∧
        ∀ i, i < 64 → x.getLsbD i = (decide (i < top - pos) && (s.val a).getLsbD (pos + i)) ∧
          y.getLsbD i = if pos ≤ i ∧ i < top then (s.val a).getLsbD (i - pos) else (s.val d).getLsbD i))

/-- An integer instruction that names a register above the window faults before a pending register is looked at (R42, R274); with every
register held and one pending, the strand parks with reason pending-register and keeps its place (R43). -/
def Obligations.UnheldThenPending : Prop :=
  ∀ (i : Instr) (d : BitVec 8) (s : State), intDest i = some d →
    ((∃ r ∈ intNames i, s.me.holds r.toNat = false) → exec i s = .next (s.raiseFault s.cur .unheldWindow)) ∧
    ((∀ r ∈ intNames i, s.me.holds r.toNat = true) → (∃ r ∈ intNames i, s.me.pend.contains r.toNat = true) →
      ∃ t, exec i s = .next t ∧ t.me.st = .parked ∧ t.me.why = some .pendingRegister ∧ t.me.pc = s.me.pc ∧ t.me.regs = s.me.regs)

/-- The frame of the integer instructions, whatever they come to (completion, a park, a fault, an abort of the gang): no byte of memory, no
full/empty bit and no bower changes, and no register but the destination of the issuing strand (R274). -/
def Obligations.IntegerFrame : Prop :=
  ∀ (i : Instr) (d : BitVec 8) (s t : State), intDest i = some d → exec i s = .next t →
    (∀ a, Memory.read t.mem a = Memory.read s.mem a) ∧ t.full = s.full ∧ t.bowers = s.bowers ∧ t.net = s.net ∧ t.cur = s.cur ∧
    (∀ (k r : Nat), ¬(k = s.cur ∧ r = d.toNat) → (t.strand k).reg r = (s.strand k).reg r) ∧
    (∀ k, (t.strand k).m1 = (s.strand k).m1 ∧ (t.strand k).m2 = (s.strand k).m2 ∧ (t.strand k).m3 = (s.strand k).m3 ∧
      (t.strand k).granules = (s.strand k).granules ∧ (t.strand k).i0 = (s.strand k).i0) ∧
    (∀ c, (t.core c).accs = (s.core c).accs ∧ (t.core c).loops = (s.core c).loops)

/-! ## Control and exceptions -/

/-- Branches and jumps with their encodings (R282-R284); a register target that is not a multiple of 4 faults and leaves d and pc unchanged. -/
def Obligations.Branches : Prop :=
  ((∀ (a : BitVec 8) (i : BitVec 16),
    Goes (.bz a i) [a] (fun s => if s.val a = 0 then s.me.pc + BitVec.ofInt 60 (4 * i.toInt) else s.me.pc + 4) ∧
    Goes (.bnz a i) [a] (fun s => if s.val a ≠ 0 then s.me.pc + BitVec.ofInt 60 (4 * i.toInt) else s.me.pc + 4) ∧
    Goes (.blt a i) [a] (fun s => if (s.val a).toInt < 0 then s.me.pc + BitVec.ofInt 60 (4 * i.toInt) else s.me.pc + 4) ∧
    Goes (.bge a i) [a] (fun s => if 0 ≤ (s.val a).toInt then s.me.pc + BitVec.ofInt 60 (4 * i.toInt) else s.me.pc + 4)) ∧
  (∀ (i : BitVec 24) (s : State),
    exec (.j i) s = .next (went s (s.me.pc + BitVec.ofInt 60 (4 * i.toInt))) ∧
    exec (.call i) s =
      .next (s.modStrand s.cur fun x => { put x 7 ((x.pc + 4).setWidth 64) with pc := x.pc + BitVec.ofInt 60 (4 * i.toInt) })) ∧
  (∀ (d a : BitVec 8) (s : State),
    (Ready s [a] → (s.val a).extractLsb' 0 2 = 0 → exec (.jr a) s = .next (went s ((s.val a).setWidth 60))) ∧
    (Ready s [d, a] → (s.val a).extractLsb' 0 2 = 0 →
      exec (.callr d a) s = .next (s.modStrand s.cur fun x => { put x d ((x.pc + 4).setWidth 64) with pc := (s.val a).setWidth 60 })) ∧
    (Ready s [a] → (s.val a).extractLsb' 0 2 ≠ 0 →
      exec (.jr a) s = .next (s.takeFault s.cur { code := .alignment, addr := some ((s.val a).setWidth 60), pc := s.me.pc })) ∧
    (Ready s [d, a] → (s.val a).extractLsb' 0 2 ≠ 0 →
      exec (.callr d a) s = .next (s.takeFault s.cur { code := .alignment, addr := some ((s.val a).setWidth 60), pc := s.me.pc })))) ∧
  (∀ (d a : BitVec 8) (i : BitVec 16) (j : BitVec 24),
    encode (.bz a i) = [0x30#8 ++ a ++ i] ∧ encode (.bnz a i) = [0x31#8 ++ a ++ i] ∧ encode (.blt a i) = [0x32#8 ++ a ++ i] ∧
    encode (.bge a i) = [0x33#8 ++ a ++ i] ∧ encode (.j j) = [0x34#8 ++ j] ∧ encode (.call j) = [0x35#8 ++ j] ∧
    encode (.jr a) = [0x36#8 ++ 0x0#8 ++ a ++ 0x0#8] ∧ encode (.callr d a) = [0x37#8 ++ d ++ a ++ 0x0#8])

/-- Trap entry for `trap n` with the trap registers set and no relaxed access outstanding, and the return from it (R374); together they come back to
the pc behind the trap, the mode and s0 of the interrupted code. -/
def Obligations.Traps : Prop :=
  ((∀ (n : BitVec 8) (s : State), (s.core (coreOfK s.cur)).trapUnset = false → s.me.tracker = [] →
    let c := s.core (coreOfK s.cur)
    exec (.trap n) s = .next (s.modStrand s.cur fun x =>
      { x with trapPc := x.pc + 4, trapMode := x.sup, trapS0w0 := (x.seg 0).word0, trapS0w1 := (x.seg 0).word1,
               segs := Tab.put 0 (Seg.ofWords c.trapSw0 c.trapSw1) x.segs, sup := true, st := .ready, why := none, cont := .reissue,
               pc := (c.trapBase >>> 2) <<< 2 + BitVec.ofNat 60 (16 * n.toNat) })) ∧
  (∀ (n : BitVec 8) (s : State), (s.core (coreOfK s.cur)).trapUnset = true → s.me.sup = false →
    exec (.trap n) s = .next (s.raiseFault s.cur .trapUnset)) ∧
  (∀ (n : BitVec 8) (s : State), (s.core (coreOfK s.cur)).trapUnset = false → s.me.tracker ≠ [] →
    exec (.trap n) s = .next (s.park s.cur .relaxedWait .reissue)) ∧
  (∀ s : State, s.me.sup = true →
    exec .eret s = .next (s.modStrand s.cur fun x =>
      { x with segs := Tab.put 0 (Seg.ofWords x.trapS0w0 x.trapS0w1) x.segs, sup := x.trapMode, pc := (x.trapPc >>> 2) <<< 2 })) ∧
  (∀ s : State, s.me.sup = false → exec .eret s = .next (s.raiseFault s.cur .privilege))) ∧
  (∀ (n : BitVec 8) (s : State), (s.core (coreOfK s.cur)).trapUnset = false → s.me.tracker = [] → s.me.pc.extractLsb' 0 2 = 0 →
    ∃ t u, exec (.trap n) s = .next t ∧ exec .eret t = .next u ∧
      u.me.pc = s.me.pc + 4 ∧ u.me.sup = s.me.sup ∧ u.me.seg 0 = s.me.seg 0 ∧ u.me.regs = s.me.regs)

/-- A fault of an instruction other than a page fault writes the fault record, with the code, the faulting pc and the kind (R59, R372). In
supervisor mode, with the trap registers set and nothing relaxed outstanding, the strand enters the trap at the fault entry; in user mode its
gang aborts with one notice event, the core's event hold being empty (R373). `halt` raises the halt fault with address 0, and a word that is no
instruction the illegal-instruction fault (R263, R338). -/
def Obligations.FaultsTaken : Prop :=
  (∀ (s : State) (f : Trouble), f.code ≠ .pageFault →
    let k := s.cur
    (s.me.sup = true → (s.core (coreOfK k)).trapUnset = false → s.me.tracker = [] →
      let x := (s.takeFault k f).strand k
      x.pc = ((s.core (coreOfK k)).trapBase >>> 2) <<< 2 + 0x1000 ∧ x.trapPc = f.pc ∧ x.trapMode = true ∧ x.sup = true ∧ x.st = .ready ∧
        x.faultCode = BitVec.ofNat 64 (f.kind * 2 ^ 16 + f.code.num) ∧ x.faultPc = f.pc ∧ (∀ a, f.addr = some a → x.faultAddr = a)) ∧
    (s.me.sup = false → s.me.st ≠ .free → slotOf k < 13 → s.holdFull (siteOfK k) (16 + coreNo k) = false →
      let t := s.takeFault k f
      (t.gang (siteOfK k) s.me.entry).st = .aborting ∧ (t.holdFull (siteOfK k) (16 + coreNo k)) = true ∧
        (t.strand k).st = .stopped ∧
        (t.strand k).faultCode = BitVec.ofNat 64 (f.kind * 2 ^ 16 + f.code.num) ∧ (t.strand k).faultPc = f.pc)) ∧
  (∀ (s : State) (b : BitVec 24),
    exec .halt s = .next (s.takeFault s.cur { code := .halt, addr := some 0, pc := s.me.pc }) ∧
    ∃ a, exec (.illegalInstruction b) s =
      .next (State.takeFault { s with freeIx := s.freeIx + 1 } s.cur { code := .illegal, addr := some a, pc := s.me.pc })) ∧
  (decodeTableWord 32 0x83000000 = some .halt)

/-! ## Loads, stores and atomics at the strand -/

/-- The segment check (R78): an access is admitted exactly when the mode may use the segment, its rights cover the need, it lies inside the limit,
the base is of a kind, the sum stays in the kind's offset bits, and the address is aligned; the address is base plus offset. `segset` (R47, R304):
supervisor mode writes any segment; user mode one that lies inside its source, and otherwise the segment fault comes and nothing is written. -/
def Obligations.SegmentChecks : Prop :=
  (∀ (g : Seg) (sup : Bool) (off size need align : Nat) (a : Addr), 0 < size → need < 32 →
    (g.check sup off size need align = .ok a ↔
      (g.rights.getLsbD 5 = true → sup = true) ∧ (∀ i, i < 6 → need.testBit i = true → g.rights.getLsbD i = true) ∧
      off + size ≤ g.limit.toNat ∧ kindBits g.base.toNat < 4 ∧
      (∃ b, g.form off = some b ∧ b.toNat = g.base.toNat + off ∧ b = a) ∧ a.toNat % align = 0)) ∧
  (∀ (d a : BitVec 8) (st sp : BitVec 3) (r : BitVec 6) (s : State), Ready s [d, a] →
    let n : Seg := { base := (s.val d).setWidth 60, limit := (s.val a).setWidth 48, rights := r }
    let p := s.me.seg sp.toNat
    let inside := p.base.toNat ≤ n.base.toNat ∧ n.base.toNat + n.limit.toNat ≤ p.base.toNat + p.limit.toNat ∧
      n.base.extractLsb' 57 3 = p.base.extractLsb' 57 3 ∧ (∀ i, i < 6 → r.getLsbD i = true → p.rights.getLsbD i = true) ∧ r.getLsbD 5 = false
    ((s.me.sup = true ∨ inside) →
      exec (.segset d a st sp r) s = .next (s.modStrand s.cur fun x => { x with segs := Tab.put st.toNat n x.segs, pc := x.pc + 8 })) ∧
    (s.me.sup = false → ¬inside → exec (.segset d a st sp r) s = .next (s.raiseFault s.cur .segment)))

/-- A load that the L1D serves completes in its turn (R291, R293, R296): d gets the bytes, extended as the load says. A store that the L1D takes, its
line bearing the write mark, completes in its turn: the line holds the bytes, memory does not yet (R86, R294-R297). Nothing outside the strand and
its core changes. -/
def Obligations.CacheHits : Prop :=
  (∀ (d x : BitVec 8) (g : BitVec 3) (o : BitVec 5),
    (∀ p ∈ loadForms d x g o, ∀ s a l, Ready s [d, x] → Reaches s g.toNat (mOff x o p.2.2 s) p.2.2 rR p.2.2 a → Cached s a l →
      ∃ t, exec p.1 s = .next t ∧ OnlyMine s t ∧
        t.me = { put s.me d (extended p.2.1 (l.read (a.toNat % 128) p.2.2)) with pc := s.me.pc + 4 }) ∧
    (∀ s a l, pairOk d = true → Ready s [d, d + 1, x] → Reaches s g.toNat (mOff x o 16 s) 16 rR 16 a → Cached s a l →
      ∃ t, exec (.ld128 d x g o) s = .next t ∧ OnlyMine s t ∧
        t.me = { put (put s.me d (leWord ((l.read (a.toNat % 128) 16).take 8))) (d + 1) (leWord ((l.read (a.toNat % 128) 16).drop 8))
                 with pc := s.me.pc + 4 }) ∧
    (∀ q ∈ ldlForms, ∀ (imm : BitVec 32) s a l, Ready s [d, x] →
      Reaches s g.toNat (((s.val x).toNat + imm.toNat) % 2 ^ 64) q.2.2 rR q.2.2 a → Cached s a l →
      ∃ t, exec (.ldl d x g q.1 imm) s = .next t ∧ OnlyMine s t ∧
        t.me = { put s.me d (extended q.2.1 (l.read (a.toNat % 128) q.2.2)) with pc := s.me.pc + 8 }) ∧
    (∀ s a l, Ready s [d, x] → Reaches s g.toNat (mOff x o 8 s) 8 rR 8 a → Cached s a l →
      ∃ t, exec (.ldr64 d x g o) s = .next t ∧ OnlyMine s t ∧
        t.me = { put s.me d (leWord (l.read (a.toNat % 128) 8)) with pc := s.me.pc + 4 })) ∧
  (∀ (d x : BitVec 8) (g : BitVec 3) (o : BitVec 5),
    (∀ p ∈ storeForms d x g o, ∀ s a l, Ready s [d, x] → Reaches s g.toNat (mOff x o p.2 s) p.2 rW p.2 a → Cached s a l → l.mark = true →
      ∃ t, exec p.1 s = .next t ∧ OnlyMine s t ∧ t.me = { s.me with pc := s.me.pc + 4 } ∧
        lineOf (a.toNat / 128) (t.core (coreOfK s.cur)).l1d =
          some (l.write (a.toNat % 128) (2 ^ p.2 - 1) (leBytes p.2 (s.val d).toNat))) ∧
    (∀ s a l, pairOk d = true → Ready s [d, d + 1, x] → Reaches s g.toNat (mOff x o 16 s) 16 rW 16 a → Cached s a l → l.mark = true →
      ∃ t, exec (.st128 d x g o) s = .next t ∧ OnlyMine s t ∧ t.me = { s.me with pc := s.me.pc + 4 } ∧
        lineOf (a.toNat / 128) (t.core (coreOfK s.cur)).l1d =
          some (l.write (a.toNat % 128) (2 ^ 16 - 1) (leBytes 8 (s.val d).toNat ++ leBytes 8 (s.val (d + 1)).toNat))) ∧
    (∀ (z : BitVec 2) (imm : BitVec 32) s a l, Ready s [d, x] →
      Reaches s g.toNat (((s.val x).toNat + imm.toNat) % 2 ^ 64) (2 ^ z.toNat) rW (2 ^ z.toNat) a → Cached s a l → l.mark = true →
      ∃ t, exec (.stl d x g z imm) s = .next t ∧ OnlyMine s t ∧ t.me = { s.me with pc := s.me.pc + 8 } ∧
        lineOf (a.toNat / 128) (t.core (coreOfK s.cur)).l1d =
          some (l.write (a.toNat % 128) (2 ^ 2 ^ z.toNat - 1) (leBytes (2 ^ z.toNat) (s.val d).toNat))) ∧
    (∀ s a l, Ready s [d, x] → Reaches s g.toNat (mOff x o 8 s) 8 rW 8 a → Cached s a l → l.mark = true →
      ∃ t, exec (.str64 d x g o) s = .next t ∧ OnlyMine s t ∧ t.me = { s.me with pc := s.me.pc + 4 } ∧
        lineOf (a.toNat / 128) (t.core (coreOfK s.cur)).l1d =
          some (l.write (a.toNat % 128) (2 ^ 8 - 1) (leBytes 8 (s.val d).toNat))))

/-- Plain loads, stores, full/empty operations and fetching atomics to placed and host addresses (R291-R301): the strand parks and the access goes
to its home, with the operation, the size and the data that each instruction gives it. -/
def Obligations.AccessesAsk : Prop :=
  ∀ (d x : BitVec 8) (g : BitVec 3) (o : BitVec 5) (imm : BitVec 32) (z : BitVec 2),
    (∀ p ∈ loadForms d x g o,
      Asks p.1 [d, x] g.toNat (mOff x o p.2.2) p.2.2 rR p.2.2 (fun _ => { op := .read, kind := 0x02 }) (.load p.2.1 d.toNat 4)) ∧
    (∀ q ∈ ldlForms, Asks (.ldl d x g q.1 imm) [d, x] g.toNat (fun s => ((s.val x).toNat + imm.toNat) % 2 ^ 64) q.2.2 rR q.2.2
      (fun _ => { op := .read, kind := 0x02 }) (.load q.2.1 d.toNat 8)) ∧
    (pairOk d = true → Asks (.ld128 d x g o) [d, d + 1, x] g.toNat (mOff x o 16) 16 rR 16 (fun _ => { op := .read, kind := 0x02 }) (.pair d.toNat 4)) ∧
    (∀ p ∈ storeForms d x g o, Asks p.1 [d, x] g.toNat (mOff x o p.2) p.2 rW p.2
      (fun s => { op := .write, data := leBytes p.2 (s.val d).toNat, en := 2 ^ p.2 - 1, kind := 0x03 }) (.done 4)) ∧
    Asks (.stl d x g z imm) [d, x] g.toNat (fun s => ((s.val x).toNat + imm.toNat) % 2 ^ 64) (2 ^ z.toNat) rW (2 ^ z.toNat)
      (fun s => { op := .write, data := leBytes (2 ^ z.toNat) (s.val d).toNat, en := 2 ^ 2 ^ z.toNat - 1, kind := 0x03 }) (.done 8) ∧
    (pairOk d = true → Asks (.st128 d x g o) [d, d + 1, x] g.toNat (mOff x o 16) 16 rW 16
      (fun s => { op := .write, data := leBytes 8 (s.val d).toNat ++ leBytes 8 (s.val (d + 1)).toNat, en := 2 ^ 16 - 1, kind := 0x03 }) (.done 4)) ∧
    Asks (.ldf64 d x g o) [d, x] g.toNat (mOff x o 8) 8 (rR + rF) 8 (fun _ => { op := .ldf, kind := 0x08 }) (.load .w64 d.toNat 4) ∧
    Asks (.ldfc64 d x g o) [d, x] g.toNat (mOff x o 8) 8 (rR + rF) 8 (fun _ => { op := .ldfc, kind := 0x08 }) (.load .w64 d.toNat 4) ∧
    (pairOk d = true → Asks (.ldfn64 d x g o) [d, d + 1, x] g.toNat (mOff x o 8) 8 (rR + rF) 8 (fun _ => { op := .ldfn, kind := 0x08 }) (.probe d.toNat 4)) ∧
    Asks (.stf64 d x g o) [d, x] g.toNat (mOff x o 8) 8 (rW + rF) 8
      (fun s => { op := .writeFull, data := leBytes 8 (s.val d).toNat, en := 2 ^ 8 - 1, kind := 0x09 }) (.done 4) ∧
    Asks (.stef64 d x g o) [d, x] g.toNat (mOff x o 8) 8 (rW + rF) 8
      (fun s => { op := .stef, data := leBytes 8 (s.val d).toNat, en := 2 ^ 8 - 1, kind := 0x09 }) (.done 4) ∧
    Asks (.clre x g o) [x] g.toNat (mOff x o 16) 16 (rW + rF) 16 (fun _ => { op := .clre, kind := 0x09 }) (.done 4) ∧
    Asks (.setf x g o) [x] g.toNat (mOff x o 16) 16 (rW + rF) 16 (fun _ => { op := .setf, kind := 0x09 }) (.done 4) ∧
    Asks (.famoAdd d x g o) [d, x] g.toNat (mOff x o 8) 8 (rR + rW + rA) 8
      (fun s => { op := .famo .add, data := leBytes 8 (s.val d).toNat, en := 2 ^ 8 - 1, kind := 0x07 }) (.load .w64 d.toNat 4) ∧
    Asks (.famoFadd d x g o) [d, x] g.toNat (mOff x o 4) 4 (rR + rW + rA) 4
      (fun s => { op := .famo .fadd, data := leBytes 4 (s.val d).toNat, en := 2 ^ 4 - 1, kind := 0x07 }) (.old32 d.toNat 4) ∧
    Asks (.famoOr d x g o) [d, x] g.toNat (mOff x o 8) 8 (rR + rW + rA) 8
      (fun s => { op := .famo .or, data := leBytes 8 (s.val d).toNat, en := 2 ^ 8 - 1, kind := 0x07 }) (.load .w64 d.toNat 4) ∧
    Asks (.famoSwap d x g o) [d, x] g.toNat (mOff x o 8) 8 (rR + rW + rA) 8
      (fun s => { op := .famo .swap, data := leBytes 8 (s.val d).toNat, en := 2 ^ 8 - 1, kind := 0x07 }) (.load .w64 d.toNat 4) ∧
    (pairOk d = true → Asks (.famoCas d x g o) [d, d + 1, x] g.toNat (mOff x o 8) 8 (rR + rW + rA) 8
      (fun s => { op := .famo .cas, data := leBytes 8 (s.val d).toNat ++ leBytes 8 (s.val (d + 1)).toNat, en := 2 ^ 8 - 1, kind := 0x07 })
      (.load .w64 d.toNat 4))

/-- Relaxed loads, stores and atomics to placed and host addresses (R297, R300), and the park of a strand whose eight entries are taken (R135). An access
that fails its checks takes the fault of the check, with the kind of the access, and no permit leaves it waiting (R78, R226, R290). -/
def Obligations.RelaxedAndFaults : Prop :=
  (∀ (d x : BitVec 8) (g : BitVec 3) (o : BitVec 5),
    AsksRelaxed (.ldr64 d x g o) [d, x] g.toNat (mOff x o 8) 8 rR (fun _ => { op := .read, kind := 0x04 }) (some d.toNat) ∧
    AsksRelaxed (.str64 d x g o) [d, x] g.toNat (mOff x o 8) 8 rW
      (fun s => { op := .write, data := leBytes 8 (s.val d).toNat, en := 2 ^ 8 - 1, kind := 0x05 }) none ∧
    (∀ p ∈ amoForms d x g o, AsksRelaxed p.1 [d, x] g.toNat (mOff x o p.2.2) p.2.2 (rW + rA)
      (fun s => { op := .amo p.2.1, data := leBytes p.2.2 (s.val d).toNat, en := 2 ^ p.2.2 - 1, kind := 0x06 }) none) ∧
    (∀ p ∈ amoForms d x g o, ∀ s a, Ready s [d, x] → Reaches s g.toNat (mOff x o p.2.2 s) p.2.2 (rW + rA) p.2.2 a → 8 ≤ s.me.tracker.length →
      ∃ t, exec p.1 s = .next t ∧ t.me.st = .parked ∧ t.me.why = some .relaxedFull ∧ t.me.pc = s.me.pc ∧ t.me.regs = s.me.regs)) ∧
  (∀ (d x : BitVec 8) (g : BitVec 3) (o : BitVec 5) (s : State) (c : Code) (a : Option Addr), Ready s [d, x] → slotOf s.cur ≠ walkSlot →
    (∀ p ∈ loadForms d x g o,
      (s.hasPermit (coreOfK s.cur) .memory = true → s.checkAccess s.cur (s.me.seg g.toNat) (mOff x o p.2.2 s) p.2.2 rR p.2.2 = .error (c, a) →
        exec p.1 s = .next ((s.takePermit (coreOfK s.cur) .memory).takeFault s.cur { code := c, addr := a, pc := s.me.pc, kind := 0x02 })) ∧
      (s.hasPermit (coreOfK s.cur) .memory = false → exec p.1 s = .next (s.held s.cur))) ∧
    (∀ p ∈ storeForms d x g o,
      (s.hasPermit (coreOfK s.cur) .memory = true → s.checkAccess s.cur (s.me.seg g.toNat) (mOff x o p.2 s) p.2 rW p.2 = .error (c, a) →
        exec p.1 s = .next ((s.takePermit (coreOfK s.cur) .memory).takeFault s.cur { code := c, addr := a, pc := s.me.pc, kind := 0x03 })) ∧
      (s.hasPermit (coreOfK s.cur) .memory = false → exec p.1 s = .next (s.held s.cur))))

/-! ## Requests at their homes, and replies -/

/-- Reads, writes, writes that set full and nibble writes at a home (R88, R99, R330, R401): a read answers with the bytes, a write changes exactly
the enabled bytes (or halves of bytes) and is acknowledged. -/
def Obligations.HomeReadsAndWrites : Prop :=
  ∀ (s : State) (n : Nat) (m : Msg), Memory.wf s.mem = true →
    (Serves s n m .read false → ∃ t, exec (.reqRead n) s = .next t ∧ t.mem = s.mem ∧ t.full = s.full ∧
      Answered t m .data ((List.range m.len).map fun j => Memory.read s.mem (keyOf m + j)) false) ∧
    (Serves s n m .write false → m.data.length = m.len → ∃ t, exec (.reqWrite n) s = .next t ∧ t.full = s.full ∧ Answered t m .ack [] false ∧
      ∀ a, Memory.read t.mem a =
        if keyOf m ≤ a ∧ a < keyOf m + m.len ∧ m.en.testBit (a - keyOf m) = true then m.data.getD (a - keyOf m) 0 else Memory.read s.mem a) ∧
    (Serves s n m .nibble false → m.data.length = m.len → ∃ t, exec (.reqNibbleWrite n) s = .next t ∧ t.full = s.full ∧ Answered t m .ack [] false ∧
      ∀ a, let b := m.data.getD (a - keyOf m) 0
        Memory.read t.mem a =
          if keyOf m ≤ a ∧ a < keyOf m + m.len then
            (if m.hi.testBit (a - keyOf m) then b.extractLsb' 4 4 else (Memory.read s.mem a).extractLsb' 4 4) ++
              (if m.en.testBit (a - keyOf m) then b.extractLsb' 0 4 else (Memory.read s.mem a).extractLsb' 0 4)
          else Memory.read s.mem a) ∧
    (Serves s n m .writeFull true → m.data.length = m.len → (s.site m.dst).waits = [] → ∃ t, exec (.reqWriteSetFull n) s = .next t ∧ Answered t m .ack [] false ∧
      bitsNow t s m (granuleNos m.off m.len) true ∧
      ∀ a, Memory.read t.mem a =
        if keyOf m ≤ a ∧ a < keyOf m + m.len ∧ m.en.testBit (a - keyOf m) = true then m.data.getD (a - keyOf m) 0 else Memory.read s.mem a)

/-- Full/empty operations whose condition holds, at a home where nothing waits (R88, R298, R331): what is answered, what is stored, and the bit.
Those whose condition fails (R127, R128): with room in the unit's table the operation is recorded, memory and the bits stay, and nothing is answered;
with 256 records it is answered with a deferral. -/
def Obligations.FullEmpty : Prop :=
  (∀ (s : State) (n : Nat) (m : Msg), Memory.wf s.mem = true → (s.site m.dst).waits = [] →
    let g := m.off / 16
    let read := fun len => (List.range len).map fun j => Memory.read s.mem (keyOf m + j)
    (Serves s n m .ldf true → s.isFull m.dst m.unit g = true → ∃ t, exec (.reqLdf n) s = .next t ∧ t.mem = s.mem ∧ t.full = s.full ∧
      Answered t m .data (read 8) false) ∧
    (Serves s n m .ldfc true → s.isFull m.dst m.unit g = true → ∃ t, exec (.reqLdfc n) s = .next t ∧ t.mem = s.mem ∧
      bitsNow t s m [g] false ∧ Answered t m .data (read 8) false) ∧
    (Serves s n m .ldfn true → ∃ t, exec (.reqLdfn n) s = .next t ∧ t.mem = s.mem ∧ t.full = s.full ∧
      Answered t m .data (read 8) (s.isFull m.dst m.unit g)) ∧
    (Serves s n m .stef true → s.isFull m.dst m.unit g = false → m.data.length = 8 → ∃ t, exec (.reqStef n) s = .next t ∧
      bitsNow t s m [g] true ∧ Answered t m .ack [] false ∧
      ∀ a, Memory.read t.mem a = if keyOf m ≤ a ∧ a < keyOf m + 8 then m.data.getD (a - keyOf m) 0 else Memory.read s.mem a) ∧
    (Serves s n m .clre true → ∃ t, exec (.reqClre n) s = .next t ∧ t.mem = s.mem ∧ bitsNow t s m [g] false ∧ Answered t m .ack [] false) ∧
    (Serves s n m .setf true → ∃ t, exec (.reqSetf n) s = .next t ∧ t.mem = s.mem ∧ bitsNow t s m [g] true ∧ Answered t m .ack [] false) ∧
    (∀ c, Serves s n m (.vldf c) true → (∀ j, j < 8 → s.isFull m.dst m.unit (g + j) = true) → ∃ t, exec (.reqVldf n) s = .next t ∧ t.mem = s.mem ∧
      Answered t m .data (read 128) false ∧ bitsNow t s m (if c then (List.range 8).map (g + ·) else []) false)) ∧
  (∀ (s : State) (n : Nat) (m : Msg) (x : Txn), s.txn m.txn = some x → x.acc.owner.gone = false →
    (s.gang (siteOfK x.acc.k) (s.strand x.acc.k).entry).expired = false →
    let g := m.off / 16
    let waits := fun (i : Instr) (op : ReqOp) (h : Nat) => ∃ t, exec i s = .next t ∧ t.mem = s.mem ∧ t.full = s.full ∧
      (((s.site m.dst).tableLoad m.unit < 256 ∧ t.net = (s.consume n).net ∧
          ∃ r ∈ (t.site m.dst).waits, r.unit = m.unit ∧ r.granule = h ∧ r.op = op ∧ r.txn = m.txn ∧ r.data = m.data) ∨
        (256 ≤ (s.site m.dst).tableLoad m.unit ∧ Answered t m .deferral [] false))
    (Serves s n m .ldf true → s.isFull m.dst m.unit g = false → waits (.reqLdf n) .ldf g) ∧
    (Serves s n m .ldfc true → s.isFull m.dst m.unit g = false → waits (.reqLdfc n) .ldfc g) ∧
    (Serves s n m .stef true → s.isFull m.dst m.unit g = true → waits (.reqStef n) .stef g) ∧
    (∀ c j, Serves s n m (.vldf c) true → j < 8 → s.isFull m.dst m.unit (g + j) = false → (∀ i, i < j → s.isFull m.dst m.unit (g + i) = true) →
      waits (.reqVldf n) (.vldf c) (g + j)))

/-- Atomics at their home (R110, R300, R301): the integer operations leave the value of the table, and a fetching one answers with the old value. -/
def Obligations.HomeAtomics : Prop :=
  ∀ (s : State) (n : Nat) (m : Msg), Memory.wf s.mem = true →
    let old := BitVec.ofNat 64 (leNat ((List.range 8).map fun j => Memory.read s.mem (keyOf m + j)))
    let x := leWord (m.data.take 8)
    let leaves := fun (t : State) (w : Word) => t.full = s.full ∧ ∀ a, Memory.read t.mem a =
      if keyOf m ≤ a ∧ a < keyOf m + 8 then w.extractLsb' (8 * (a - keyOf m)) 8 else Memory.read s.mem a
    (∀ p ∈ ([(.add, old + x), (.minI, if x.slt old then x else old), (.maxI, if old.slt x then x else old), (.minN, if x.ult old then x else old),
             (.maxN, if old.ult x then x else old), (.and, old &&& x), (.or, old ||| x), (.xor, old ^^^ x)] : List (AmoOp × Word)),
      Serves s n m (.amo p.1) false → ∃ t, exec (.reqAmo n) s = .next t ∧ leaves t p.2 ∧ Answered t m .ack [] false) ∧
    (∀ p ∈ ([(.add, old + x), (.or, old ||| x), (.swap, x), (.cas, if old = x then leWord ((m.data.drop 8).take 8) else old)]
        : List (FamoOp × Word)),
      Serves s n m (.famo p.1) false → ∃ t, exec (.reqFamo n) s = .next t ∧ leaves t p.2 ∧
        Answered t m .data (leBytes 8 old.toNat) false)

/-- A reply completes the access for which its strand is parked (R125, R293, R298, R301): a data response writes the destination of the load, the
pair, the probe or the fetching add, an acknowledgement writes nothing, and pc moves on. The strand is READY again, its gang not stopping. An error
response gives the strand the fault that it carries, precise: the faulting pc, address and kind are the access's (R292). -/
def Obligations.RepliesComplete : Prop :=
  (∀ (s : State) (n : Nat) (m : Msg) (x : Txn) (k : Nat), x.acc.owner = .strand k → (s.strand k).st = .parked →
    (s.gang (siteOfK k) (s.strand k).entry).halting = false →
    let y := s.strand k
    let done := fun (i : Instr) (z : Strand) => ∃ t, exec i s = .next t ∧
      t.strand k = { z with st := .ready, why := none, cont := .reissue } ∧ t.mem = s.mem ∧ t.full = s.full ∧ ∀ j, j ≠ k → t.strand j = s.strand j
    (Replied s n m .data x →
      (∀ ty (d : BitVec 8) a, y.cont = .load ty d.toNat a →
        done (.rspData n) { put y d (extended ty m.data) with pc := y.pc + BitVec.ofNat 60 a }) ∧
      (∀ (d : BitVec 8) a, d.toNat < 255 → y.cont = .pair d.toNat a →
        done (.rspData n) { put (put y d (leWord (m.data.take 8))) (d + 1) (leWord (m.data.drop 8)) with pc := y.pc + BitVec.ofNat 60 a }) ∧
      (∀ (d : BitVec 8) a, d.toNat < 255 → y.cont = .probe d.toNat a →
        done (.rspData n) { put (put y d (leWord m.data)) (d + 1) (if m.full then 1 else 0) with pc := y.pc + BitVec.ofNat 60 a }) ∧
      (∀ (d : BitVec 8) a, y.cont = .old32 d.toNat a →
        done (.rspData n) { put y d ((BitVec.ofNat 32 (leNat m.data)).setWidth 64) with pc := y.pc + BitVec.ofNat 60 a })) ∧
    (Replied s n m .ack x → ∀ a, y.cont = .done a → done (.rspAcknowledge n) { y with pc := y.pc + BitVec.ofNat 60 a })) ∧
  (∀ (s : State) (n : Nat) (m : Msg) (x : Txn) (k c : Nat) (l : LoadTy) (d a : Nat), Replied s n m (.error c) x → x.acc.owner = .strand k →
    x.acc.kind ≠ 0 → (s.strand k).st = .parked → (s.strand k).cont = .load l d a → slotOf k ≠ walkSlot → (s.core (coreOfK k)).replays = [] →
    (s.gang (siteOfK k) (s.strand k).entry).expired = false →
    exec (.rspError n) s =
      .next (((s.consume n).dropTxn m.txn).takeFault k { code := Code.ofNum c, addr := some x.acc.addr, pc := x.acc.pc, kind := x.acc.kind }))

/-! ## Ordering -/

/-- `wait.r` and the fences (R103, R105, R106): with a relaxed access outstanding they wait; otherwise an acquire leaves no line in the caches of its
scope, a release no dirty line, and the strand moves on, or parks with reason fence while a write-back or a host write is outstanding. `inv` and `wb`
(R307): a length of 0 and an address that is not a heap address only move on; a range that fails its checks faults; over a heap range `inv` leaves
no line of the range and every other line, and `wb` leaves no line of the range dirty. -/
def Obligations.Fences : Prop :=
  (∀ (g : BitVec 3) (s : State), g.toNat ≤ 4 →
    let c := coreOfK s.cur
    let v := siteOfK s.cur
    let ends := fun (t : State) => t.mem = s.mem ∧ t.full = s.full ∧
      (Passes s t 4 ∨ (t.me.st = .parked ∧ t.me.why = some .fence ∧ t.me.pc = s.me.pc ∧ t.me.regs = s.me.regs)) ∧
      (Clean (s.core c).l1d → Clean (s.site v).slice → s.unwritten v (s.fenceTxns g.toNat) = false → g.toNat < 4 → Passes s t 4)
    (s.me.tracker ≠ [] → ∀ i ∈ [Instr.waitR, .fenceAcq g, .fenceRel g, .fenceAr g], ∃ t k, exec i s = .next t ∧ Parks s t .relaxedWait k) ∧
    (s.me.tracker = [] →
      exec .waitR s = .next (went s (s.me.pc + 4)) ∧
      (∃ t, exec (.fenceAcq g) s = .next t ∧ ends t ∧ (1 ≤ g.toNat → (t.core c).l1d = []) ∧ (3 ≤ g.toNat → (t.site v).slice = [])) ∧
      (∃ t, exec (.fenceRel g) s = .next t ∧ ends t ∧ (1 ≤ g.toNat → Clean (t.core c).l1d) ∧ (3 ≤ g.toNat → Clean (t.site v).slice) ∧
        ((∀ l ∈ (s.core c).l1d, l.flaw = 0) → (t.core c).l1d.map (·.line) = (s.core c).l1d.map (·.line))) ∧
      (∃ t, exec (.fenceAr g) s = .next t ∧ ends t ∧ (1 ≤ g.toNat → (t.core c).l1d = []) ∧ (3 ≤ g.toNat → (t.site v).slice = [])))) ∧
  (∀ (d x : BitVec 8) (g : BitVec 3) (o : BitVec 5) (s : State) (a : Addr), Ready s [d, x] →
    let c := coreOfK s.cur
    let v := siteOfK s.cur
    let n := (s.val d).toNat
    let chk := s.checkAccess s.cur (s.me.seg g.toNat) (mOff x o 128 s) n rR 1
    ((n = 0 ∨ (chk = .ok a ∧ kindBits a.toNat ≠ 0)) →
      exec (.inv d x g o) s = .next (went s (s.me.pc + 4)) ∧ exec (.wb d x g o) s = .next (went s (s.me.pc + 4))) ∧
    (∀ e b, n ≠ 0 → chk = .error (e, b) → slotOf s.cur ≠ walkSlot → ∀ i ∈ [Instr.inv d x g o, .wb d x g o],
      exec i s = .next (s.takeFault s.cur { code := e, addr := b, pc := s.me.pc })) ∧
    (n ≠ 0 → chk = .ok a → kindBits a.toNat = 0 →
      (∃ t, exec (.inv d x g o) s = .next t ∧ t.mem = s.mem ∧ t.full = s.full ∧ t.me.regs = s.me.regs ∧
        (t.core c).l1d = (s.core c).l1d.filter (fun l => !lineIn a n l) ∧ (t.site v).slice = (s.site v).slice.filter (fun l => !lineIn a n l)) ∧
      (∃ t, exec (.wb d x g o) s = .next t ∧ t.mem = s.mem ∧ t.full = s.full ∧ t.me.regs = s.me.regs ∧
        (∀ l ∈ (t.core c).l1d, lineIn a n l = true → l.dirty = 0) ∧ (∀ l ∈ (t.site v).slice, lineIn a n l = true → l.dirty = 0))))

/-- The gang barrier (R221, R308): `bar.arr` and `bar.sync` send an arrival; the claim unit adds it to the crew's lead; with the arrival that
every live crew has made, the phase advances and every live crew's lead falls by one. `bar.wait` consults the claim unit, and completes if the lead
is 0 when it is answered. -/
def Obligations.GangBarrier : Prop :=
  (∀ s : State, s.me.tracker = [] →
    (∃ t, exec .barArr s = .next t ∧ Parks s t .access (.arrive false)) ∧ (∃ t, exec .barSync s = .next t ∧ Parks s t .access (.arrive true))) ∧
  (∀ s : State, ∃ t, exec .barWait s = .next t ∧ Parks s t .access .barAsk ∧ OwnReply s t .ack []) ∧
  (∀ (s : State) (n k : Nat) (m : Msg) (x : Txn), Replied s n m .ack x → x.acc.owner = .strand k → (s.strand k).st = .parked →
    (s.strand k).cont = .barAsk → (s.gang (siteOfK k) (s.strand k).entry).halting = false →
    let lead := (s.gang (siteOfK k) (s.strand k).entry).lead (s.strand k).crew
    (lead = 0 → ∃ t, exec (.rspAcknowledge n) s = .next t ∧ GoesOn s t k 4) ∧
    (lead ≠ 0 → ∃ t, exec (.rspAcknowledge n) s = .next t ∧ t.strand k = { s.strand k with why := some .barrier, cont := .barWait })) ∧
  (∀ (s : State) (k : Nat) (sync : Bool), (s.strand k).st = .parked → (s.strand k).cont = .arrive sync →
    (∀ j b, (s.strand j).cont ≠ .fourth b) →
    let v := siteOfK k
    let e := (s.strand k).entry
    let i := (s.strand k).crew
    let g := s.gang v e
    i ∈ g.live → g.lead i < 3 → g.halting = false → ∀ j ∈ g.live, j ≠ i →
      (g.lead j = 0 → ∃ t, exec (.barrierArrival k) s = .next t ∧ (t.gang v e).phase = g.phase ∧ (t.gang v e).lead i = g.lead i + 1 ∧
        (sync = false → GoesOn s t k 4) ∧ (sync = true → (t.strand k).st = .parked ∧ (t.strand k).cont = .barWait)) ∧
      (g.lead j = 1 → (∀ l ∈ g.live, l ≠ i → 1 ≤ g.lead l) →
        ∃ t, exec (.barrierArrival k) s = .next t ∧ (t.gang v e).phase = (g.phase + 1) % 2 ^ 32 ∧ (t.gang v e).lead i = g.lead i ∧
          (∀ l ∈ g.live, l ≠ i → (t.gang v e).lead l = g.lead l - 1) ∧ (sync = false → GoesOn s t k 4)))

/-- Monitors at the strand (R133, R134, R309, R310): `mon.wait` completes once the monitor has fired and its watch is settled, `mon.clr` clears the
mark, `mon.arm` sends a watch for its granule without a park and clears the mark unless a watch is still on its way, and a fire that arrives sets
the mark and ends a wait. At the home: an arm is
acknowledged and recorded while the unit's table has room; a clear removes the strand's watch; a write fires every other strand's watch on the
granules it touches. -/
def Obligations.MonitorsAndWatches : Prop :=
  ((∀ s : State, (s.me.monitor.fired = true → s.me.monitor.inFlight = [] → exec .monWait s = .next (went s (s.me.pc + 4))) ∧
    ((s.me.monitor.fired = false ∨ s.me.monitor.inFlight ≠ []) → ∃ t, exec .monWait s = .next t ∧ Parks s t .monitor (.done 4))) ∧
  (∀ s : State, ∃ t, exec .monClr s = .next t ∧ t.mem = s.mem ∧ t.me.pc = s.me.pc + 4 ∧ t.me.regs = s.me.regs ∧
    t.me.monitor = { inFlight := s.me.monitor.inFlight }) ∧
  (∀ (x : BitVec 8) (g : BitVec 3) (o : BitVec 5) (s : State) (a : Addr), Ready s [x] →
    s.checkAccess s.cur (s.me.seg g.toNat) (mOff x o 16 s) 16 rR 16 = .ok a → kindBits a.toNat = 0 →
    ∃ t p n, exec (.monArm x g o) s = .next t ∧ t.mem = s.mem ∧ t.me.st = s.me.st ∧ t.me.pc = s.me.pc + 4 ∧ t.me.regs = s.me.regs ∧
      t.me.monitor = { fired := !s.me.monitor.inFlight.isEmpty, inFlight := s.me.monitor.inFlight ++ [(n, a)], current := some n } ∧
      (t.site (siteOfK s.cur)).port = (s.site (siteOfK s.cur)).port ++ [p] ∧ p.acc.op = .monArm ∧ p.acc.addr = a ∧
      p.acc.owner = .monitor s.cur n) ∧
  (∀ (s : State) (n slot : Nat) (m : Msg), s.arriving n = some m → m.op = .monFire slot →
    let k := m.dst * 256 + m.key % 256 / 16 * 16 + slot
    ((s.strand k).st ≠ .free → (s.strand k).st ≠ .parked →
      exec (.rspMonitorFire n) s = .next ((s.consume n).modStrand k fun x => { x with monitor := { x.monitor with fired := true } })) ∧
    ((s.strand k).st = .parked → (s.strand k).why = some .monitor → (s.strand k).cont = .done 4 → (s.strand k).monitor.inFlight = [] →
      (s.gang (siteOfK k) (s.strand k).entry).halting = false → ∃ t, exec (.rspMonitorFire n) s = .next t ∧ t.mem = s.mem ∧
        t.strand k = { s.strand k with monitor := { (s.strand k).monitor with fired := true }, pc := (s.strand k).pc + 4, st := .ready,
                                       why := none, cont := .reissue }))) ∧
  (∀ (s : State) (n : Nat) (m : Msg) (x : Txn), s.txn m.txn = some x →
    (Serves s n m .monArm false → x.acc.owner.gone = false → ((s.site m.dst).watches.filter fun w => w.unit == m.unit).length < 128 →
      ∃ t, exec (.reqMonitorArm n) s = .next t ∧ t.mem = s.mem ∧ Answered t m .ack [] false ∧
        (t.site m.dst).watches = (s.site m.dst).watches ++ [{ unit := m.unit, granule := m.off / 16, k := x.acc.k, src := m.src }]) ∧
    (Serves s n m .monClr false → ∃ t, exec (.reqMonitorClear n) s = .next t ∧ t.mem = s.mem ∧ Answered t m .ack [] false ∧
      ∀ w, w ∈ (t.site m.dst).watches ↔ w ∈ (s.site m.dst).watches ∧ ¬(w.unit = m.unit ∧ w.granule = m.off / 16 ∧ w.k = x.acc.k)) ∧
    (∀ w ∈ (s.site m.dst).watches, Serves s n m .write false → w.unit = m.unit → m.off / 16 ≤ w.granule → m.data.length = m.len → 0 < m.len →
      w.granule ≤ (m.off + m.len - 1) / 16 → s.number w.k ≠ m.key →
      ∃ t, exec (.reqWrite n) s = .next t ∧ ∃ q ∈ t.net, q.op = .monFire (slotOf w.k) ∧ q.dst = w.src ∧ q.key = s.number w.k))

/-! ## Claims and strands -/

/-- `acq.w` and `acq.f` on every pool (R41, R42, R170, R182-R184): more than remains is the overclaim fault, 0 units complete at once, and a safe
request with units free is granted; register granules that come to the window read zero. -/
def Obligations.Acquires : Prop :=
  ∀ (d a : BitVec 8) (kd b : BitVec 2) (s : State), Sound s → Rising (s.site (siteOfK s.cur)).gangs →
    let k := s.cur
    let v := siteOfK k
    let p := poolOf k kd.toNat b.toNat
    let n := (s.val a).toNat
    (Ready s [a] → s.remaining k p < n → exec (.acqW a kd b) s = .next (s.raiseFault k .overclaim)) ∧
    (Ready s [d, a] → s.remaining k p < n → exec (.acqF d a kd b) s = .next (s.raiseFault k .overclaim)) ∧
    (Ready s [a] → n = 0 → exec (.acqW a kd b) s = .next (went s (s.me.pc + 4))) ∧
    (Ready s [d, a] → n = 0 → exec (.acqF d a kd b) s = .next (wrote s d 0 4)) ∧
    (0 < n → n ≤ s.remaining k p → s.myGang.st = .running → (s.site v).waiters = [] → (20 ≤ p → coreNo k ∈ s.myGang.cores) →
      (Ready s [a] → s.me.st ≠ .free → s.me.drain = false → s.myGang.halting = false → n ≤ s.freeUnits v p → s.safeGrant v s.me.entry p n = true →
        ∃ t, exec (.acqW a kd b) s = .next t ∧ t.heldOf k p = s.heldOf k p + n ∧ t.me.pc = s.me.pc + 4 ∧ t.me.st = .ready ∧ (t.site v).waiters = [] ∧
          (p < 16 ∨ 20 ≤ p → t.mem = s.mem) ∧ (p < 16 → t.me.granules = s.me.granules + n) ∧
          ∀ r, t.me.reg r = if p < 16 ∧ 8 + 16 * s.me.granules ≤ r then 0 else s.me.reg r) ∧
      (Ready s [a] → s.me.drain = false → s.freeUnits v p < n → ∃ t, exec (.acqW a kd b) s = .next t ∧ Parks s t .claim (.claim p n) ∧
        (t.site v).waiters = [{ pool := p, k, n }]) ∧
      (Ready s [d, a] → ∃ t, exec (.acqF d a kd b) s = .next t ∧ t.me.st = .parked ∧ t.me.why = some .access ∧ t.me.cont = .load .w64 d.toNat 4 ∧
        t.me.pc = s.me.pc ∧
        (s.freeUnits v p < n → t.heldOf k p = s.heldOf k p ∧ OwnReply s t .data (leBytes 8 1)) ∧
        (n ≤ s.freeUnits v p → s.safeGrant v s.me.entry p n = false → t.heldOf k p = s.heldOf k p ∧ OwnReply s t .data (leBytes 8 2)) ∧
        (n ≤ s.freeUnits v p → s.safeGrant v s.me.entry p n = true → t.heldOf k p = s.heldOf k p + n ∧ OwnReply s t .data (leBytes 8 0))))

/-- `rel` and `rel.all` (R41, R170, R185): more than is held is the claim-protocol fault; with nothing relaxed, pending or in an engine, n units of the
pool go, or all that is held: the strand's register granules, the crew's accumulators and the gang's store granules. With a relaxed access
outstanding the strand waits, and what the instruction named when it came goes once the waits are over. The claim queries (R187): the claim unit's
answer is on its way to d. -/
def Obligations.Releases : Prop :=
  (∀ (a : BitVec 8) (kd b : BitVec 2) (s : State), s.relNamed = none →
    let k := s.cur
    let p := poolOf k kd.toNat b.toNat
    let n := (s.val a).toNat
    (Ready s [a] → s.heldOf k p < n → exec (.rel a kd b) s = .next (s.raiseFault k .claimProtocol)) ∧
    (Ready s [a] → n = 0 → exec (.rel a kd b) s = .next (went s (s.me.pc + 4))) ∧
    (Ready s [a] → 0 < n → n ≤ s.heldOf k p → s.me.tracker = [] → s.me.pend = [] → s.accBusy k (if 20 ≤ p then s.heldOf k p - n else 4) = false →
      (s.site (siteOfK k)).waiters = [] →
      ∃ t, exec (.rel a kd b) s = .next t ∧ t.heldOf k p = s.heldOf k p - n ∧ t.me.pc = s.me.pc + 4 ∧ t.me.regs = s.me.regs ∧ t.mem = s.mem) ∧
    (s.me.tracker = [] → s.me.pend = [] → s.accBusy k 0 = false → (s.site (siteOfK k)).waiters = [] →
      ∃ t, exec .relAll s = .next t ∧ t.me = { s.me with granules := 0, pc := s.me.pc + 4, cont := .reissue } ∧ t.mem = s.mem ∧
        t.heldOf k (coreNo k) = 0 ∧ t.heldOf k (20 + coreNo k) = 0 ∧
        ∀ b, b < 4 → t.heldOf k (16 + b) = 0 ∧ Tab.get [] b (t.gang (siteOfK k) s.me.entry).stores = []) ∧
    (s.me.tracker ≠ [] →
      (Ready s [a] → 0 < n → n ≤ s.heldOf k p → ∃ t lo, exec (.rel a kd b) s = .next t ∧ Parks s t .access (.release lo [(p, n)])) ∧
      ∃ t, exec .relAll s = .next t ∧ Parks s t .access (.release 0 (s.allPools k)))) ∧
  (∀ (a : BitVec 8) (kd b : BitVec 2) (s : State) (lo p n : Nat), s.me.cont = .release lo [(p, n)] → n ≤ s.heldOf s.cur p →
    s.me.tracker = [] → s.me.pend = [] → s.accBusy s.cur (if 20 ≤ p then s.heldOf s.cur p - n else 4) = false →
    (s.site (siteOfK s.cur)).waiters = [] →
    ∃ t, exec (.rel a kd b) s = .next t ∧ t.heldOf s.cur p = s.heldOf s.cur p - n ∧ t.me.pc = s.me.pc + 4 ∧ t.me.regs = s.me.regs ∧ t.mem = s.mem) ∧
  (∀ (d a : BitVec 8) (kd b : BitVec 2) (s : State), Ready s [d, a] →
    let p := poolOf s.cur kd.toNat b.toNat
    ∀ q ∈ ([(.claimqHeld d a kd b, s.heldOf s.cur p), (.claimqRem d a kd b, s.remaining s.cur p), (.claimqFree d a kd b, s.freeUnits (siteOfK s.cur) p),
            (.claimqGran d a b, ((Tab.get [] b.toNat s.myGang.stores)[(s.val a).toNat]?).getD (2 ^ 64 - 1))] : List (Instr × Nat)),
      ∃ t, exec q.1 s = .next t ∧ Parks s t .access (.load .w64 d.toNat 4) ∧ OwnReply s t .data (leBytes 8 q.2))

/-- `start` and `join` (R335, R336): a helper begins at the address in a with a1 the argument, the starter's segments and no granule; its bit
is set in the starter; an address that is not a multiple of 4 is the alignment fault; a join of a helper that runs waits, and of one that does not completes. -/
def Obligations.Helpers : Prop :=
  (∀ (d a n : BitVec 8) (s : State), Ready s [d, a] → s.me.control = true → s.slotOpen n.toNat = true → (s.val a).extractLsb' 0 2 = 0 →
    slotKey (coreOfK s.cur) n.toNat ≠ s.cur →
    ∃ t h, exec (.start d a n) s = .next t ∧ t.strand (slotKey (coreOfK s.cur) n.toNat) = h ∧ h.st = .ready ∧ h.pc = (s.val a).setWidth 60 ∧
      (∀ r, h.reg r = if r = 1 then s.val d else 0) ∧ h.segs = s.me.segs ∧ h.granules = 0 ∧ h.sup = false ∧ h.control = false ∧ h.entry = s.me.entry ∧
      t.me = { s.me with helpers := s.me.helpers ||| BitVec.ofNat 13 (2 ^ n.toNat), pc := s.me.pc + 4 } ∧ t.mem = s.mem) ∧
  (∀ (d a n : BitVec 8) (s : State), Ready s [d, a] → (s.me.control = false ∨ s.slotOpen n.toNat = false) →
    exec (.start d a n) s = .next (s.raiseFault s.cur .slot)) ∧
  (∀ (d a n : BitVec 8) (s : State), Ready s [d, a] → s.me.control = true → s.slotOpen n.toNat = true → (s.val a).extractLsb' 0 2 ≠ 0 →
    exec (.start d a n) s = .next (s.takeFault s.cur { code := .alignment, addr := some ((s.val a).setWidth 60), pc := s.me.pc })) ∧
  (∀ (n : BitVec 8) (s : State),
    let ok := s.me.control = true ∧ bitOn s.myGang.desc.slotmask n.toNat = true ∧ n.toNat ≠ s.myGang.desc.controlSlot
    (ok → s.me.helpers.getLsbD n.toNat = false → exec (.join n) s = .next (went s (s.me.pc + 4))) ∧
    (ok → s.me.helpers.getLsbD n.toNat = true → ∃ t, exec (.join n) s = .next t ∧ Parks s t .join (.join n.toNat)) ∧
    (¬ok → exec (.join n) s = .next (s.raiseFault s.cur .slot)))

/-- `end` (R337): it waits for relaxed accesses and for copies; then the slot is FREE, and a helper's bit is clear in its starter, whose `join` goes
on. `ckpt` (R342): with no pre-emption pending it only moves on; with one pending, nothing relaxed outstanding and a valid live-range entry, the
strand stops there, unless a home that must report a struck granule of the entry cannot yet (R165); memory is as before but for accessed bits of the
page table (R83). An aborting gang ends when each of its strands is STOPPED (R155, R174, R189, R373): its entry is free and its slots hold no
strand. -/
def Obligations.StrandsEnd : Prop :=
  (∀ s : State, slotOf s.cur < 13 →
    (s.me.tracker ≠ [] → ∃ t, exec .endStrand s = .next t ∧ Parks s t .relaxedWait .reissue) ∧
    (s.me.tracker = [] → s.copying s.cur = true → ∃ t, exec .endStrand s = .next t ∧ Parks s t .access .ending) ∧
    (s.me.tracker = [] → s.copying s.cur = false → s.me.drain = false → s.myGang.st ≠ .free → s.me.control = false → (s.site (siteOfK s.cur)).waiters = [] →
      let p := slotKey (coreOfK s.cur) s.me.starter
      p ≠ s.cur → slotOf p < 13 → (s.strand p).st = .parked → (s.strand p).entry = s.me.entry → (s.strand p).cont = .join (slotOf s.cur) →
      (s.strand p).helpers.getLsbD (slotOf s.cur) = true → s.myGang.halting = false →
      ∃ t, exec .endStrand s = .next t ∧ (t.strand s.cur).st = .free ∧ t.mem = s.mem ∧ (t.strand p).st = .ready ∧
        (t.strand p).pc = (s.strand p).pc + 4 ∧ (t.strand p).helpers = (s.strand p).helpers &&& ~~~(BitVec.ofNat 13 (2 ^ slotOf s.cur)))) ∧
  (∀ (e : BitVec 16) (s : State),
    (s.preempted s.cur = false → exec (.ckpt e) s = .next (went s (s.me.pc + 4))) ∧
    let v := siteOfK s.cur
    let live := s.myGang.desc.live
    (s.preempted s.cur = true → s.me.tracker = [] → s.me.st ≠ .free → (s.liveEntry v live e.toNat).isSome = true →
      (s.liveStalled v live e.toNat = true → exec (.ckpt e) s = .next s) ∧
      (s.liveStalled v live e.toNat = false →
        ∃ t, exec (.ckpt e) s = .next t ∧ t.me.st = .stopped ∧ t.me.ckpt = some e.toNat ∧ t.me.pc = s.me.pc ∧ t.me.regs = s.me.regs ∧
          (Quiet s v (s.liveReads v live e.toNat) → t.mem = s.mem)))) ∧
  (∀ (s : State) (v e : Nat), Sound s → (s.gang v e).st = .aborting → (∀ k ∈ s.gangStrands v e, (s.strand k).st = .stopped) → (s.site v).waiters = [] →
    ∃ t, exec (.abortComplete v e) s = .next t ∧ (t.gang v e).st = .free ∧ t.mem = s.mem ∧
      ∀ k, siteOfK k = v → slotOf k < 13 → (s.strand k).entry = e → (t.strand k).st = .free)

/-- Identity and loop registers (R48, R51, R339, R340): what `idget` reads, and that a loop register of the crew reads as it was set. `nest` and `next`
(R223, R224, R286-R288): a first `nest` opens a generation of the counter and joins the crew; a product of 2^64 or more is the nest-shape fault;
`next` hands out the chunk's next index unpacked into i0-i3, or asks the claim unit, which gives a crew that is alone half of what remains, rounded
up. -/
def Obligations.LoopsAndIdentity : Prop :=
  ((∀ (d : BitVec 8),
    Gives (.idget d 0) [d] d 4 (fun s => BitVec.ofNat 64 ((s.virt (siteOfK s.cur)).2 * 256 + (s.virt (siteOfK s.cur)).1)) ∧
    Gives (.idget d 1) [d] d 4 (fun s => BitVec.ofNat 64 (s.cur / 16 % 16)) ∧ Gives (.idget d 2) [d] d 4 (fun s => BitVec.ofNat 64 (s.cur % 16)) ∧
    Gives (.idget d 3) [d] d 4 (fun s => BitVec.ofNat 64 ((s.virt (siteOfK s.cur)).2 * 2 ^ 16 + (s.virt (siteOfK s.cur)).1 * 2 ^ 8 + s.cur % 256)) ∧
    Gives (.idget d 4) [d] d 4 (fun s => BitVec.ofNat 64 s.me.crew) ∧ Gives (.idget d 5) [d] d 4 (fun s => s.me.gang.setWidth 64) ∧
    Gives (.idget d 6) [d] d 4 (fun s => s.me.launch.setWidth 64) ∧
    (∀ i : BitVec 8, 8 ≤ i.toNat → i.toNat < 16 → Gives (.idget d i) [d] d 4 (fun s => (Tab.get 0 i.toNat s.me.shape).setWidth 64)) ∧
    Gives (.idget d 0x10) [d] d 4 (fun s => s.me.i0.setWidth 64) ∧ Gives (.idget d 0x11) [d] d 4 (fun s => s.me.i1.setWidth 64) ∧
    Gives (.idget d 0x12) [d] d 4 (fun s => s.me.i2.setWidth 64) ∧ Gives (.idget d 0x13) [d] d 4 (fun s => s.me.i3.setWidth 64) ∧
    (∀ n : BitVec 3, Gives (.lget d n) [d] d 4 (fun s => (s.loop s.cur n.toNat).setWidth 64))) ∧
  (∀ (a : BitVec 8) (n m : BitVec 3) (s : State), Ready s [a] →
    ∃ t, exec (.lset a n) s = .next t ∧ Passes s t 4 ∧ t.mem = s.mem ∧ t.sites = s.sites ∧
      t.loop s.cur m.toNat = if m = n then (s.val a).setWidth 32 else s.loop s.cur m.toNat)) ∧
  ((∀ (b : BitVec 2) (s : State),
    let e := (List.range 5).map fun j => (s.loop s.cur (b.toNat + j)).toNat
    let total := e.getD 0 0 * e.getD 1 0 * e.getD 2 0 * e.getD 3 0
    (total < 2 ^ 64 → s.myGang.nest.isOpen = false → ∃ t, exec (.nest b) s = .next t ∧ Parks s t .access (.done 4) ∧ OwnReply s t .ack [] ∧
      t.myGang.nest.isOpen = true ∧ t.myGang.nest.total = total ∧ t.myGang.nest.left = total ∧ t.myGang.nest.c = max 1 (e.getD 4 0) ∧
      (t.fetcher (coreOfK s.cur) s.me.entry).joined = true ∧ (t.fetcher (coreOfK s.cur) s.me.entry).f = (t.fetcher (coreOfK s.cur) s.me.entry).h) ∧
    (2 ^ 64 ≤ total → ∃ t, exec (.nest b) s = .next t ∧ Parks s t .access (.done 4) ∧ OwnReply s t (.error 0x0013) [] ∧ t.myGang = s.myGang)) ∧
  (∀ (i : BitVec 16) (s : State),
    let f := s.fetcher (coreOfK s.cur) s.me.entry
    let n := s.myGang.nest
    ((f.joined = false ∨ n.isOpen = false) → exec (.next i) s = .next (went s (s.me.pc + 4))) ∧
    (f.joined = true → n.isOpen = true → f.f ≠ f.h → ∃ t, exec (.next i) s = .next t ∧ t.mem = s.mem ∧ t.sites = s.sites ∧
      t.me = { s.me with i0 := BitVec.ofNat 32 (f.f % n.e0), i1 := BitVec.ofNat 32 (f.f / n.e0 % n.e1), i2 := BitVec.ofNat 32 (f.f / (n.e0 * n.e1) % n.e2),
                         i3 := BitVec.ofNat 32 (f.f / (n.e0 * n.e1 * n.e2)), pc := s.me.pc + BitVec.ofInt 60 (4 * i.toInt) } ∧
      t.fetcher (coreOfK s.cur) s.me.entry = { f with f := f.f + 1 }) ∧
    (f.joined = true → n.isOpen = true → f.f = f.h →
      ∃ t, exec (.next i) s = .next t ∧ Parks s t .access (.next (s.me.pc + BitVec.ofInt 60 (4 * i.toInt))) ∧
        (t.fetcher (coreOfK s.cur) s.me.entry).claiming = true)) ∧
  (∀ (s : State) (k : Nat) (body : Addr),
    let v := siteOfK k
    let e := (s.strand k).entry
    let f := s.fetcher (coreOfK k) e
    let g := s.gang v e
    f.claiming = true → f.waiters = [k] → f.joined = true → (s.strand k).st = .parked → (s.strand k).cont = .next body → g.halting = false →
    (s.liveCores v e).filter (fun d => (s.fetcher d e).joined) = [coreOfK k] → 0 < g.nest.left →
    let m := min g.nest.left (max g.nest.c ((g.nest.left + 1) / 2))
    ∃ t, exec (.nestClaim k) s = .next t ∧ (t.gang v e).nest.left = g.nest.left - m ∧ (t.strand k).st = .ready ∧ (t.strand k).pc = body ∧
      (t.strand k).i0 = BitVec.ofNat 32 ((g.nest.total - g.nest.left) % g.nest.e0) ∧
      (t.fetcher (coreOfK k) e).f = g.nest.total - g.nest.left + 1 ∧ (t.fetcher (coreOfK k) e).h = g.nest.total - g.nest.left + m))

/-! ## Vectors -/

/-- The integer lane instructions (R318), for every integer type, mask and operand form; comparisons, selection, mask operations and lane movement
(R319, R320, R322, R328, R329). -/
def Obligations.VectorLanes : Prop :=
  (∀ (d a b t : BitVec 4) (k : BitVec 2) (z y g : BitVec 1), intTy t = true →
    let A := laneOf t a
    let B := laneB t y b
    let count := fun (s : State) i => if y = 1 then (s.me.reg b.toNat).toNat else laneOf t b s i
    let two := fun (i : Instr) (v : State → Nat → Nat) => Queued i (namesAB d a y b) .vector (Lanes t d k z v)
    two (.vadd d a b t k z y g) (fun s i => asLane t g (asInt t (A s i) + asInt t (B s i))) ∧
    two (.vsub d a b t k z y g) (fun s i => asLane t g (asInt t (A s i) - asInt t (B s i))) ∧
    two (.vmul d a b t k z y g) (fun s i => asLane t g (asInt t (A s i) * asInt t (B s i))) ∧
    two (.vmulh d a b t k z y) (fun s i => asLane t 0 (asInt t (A s i) * asInt t (B s i) / 2 ^ valBits t)) ∧
    two (.vmin d a b t k z y) (fun s i => asLane t 0 (min (asInt t (A s i)) (asInt t (B s i)))) ∧
    two (.vmax d a b t k z y) (fun s i => asLane t 0 (max (asInt t (A s i)) (asInt t (B s i)))) ∧
    two (.vand d a b t k z y) (fun s i => A s i &&& B s i) ∧
    two (.vor d a b t k z y) (fun s i => A s i ||| B s i) ∧
    two (.vxor d a b t k z y) (fun s i => A s i ^^^ B s i) ∧
    two (.vshl d a b t k z y) (fun s i => if valBits t ≤ count s i then 0 else A s i * 2 ^ count s i) ∧
    two (.vshr d a b t k z y) (fun s i => if valBits t ≤ count s i then 0 else A s i / 2 ^ count s i) ∧
    two (.vsra d a b t k z y) (fun s i => ((BitVec.ofNat (valBits t) (A s i)).sshiftRight (min (count s i) (valBits t))).toNat) ∧
    Queued (.vabs d a t k z g) (vecRegs d.toNat ++ vecRegs a.toNat) .vector (Lanes t d k z fun s i => asLane t g |asInt t (A s i)|) ∧
    Queued (.vpopc d a t k z) (vecRegs d.toNat ++ vecRegs a.toNat) .vector
      (Lanes t d k z fun s i => (List.range (valBits t)).countP fun j => (A s i).testBit j)) ∧
  (∀ (d a b t : BitVec 4) (m n k : BitVec 2) (z y : BitVec 1), lanesOf t ≠ 0 →
    let A := laneOf t a
    let B := laneB t y b
    let idx := fun (s : State) => (s.me.reg b.toNat).toNat % lanesOf t
    (intTy t = true → ∀ p ∈ ([(0, fun x y => decide (x = y)), (1, fun x y => decide (x ≠ y)), (2, fun x y => decide (x < y)), (3, fun x y => decide (x ≤ y)),
        (4, fun x y => decide (y < x)), (5, fun x y => decide (y ≤ x))] : List (BitVec 3 × (Int → Int → Bool))),
      Queued (.vcmp m a b t k y p.1) (vecRegs a.toNat ++ namesB y b) .vector
        (MaskBits t m fun s i => (s.me.mask k.toNat).getLsbD i && p.2 (asInt t (A s i)) (asInt t (B s i)))) ∧
    (∀ p, Queued (.vfcmp m a b t k y p) (vecRegs a.toNat ++ namesB y b) .vector
      (MaskBits t m fun s i => (s.me.mask k.toNat).getLsbD i && fcmpPred p.toNat ((fmtOf t).decode (A s i)) ((fmtOf t).decode (B s i)))) ∧
    Queued (.vsel d a b t k y) (vecRegs d.toNat ++ vecRegs a.toNat ++ namesB y b) .vector
      (Lanes t d 0 0 fun s i => if (s.me.mask k.toNat).getLsbD i then A s i else B s i) ∧
    (∀ p ∈ ([(0, fun x y => x && y), (1, fun x y => x || y), (2, fun x y => xor x y), (3, fun x y => x && !y), (4, fun x _ => !x)]
        : List (BitVec 3 × (Bool → Bool → Bool))),
      Queued (.mop m n k t p.1) [] .vector (MaskBits t m fun s i => p.2 ((s.me.mask n.toNat).getLsbD i) ((s.me.mask k.toNat).getLsbD i))) ∧
    Queued (.vbcast d a b t k z) (vecRegs d.toNat ++ (vecRegs a.toNat ++ [b.toNat])) .vector (Lanes t d k z fun s _ => A s (idx s)) ∧
    Queued (.vext d a b t) ([d.toNat] ++ vecRegs a.toNat ++ [b.toNat]) .vector (Scalar d fun s => BitVec.ofInt 64 (asInt t (A s (idx s)))) ∧
    Queued (.vins d a b t) (vecRegs d.toNat ++ [a.toNat, b.toNat]) .vector
      (Lanes t d 0 0 fun s i => if i = idx s then (s.me.reg a.toNat).toNat else laneOf t d s i) ∧
    Queued (.vperm d a b t k z) (vecRegs d.toNat ++ (vecRegs a.toNat ++ vecRegs b.toNat)) .vector
      (Lanes t d k z fun s i => A s (laneOf t b s i % lanesOf t)) ∧
    Queued (.vsplat d a t k z) (vecRegs d.toNat ++ [a.toNat]) .vector (Lanes t d k z fun s _ => (s.me.reg a.toNat).toNat))

/-- The floating-point lane instructions (R321, R323): each lane is the operation on the decoded values, rounded once in the mode of the rounding
field; the fused ones add to vd. Special functions take a special-function permit. -/
def Obligations.VectorFloats : Prop :=
  ∀ (d a b t : BitVec 4) (k : BitVec 2) (z y : BitVec 1) (r : BitVec 3), lanesOf t ≠ 0 →
    let F := fmtOf t
    let A := fun s i => F.decode (laneOf t a s i)
    let B := fun s i => F.decode (laneB t y b s i)
    let D := fun s i => F.decode (laneOf t d s i)
    let two := fun (i : Instr) (v : State → Nat → Nat) => Queued i (namesAB d a y b) .vector (Lanes t d k z v)
    let md := fun (s : State) => s.me.mode r
    two (.vfadd d a b t k z y r) (fun s i => F.result (md s) (FVal.add (md s == .rd) (A s i) (B s i))) ∧
    two (.vfsub d a b t k z y r) (fun s i => F.result (md s) (FVal.add (md s == .rd) (A s i) (B s i).negate)) ∧
    two (.vfmul d a b t k z y r) (fun s i => F.result (md s) (FVal.mul (A s i) (B s i))) ∧
    two (.vfma d a b t k z y r) (fun s i => F.result (md s) (FVal.add (md s == .rd) (FVal.mul (A s i) (B s i)) (D s i))) ∧
    two (.vfms d a b t k z y r) (fun s i => F.result (md s) (FVal.add (md s == .rd) (D s i) (FVal.mul (A s i) (B s i)).negate)) ∧
    two (.vfmin d a b t k z y) (fun s i => F.minR (laneOf t a s i) (laneB t y b s i)) ∧
    two (.vfmax d a b t k z y) (fun s i => F.maxR (laneOf t a s i) (laneB t y b s i)) ∧
    Queued (.vfabs d a t k z) (vecRegs d.toNat ++ vecRegs a.toNat) .vector
      (Lanes t d k z fun s i => if A s i = .nan then F.canon else laneOf t a s i % 2 ^ (F.width - 1)) ∧
    (∀ q ∈ ([(.vrcp d a t k z r, fRcp), (.vrsq d a t k z r, fRsq), (.vexp2 d a t k z r, fExp2), (.vlog2 d a t k z r, fLog2), (.vtanh d a t k z r, fTanh)]
        : List (Instr × (FVal → FVal))),
      Queued q.1 (vecRegs d.toNat ++ vecRegs a.toNat) .sfu (Lanes t d k z fun s i => F.result (md s) (q.2 (A s i))))

/-- Conversion, reduction, summation and scan (R324-R327): a conversion writes the lanes of its part from their source lanes and with SR steps the
generator; a reduction combines the active lanes, from the value that stands for none; `vfsum` adds in a fixed tree; a scan's lane is the
combination of the active lanes up to it. -/
def Obligations.VectorReductions : Prop :=
  ∀ (d a b t : BitVec 4) (k q : BitVec 2) (z g : BitVec 1) (r : BitVec 3), lanesOf t ≠ 0 →
    let A := laneOf t a
    let active := fun (s : State) => (List.range (lanesOf t)).filter fun i => (s.me.mask k.toNat).getLsbD i
    let n := min (lanesOf t) (lanesOf b)
    let d0 := if lanesOf t ≤ lanesOf b then 0 else q.toNat * n
    let s0 := if lanesOf t ≤ lanesOf b then q.toNat * n else 0
    (r ≠ 5 → Queued (.vcvt d a b t k q g r) (vecRegs d.toNat ++ vecRegs a.toNat) .vector
      (Lanes t d k 0 fun s i => if d0 ≤ i ∧ i < d0 + n then convertLane t b (s.me.mode r) (g == 1) (laneOf b a s (s0 + (i - d0))) else laneOf t d s i)) ∧
    Queued (.vcvt d a b t k q g 5) (vecRegs d.toNat ++ vecRegs a.toNat) .vector (fun s v => v.seed = some (srAfter n s.me.seed)) ∧
    (intTy t = true → ∀ p ∈ ([(0, fun l => BitVec.ofInt 64 l.sum), (1, fun l => BitVec.ofInt 64 (l.foldl min (tyMax t))),
        (2, fun l => BitVec.ofInt 64 (l.foldl max (tyMin t))),
        (3, fun l => l.foldl (fun w x => w &&& BitVec.ofInt 64 x) (if tyMin t < 0 then BitVec.allOnes 64 else BitVec.ofInt 64 (tyMax t))),
        (4, fun l => l.foldl (fun w x => w ||| BitVec.ofInt 64 x) 0), (5, fun l => l.foldl (fun w x => w ^^^ BitVec.ofInt 64 x) 0)]
        : List (BitVec 3 × (List Int → Word))),
      Queued (.vred d a b t k p.1) (d.toNat :: vecRegs a.toNat) .vector (Scalar d fun s => p.2 ((active s).map fun i => asInt t (A s i)))) ∧
    Queued (.vfsum d a b t k r) (d.toNat :: vecRegs a.toNat) .vector
      (Scalar d fun s => BitVec.ofNat 64 ((sumTree (fp32.addR (s.me.mode r)) 6 ((List.range (lanesOf t)).map fun i =>
        if (s.me.mask k.toNat).getLsbD i then fp32.result .rne ((fmtOf t).decode (A s i)) else 0x80000000)).headD 0)) ∧
    Queued (.vscan d a b t k z r) (vecRegs d.toNat ++ vecRegs a.toNat) .vector
      (Lanes t d k z fun s i => match (active s).filter (· ≤ i) with
        | [] => 0
        | j :: l => (l.map (A s)).foldl (scanStep s.me t r) (A s j))

/-- The vector unit (R312, R316): it takes the first untaken operation of its queue, and an operation without elements then writes every destination
in one step; its strand is READY again and moves on. -/
def Obligations.VectorUnit : Prop :=
  (∀ (s : State) (c : Nat) (o : VOp), (s.core c).vq.find? (fun o => !o.taken) = some o → o.elems = [] →
    ∃ t, exec (.vectorQueueTake c) s = .next t ∧ t.mem = s.mem ∧ t.sites = s.sites ∧ t.strands = s.strands ∧
      (c = coreOfK o.k → { o with taken := true } ∈ (t.core c).vq)) ∧
  (∀ (s : State) (k n v : Nat) (o : VOp), s.vopOf k = some o → o.k = k → o.taken = true → o.elems = [] → o.fault = none → o.dest = none →
    (s.core (coreOfK k)).vectorReplay k = false → o.result = { regs := vecWords n v } → (s.strand k).st = .parked →
    (s.gang (siteOfK k) (s.strand k).entry).halting = false →
    ∃ t, exec (.vectorResult k) s = .next t ∧ (t.strand k).vec n = v % 2 ^ 1024 ∧ (t.strand k).st = .ready ∧
      (t.strand k).pc = (s.strand k).pc + 4 ∧ t.mem = s.mem ∧ s.sites = t.sites ∧
      (∀ r, r ∉ vecRegs n → (t.strand k).reg r = (s.strand k).reg r) ∧ ∀ j, j ≠ k → t.strand j = s.strand j)

/-- Vector loads and stores of a block, full/empty block accesses, gathers and scatters (R330-R333): the elements that go out, with the bytes that
a store's elements carry, the unused bits of a 6-bit lane 0 (R237); a reply keeps the bytes of its element; and when every element is performed a load
writes the active lanes of its destination from the bytes kept, an inactive lane keeps its value or with Z becomes 0, and the strand goes on. -/
def Obligations.VectorMemory : Prop :=
  (∀ (d a b t : BitVec 4) (k : BitVec 2) (z c : BitVec 1) (g : BitVec 3) (s : State) (p : Addr), lanesOf t ≠ 0 →
    let stored := fun w : Nat => w < 2 ^ 1024 ∧ ∀ l, l < lanesOf t → w / 2 ^ (laneBits t * l) % 2 ^ laneBits t = laneOf t d s l
    let at_ := fun (need align : Nat) => s.checkAccess s.cur (s.me.seg g.toNat) (s.me.reg a.toNat).toNat 128 need align = .ok p
    let n := laneBits t / 8
    (MemReady s (vecRegs d.toNat ++ [a.toNat]) →
      (at_ rR 16 → QueuedMem (.vld d a t k z g) s (some { vd := d.toNat, ty := t.toNat, mask := k.toNat, zero := z == 1 })
        (blockOfLanes s t k p (· = .read))) ∧
      (at_ rW 16 → QueuedMem (.vst d a t k g) s none fun el => blockOfLanes s t k p (fun o => o = .write ∨ (laneBits t = 4 ∧ o = .nibble)) el ∧
        (∀ e ∈ el, ∀ j, j < 16 → e.acc.en.testBit j = (s.me.mask k.toNat).getLsbD ((128 * e.ix + 8 * j) / laneBits t) ∧
          (e.acc.op = .nibble → e.acc.hi.testBit j = (s.me.mask k.toNat).getLsbD ((128 * e.ix + 8 * j + 4) / laneBits t))) ∧
        ∃ w, stored w ∧ ∀ e ∈ el, e.acc.data = leBytes 16 (w / 2 ^ (128 * e.ix))) ∧
      (at_ (rR + rF) 128 → s.feCore (siteOfK s.cur) p false = false →
        QueuedMem (.vldf d a t c g) s (some { vd := d.toNat, ty := t.toNat, mask := 0, zero := false }) fun el =>
          ∃ e, el = [e] ∧ e.acc.op = .vldf (c == 1) ∧ e.acc.addr = p ∧ e.acc.size = 128 ∧ e.acc.owner = .strand s.cur) ∧
      (at_ (rW + rF) 128 → s.feCore (siteOfK s.cur) p false = false → QueuedMem (.vstf d a t g) s none fun el =>
        ∃ e w, el = [e] ∧ e.acc.op = .writeFull ∧ e.acc.addr = p ∧ e.acc.size = 128 ∧ e.acc.owner = .strand s.cur ∧ stored w ∧
          e.acc.data = leBytes 128 w)) ∧
    (MemReady s (vecRegs d.toNat ++ [a.toNat] ++ vecRegs b.toNat) → ∀ l,
      (s.laneAddrs a b t k g rR = .ok l → QueuedMem (.vgather d a b t k z g) s (some { vd := d.toNat, ty := t.toNat, mask := k.toNat, zero := z == 1 })
        fun el => el.map (fun e => (e.ix, e.acc.addr)) = l ∧ ∀ e ∈ el, e.acc.op = .read ∧ e.acc.size = n ∧ e.acc.owner = .element s.cur e.ix) ∧
      (s.laneAddrs a b t k g rW = .ok l → QueuedMem (.vscatter d a b t k g) s none
        fun el => (∀ e ∈ el, (e.ix, e.acc.addr) ∈ l ∧ (∀ q ∈ l, e.ix < q.1 → q.2 ≠ e.acc.addr) ∧ e.acc.op = .write ∧ e.acc.size = n ∧
          e.acc.data = leBytes n (lane t (s.me.vec d.toNat) e.ix)) ∧ ∀ q ∈ l, (∀ u ∈ l, q.1 < u.1 → u.2 ≠ q.2) → ∃ e ∈ el, (e.ix, e.acc.addr) = q))) ∧
  (∀ (s : State) (n k i : Nat) (m : Msg) (x : Txn) (o : VOp) (e : VElem), Replied s n m .data x → x.acc.owner = .element k i → s.vopOf k = some o →
    o.elems.find? (fun e => e.ix == i) = some e → Rising o.buf →
    ∃ t q, exec (.rspData n) s = .next t ∧ t.mem = s.mem ∧ t.strands = s.strands ∧ t.vopOf k = some q ∧
      q = { o with buf := q.buf, elems := o.elems.map fun e => if e.ix = i then { e with done := true } else e } ∧
      ∀ j, Tab.get 0 j q.buf = if e.pos ≤ j ∧ j < e.pos + m.data.length then m.data.getD (j - e.pos) 0 else Tab.get 0 j o.buf) ∧
  (∀ (s : State) (k : Nat) (o : VOp) (d : VDest), s.vopOf k = some o → o.k = k → o.taken = true → o.fault = none → (∀ e ∈ o.elems, e.done = true) →
    o.result = {} → o.dest = some d → (s.core (coreOfK k)).vectorReplay k = false → (s.strand k).st = .parked →
    (s.gang (siteOfK k) (s.strand k).entry).halting = false →
    let x := s.strand k
    let ty := BitVec.ofNat 4 d.ty
    let v := leNat ((List.range 128).map fun j => Tab.get 0 j o.buf)
    ∃ t, exec (.vectorResult k) s = .next t ∧ t.mem = s.mem ∧ t.sites = s.sites ∧ (t.strand k).st = .ready ∧ (t.strand k).pc = x.pc + 4 ∧
      (∀ i, i < lanesOf ty → lane ty ((t.strand k).vec d.vd) i =
        if (x.mask d.mask).getLsbD i then lane ty v i else if d.zero then 0 else lane ty (x.vec d.vd) i) ∧
      (∀ r, r ∉ vecRegs d.vd → (t.strand k).reg r = x.reg r) ∧ ∀ j, j ≠ k → t.strand j = s.strand j)

/-! ## The matrix engine -/

/-- The issue of the accumulator instructions (R343-R349): `mma` and `mma.idx` with their parameters copied from their registers and loop registers,
`mzero`, `mload`, `mstore`, `mdrain`; and what `mcapr` reads. -/
def Obligations.MatrixIssue : Prop :=
  ∀ (d a b : BitVec 8) (acc : BitVec 2) (k : BitVec 3) (x : BitVec 1) (tb ta vi : BitVec 4) (m : BitVec 6) (s : State),
    let c := coreOfK s.cur
    let l := fun n => s.loop s.cur n
    let par := fun rows : List Nat =>
      ({ ta := ta.toNat, tb := tb.toNat, x := x == 1, kk := (l k.toNat).toNat, offA := ((s.val d).extractLsb' 0 22).toNat,
         offB := ((s.val d).extractLsb' 32 22).toNat, lda := ((s.val a).extractLsb' 0 16).toNat, ldb := ((s.val a).extractLsb' 16 16).toNat,
         ldsa := ((s.val a).extractLsb' 32 16).toNat, ldsb := ((s.val a).extractLsb' 48 16).toNat,
         offSA := ((l (k.toNat + 1)).extractLsb' 0 22).toNat, offSB := ((l (k.toNat + 2)).extractLsb' 0 22).toNat, rowIx := rows } : Mma)
    let fits := fun p : Mma => m.toNat ≤ (s.core c).maxm ∧ p.kk ≤ 65536 ∧ p.offA % 16 = 0 ∧ p.offB % 16 = 0 ∧ p.outside = false
    let off := (s.val b).toNat
    (MatrixReady s [d.toNat, a.toNat] acc.toNat → fits (par (List.range m.toNat)) →
      Enlaned (.mma d a acc k x tb ta m) s false acc.toNat 8 (.mma (par (List.range m.toNat)))) ∧
    (MatrixReady s ([d.toNat, a.toNat] ++ vecRegs vi.toNat) acc.toNat →
      let p := par ((List.range m.toNat).map fun i => ((s.me.vec vi.toNat) / 2 ^ (32 * i)) % 2 ^ 32)
      fits p → Enlaned (.mmaIdx d a acc k x vi tb ta m) s false acc.toNat 8 (.mma p)) ∧
    (MatrixReady s [a.toNat] (s.val a).toNat → Enlaned (.mzero a) s false (s.val a).toNat 4 .zero) ∧
    (MatrixReady s [a.toNat, b.toNat] (s.val a).toNat → off % 16 = 0 → off + 4096 ≤ 4194304 →
      Enlaned (.mload a b) s false (s.val a).toNat 4 (.load off) ∧ Enlaned (.mstore a b) s true (s.val a).toNat 4 (.store off)) ∧
    (let n := ((s.val a).extractLsb' 0 6).toNat
     let q := ((s.val a).extractLsb' 16 4).toNat
     let e := ((s.val a).extractLsb' 8 2).toNat
     MatrixReady s [a.toNat, b.toNat] e → 0 < n → n ≤ 32 → s.slotOpen q = true → (s.val b).extractLsb' 0 2 = 0 → 2 ≤ s.myGang.desc.sgran →
     2 ≤ s.myGang.desc.creg - s.crewGranules c s.me.entry →
     Enlaned (.mdrain a b) s true e 4 (.drain n q ((s.val b).setWidth 60) ((l 6).setWidth 64) ((l 7).setWidth 64)
       (if (s.val a).getLsbD 47 then some ((s.val a).extractLsb' 32 10).toNat else none))) ∧
    (Ready s [d] → exec (.mcapr d) s = .next (wrote s d (BitVec.ofNat 64 (4 * 2 ^ 16 + 32 * 2 ^ 8 + (s.core c).maxm)) 4))

/-- A lane of the engine (R343, R346, R348): its head begins when no earlier operation of the other lane names its accumulator; `mzero`,
`mload` and `mstore` take effect at their end (log 31), and their strand goes on. The rows of a drain (R349): when a row's handler has ended, the next
row's handler begins in the drain's slot with a1 the row, a2 and a3 its arguments and v0 the row's elements; after the last row the slot is free and
the strand goes on. -/
def Obligations.MatrixLanes : Prop :=
  ((∀ (s : State) (c : Nat) (drain : Bool) (o : MOp), (s.core c).lane drain = [o] → (s.core c).lane (!drain) = [] → o.begun = false →
    (∀ n q e x y z, o.kind ≠ .drain n q e x y z) →
    ∃ t, exec (.matrixOpBegin c drain) s = .next t ∧ (t.core c).lane drain = [{ o with begun := true }] ∧ t.mem = s.mem ∧ t.strands = s.strands) ∧
  (∀ (s : State) (c : Nat) (o : MOp), AtHead s c false o → o.begun = true → o.kind = .zero →
    ∃ t, exec (.matrixOpComplete c false) s = .next t ∧ GoesOn s t o.k o.adv ∧ (t.core c).mul = [] ∧ t.mem = s.mem ∧
      ∀ i, i < 1024 → accElem t c (s.strand o.k).entry o.acc i = 0) ∧
  (∀ (s : State) (c off : Nat) (o : MOp), AtHead s c false o → o.begun = true → o.kind = .load off → TileOk s o.k off 4096 →
    ∃ t, exec (.matrixOpComplete c false) s = .next t ∧ GoesOn s t o.k o.adv ∧ (t.core c).mul = [] ∧ t.mem = s.mem ∧
      ∀ i, i < 1024 → accElem t c (s.strand o.k).entry o.acc i =
        BitVec.ofNat 32 (leNat ((List.range 4).map fun j => Memory.read s.mem (homeKey (siteOfK o.k) (coreNo o.k / 4) off + (4 * i + j))))) ∧
  (∀ (s : State) (c off : Nat) (o : MOp), Sound s → AtHead s c true o → o.begun = true → o.kind = .store off → TileOk s o.k off 4096 → off % 16 = 0 →
    ∃ t, exec (.matrixOpComplete c true) s = .next t ∧ GoesOn s t o.k o.adv ∧ (t.core c).drn = [] ∧
      ∀ a, Memory.read t.mem a =
        let h := homeKey (siteOfK o.k) (coreNo o.k / 4) off
        if h ≤ a ∧ a < h + 4096 then (accElem s c (s.strand o.k).entry o.acc ((a - h) / 4)).extractLsb' (8 * ((a - h) % 4)) 8 else Memory.read s.mem a)) ∧
  (∀ (s : State) (c n q : Nat) (entry : Addr) (x y : Word) (ctr : Option Nat) (o : MOp), AtHead s c true o → o.kind = .drain n q entry x y ctr →
    o.running = true → q < 13 → slotKey c q ≠ o.k →
    (s.strand (slotKey c q)).st = .parked → (s.strand (slotKey c q)).cont = .rowEnd → (s.gang (siteOfC c) (s.strand o.k).entry).expired = false →
    siteOfC c = siteOfK o.k →
    (o.g + 1 < n → ∃ t, exec (.drainRowEnd c) s = .next t ∧
      let h := t.strand (slotKey c q)
      t.mem = s.mem ∧ h.st = .ready ∧ h.pc = entry ∧ h.granules = 2 ∧
      h.drain = true ∧ h.reg 1 = BitVec.ofNat 64 (o.g + 1) ∧ h.reg 2 = x ∧ h.reg 3 = y ∧ t.strand o.k = s.strand o.k ∧
      ∀ j, j < 32 → lane 0 (h.vec 0) j = (accElem s c (s.strand o.k).entry o.acc ((o.g + 1) * 32 + j)).toNat) ∧
    (n ≤ o.g + 1 → ctr = none → (s.site (siteOfC c)).waiters = [] → ∃ t, exec (.drainRowEnd c) s = .next t ∧ t.mem = s.mem ∧
      (t.strand (slotKey c q)).st = .free ∧ (t.core c).drn = [] ∧ (t.strand o.k).st = .ready ∧
      (t.strand o.k).pc = (s.strand o.k).pc + BitVec.ofNat 60 o.adv))

/-- A K-group of a multiply (R248, R346): each element of rows 0 to M - 1 gains the group's products, summed as `accumulate` says; the rows from M
on keep theirs, and memory does not change. After the last group the strand goes on. In user mode each store granule that the group reads must be
held by some gang of the pavilion; else the operation ends before the group, and its strand takes the unheld-store fault at its instruction (R80). -/
def Obligations.MatrixGroups : Prop :=
  ∀ (s : State) (c : Nat) (o : MOp) (p : Mma), AtHead s c false o → o.begun = true → o.kind = .mma p →
    let e := (s.strand o.k).entry
    let reads := fun g => ∃ r ∈ p.ranges (o.g * groupOf p.ta) (min p.kk ((o.g + 1) * groupOf p.ta)), r.1 / 16384 ≤ g ∧ g ≤ (r.1 + r.2 - 1) / 16384
    let held := fun g => (s.site (siteOfK o.k)).storeHeld (coreNo o.k / 4) g
    let steps := o.g < p.groups ∧ (s.gang (siteOfK o.k) e).expired = false ∧ (o.g = 0 ∨ s.hasPermit c .matrix = true)
    (steps → s.flaws = [] → ((s.strand o.k).sup = true ∨ ∀ g, reads g → held g = true) →
      ∃ t, exec (.matrixKgroupStep c) s = .next t ∧ t.mem = s.mem ∧ t.strands = s.strands ∧ (t.core c).mul = [{ o with g := o.g + 1 }] ∧
        ∀ i, i < 1024 → accElem t c e o.acc i =
          if i / 32 < p.rowIx.length then
            let r := p.rowIx.getD (i / 32) 0
            let j := i % 32
            BitVec.ofNat 32 (accumulate (accElem s c e o.acc i).toNat (((List.range (groupOf p.ta)).map (o.g * groupOf p.ta + ·)).map fun kk =>
              if kk < p.kk then
                mmaProduct p.ta p.tb (s.element o.k p.ta (p.offA + 16 * p.lda * r) kk) (s.element o.k p.tb (p.offB + 16 * p.ldb * j) kk)
                  (if p.x then some (s.tileByte o.k (p.offSA + p.ldsa * r + kk / 32), s.tileByte o.k (p.offSB + p.ldsb * j + kk / 32)) else none)
              else .fin false 0 0))
          else accElem s c e o.acc i) ∧
    (∀ g, steps → (s.strand o.k).sup = false → reads g → held g = false →
      ∃ t, exec (.matrixKgroupStep c) s = .next t ∧ t.mem = s.mem ∧ (t.core c).mul = [] ∧ (∀ i, accElem t c e o.acc i = accElem s c e o.acc i) ∧
        (t.strand o.k).faultCode = 0x0E000A ∧ (t.strand o.k).faultPc = o.pc ∧ (t.strand o.k).pc = (s.strand o.k).pc) ∧
    (o.g = p.groups → ∃ t, exec (.matrixOpComplete c false) s = .next t ∧ GoesOn s t o.k o.adv ∧ (t.core c).mul = [] ∧ t.mem = s.mem)

/-! ## Caches, the memory port and misses -/

/-- Prefetches, fills and the scrubber (R86, R91-R93, R295, R303, R436): a prefetch puts a line read into the port, or, where its check fails, is
dropped; a fill puts the line into the cache, performs the access that missed on it and lets its strand go on; a scrubbed granule raises its event. -/
def Obligations.CachesFill : Prop :=
  (∀ (x : BitVec 8) (g : BitVec 3) (o : BitVec 5) (s : State), Ready s [x] → s.hasPermit (coreOfK s.cur) .memory = true →
    let chk := s.checkAccess s.cur (s.me.seg g.toNat) (mOff x o 128 s) 1 rR 1
    (∀ a, chk = .ok a → kindBits a.toNat = 0 → lineOf (a.toNat / 128) (s.core (coreOfK s.cur)).l1d = none →
      ∃ t p, exec (.pref x g o) s = .next t ∧ Passes s t 4 ∧ t.mem = s.mem ∧
        (t.site (siteOfK s.cur)).port = (s.site (siteOfK s.cur)).port ++ [p] ∧ p.missed = false ∧ p.acc.op = .read ∧
        p.acc.addr = BitVec.ofNat 60 (a.toNat / 128 * 128) ∧ p.acc.owner = .prefetch (coreOfK s.cur) (a.toNat / 128)) ∧
    (∀ e, chk = .error e → ∃ t, exec (.pref x g o) s = .next t ∧ Passes s t 4 ∧ t.mem = s.mem ∧ t.sites = s.sites)) ∧
  (∀ (s : State) (c slot n : Nat) (q : Stream), (s.core c).streams.find? (fun q => q.slot == slot) = some q → 3 ≤ q.hits → q.ahead < 4 → slot < 16 →
    (n : Int) = q.last + (q.ahead + 1 : Nat) * q.stride → n < 2 ^ 50 → lineOf n (s.core c).l1d = none →
    let admitted := s.streamAdmits (slotKey c slot) ((s.strand (slotKey c slot)).seg q.seg) (n * 128)
    (admitted = true → ∃ t p, exec (.stridePrefetch c slot (q.ahead + 1)) s = .next t ∧ t.mem = s.mem ∧ t.strands = s.strands ∧
      (t.site (siteOfC c)).port = (s.site (siteOfC c)).port ++ [p] ∧ p.acc.op = .read ∧ p.acc.addr = BitVec.ofNat 60 (n * 128)) ∧
    (admitted = false → ∃ t, exec (.stridePrefetch c slot (q.ahead + 1)) s = .next t ∧ t.mem = s.mem ∧ t.strands = s.strands ∧ t.sites = s.sites)) ∧
  (∀ (s : State) (n k : Nat) (m : Msg) (x : Txn) (l : Line), FillArrives s n m x l → x.acc.owner = .strand k →
    let c := coreOfK x.acc.k
    (∀ ty (d : BitVec 8) a, x.acc.op = .read → WaitsFor s k (.load ty d.toNat a) →
      ∃ t w, exec (.l1dFill n) s = .next t ∧ t.mem = s.mem ∧ lineOf l.line (t.core c).l1d = some w ∧ w.data = m.data ∧ w.dirty = 0 ∧ w.mark = l.mark ∧
        t.strand k = { put (s.strand k) d (extended ty ((m.data.drop (x.acc.addr.toNat % 128)).take x.acc.size)) with
          pc := (s.strand k).pc + BitVec.ofNat 60 a, st := .ready, why := none, cont := .reissue }) ∧
    (∀ a, x.acc.op = .write → WaitsFor s k (.done a) →
      ∃ t w, exec (.l1dFill n) s = .next t ∧ t.mem = s.mem ∧ GoesOn s t k a ∧ lineOf l.line (t.core c).l1d = some w ∧ w.mark = true ∧
        w.data = (Line.write { l with data := m.data, dirty := 0 } (x.acc.addr.toNat % 128) x.acc.en x.acc.data).data)) ∧
  (∀ (s : State) (n k line : Nat) (m : Msg) (x : Txn), s.arriving n = some m → m.op = .data → s.txn m.txn = some x → x.fill = none →
    x.stale = false → x.acc.owner = .fetch k line → (s.strand k).st = .parked → (s.strand k).why = some .fetch →
    (s.gang (siteOfK k) (s.strand k).entry).halting = false →
    ∃ t, exec (.icacheFill n) s = .next t ∧ GoesOn s t k 0 ∧ t.mem = s.mem ∧ ∃ q ∈ (t.core (coreOfK k)).icache, q.line = line ∧ q.data = m.data) ∧
  (∀ (s : State) (v u g : Nat) (lasting bad : Bool), siteKey v = true → g < unitGranules v u → s.holdFull v 14 = false →
    Tab.find (homeKey v u 0 / 16 + g) s.flaws = none →
    ∃ t, exec (.scrubPass v u g lasting bad) s = .next t ∧ t.mem = s.mem ∧ t.holdFull v 14 = true ∧
      Tab.find (homeKey v u 0 / 16 + g) t.flaws = if lasting then some (if bad then 3 else 1) else none)

/-- The memory port (R82-R84, R137): an access that misses the TLB puts its message into the core's mailbox and wakes the walk strand; one without the
right is refused with page-protection; one to a placed SRAM goes to its home. The ends of a miss (R138, R139): an installed leaf stands in the TLB and
the held access may be tried again; a malformed one and a delivered code refuse it, the code for a leaf without the right before the format's (R199,
R290), and that a leaf with V clear is answered with the format's code is the model's choice (log 20); a page that is not present is recorded and its
strand parks with reason page-fault; outcome 0b11 does nothing. -/
def Obligations.Misses : Prop :=
  (∀ (s : State) (v n : Nat) (p : PortReq), AtPort s v n p →
    let c := coreOfK p.acc.k
    let va := p.acc.addr.toNat % 2 ^ 57
    (tlbFind (s.site v).tlb va = none → (s.core c).misses = [] → (∀ q ∈ (s.site v).port, q.queued = false) →
      ∃ t m, exec (.memoryPortTranslate v n) s = .next t ∧ t.mem = s.mem ∧ (t.core c).misses = [m] ∧ m.va = va ∧ m.slot = slotOf p.acc.k ∧
        m.kind = p.acc.kind ∧ m.port = n ∧ m.epoch = (s.site v).tlbEpoch ∧
        ((s.strand (slotKey c 13)).st = .parked → (s.strand (slotKey c 13)).why = some .missIdle → (t.strand (slotKey c 13)).st = .ready)) ∧
    (∀ e, tlbFind (s.site v).tlb va = some e → (pteClass e.pte ≠ 0 → s.granuleWaits v p.acc = false) →
      (pteClass e.pte = 0 → p.acc.cacheable = false → p.acc.isEngine = false → s.bypassWaits v c p.acc = false) →
      ((if p.acc.op.writes then e.pte.getLsbD 57 else e.pte.getLsbD 58) = false →
        ∃ t, exec (.memoryPortTranslate v n) s = .next t ∧ t.mem = s.mem ∧ Refused t p.acc 0x0C) ∧
      (∀ d x, (if p.acc.op.writes then e.pte.getLsbD 57 else e.pte.getLsbD 58) = true → 2 ≤ pteClass e.pte → e.pte.getLsbD 56 = true →
        (p.acc.op.writes = true → e.dirty = true) →
        s.resolve v (pteX e.pte) (pteY e.pte) (pteFrame e.pte + p.acc.addr.toNat % 2 ^ pageBits e.size) = some (d, x) →
        ∃ t, exec (.memoryPortTranslate v n) s = .next t ∧ t.mem = s.mem ∧ (t.site v).portReq n = none ∧
          ∃ q ∈ t.net, q.op = .req p.acc.op ∧ q.src = v ∧ q.dst = d ∧ q.off = pteFrame e.pte + p.acc.addr.toNat % 2 ^ pageBits e.size ∧
            q.unit = (if pteClass e.pte = 2 then 4 else (e.pte.extractLsb' 37 2).toNat) ∧ q.len = p.acc.size ∧ q.data = p.acc.data ∧ q.en = p.acc.en))) ∧
  (∀ (s : State) (k : Nat) (w : Word) (m : Miss) (rest : List Miss), MissWritten s k w m rest →
    let c := coreOfK k
    let v := siteOfC c
    let leaf := (s.core c).missPte
    let ends := fun (i : Instr) (p : State → Prop) => ∃ t, exec i s = .next t ∧ GoesOn s t k 8 ∧ (t.core c).misses = rest ∧ t.mem = s.mem ∧ p t
    (w.toNat % 4 = 0 → (s.site v).tlbEpoch = m.epoch → s.pteMalformed v leaf = false →
      ends (.missDoneInstall k) fun t => (∃ e ∈ (t.site v).tlb, e.pte = leaf ∧ e.size = pteSize leaf ∧ e.vpn = m.va / 2 ^ pageBits (pteSize leaf)) ∧
        ∀ q ∈ (t.site v).port, q.id = m.port → q.missed = false) ∧
    (∀ p, w.toNat % 4 = 0 → (s.site v).tlbEpoch = m.epoch → s.pteMalformed v leaf = true → (s.site v).portReq m.port = some p →
      ends (.missDoneInstall k) fun t => Refused t p.acc
        (if leaf.getLsbD 63 = true ∧ leaf.getLsbD (if p.acc.op.writes then 57 else 58) = false then 0x0C else 0x0D)) ∧
    (∀ p, w.toNat % 4 = 2 → (s.site v).portReq m.port = some p →
      ends (.missDoneFault k) fun t => Refused t p.acc (w.extractLsb' 16 16).toNat) ∧
    (∀ p j, w.toNat % 4 = 1 → (s.site v).portReq m.port = some p → p.acc.owner = .strand j → p.acc.k = j → j ≠ k → m.kind ≠ 0x13 →
      replayable m.kind = false → (s.site v).fqFull = false → (s.strand j).st = .parked →
      (s.gang (siteOfK j) (s.strand j).entry).expired = false →
      ends (.missDoneNotPresent k) fun t => (t.strand j).st = .parked ∧ (t.strand j).why = some .pageFault ∧ (t.strand j).cont = .reissue ∧
        (t.strand j).pc = (s.strand j).pc ∧ (t.strand j).faultPc = p.acc.pc ∧ (t.site v).fqTail = ((s.site v).fqTail + 1) % 2 ^ 32 ∧
        ∃ r, Tab.find ((s.site v).fqTail % 256) (t.site v).fq = some r ∧ r.w0 = BitVec.ofNat 64 (p.acc.addr.toNat % 2 ^ 57)) ∧
    (w.toNat % 4 = 3 → ∃ t, exec (.missDoneIgnored k) s = .next t ∧ GoesOn s t k 8 ∧ t.mem = s.mem ∧ t.sites = s.sites ∧ t.cores = s.cores))

/-- Faults that arrive late, wake words, replay entries and the fault queue (R136, R141, R142, R292); that the interrupt 65 of R420 leaves with the
notice is the model's choice (log 60). TLB invalidations (R200): the entries that map the
address, or all, go in the same cycle, the epoch rises and BUSY is set; BUSY clears once every access that a removed entry translated is performed and the bytes stored through it
are at their homes. -/
def Obligations.LateFaultsAndTlb : Prop :=
  ((∀ (s : State) (k : Nat) (f : Late) (rest : List Late), (s.strand k).late = f :: rest → (s.strand k).st = .ready → f.code ≠ 0x0B →
    exec (.lateFaultTaken k) s = .next ((s.modStrand k fun x => { x with late := rest }).takeFault k
      { code := Code.ofNum f.code, addr := some f.addr, pc := f.pc, kind := f.kind })) ∧
  (∀ (s : State) (c ix : Nat) (r : Replay), (s.core c).replays.find? (fun q => q.ix == ix) = some r → r.dead = false → r.waiting = false → r.accs = [] →
    r.issued = [] →
    4 ≤ r.kind → r.kind ≤ 6 → r.slot < 13 → WaitsFor s (slotKey c r.slot) .engine → (s.strand (slotKey c r.slot)).why = some .pageFault →
    (∀ q ∈ (s.core c).replays, q.ix ≠ ix → q.slot = r.slot → q.kind < 4 ∨ 6 < q.kind) →
    ∃ t, exec (.replayEntryEnd c ix) s = .next t ∧ t.mem = s.mem ∧ (t.core c).replays = (s.core c).replays.filter (fun q => q.ix != ix) ∧
      (t.strand (slotKey c r.slot)).st = .ready ∧ (t.strand (slotKey c r.slot)).pc = (s.strand (slotKey c r.slot)).pc) ∧
  (∀ (s : State) (v : Nat) (w : Word), kindOf v = .pavilion →
    (w.extractLsb' 38 16).toNat = (s.virt v).2 * 256 + (s.virt v).1 →
    let k := v * 256 + (w.extractLsb' 30 8).toNat
    (w.getLsbD 24 = false → (s.strand k).st = .parked → (s.strand k).why = some .pageFault →
      (s.gang (siteOfK k) (s.strand k).entry).halting = false → (∀ o ∈ (s.core (coreOfK k)).vq, o.k ≠ k) →
      ∃ t, exec (.fqWake v w) s = .next t ∧ t.mem = s.mem ∧
        t.strand k = { s.strand k with late := (s.strand k).late.filter (fun f => f.code != 0x0B), st := .ready, why := none, cont := .reissue }) ∧
    (w.getLsbD 24 = true → ∃ t, exec (.fqWake v w) s = .next t ∧ t.mem = s.mem ∧
      ∀ q ∈ (t.core (coreOfK k)).replays, q.ix = (w.extractLsb' 25 5).toNat → q.waiting = true →
        q ∈ (s.core (coreOfK k)).replays ∧ (s.core (coreOfK k)).replays.find? (fun r => r.ix == q.ix && r.waiting) = none)) ∧
  (∀ (s : State) (v : Nat) (w : Word), kindOf v = .pavilion →
    let dist := fun n => (n + 2 ^ 32 - (s.site v).fqHead) % 2 ^ 32
    ∃ t, exec (.fqHeadWrite v w) s = .next t ∧ t.mem = s.mem ∧ (t.site v).fqTail = (s.site v).fqTail ∧ (t.site v).fq = (s.site v).fq ∧
      (t.site v).fqHead = if dist (w.toNat % 2 ^ 32) ≤ dist (s.site v).fqTail then w.toNat % 2 ^ 32 else (s.site v).fqTail) ∧
  (∀ (s : State) (n : Nat) (m : Msg), s.arriving n = some m → m.op = .faultNotice →
    exec (.faultQueueNotice n) s = .next ((s.consume n).modGate m.dst fun g => { g with faultNotices := g.faultNotices + 1 }.interrupt 65))) ∧
  (∀ (s : State) (v : Nat) (a : BitVec 64), kindOf v = .pavilion →
    (∀ q ∈ ([(.tlbInvAddr v a, fun e => e.maps (a.toNat % 2 ^ 57)), (.tlbInvAll v, fun _ => true)] : List (Instr × (TlbEntry → Bool))),
      ((s.site v).tlbBusy = false → ∃ t, exec q.1 s = .next t ∧ t.mem = s.mem ∧ t.strands = s.strands ∧
        (t.site v).tlb = (s.site v).tlb.filter (fun e => !q.2 e) ∧ (t.site v).tlbEpoch = ((s.site v).tlbEpoch + 1) % 2 ^ 32 ∧ (t.site v).tlbBusy = true) ∧
      ((s.site v).tlbBusy = true → ∃ t, exec q.1 s = .next t ∧ (t.site v).tlb = (s.site v).tlb ∧ (t.site v).tlbEpoch = (s.site v).tlbEpoch ∧
        (t.site v).tlbHeld.length = (s.site v).tlbHeld.length + 1)) ∧
    ((s.site v).tlbBusy = true → (∀ n ∈ (s.site v).tlbWait, ∀ u, s.txn n = some u → s.unperformed u = false) →
      (∀ l ∈ s.dirtyLines v, ∀ e ∈ (s.site v).tlbGone, e.made l = false) →
      (∀ u ∈ s.txns, u.acc.owner = .writeBack → u.req.src = v → s.unperformed u = false) → (s.site v).tlbHeld = [] →
      ∃ t, exec (.tlbBusyClear v) s = .next t ∧ (t.site v).tlbBusy = false ∧ (t.site v).tlb = (s.site v).tlb ∧ t.mem = s.mem))

/-! ## Control registers, queues and tables -/

/-- `getc` and `setc` (R56, R57, R371): the number and privilege checks come first; the strand's own registers are read and written in the turn,
the pavilion's by a step of their own, ctl.psave, ev.target and ctl.pt_root among them (R67, R167, R193). Permits, the watchdog, the pinned region and
ticks (R62, R65, R68, R87, R226, R228). Which granules a change of the pinned region's size zeroes, those between the two sizes, and that the lower
ones keep their bytes, is the model's choice (log 51). -/
def Obligations.ControlRegisters : Prop :=
  (∀ d : BitVec 8, Gives (.getc d 1) [d] d 8 (fun s => s.me.faultCode) ∧ Gives (.getc d 2) [d] d 8 (fun s => s.me.faultAddr.setWidth 64) ∧
    Gives (.getc d 3) [d] d 8 (fun s => s.me.rnd.setWidth 64) ∧ Gives (.getc d 4) [d] d 8 (fun s => s.me.seed) ∧
    Gives (.getc d 5) [d] d 8 (fun s => s.me.faultPc.setWidth 64)) ∧
  (∀ (d a : BitVec 8) (n : BitVec 16) (s : State),
    (regKind n.toNat = none → exec (.getc d n) s = .next (s.raiseFault s.cur .illegal) ∧ exec (.setc a n) s = .next (s.raiseFault s.cur .illegal)) ∧
    (regKind n.toNat ≠ none → s.me.sup = false → 0x0800 ≤ n.toNat → exec (.getc d n) s = .next (s.raiseFault s.cur .privilege)) ∧
    (regKind n.toNat = some .sup → s.me.sup = false → exec (.setc a n) s = .next (s.raiseFault s.cur .privilege)) ∧
    (Ready s [a] → ∃ t, exec (.setc a 3) s = .next t ∧ t.mem = s.mem ∧ t.me = { s.me with rnd := (s.val a).setWidth 2, pc := s.me.pc + 8 }) ∧
    (Ready s [a] → ∃ t, exec (.setc a 4) s = .next t ∧ t.mem = s.mem ∧ t.me = { s.me with seed := s.val a, pc := s.me.pc + 8 }) ∧
    (Ready s [d] → s.me.sup = true → (n.toNat = 0x0303 ∨ n.toNat = 0x0930) →
      ∃ t, exec (.getc d n) s = .next t ∧ Parks s t .access (.getc n.toNat d.toNat) ∧ OwnReply s t .data []) ∧
    (Ready s [a] → s.me.sup = true → (n.toNat = 0x0303 ∨ n.toNat = 0x0304 ∨ n.toNat = 0x0900 ∨ n.toNat = 0x0912 ∨ n.toNat = 0x0930) →
      exec (.setc a n) s = .next (s.park s.cur .access (.setc n.toNat (s.val a))))) ∧
  (∀ (s : State) (k : Nat) (w : Word), let v := siteOfK k
    (WaitsFor s k (.setc 0x0930 w) → ∃ t, exec (.registerWrite (.pending k)) s = .next t ∧ GoesOn s t k 8 ∧ t.mem = s.mem ∧
      (t.site v).ptRoot = w &&& ptRootMask) ∧
    (WaitsFor s k (.setc 0x0303 w) → ∃ t, exec (.registerWrite (.pending k)) s = .next t ∧ GoesOn s t k 8 ∧ t.mem = s.mem ∧
      (t.site v).psaveDeadline = min 16000 (max 1 (w.toNat % 2 ^ 16))) ∧
    (WaitsFor s k (.setc 0x0304 w) → ((s.site v).wdDue = true → (s.site v).wdX = true ∨ s.holdFull v 15 = false) →
      ∃ t, exec (.watchdogWrite k) s = .next t ∧ GoesOn s t k 8 ∧ t.mem = s.mem ∧ (t.site v).wdEn = w.getLsbD 63 ∧
        (t.site v).wdX = ((s.site v).wdDue || ((s.site v).wdX && !w.getLsbD 62)) ∧ (t.site v).wdPeriod = w.toNat % 2 ^ 32 ∧
        (t.site v).wdCount = 0) ∧
    (WaitsFor s k (.setc 0x0900 w) → s.entries v ≠ [] → ∃ t, exec (.slicePinWrite k) s = .next t ∧ GoesOn s t k 8 ∧ t.mem = s.mem ∧ t.sites = s.sites) ∧
    (WaitsFor s k (.setc 0x0900 w) → s.entries v = [] → (s.site v).slice = [] → (s.site v).waits = [] →
      s.unwritten v (s.writeBacks v [] true fun _ => true) = false →
      let old := (s.site v).slicePin
      let new := min 32 (w.toNat % 64)
      ∃ t, exec (.slicePinWrite k) s = .next t ∧ GoesOn s t k 8 ∧ (t.site v).slicePin = new ∧
        ∀ a, Memory.read t.mem a = if homeKey v 4 (min old new * 2 ^ 20) ≤ a ∧ a < homeKey v 4 (max old new * 2 ^ 20) then 0 else Memory.read s.mem a)) ∧
  (∀ (s : State) (v : Nat) (w : Word), kindOf v = .pavilion → siteKey v = true → (s.site v).inService = true →
    exec (.registerWrite (.window v 0xB800 w)) s = .next (s.modSite v fun t => { t with evTarget := (w.extractLsb' 0 4).toNat })) ∧
  (∀ (s : State) (c : Nat) (w : Word), kindOf (siteOfC c) = .pavilion → s.instant = none →
    (∀ p, p < 4 → ((s.core c).permit (permitClass p)).was = none → ∃ t, exec (.permitWrite c p w) s = .next t ∧ t.mem = s.mem ∧ t.sites = s.sites ∧ ∀ q, (t.core c).permit q =
      if q = permitClass p then { rate := (w.extractLsb' 32 16).toNat, cap := (w.extractLsb' 16 16).toNat,
                                  count := min ((s.core c).permit q).count (w.extractLsb' 16 16).toNat, saved := none }
      else (s.core c).permit q) ∧
    ((s.site (siteOfC c)).state = .ready → ∀ u, s.turn (s.dueStrand c) = .bubble u → (u.site (siteOfC c)).inService = true → (coreNos (siteOfC c)).contains (c % 16) = true →
      ∃ t, exec (.permitRefill c) s = .next t ∧ t.mem = u.mem ∧ t.strands = u.strands ∧ t.sites = u.sites ∧ (t.core c).cycle = (u.core c).cycle + 1 ∧
      ∀ q, let p := (u.core c).permit q
        ((t.core c).permit q).count = min p.cap (p.count + (((u.core c).cycle + 1) * p.rate / 1024 - (u.core c).cycle * p.rate / 1024)))) ∧
  (∀ (s : State) (v : Nat), (s.site v).wdEn = true → 0 < (s.site v).wdPeriod → (s.site v).wdPeriod * 1024 ≤ (s.site v).wdCount → (s.site v).wdX = false →
    s.holdFull v 15 = false →
    ∃ t, exec (.watchdogExpiry v) s = .next t ∧ (t.site v).wdX = true ∧ (t.site v).wdCount = 0 ∧ t.holdFull v 15 = true ∧ t.mem = s.mem) ∧
  (∀ (s : State) (rx ry : Nat), rx < 10 → ry < 10 → (∃ v ∈ regionSites rx ry, (s.site v).clocked = true) →
    ∃ t, exec (.tick rx ry) s = .next t ∧ t.mem = s.mem ∧ t.strands = s.strands ∧
      ∀ v ∈ regionSites rx ry, (t.site v).time = if (s.site v).clocked then (s.site v).time + 1 else (s.site v).time)

/-- Network queues (R50, R370), deferrals and refusals with their resends (R128, R370), withdrawals (R132) and retry answers (R162). -/
def Obligations.QueuesAndResends : Prop :=
  (∀ (a b d : BitVec 8) (s : State),
    (slotOf s.cur ≠ 15 → exec (.nqSend a b) s = .next (s.raiseFault s.cur .privilege) ∧ exec (.nqRecv d a) s = .next (s.raiseFault s.cur .privilege)) ∧
    (∀ p x, slotOf s.cur = 15 → Ready s [a, b] → s.target? (siteOfK s.cur) (s.val a).toNat 0 = some (p, x) →
      ∃ t, exec (.nqSend a b) s = .next t ∧ Parks s t .access (.done 4) ∧ ∃ q ∈ t.net,
        q.op = .nqWord ((s.val a).extractLsb' 4 4).toNat ((s.val a).extractLsb' 0 2).toNat ∧ q.dst = p ∧ q.data = leBytes 8 (s.val b).toNat) ∧
    (slotOf s.cur = 15 → Ready s [d, a] → (s.val a).getLsbD 2 = false →
      let r := (s.val a).toNat % 4
      let q := Tab.get {} r (s.core (coreOfK s.cur)).nq
      (q.full = true → ∃ t, exec (.nqRecv d a) s = .next t ∧ t.mem = s.mem ∧ t.me = { put s.me d q.value with pc := s.me.pc + 4 } ∧
        (Tab.get {} r (t.core (coreOfK s.cur)).nq).full = false) ∧
      (q.full = false → ∃ t, exec (.nqRecv d a) s = .next t ∧ Parks s t .queueIdle (.queue d.toNat (2 ^ r))))) ∧
  (∀ (s : State) (n c r : Nat) (m : Msg), s.arriving n = some m → m.op = .nqWord c r → (s.site m.dst).state ≠ .failed → (s.site m.dst).state ≠ .isolated →
    let e := m.dst * 16 + c
    let k := slotKey e 15
    ((Tab.get {} r (s.core e).nq).full = true → ∃ t, exec (.reqNqWord n) s = .next t ∧ t.cores = s.cores ∧ Answered t m .refusal [] false) ∧
    ((Tab.get {} r (s.core e).nq).full = false → (s.strand k).st ≠ .parked → ∃ t, exec (.reqNqWord n) s = .next t ∧ t.mem = s.mem ∧
      Tab.get {} r (t.core e).nq = { value := leWord m.data, full := true } ∧ Answered t m .ack [] false) ∧
    (∀ (d : BitVec 8) l, (Tab.get {} r (s.core e).nq).full = false → (s.strand k).st = .parked → (s.strand k).cont = .queue d.toNat l → l.testBit r = true →
      ∃ t, exec (.reqNqWord n) s = .next t ∧ t.mem = s.mem ∧ (Tab.get {} r (t.core e).nq).full = false ∧ Answered t m .ack [] false ∧
        t.strand k = { put (s.strand k) d (leWord m.data) with pc := (s.strand k).pc + 4, st := .ready, why := none, cont := .reissue })) ∧
  (∀ (s : State) (n : Nat) (m : Msg) (x : Txn), s.arriving n = some m → s.txn m.txn = some x →
    let kept := fun (t : State) => t.mem = s.mem ∧ t.strands = s.strands ∧ t.net = (s.consume n).net ∧
      ∃ y ∈ t.txns, y.id = m.txn ∧ y.resend = true ∧ y.req = x.req ∧ y.acc = x.acc
    (m.op = .deferral → x.acc.owner.gone = false → x.withdrawn = false → ∃ t, exec (.rspDeferral n) s = .next t ∧ kept t) ∧
    (m.op = .refusal → ∃ t, exec (.rspQueueRefusal n) s = .next t ∧ kept t) ∧
    (∀ k, m.op = .hostRetry → x.acc.owner = .strand k → (s.strand k).st = .parked → (s.gang (siteOfK k) (s.strand k).entry).halting = false →
      ∃ t, exec (.rspHostRetry n) s = .next t ∧ GoesOn s t k 0 ∧ t.mem = s.mem)) ∧
  (∀ (s : State) (n : Nat) (u : Txn), s.txn n = some u → u.resend = true → CanLeave s u.req →
    (∀ op, u.req.op = .req op → ∃ t, exec (.feDeferralResend n) s = .next t ∧ t.mem = s.mem ∧ SentAgain t u) ∧
    (∀ c r, u.req.op = .nqWord c r → ∃ t, exec (.nqResend n) s = .next t ∧ t.mem = s.mem ∧ SentAgain t u)) ∧
  (∀ (s : State) (n x : Nat) (m : Msg), s.arriving n = some m → m.op = .feWithdraw x → (s.site m.dst).state ≠ .failed → (s.site m.dst).state ≠ .isolated →
    kindOf m.dst = .pavilion → ∃ t, exec (.reqFeWithdraw n) s = .next t ∧ t.mem = s.mem ∧ t.full = s.full ∧ Answered t m .ack [] false ∧
      (t.site m.dst).waits = (s.site m.dst).waits.filter (fun r => r.txn != x)) ∧
  (∀ (s : State) (g n w k : Nat) (m : Msg) (q : Txn), s.hostPending g n (· == .read) = some (w, m) → s.txn n = some q → q.acc.owner = .strand k →
    (s.gang (siteOfK k) (s.strand k).entry).expired = true →
    ∃ t, exec (.gatehouseRetryAnswer g n) s = .next t ∧ t.mem = s.mem ∧ Answered t m .hostRetry [] false)

/-- The site map, references, the network-select table with its drain, the band table and the clearing of a trellis entry (R201, R202, R205-R207,
R210). That sm.refs is counted once, at the write of sm.refq, and that a copy counts as naming no site, is the model's choice (log 55, log 54). A
written entry of the site map reads as it was written, V clear or not. -/
def Obligations.FabricTables : Prop :=
  (∀ (s : State) (v ix : Nat) (w : Word), ix < 100 → (s.site v).inService = true → ∃ t, exec (.smMapWrite v ix w) s = .next t ∧ t.mem = s.mem ∧ t.strands = s.strands ∧
    (∀ i, i < 4 → let k := entrySite (4 * ix + i)
      let f := w.extractLsb' (16 * i) 16
      Tab.find k (t.site v).smap =
        if kindOf k ≠ .pavilion ∨ Tab.get 0 k (s.site v).ns ≠ 3 then Tab.find k (s.site v).smap
        else if f.getLsbD 15 then some (siteAt (f.extractLsb' 0 5).toNat (f.extractLsb' 8 5).toNat) else none) ∧
    ∀ i, i < 4 → kindOf (entrySite (4 * ix + i)) = .pavilion → Tab.get 0 (entrySite (4 * ix + i)) (s.site v).ns = 3 →
      (t.site v).mapEntry (4 * ix + i) = (w.extractLsb' (16 * i) 16 &&& 0x9F1F).toNat) ∧
  (∀ (s : State) (v : Nat) (w : Word), kindOf v = .pavilion →
    let k := w.toNat % 2 ^ 16
    (s.site v).trellis = [] → ∃ t, exec (.smRefq v w) s = .next t ∧ t.mem = s.mem ∧
      (t.site v).refs = ((s.site v).trigs.filter fun q => q.2.st != .free && decide (s.trigSite v q.2 = some k)).length) ∧
  (∀ (v : Nat) (w : Word), (kindOf v ≠ .memory → NsUpdates (.nsUpdate v w) v w) ∧ (kindOf v = .memory → NsUpdates (.cfgNsupdate v w) v w)) ∧
  (∀ (s : State) (v r : Nat) (w : Word), kindOf v = .pavilion → r < 100 → (s.site v).inService = true → ∃ t, exec (.bandWrite v r w) s = .next t ∧ t.mem = s.mem ∧
    Tab.find r (t.site v).band = some ((w.extractLsb' 16 16).toNat, max (w.extractLsb' 16 16).toNat (w.extractLsb' 32 16).toNat)) ∧
  (∀ (s : State) (v : Nat) (w : Word), kindOf v = .pavilion → ∃ t, exec (.trClear v .oak w) s = .next t ∧ t.mem = s.mem ∧
    t.trellis v (w.toNat % 256) = { latch := (s.trellis v (w.toNat % 256)).latch }) ∧
  (∀ (s : State) (n c : Nat) (m : Msg), s.arriving n = some m →
    (m.op = .drainMarker c false → ∃ t, exec (.reqDrainMarker n) s = .next t ∧ t.mem = s.mem ∧
      ∃ q ∈ t.net, q.op = .drainMarker c true ∧ q.src = m.dst ∧ q.dst = m.src ∧ q.mesh = otherMesh m.mesh) ∧
    (m.op = .drainMarker c true → 1 < (s.site m.dst).nsMarkers → ∃ t, exec (.drainMarkerReturn n) s = .next t ∧ t.mem = s.mem ∧
      (t.site m.dst).nsMarkers = (s.site m.dst).nsMarkers - 1 ∧ (t.site m.dst).nsBusy = (s.site m.dst).nsBusy ∧ (t.site m.dst).ns = (s.site m.dst).ns) ∧
    (∀ k x, m.op = .drainMarker c true → (s.site m.dst).nsMarkers = 1 → (s.site m.dst).nsBusy = some (k, x) →
      ∃ t, exec (.drainMarkerReturn n) s = .next t ∧ t.mem = s.mem ∧ Tab.get 0 k (t.site m.dst).ns = x ∧ (t.site m.dst).nsBusy = none))

/-! ## Counters, triggers and copies -/

/-- Trigger counters (R215-R217, R358, R359): an add and a set answer and wake the strands whose threshold is reached, a read answers with the
value, a wait below its threshold parks with reason counter, and an add to another pavilion travels there; a FAILED site answers it with error 7
(R416). -/
def Obligations.Counters : Prop :=
  (∀ (a b d : BitVec 8) (s : State), Sound s → s.instant = none →
    let v := siteOfK s.cur
    let n := (s.val a).toNat % 1024
    let old := s.tc v n
    let woken := fun (t : State) (w : Word) => ∀ k h, k ≠ s.cur → siteOfK k = v → WaitsFor s k (.counter n h) → h.toNat ≤ w.toNat → GoesOn s t k 4
    let done := fun (t : State) (w : Word) => Parks s t .access (.done 4) ∧ OwnReply s t .ack [] ∧ t.tc v n = w ∧ woken t w
    let far := s.target? v (s.val a).toNat (counterHash n)
    (Ready s [a, b] → s.me.tracker = [] → ∃ t, exec (.ctrAdd a b) s = .next t ∧ done t (old + s.val b)) ∧
    (Ready s [a, b] → ∃ t, exec (.ctrSet a b) s = .next t ∧ done t (s.val b)) ∧
    (Ready s [d, a] → ∃ t, exec (.ctrRead d a) s = .next t ∧ Parks s t .access (.load .w64 d.toNat 4) ∧ OwnReply s t .data (leBytes 8 old.toNat)) ∧
    (Ready s [a, b] → (s.val b).toNat ≤ old.toNat → ∃ t, exec (.ctrWait a b) s = .next t ∧ Parks s t .access (.done 4) ∧ OwnReply s t .ack []) ∧
    (Ready s [a, b] → old.toNat < (s.val b).toNat → ∃ t, exec (.ctrWait a b) s = .next t ∧ Parks s t .counter (.counter n (s.val b))) ∧
    (Ready s [a, b] → s.me.tracker = [] → far = some (v, none) → ∃ t, exec (.ctrAddr a b) s = .next t ∧ done t (old + s.val b)) ∧
    (∀ p x, Ready s [a, b] → s.me.tracker = [] → far = some (p, some x) →
      ∃ t, exec (.ctrAddr a b) s = .next t ∧ Parks s t .access (.done 4) ∧
        ∃ q ∈ t.net, q.op = .counterAdd n ∧ q.src = v ∧ q.dst = p ∧ q.data = leBytes 8 (s.val b).toNat) ∧
    (Ready s [a, b] → s.me.tracker = [] → far = none → exec (.ctrAddr a b) s = .next (s.raiseFault s.cur .unreachableSite))) ∧
  (∀ (s : State) (n c : Nat) (m : Msg), s.arriving n = some m → m.op = .counterAdd c → s.instant = none →
    ((s.site m.dst).state ≠ .failed → (s.site m.dst).state ≠ .isolated →
      ∃ t, exec (.reqCounterAdd n) s = .next t ∧ t.mem = s.mem ∧ t.tc m.dst c = s.tc m.dst c + leWord m.data ∧ Answered t m .ack [] false) ∧
    ((s.site m.dst).state = .failed → ∃ t, exec (.reqCounterAdd n) s = .next t ∧ t.mem = s.mem ∧
      t.tc m.dst c = s.tc m.dst c ∧ Answered t m (.error 0x07) [] false)) ∧
  (∀ (s : State) (v n : Nat) (w : Word), kindOf v = .pavilion → n < 1024 → s.instant = none →
    ∃ t, exec (.counterWindowStore v n w) s = .next t ∧ t.mem = s.mem ∧ t.tc v n = w)

/-- `trig.post` and `trig.postl` (R361, R362), `trig.cancel` and `trig.query` (R365): a post whose block passes its check arms the lowest FREE entry;
without one it answers all ones. Firing (R218, R219, R363, R364): the next ELIGIBLE entry issues its operation; a local add raises its counter at once,
and the entry leaves, or is armed again with its threshold raised; an operation that is complete raises its completion counter, one that met a fault
raises an event. -/
def Obligations.Triggers : Prop :=
  ((∀ (d a b : BitVec 8) (imm : BitVec 32) (s : State), s.me.tracker = [] →
    let k := s.cur
    let v := siteOfK k
    let u := bowerOf k
    ∀ p ∈ ([(.trigPost d a b, [d, a, b], (s.val b).toNat, (s.val a).toNat, 4), (.trigPostl d a imm, [d, a], (s.val a).toNat, imm.toNat, 8)]
        : List (Instr × List (BitVec 8) × Nat × Nat × Nat)), Ready s p.2.1 →
      let o := p.2.2.1
      let blk := blockAt s v u o
      (o % 64 ≠ 0 → exec p.1 s = .next (s.raiseFault k .alignment)) ∧
      (o % 64 = 0 → 4194304 ≤ o → exec p.1 s = .next (s.raiseFault k .addressRange)) ∧
      (o % 64 = 0 → o < 4194304 → s.flaws = [] → MayRead s u o 64 →
        (∀ c x, s.checkBlock k blk = some (c, x) → exec p.1 s = .next (s.faultAt c x 0)) ∧
        (s.checkBlock k blk = none → (∀ n, n < 512 → (s.trig v n).st ≠ .free) →
          ∃ t, exec p.1 s = .next t ∧ Parks s t .access (.load .w64 d.toNat p.2.2.2.2) ∧ OwnReply s t .data (leBytes 8 (2 ^ 64 - 1))) ∧
        (∀ n, s.checkBlock k blk = none → n < 512 → (s.trig v n).st = .free → (∀ m, m < n → (s.trig v m).st ≠ .free) →
          ∃ t, exec p.1 s = .next t ∧ Parks s t .access (.load .w64 d.toNat p.2.2.2.2) ∧ OwnReply s t .data (leBytes 8 n) ∧
            (t.trig v n).block = blk ∧ (t.trig v n).threshold = p.2.2.2.1 ∧ (t.trig v n).launch = s.me.launch ∧
            (s.instant = none → (t.trig v n).st = if p.2.2.2.1 ≤ (s.tc v (t.trig v n).watch).toNat then .eligible else .armed)))) ∧
  (∀ (d a b : BitVec 8) (s : State),
    let v := siteOfK s.cur
    let n := (s.val a).toNat % 512
    let e := s.trig v n
    let tells := fun (t : State) (w : Nat) => Parks s t .access (.load .w64 d.toNat 4) ∧ OwnReply s t .data (leBytes 8 w)
    (Ready s [d, a] → e.st = .free → ∃ t, exec (.trigCancel d a) s = .next t ∧ tells t 1) ∧
    (Ready s [d, a] → e.st ≠ .free → (s.me.sup = true ∨ e.launch = s.me.launch) →
      ∃ t, exec (.trigCancel d a) s = .next t ∧ tells t 0 ∧ (t.trig v n).st = .free) ∧
    (Ready s [d, a] → e.st ≠ .free → s.me.sup = false → e.launch ≠ s.me.launch → ∃ t, exec (.trigCancel d a) s = .next t ∧ tells t 2 ∧ t.trig v n = e) ∧
    (Ready s [d, a, b] → ∃ t, exec (.trigQuery d a b) s = .next t ∧
      tells t (if e.st = .free then 0
        else if (s.val b).getLsbD 0 then e.threshold
        else e.fired % 2 ^ 32 * 2 ^ 32 + e.watch * 2 ^ 16 + blockOp e.block * 2 ^ 8 + (if e.launch = s.me.launch then 8 else 0)
          + (if (blockWord e.block 0).testBit 4 then 4 else 0) + e.st.num)))) ∧
  ((∀ (s : State) (v n : Nat), (s.site v).nextFire = some n → (s.site v).fires < 16 → s.flaws = [] → s.holdFull v 6 = false →
    s.holdFull v 7 = false → s.instant = none →
    let e := s.trig v n
    let c := blockWord e.block 3 % 1024
    (∃ t, exec (.triggerFire v n) s = .next t) ∧
    (blockOp e.block = 3 → ∃ t, exec (.triggerFire v n) s = .next t ∧ t.mem = s.mem ∧ t.tc v c = s.tc v c + BitVec.ofNat 64 (blockWord e.block 4) ∧
      (∃ q ∈ (t.site v).ops, q.block = e.block ∧ q.done = true) ∧
      ((blockWord e.block 0).testBit 4 = false → (t.trig v n).st = .free) ∧
      ((blockWord e.block 0).testBit 4 = true → (t.trig v n).fired = e.fired + 1 ∧
        (t.trig v n).threshold = min (e.threshold + blockWord e.block 1) (2 ^ 64 - 1)))) ∧
  (∀ (s : State) (v o : Nat) (q : TrigOp), (s.site v).trigOp o = some q →
    let c := bits (blockWord q.block 0) 41 32
    (q.fault = none → q.done = true → s.instant = none → ∃ t, exec (.triggerOpComplete v o) s = .next t ∧ t.mem = s.mem ∧ (t.site v).trigOp o = none ∧
      t.tc v c = s.tc v c + (if (blockWord q.block 0).testBit 5 then 1 else 0)) ∧
    (∀ f, q.fault = some f → s.holdFull v 6 = false → ∃ t, exec (.triggerOpComplete v o) s = .next t ∧ t.mem = s.mem ∧ (t.site v).trigOp o = none ∧
      t.holdFull v 6 = true ∧ (t.site v).tc = (s.site v).tc) ∧
    (∀ u, q.retry = true → s.txns.find? (fun t => decide (t.acc.owner = .trigger v o) && t.resend) = some u → CanLeave s u.req →
      ∃ t, exec (.triggerLaunchRetry v o) s = .next t ∧ t.mem = s.mem ∧ SentAgain t u)))

/-- Copies (R53, R352-R356): `cpost` puts its block into a mailbox or waits for it, `cquery` says where the copy stands, `ccancel` takes it out or
waits until it has stopped; the sequencer takes the block and checks it, issues beats, and ends the copy with its counter or its fault. -/
def Obligations.Copies : Prop :=
  (∀ (a b : BitVec 8) (s : State), Ready s [a, b] →
    let c := coreOfK s.cur
    let n := (s.val b).toNat
    let o := (s.val a).toNat
    (3 < n → exec (.cpost a b) s = .next (s.raiseFault s.cur .copyParameter)) ∧
    (n ≤ 3 → o % 128 ≠ 0 → exec (.cpost a b) s = .next (s.raiseFault s.cur .alignment)) ∧
    (n ≤ 3 → o % 128 = 0 → 4194304 ≤ o → exec (.cpost a b) s = .next (s.raiseFault s.cur .addressRange)) ∧
    (n ≤ 3 → o % 128 = 0 → o < 4194304 → s.me.tracker = [] →
      (∀ m, Tab.find n (s.core c).mail = some m → ∃ t, exec (.cpost a b) s = .next t ∧ Parks s t .mailbox (.mailbox n)) ∧
      (Tab.find n (s.core c).mail = none → ∃ t m, exec (.cpost a b) s = .next t ∧ Passes s t 4 ∧ t.mem = s.mem ∧
        Tab.find n (t.core c).mail = some m ∧ m.off = o ∧ m.slot = slotOf s.cur ∧ m.segs = s.me.segs ∧ m.pc = s.me.pc))) ∧
  (∀ d a : BitVec 8, Gives (.cquery d a) [d, a] d 4 (fun s => match s.copyNamed (s.val a).toNat with
    | .none => 0
    | .mailbox _ _ => 1
    | .offered _ => 1
    | .flight q => BitVec.ofNat 64 (q.completed * 2 ^ 32 + (if (s.core (coreOfK s.cur)).copyWaits q.n then 3 else 2)))) ∧
  (∀ (a : BitVec 8) (s : State), Ready s [a] → s.me.st = .ready →
    let c := coreOfK s.cur
    (s.copyNamed (s.val a).toNat = .none → exec (.ccancel a) s = .next (went s (s.me.pc + 4))) ∧
    (∀ n m, s.copyNamed (s.val a).toNat = .mailbox n m → ∃ t, exec (.ccancel a) s = .next t ∧ Passes s t 4 ∧ t.mem = s.mem ∧
      (∀ p ∈ (t.core c).mail, p.2 ≠ m) ∧ (Rising (s.core c).mail → Tab.find n (t.core c).mail = none)) ∧
    (∀ m, s.copyNamed (s.val a).toNat = .offered m → ∃ t, exec (.ccancel a) s = .next t ∧ Passes s t 4 ∧ t.mem = s.mem ∧
      ∀ p ∈ (t.core c).offered, ¬(p.1 = none ∧ p.2 = m)) ∧
    (∀ q, s.copyNamed (s.val a).toNat = .flight q → ∃ t, exec (.ccancel a) s = .next t ∧ Parks s t .access (.copyStop q.n) ∧
      ∀ p ∈ (t.core c).copies, p.n = q.n → p.cancel = true)) ∧
  (∀ (s : State) (c : Nat) (g : Option Nat) (m : Mail) (box : Option Nat), (s.core c).nextMail = some (g, m, box) → (s.core c).sequencing = true →
    (s.core c).copies.length < 64 → s.hasPermit c .memory = true → s.flaws = [] →
    (m.sup = true ∨ ∀ g, m.off / 16384 ≤ g → g ≤ (m.off + 127) / 16384 → (s.site (siteOfC c)).storeHeld (c % 16 / 4) g = true) →
    let l := Memory.readN s.mem (homeKey (siteOfC c) (c % 16 / 4) m.off) 128
    ∃ t, exec (.copyTake c) s = .next t ∧ t.mem = s.mem ∧ (∀ n, box = some n → Tab.find n (t.core c).mail = none) ∧
      ∃ q ∈ (t.core c).copies, q.n = (s.core c).nextCopy ∧ q.block = copyBlockOf l ∧ q.k = slotKey c m.slot ∧ q.segs = m.segs ∧
        (copyRejected l = true → ∃ f, q.fault = some f ∧ f.code = 0x16) ∧
        (copyRejected l = false → q.fault = none ∧ q.phase = .source ∧ q.chunk = 0 ∧ q.todo = List.range (min q.block.chunk q.block.elems))) ∧
  (∀ (s : State) (c : Nat) (q : Copy) (e : Nat) (rest : List Nat) (a : Addr), s.nextBeat c = some q → (s.core c).sequencing = true →
    (s.core c).canTake = false → s.hasPermit c .memory = true → q.todo = e :: rest →
    let sent := fun (t : State) (op : ReqOp) (o : Owner) => kindBits a.toNat = 0 → ∃ p ∈ (t.site (siteOfK q.k)).port,
      p.acc.addr = BitVec.ofNat 60 (16 * (a.toNat / 16)) ∧ p.acc.op = op ∧ p.acc.owner = o
    (s.copyCheck c q false e = .ok a → q.phase = .source → ∃ t, exec (.copyBeat c q.n) s = .next t ∧ t.mem = s.mem ∧
      (∀ p ∈ (t.core c).copies, p.n = q.n → e ∉ p.todo) ∧ sent t .read (.copyRead c q.n q.chunk)) ∧
    (s.copyCheck c q true e = .ok a → q.phase = .dest → ∃ t, exec (.copyBeat c q.n) s = .next t ∧ t.mem = s.mem ∧
      (q.block.rop = 0 → sent t (if q.block.sf then .writeFull else .write) (.copyWrite c q.n q.chunk))) ∧
    (∀ x, s.copyCheck c q (q.phase == .dest) e = .error (x, some a) → q.fault = none → ∃ t, exec (.copyBeat c q.n) s = .next t ∧
      t.mem = s.mem ∧ ∃ p ∈ (t.core c).copies, p.n = q.n ∧ ∃ f, p.fault = some f ∧ f.code = x.num ∧ f.addr = a ∧ f.pc = q.pc)) ∧
  (∀ (s : State) (c n : Nat) (q : Copy), (s.core c).copy n = some q → q.phase = .finished → q.fault = none → (∀ w ∈ q.writes, w.2 = 0) →
    s.instant = none →
    ∃ t, exec (.copyComplete c n) s = .next t ∧ t.mem = s.mem ∧ (t.core c).copy n = none ∧
      t.tc (siteOfC c) q.block.ctr = s.tc (siteOfC c) q.block.ctr + (if q.block.ce = true ∧ q.cancel = false then 1 else 0)) ∧
  (∀ (s : State) (c n : Nat) (q : Copy) (f : Late), (s.core c).copy n = some q → q.fault = some f → q.reads = 0 → (∀ w ∈ q.writes, w.2 = 0) →
    (s.core c).replays = [] → q.trig = none → coreOfK q.k = c →
    let y := s.strand q.k
    (y.st = .free → ∃ t, exec (.copyFaultDelivery c n) s = .next t ∧ t.mem = s.mem ∧ (t.core c).copy n = none) ∧
    (y.st = .ready → y.entry = q.entry → y.gang = q.gang → y.launch = q.launch → ∃ t, exec (.copyFaultDelivery c n) s = .next t ∧ t.mem = s.mem ∧
      (t.core c).copy n = none ∧ t.strand q.k = { y with late := y.late ++ [f] }))

/-! ## Launches -/

/-- `launch` (R341) and the submission at the gatehouse (R159): after its release the strand reads its descriptor; the gatehouse answers with a
status, and status 0 starts a launch; the status goes to d. When the device-side queue is full, `deviceLoad`, is the model's choice (log 26), and so
is the order 1, 2, 3, st in which several statuses are tested (log 87). A gatehouse that is out of service answers with an error (R416). -/
def Obligations.DeviceLaunch : Prop :=
  (∀ (d a : BitVec 8) (s : State), Ready s [d, a] → s.me.tracker = [] → Clean (s.core (coreOfK s.cur)).l1d → Clean (s.site (siteOfK s.cur)).slice →
    s.unwritten (siteOfK s.cur) (s.fenceTxns 3) = false →
    let p := (s.val a).setWidth 60
    (p.toNat % 64 = 0 → s.covered (siteOfK s.cur) s.me p 256 rR = true →
      ∃ t, exec (.launch d a) s = .next t ∧ Parks s t .access (.launchRead d.toNat p [])) ∧
    (p.toNat % 64 ≠ 0 → ∃ t, exec (.launch d a) s = .next t ∧ t.me.faultCode = 0x06 ∧ t.me.faultAddr = p ∧ t.me.faultPc = s.me.pc) ∧
    (p.toNat % 64 = 0 → s.covered (siteOfK s.cur) s.me p 256 rR = false →
      ∃ t, exec (.launch d a) s = .next t ∧ t.me.faultCode = 0x03 ∧ t.me.faultAddr = p ∧ t.me.faultPc = s.me.pc)) ∧
  (∀ (s : State) (n st : Nat) (m : Msg) (x : Desc), s.arriving n = some m → m.op = .launchSub x st →
    (((s.site m.dst).state = .failed ∨ (s.site m.dst).state = .isolated) →
      ∃ t, exec (.reqLaunchSubmission n) s = .next t ∧ t.mem = s.mem ∧ t.strands = s.strands ∧ (t.gate m.dst).launches = (s.gate m.dst).launches ∧
        Answered t m (.error 0x07) [] false) ∧
    ((s.site m.dst).state ≠ .failed → (s.site m.dst).state ≠ .isolated →
    let r := if 256 ≤ (s.gate m.dst).deviceLoad then 1 else if x.rejected || s.strayCounter m.dst x then 2 else if x.overclaims then 3 else st
    ∃ t, exec (.reqLaunchSubmission n) s = .next t ∧ t.mem = s.mem ∧ t.strands = s.strands ∧ Answered t m (.status r) [] false ∧
      (r ≠ 0 → (t.gate m.dst).launches = (s.gate m.dst).launches) ∧
      (r = 0 → ∃ l, (t.gate m.dst).launches = (s.gate m.dst).launches ++ [l] ∧ l.desc = x ∧ l.queue = none ∧ l.prio = x.prio ∧ l.next = 0 ∧
        l.total = x.gangCount))) ∧
  (∀ (s : State) (n k r : Nat) (d : BitVec 8) (m : Msg) (x : Txn), s.arriving n = some m → m.op = .status r → s.txn m.txn = some x →
    x.acc.owner = .strand k → WaitsFor s k (.status d.toNat) →
    ∃ t, exec (.rspStatus n) s = .next t ∧ t.mem = s.mem ∧
      t.strand k = { put (s.strand k) d (BitVec.ofNat 64 r) with pc := (s.strand k).pc + 4, st := .ready, why := none, cont := .reissue })

/-- Host queues and their commands (R146-R150, R161, R172): register writes, the commands with their completion status, and the record's bytes. Graph
replays (R156-R158): a replay takes a bank, which gets the bytes of the bank used last and the patch; a node starts once every node before it is
complete, with its parameter address moved into the bank. The model's choices: status 2 for a descriptor address that is no multiple of 64 (log 50),
and that a launch unit reads and writes in one step, where its homes can hold the events of struck granules (log 23). -/
def Obligations.HostQueues : Prop :=
  ((∀ (s : State) (g q : Nat) (w : Word), hostQueueAt g q = true →
    let h := s.hostQueue g q
    let tail := w.toNat % 0x100000000
    ((tail + 0x100000000 - h.head) % 0x100000000 ≤ 2 ^ h.lsize → exec (.qtailWrite g q w) s = .next (s.modQueue g q fun x => { x with tail })) ∧
    (2 ^ h.lsize < (tail + 0x100000000 - h.head) % 0x100000000 → h.en = true → h.stopped = false → s.holdFull g 10 = false →
      ∃ t, exec (.qtailWrite g q w) s = .next t ∧ t.mem = s.mem ∧ t.hostQueue g q = { h with tail, stopped := true } ∧ t.holdFull g 10 = true) ∧
    (let z := (w.extractLsb' 16 5).toNat
     let l := if h.en then h.lsize else if 4 ≤ z ∧ z ≤ 16 then z else 4
     (w.getLsbD 63 = false ∨ h.ahead ≤ 2 ^ l) → exec (.qctlWrite g q w) s = .next (s.modQueue g q fun x =>
      { x with en := w.getLsbD 63, prio := (w.extractLsb' 32 3).toNat, lsize := l, stopped := x.stopped && w.getLsbD 63 })) ∧
    (exec (.creadWrite g q w) s = .next (s.modQueue g q fun x =>
      { x with cread := if (x.cdone + 0x100000000 - x.cread) % 0x100000000 < (w.toNat % 0x100000000 + 0x100000000 - x.cread) % 0x100000000 then x.cdone else w.toNat % 0x100000000 })) ∧
    (∀ w0 w1 rest, h.held = (w0, w1) :: rest → (h.cdone + 0x100000000 - h.cread) % 0x100000000 < 2 ^ h.lsize → Memory.wf s.mem = true →
      let p := hostKey (h.cbase + 16 * (h.cdone % 2 ^ h.lsize))
      ∃ t, exec (.completionRecordWrite g q) s = .next t ∧ t.hostQueue g q = { h with held := rest, cdone := (h.cdone + 1) % 0x100000000 } ∧
        ∀ a, Memory.read t.mem a =
          if p ≤ a ∧ a < p + 16 then (leBytes 8 w0.toNat ++ leBytes 8 w1.toNat).getD (a - p) 0 else Memory.read s.mem a)) ∧
  (∀ (s : State) (g q op tag : Nat) (a b c : Nat), tag < 0x100000000 →
    let w0 := tag * 0x100000000 + op
    (Takes s g q [w0, a, 0, 0, 0, 0, 0, 0] → op = 1 → a < 0x1000000000000000 → Placed s g q →
      s.sysStalled (s.sysGranules g true false true (BitVec.ofNat 60 a) 256) = false →
      (s.sysRead g (BitVec.ofNat 60 a) 256 = none → ∃ t, exec (.hostCmdLaunch g q) s = .next t ∧ Ended s t g q 1 4 tag) ∧
      (∀ l, s.sysRead g (BitVec.ofNat 60 a) 256 = some l →
        (((descOf l).rejected = true ∨ s.strayCounter g (descOf l) = true ∨ a % 64 ≠ 0) →
          ∃ t, exec (.hostCmdLaunch g q) s = .next t ∧ Ended s t g q 1 2 tag) ∧
        ((descOf l).rejected = false → s.strayCounter g (descOf l) = false → a % 64 = 0 → (descOf l).overclaims = true →
          ∃ t, exec (.hostCmdLaunch g q) s = .next t ∧ Ended s t g q 1 3 tag) ∧
        ((descOf l).rejected = false → s.strayCounter g (descOf l) = false → a % 64 = 0 → (descOf l).overclaims = false → ∃ t y, exec (.hostCmdLaunch g q) s = .next t ∧ t.mem = s.mem ∧
          (t.hostQueue g q).head = ((s.hostQueue g q).head + 1) % 0x100000000 ∧ (t.hostQueue g q).held = [] ∧
          (t.gate g).launches = (s.gate g).launches ++ [y] ∧ y.desc = descOf l ∧ y.queue = some q ∧ y.tag = BitVec.ofNat 32 tag ∧
          y.prio = (s.hostQueue g q).prio ∧ y.number = BitVec.ofNat 32 (rimOf g * 2 ^ 28 + (s.gate g).count)))) ∧
    (Takes s g q [w0, a, b, c, 0, 0, 0, 0] → op = 2 → a < 0x1000000000000000 → b < 0x1000000000000000 → c < 0x100000000 → Placed s g q →
      ∃ t r, exec (.hostCmdReplay g q) s = .next t ∧ t.mem = s.mem ∧ (t.gate g).replays = (s.gate g).replays ++ [r] ∧
        r.object = BitVec.ofNat 60 a ∧ r.patch = BitVec.ofNat 60 b ∧ r.patchLen = c ∧ r.queue = q ∧ r.bank = none ∧
        (t.hostQueue g q).blocked = some r.id) ∧
    (Sound s → Takes s g q [w0, a, b, 0, 0, 0, 0, 0] → op = 3 → a < 0x100000000 → b < 0x100000000 →
      (s.named a b = [] → ∃ t, exec (.hostCmdPreempt g q) s = .next t ∧ Ended s t g q 3 7 tag) ∧
      (s.named a b ≠ [] → ∃ t, exec (.hostCmdPreempt g q) s = .next t ∧ t.mem = s.mem ∧ (t.hostQueue g q).held = [] ∧
        (t.gate g).preempts = (s.gate g).preempts ++ [(q, BitVec.ofNat 32 tag, s.named a b)])) ∧
    (Takes s g q [w0, 0, 0, 0, 0, 0, 0, 0] → op = 4 → s.queueIdle g q = true → ∃ t, exec (.hostCmdDrain g q) s = .next t ∧ Ended s t g q 4 0 tag) ∧
    (∀ l, Takes s g q l → l.getD 0 0 = w0 → (op = 0 ∨ 4 < op) → op < 256 → ∃ t, exec (.hostCmdReserved g q) s = .next t ∧ Ended s t g q op 1 tag))) ∧
  (∀ (s : State) (g i : Nat) (r : ReplayCmd) (ws : List Nat) (m : Graph), s.graphWords g r.object = some ws → graphOf ws = some m → s.flaws = [] →
    let o := Tab.get {} r.object.toNat (s.gate g).objects
    let bank := fun (x : Bool) => if x then m.bankB else m.bankA
    (∀ (b : Bool) (pb old : List Byte) (es : List (Nat × List Byte)), (s.gate g).replays.find? (fun q => q.id == i && q.bank.isNone && !q.done) = some r →
      (o.busyA && o.busyB) = false → b = (if o.busyA then true else if o.busyB then false else o.last == some false) →
      r.patchLen ≤ 65536 → (r.patch = 0 ∧ pb = [] ∨ r.patch ≠ 0 ∧ s.sysRead g r.patch r.patchLen = some pb) →
      (∀ n ∈ m.nodes, ∃ l, s.sysRead g n.1 256 = some l ∧ (descOf l).rejected = false ∧ s.strayCounter g (descOf l) = false) → patchEntries (pb.length + 1) m.bsize pb = some es →
      ((o.last = none ∨ o.last = some b) ∧ old = [] ∨ o.last = some (!b) ∧ s.sysRead g (bank (!b)) m.bsize = some old) →
      ∃ t, exec (.replayStart g i) s = .next t ∧
        t.mem = (each es (fun s e => s.sysWrite g (bank b + BitVec.ofNat 60 e.1) e.2) (s.sysWrite g (bank b) old)).mem ∧
        (∀ q ∈ (t.gate g).replays, q.id = i → q.bank = some b ∧ q.nodes = m.nodes.length) ∧ (t.hostQueue g r.queue).blocked = none) ∧
    (∀ (b : Bool) (n : Nat) (a : Addr) (ps : List Nat) (l : List Byte), (s.gate g).replays.find? (fun q => q.id == i) = some r → r.bank = some b →
      m.nodes[n]? = some (a, ps) → n ∉ r.started → r.done = false → (∀ p ∈ ps, p ∈ r.complete) → s.sysRead g a 256 = some l →
      (descOf l).rejected = false → s.strayCounter g (descOf l) = false → (descOf l).overclaims = false →
      ∃ t y, exec (.graphNodeStart g i n) s = .next t ∧ t.mem = s.mem ∧ (t.gate g).launches = (s.gate g).launches ++ [y] ∧
        y.desc = { descOf l with param := bank b + (descOf l).param } ∧ y.queue = some r.queue ∧ y.node = some (i, n) ∧
        ∀ q ∈ (t.gate g).replays, q.id = i → n ∈ q.started))

/-- Placement (R151-R154): a gang goes to the pavilion whose turn it is, whole or not at all: its control strands begin at the entry address with
the parameter in a1, or the scan goes on; after a whole scan the launch sets its reservations. Pre-emption, save and resumption (R161-R164, R180; what
a context holds is log 12): a save writes the bytes of the context area and the accessed and dirty bits of its pages (R83), and nothing else; a waiting resumption may be withdrawn (R191, log 74). -/
def Obligations.GangsPlacedAndSaved : Prop :=
  (∀ (s : State) (g n : Nat) (l : Launch), (s.gate g).launches.find? (fun q => q.number.toNat == n) = some l → l.next < l.total →
    (∀ v, (s.window g l.desc)[l.scan]? = some v → s.outranked g v l = false → (s.site v).releases = [] →
      ((s.admits v l.prio = false ∨ s.chooseCores v l.desc = none) → exec (.gangOffer g n v) s = .next (s.modLaunch g l.number fun q => { q with scan := l.scan + 1 })) ∧
      (∀ e cores, s.admits v l.prio = true → s.freeEntry v = some e → s.chooseCores v l.desc = some cores →
        ∃ t, exec (.gangOffer g n v) s = .next t ∧ t.mem = s.mem ∧ (t.gang v e).st = .running ∧ (t.gang v e).launch = l.number ∧
          (t.gang v e).gang = BitVec.ofNat 32 l.next ∧ (t.gang v e).cores = cores ∧
          ∀ i c, cores[i]? = some c →
            let x := t.strand (slotKey (v * 16 + c) l.desc.controlSlot)
            x.st = .ready ∧ x.pc = l.desc.entry ∧ x.crew = i ∧ x.launch = l.number ∧ x.gang = BitVec.ofNat 32 l.next ∧ x.sup = false ∧
              x.control = true ∧ x.granules = 0 ∧ x.segs = l.desc.segs ∧ ∀ r, x.reg r = if r = 1 then l.desc.param.setWidth 64 else 0)) ∧
    ((s.window g l.desc).length ≤ l.scan → ∃ t, exec (.placementReservation g n) s = .next t ∧ t.mem = s.mem ∧ t.strands = s.strands ∧
      ∀ v ∈ s.window g l.desc, (s.site v).reservation = none → (t.site v).reservation = some (l.prio, rimOf g, n))) ∧
  ((∀ (s : State) (v a b e : Nat) (p : Addr), kindOf v = .pavilion → s.entryOf v a b = some e →
    ((s.gang v e).st = .running → ∃ t, exec (.preemptRequest v a ⟨b, p⟩) s = .next t ∧ t.mem = s.mem ∧ (t.gang v e).st = .stopping ∧
      (t.gang v e).deadline = (s.site v).psaveDeadline ∧ (t.gang v e).area = p ∧
      ∀ n, (s.trig v n).postedBy (s.gang v e) = true → (t.trig v n).st = .suspended) ∧
    ((s.gang v e).st ≠ .running → exec (.preemptRequest v a ⟨b, p⟩) s = .next s)) ∧
  (∀ (s : State) (v e : Nat), (s.gang v e).st = .stopping →
    ((s.gang v e).expired = false → (s.gang v e).deadline = 0 → ∃ t, exec (.psaveDeadlineExpiry v e) s = .next t ∧ t.mem = s.mem ∧ (t.gang v e).expired = true) ∧
    (Sound s → s.halted v e = true → (s.site v).waiters = [] →
      s.sysStalled (s.saveReads v e ++ s.writeReads v (s.gang v e).area (Config.contextBytes s.freeIx)) = false →
      ∃ t x, exec (.gangSaveComplete v e) s = .next t ∧
      (∀ a, (∀ i, i < (Config.contextBytes s.freeIx).length → s.sysKey v ((s.gang v e).area + BitVec.ofNat 60 i) ≠ some a) →
        (∀ p ∈ s.leaves v true (s.gang v e).area (Config.contextBytes s.freeIx).length,
          ¬(homeKey p.leaf.1 0 p.leaf.2 ≤ a ∧ a < homeKey p.leaf.1 0 p.leaf.2 + 8)) →
        Memory.read t.mem a = Memory.read s.mem a) ∧
      (t.gang v e).st = .free ∧ x.area = (s.gang v e).area ∧ t.contexts = s.contexts ++ [x] ∧ x.gang = s.gang v e ∧ x.site = (s.virt v).2 * 256 + (s.virt v).1 ∧
      ∀ k, siteOfK k = v → slotOf k < 13 → (s.strand k).entry = e → (t.strand k).st = .free)) ∧
  (∀ (s : State) (i v : Nat) (x : Context), s.contexts.find? (fun c => c.id == i) = some x → s.pavilionOf x.site = some v →
    (s.site v).releases = [] →
    (s.fitsAgain v x = false → ∃ t, exec (.resumption i) s = .next t ∧ t.mem = s.mem ∧ t.strands = s.strands ∧ t.contexts = s.contexts ∧
      ∀ b l, (b, l) ∈ x.gang.stores → ∀ g ∈ l, (i, b, g) ∈ (t.site v).marks) ∧
    (∀ e, s.fitsAgain v x = true → s.freeEntry v = some e → (x.strands.map (·.1)).Nodup →
      (∀ p ∈ x.strands, p.2.cont ≠ .barWait ∧ ∀ b, p.2.cont ≠ .fourth b) → ∃ t, exec (.resumption i) s = .next t ∧
      (t.gang v e).st = .running ∧ (t.gang v e).launch = x.gang.launch ∧ (t.gang v e).gang = x.gang.gang ∧
      (∀ p ∈ x.strands, t.strand (v * 256 + p.1) = p.2.resumed e) ∧ ∀ c ∈ t.contexts, c.id ≠ i)) ∧
  (∀ (s : State) (i : Nat) (rest : List Sched), s.agenda = .withdraw i :: rest → (∃ p ∈ s.sites, (Tab.find i p.2.resuming).isSome = true) →
    ∃ t, step s = .next t ∧ t.mem = s.mem ∧ t.contexts = s.contexts ∧ ∀ v, ∀ m ∈ (t.site v).marks, m.1 ≠ i))

/-! ## Collectives -/

/-- `coll.put`, `coll.getr` and `coll.arm` (R366-R369); arm messages, pieces and delivery at a router (R208-R210, R251, R367), and the error with which
a router out of service answers them (R416). A piece is combined element by element, which of operator first is the model's choice (log 56). With the
last contribution the root's entry holds the result, each element decided by its input flags (R251), and another's sends its pieces to its parent. That
a FREE entry reads 0 but for its latch is the model's choice (log 89). -/
def Obligations.Collectives : Prop :=
  ((∀ (d a b : BitVec 8) (s : State),
    let v := siteOfK s.cur
    let key := (s.val a).toNat % 512
    let e := s.trellis v key
    let tells := fun (t : State) (w : Nat) => Parks s t .access (.load .w64 d.toNat 4) ∧ OwnReply s t .data (leBytes 8 w)
    (Ready s [d, a] → ∃ t, exec (.collGetr d a) s = .next t ∧ tells t (if (s.val a).getLsbD 9 then e.word0 else e.latch).toNat) ∧
    (Ready s [d, a, b] → e.accepts 4 = false → s.holdFull v 7 = false →
      ∃ t, exec (.collPut d a b) s = .next t ∧ tells t 1 ∧ t.holdFull v 7 = true ∧ t.trellis v key = e) ∧
    (Ready s [d, a, b] → e.accepts 4 = true → e.count ≠ 1 → ∃ t, exec (.collPut d a b) s = .next t ∧ tells t 2 ∧ t.trellis v key = e) ∧
    (Ready s [d, a, b] → e.accepts 4 = true → e.count = 1 → ∃ t, exec (.collPut d a b) s = .next t ∧ tells t 0 ∧
      (t.trellis v key).glocal = e.glocal + 1)) ∧
  (∀ (d a : BitVec 8) (s : State), Ready s [d, a] → s.flaws = [] →
    let v := siteOfK s.cur
    let u := bowerOf s.cur
    let o := (s.val a).toNat
    let at_ := fun (n : Nat) => Memory.readN s.mem (homeKey v u o) n
    let h0 := wordAt (at_ 16) 0
    let h1 := wordAt (at_ 16) 1
    let n := bits h1 40 32
    let ms := (List.range n).map fun i => memberOf (wordAt (at_ (16 + 8 * n)) (2 + i))
    let sites := ms.mapM fun m =>
      if s.kindAt v m.x m.y = some .pavilion then (s.resolve v m.x m.y 0).map (fun r => (r.1, m)) else none
    let tells := fun (t : State) (w : Nat) => Parks s t .access (.load .w64 d.toNat 4) ∧ OwnReply s t .data (leBytes 8 w)
    (o % 64 ≠ 0 → exec (.collArm d a) s = .next (s.raiseFault s.cur .alignment)) ∧
    (o % 64 = 0 → 4194304 < o + 16 → exec (.collArm d a) s = .next (s.raiseFault s.cur .addressRange)) ∧
    (o % 64 = 0 → o + 16 ≤ 4194304 → MayRead s u o 16 → 4194304 < o + 16 + 8 * n → exec (.collArm d a) s = .next (s.raiseFault s.cur .addressRange)) ∧
    (o % 64 = 0 → o + 16 + 8 * n ≤ 4194304 → MayRead s u o (16 + 8 * n) →
      (armBad h0 h1 ms = true → exec (.collArm d a) s = .next (s.raiseFault s.cur .blockParameter)) ∧
      (armBad h0 h1 ms = false → sites = none → ∃ t, exec (.collArm d a) s = .next t ∧ tells t 3) ∧
      (∀ l, armBad h0 h1 ms = false → sites = some l → wellFormedTree l = false → ∃ t, exec (.collArm d a) s = .next t ∧ tells t 2) ∧
      (∀ l, armBad h0 h1 ms = false → sites = some l → wellFormedTree l = true → ∃ t p, exec (.collArm d a) s = .next t ∧
        Parks s t .access (.arm d.toNat) ∧ (t.site v).arms = (s.site v).arms ++ [p] ∧ p.k = s.cur ∧ p.left = l.length ∧ p.stage = 0 ∧
        p.key = (if h0.testBit 8 then 256 else 0) + h0 % 256 ∧
        ∀ q ∈ l, ∃ m ∈ t.net, m.dst = q.1 ∧ m.op = .armReserve p.key p.id (armEntry h0 h1 q.2 s.me.launch s.me.sup))))) ∧
  ((∀ (s : State) (n key o : Nat) (e : Trellis) (m : Msg), s.arriving n = some m →
    let old := s.trellis m.dst key
    let room := 64 - popCount (s.buffersUsed m.dst key) 64
    ((s.site m.dst).outOfService = true →
      let away := fun (i : Instr) => ∃ t, exec i s = .next t ∧ t.mem = s.mem ∧ t.trellis m.dst key = old ∧ Answered t m (.error 0x07) [] false
      (m.op = .armReserve key o e → away (.reqArmReserve n)) ∧ (m.op = .armCommit key o e → away (.reqArmCommit n)) ∧
      (m.op = .armRelease key o → away (.reqArmRelease n)) ∧ (∀ d, m.op = .contribution key d → away (.reqContribution n)) ∧
      (∀ d, m.op = .result key d → away (.reqResult n))) ∧
    ((s.site m.dst).outOfService = false →
    (m.op = .armReserve key o e → old.st = .free → old.reserved = none → e.buffers ≤ room → ∃ t, exec (.reqArmReserve n) s = .next t ∧ t.mem = s.mem ∧
      (t.trellis m.dst key).reserved = some o ∧ (t.trellis m.dst key).st = .free ∧ Answered t m (.status 0) [] false) ∧
    (m.op = .armReserve key o e → (old.st ≠ .free ∨ old.reserved ≠ none ∨ room < e.buffers) → ∃ t, exec (.reqArmReserve n) s = .next t ∧
      t.mem = s.mem ∧ t.trellis m.dst key = old ∧ Answered t m (.status 1) [] false) ∧
    (m.op = .armCommit key o e → old.reserved = some o → e.glocal < e.nlocal → ∃ t, exec (.reqArmCommit n) s = .next t ∧ t.mem = s.mem ∧
      t.trellis m.dst key = { e with st := .collect, bufs := old.bufs, latch := old.latch } ∧ Answered t m (.status 0) [] false) ∧
    (m.op = .armRelease key o → old.reserved = some o → ∃ t, exec (.reqArmRelease n) s = .next t ∧ t.mem = s.mem ∧
      t.trellis m.dst key = { latch := old.latch } ∧ Answered t m (.status 0) [] false))) ∧
  (∀ (s : State) (n v o i k site : Nat) (d : BitVec 8) (m : Msg) (x : Txn) (p : ArmOp), s.arriving n = some m → m.op = .status i → m.src = site →
    s.txn m.txn = some x → x.acc.owner = .arm v o → (s.site v).arms.find? (fun q => q.id == o) = some p → p.left = 1 → p.stage = 1 → p.k = k →
    p.d = d.toNat → WaitsFor s k (.arm d.toNat) → ∃ t, exec (.rspStatus n) s = .next t ∧ t.mem = s.mem ∧
      t.strand k = { put (s.strand k) d 0 with pc := (s.strand k).pc + 4, st := .ready, why := none, cont := .reissue }) ∧
  (∀ (s : State) (n key d : Nat) (m : Msg), s.arriving n = some m → (s.site m.dst).outOfService = false →
    let v := m.dst
    let e := s.trellis v key
    let i0 := m.off / elemSize e.op
    let refused := Tab.find (key * 8 + d) (s.site v).refused = some m.txn
    (m.op = .contribution key d → ¬refused → e.accepts d = true → e.glocal < e.nlocal → m.wflags.length = m.words.length →
      ∃ t, exec (.reqContribution n) s = .next t ∧ t.mem = s.mem ∧ (t.trellis v key).st = .collect ∧
        ∀ j w, m.words[j]? = some w → Tab.find (i0 + j) (t.trellis v key).elems =
          some (match Tab.find (i0 + j) e.elems with | none => w | some u => BitVec.ofNat 64 (combineElem e.op u.toNat w.toNat))) ∧
    (m.op = .contribution key d → ¬refused → e.accepts d = true → d < 4 → e.nlocal ≤ e.glocal →
      (∀ c, c < 4 → c ≠ d → bitOn e.children c = true → bitOn e.gchild c = true) → e.count ≤ Tab.get 0 d e.pieces + m.words.length →
      m.wflags.length = m.words.length → ∃ t, exec (.reqContribution n) s = .next t ∧ t.mem = s.mem ∧
        (e.parent = 4 → (t.trellis v key).st = .deliver ∧ ∀ j w g, m.words[j]? = some w → m.wflags[j]? = some g → i0 + j < e.count →
          Tab.find (i0 + j) (t.trellis v key).elems = some (BitVec.ofNat 64 (match Tab.find (i0 + j) e.elems with
            | none => finalElem e.op w.toNat g
            | some u => finalElem e.op (combineElem e.op u.toNat w.toNat % 2 ^ 64) ((Tab.get {} (i0 + j) e.flags).or g)))) ∧
        (∀ p, e.parent < 4 → neighbour v e.parent = some p → (t.trellis v key).st = .wait ∧
          (0 < e.count → ∃ q ∈ t.net, q.op = .contribution key (opposite e.parent) ∧ q.src = v ∧ q.dst = p ∧ q.off = 0 ∧
            q.mesh = some (meshOfKey key)))) ∧
    (m.op = .contribution key d → e.accepts d = false → ¬refused → s.holdFull v 7 = false →
      ∃ t, exec (.reqContribution n) s = .next t ∧ t.mem = s.mem ∧ t.trellis v key = e ∧ t.holdFull v 7 = true ∧ Answered t m (.status 1) [] false) ∧
    (m.op = .contribution key d → refused →
      exec (.reqContribution n) s = .next (s.consume m.id)) ∧
    (m.op = .result key d → e.st = .wait → e.parent = d → ∃ t, exec (.reqResult n) s = .next t ∧ t.mem = s.mem ∧ HoldsElems (t.trellis v key) i0 m.words ∧
      (t.trellis v key).st = if e.count ≤ Tab.get 0 5 e.pieces + m.words.length then .deliver else .wait) ∧
    (m.op = .result key d → (e.st ≠ .wait ∨ e.parent ≠ d) → s.holdFull v 7 = false →
      ∃ t, exec (.reqResult n) s = .next t ∧ t.mem = s.mem ∧ t.trellis v key = e ∧ t.holdFull v 7 = true)) ∧
  (∀ (s : State) (v g : Nat) (x : Mesh),
    let key := trellisKey x g
    let e := s.trellis v key
    e.st = .deliver → s.instant = none →
    (e.writesHere = true → (e.user = false ∨ s.destHeld v e = true) → Memory.wf s.mem = true →
      s.flawed (partGranules v e.bower e.dest e.bytes) = [] → ∃ t, exec (.trellisDeliver v x g) s = .next t ∧
      (t.trellis v key).st = .free ∧ t.tc v e.rctr = s.tc v e.rctr + 1 ∧
      (∀ i w j, i < e.count → Tab.find i e.elems = some w → j < elemSize e.op →
        Memory.read t.mem (homeKey v e.bower (e.dest + i * elemSize e.op + j)) = w.extractLsb' (8 * j) 8) ∧
      ∀ a, ¬(homeKey v e.bower e.dest ≤ a ∧ a < homeKey v e.bower (e.dest + e.bytes)) → Memory.read t.mem a = Memory.read s.mem a) ∧
    (e.writesHere = false → ∃ t, exec (.trellisDeliver v x g) s = .next t ∧ t.mem = s.mem ∧ t.trellis v key = { latch := e.latch }) ∧
    (e.writesHere = true → e.user = true → s.destHeld v e = false → s.holdFull v 7 = false → ∃ t, exec (.trellisDeliver v x g) s = .next t ∧
      t.mem = s.mem ∧ (t.trellis v key).st = .free ∧ t.holdFull v 7 = true)))

/-! ## Events, time, operating points -/

/-- Events on their way to the host (R165, R167, R168): a held event takes a record, the next record goes to the queue of the gatehouse that
ev.target names, or is refused while that queue is full, and a refused one is sent again and counted. Offsets between clock regions (R65, R227),
operating points (R422-R426), the current limiter (R427, R428) and the thermal trip (R425): what ctl.op_granted shows follows a level when it is
reached (log 66). The readings that the events LIMITER_WINDOW and THERMAL_TRIP carry are the model's choice (log 65), as is that a record moves in one
step (log 72). -/
def Obligations.EventsAndPower : Prop :=
  ((∀ (s : State) (v u : Nat) (r : EventRec) (rest : List (Nat × EventRec)), (s.site v).evHolds = (u, r) :: rest → (s.site v).roomFor r = true →
    ∃ t, exec (.eventHoldToRecord v) s = .next t ∧
      ((s.site v).leaving = [] → (s.site v).unserved = [] → (s.site v).releases = [] →
        (∀ k, siteOfK k = v → (s.strand k).st ≠ .parked ∧ (s.strand k).cont = .reissue) →
        t.mem = s.mem ∧ t.strands = s.strands ∧ (t.site v).events = (s.site v).events ++ [r] ∧ (t.site v).evHolds = rest)) ∧
  (∀ (s : State) (v d : Nat) (r : EventRec) (x : Option Mesh), (s.site v).nextRecord = some r →
    s.resolve v (xOf (rimSite (s.site v).evTarget)) (yOf (rimSite (s.site v).evTarget)) 0 = some (d, x) → d ≠ v →
    (s.site d).state ≠ .failed → (s.site d).state ≠ .isolated → s.nsHolds v d = false →
    (∀ p q, x = some p → q ∈ Machine.route 40 p v d → ((s.site q.1).link q.2 p).up = true) →
    let g := s.gate d
    let full := 4096 ≤ (g.eqTail + 2 ^ 32 - g.eqHead) % 2 ^ 32
    let sent := fun (t : State) => t.mem = s.mem ∧ t.strands = s.strands ∧ (t.site v).events = (s.site v).events.erase r ∧ (t.site v).evRefused = false ∧
      Tab.find (g.eqTail % 4096) (t.gate d).events = some r ∧ (t.gate d).eqTail = (g.eqTail + 1) % 2 ^ 32 ∧
      (t.gate d).eventNotices = g.eventNotices + 1
    let refused := fun (t : State) => t.mem = s.mem ∧ (t.site v).events = (s.site v).events ∧ (t.site v).evRefused = true ∧ t.gate d = g
    ((s.site v).evRefused = false → ¬full → ∃ t, exec (.eventForward v) s = .next t ∧ sent t) ∧
    ((s.site v).evRefused = false → full → ∃ t, exec (.eventForward v) s = .next t ∧ refused t) ∧
    ((s.site v).evRefused = true → ¬full → ∃ t, exec (.eventResend v) s = .next t ∧ sent t ∧
      (kindOf v = .pavilion → Tab.get 0 0xC3108 (t.site v).retries = Tab.get 0 0xC3108 (s.site v).retries + 1)) ∧
    ((s.site v).evRefused = true → full → ∃ t, exec (.eventResend v) s = .next t ∧ refused t))) ∧
  ((∀ (s : State) (v d w : Nat) (x : Mesh), neighbour v d = some w → (s.site v).meshUp d = some x → regionOf v ≠ regionOf w → (s.site v).clocked = true →
    (s.site w).clocked = true → (s.site w).state ≠ .failed → (s.site w).state ≠ .isolated →
    ∃ t, exec (.offsetProbe v d) s = .next t ∧ t.mem = s.mem ∧ ∃ q ∈ t.net, q.op = .probeTs (s.site v).time ∧ q.src = v ∧ q.dst = w) ∧
  (∀ (s : State) (n : Nat) (m : Msg) (t1 : Word), s.arriving n = some m → m.op = .probeTs t1 →
    ∃ t, exec (.reqProbeTimestamp n) s = .next t ∧ t.mem = s.mem ∧
      ∃ q ∈ t.net, q.op = .probeEcho t1 (s.site m.dst).time (s.site m.dst).time ∧ q.src = m.dst ∧ q.dst = m.src) ∧
  (∀ (s : State) (n : Nat) (m : Msg) (t1 t2 t3 : Word), s.arriving n = some m → m.op = .probeEcho t1 t2 t3 →
    let o : Int := (((t2.toNat : Int) - t1.toNat) + ((t3.toNat : Int) - (s.site m.dst).time.toNat)) / 2
    ∃ t, exec (.reqProbeEcho n) s = .next t ∧ t.mem = s.mem ∧ ∀ v ∈ regionSites (xOf m.dst / 2) (yOf m.dst / 2),
      Tab.find m.edge (t.site v).timeOffset = some (BitVec.ofInt 16 (max (-32767) (min 32767 o)))) ∧
  (∀ (s : State) (v : Nat), kindOf v = .pavilion → (s.site v).clocked = true →
    let p := (s.site v).power
    let trip := p.trip && (decide (1000 ≤ p.temp) || s.holdFull v 13)
    ∃ t, exec (.controlInterval v) s = .next t ∧ t.mem = s.mem ∧ t.strands = s.strands ∧ (t.site v).power.trip = trip ∧
      ∀ b, b < 4 →
        let w := s.bower (v * 4 + b)
        let x := t.bower (v * 4 + b)
        let icap := if p.maxStage = 2 then min w.icap w.interval - 1 else if p.maxStage = 0 then min 15 (w.icap + 1) else w.icap
        let tcap := if trip then 0 else w.pwTcap
        x.icap = icap ∧ x.target = min tcap (min icap (min (s.requested (v * 4 + b)) (if w.bg then w.hc else min w.hc 12))) ∧
          x.level = w.level ∧ x.dueIcap = icap ∧ x.dueTcap = tcap ∧ x.dueBoost = (w.bg && decide (12 < x.target)) ∧
          (w.level = x.target → x.shownIcap = icap ∧ x.shownTcap = tcap ∧ x.boost = x.dueBoost) ∧
          (w.level ≠ x.target → x.shownIcap = w.shownIcap ∧ x.shownTcap = w.shownTcap ∧ x.boost = w.boost)) ∧
  (∀ (s : State) (b : Nat), (s.bower b).level ≠ (s.bower b).target →
    exec (.levelChangeComplete b) s = .next (s.modBower b fun w =>
      { w with level := w.target, boost := w.dueBoost, shownTcap := w.dueTcap, shownIcap := w.dueIcap })) ∧
  (∀ (s : State) (v meas : Nat), kindOf v = .pavilion → meas < 2 ^ 16 →
    let p := (s.site v).power
    s.instant = none → (∀ c q, ((s.core c).permit q).was = none) →
    let cores := fun (t : State) (f : Permit → Permit) => ∀ c, c < 16 → ∀ q, (t.core (v * 16 + c)).permit q = f ((s.core (v * 16 + c)).permit q)
    let goes := fun (n : Nat) (f : Permit → Permit) => ∃ t, exec (.limiterWindow v meas) s = .next t ∧ t.mem = s.mem ∧ t.strands = s.strands ∧
      (t.site v).power.imeas = meas ∧ (t.site v).power.stage = n ∧ cores t f
    (p.stage = 0 → p.ilimit < meas → goes 1 fun q => { rate := q.rate / 2, cap := q.cap / 2, count := min q.count (q.cap / 2), saved := some (q.rate, q.cap) }) ∧
    (p.stage = 0 → meas ≤ p.ilimit → goes 0 id) ∧
    (p.stage = 1 → p.ilimit < meas → goes 2 id) ∧
    (p.stage = 1 → meas * 100 ≤ p.ilimit * 95 → goes 0 fun q => match q.saved with
      | some (r, c) => { rate := r, cap := c, count := min q.count c, saved := none }
      | none => q) ∧
    (p.stage = 1 → meas ≤ p.ilimit → p.ilimit * 95 < meas * 100 → goes 1 id) ∧
    (p.stage = 2 → meas * 100 ≤ p.ilimit * 95 → s.holdFull v 12 = false → goes 1 id) ∧
    (p.stage = 2 → p.ilimit * 95 < meas * 100 → goes 2 id)) ∧
  (∀ (s : State) (v : Nat) (temp : Int), kindOf v = .pavilion → -32768 ≤ temp → temp ≤ 32767 →
    (1100 ≤ temp → (s.site v).power.trip = false → ∃ t, exec (.thermalTrip v temp) s = .next t ∧ t.mem = s.mem ∧ (t.site v).power.temp = temp ∧
      (t.site v).power.trip = true ∧ t.holdFull v 13 = true ∧ ∀ b, b < 4 → (t.bower (v * 4 + b)).target = 0 ∧ (t.bower (v * 4 + b)).dueBoost = false ∧
        (t.bower (v * 4 + b)).level = (s.bower (v * 4 + b)).level) ∧
    ((temp < 1100 ∨ (s.site v).power.trip = true) → ∃ t, exec (.thermalTrip v temp) s = .next t ∧ t.mem = s.mem ∧ (t.site v).power.temp = temp ∧
      t.bowers = s.bowers ∧ (t.site v).power.trip = (s.site v).power.trip)))

/-! ## Links, the host side and bring-up -/

/-- The bytes of a flit (R4, R401, R402): head words, data, enables and reserved bytes in their places, under a check that a receiver accepts; an idle
flit brings exactly its link fields, and a flit with a message also its sequence number, class, op and length. -/
def Obligations.FlitBytes : Prop :=
  (∀ (head : List Nat) (data : List Byte) (en hi : Nat), head.length = 4 → data.length ≤ 128 →
    let b := flitOf head data en hi
    b.length = 256 ∧ crcOk b = true ∧ (∀ i w, head[i]? = some w → headAt b i = w % 2 ^ 64) ∧ (b.drop 32).take data.length = data ∧
      leNat ((b.drop 160).take 16) = en % 2 ^ 128 ∧ leNat ((b.drop 176).take 16) = hi % 2 ^ 128 ∧ (b.drop 192).take 60 = List.replicate 60 0) ∧
  (∀ f : LinkFields, f.ccl < 8 → f.crd < 256 → f.ack < 4096 →
    crcOk (LinkFields.bytes f) = true ∧ linkFieldsOf (LinkFields.bytes f) = f ∧ bits (headAt (LinkFields.bytes f) 0) 63 56 = 0) ∧
  (∀ f : Flit, f.seq < 4096 → f.ack < 4096 → (∀ c n, f.crd = some (c, n) → c < 8 ∧ n < 256) → f.msg.code < 256 → f.msg.lenField < 16 →
    linkFieldsOf f.bytes = f.fields ∧ headAt f.bytes 0 % 4096 = f.seq ∧ bits (headAt f.bytes 0) 31 29 = f.msg.op.cls ∧
      bits (headAt f.bytes 0) 63 56 = f.msg.code ∧ bits (headAt f.bytes 0) 51 48 = f.msg.lenField)

/-- Links (R402-R408, R421, R429; log 35): a message leaves by a link while it has a credit of its class and room in the retry buffer; the flit that
is due is delivered, and one that comes too early, or fails its check, is asked for again; a second failure of a flit or the loss of the reference
takes the link down; the link fields of any flit free the retry buffer and return credits. Merging (R111, R112, R410): two atomics that wait for one
output become one that carries both, and its acknowledgement answers each. -/
def Obligations.LinksAndMerging : Prop :=
  (((∀ (s : State) (v d n : Nat) (x : Mesh) (m : Msg) (rest : List Sched), s.agenda = .send n :: rest → s.headOf n = some m → m.next = some (v, d) →
    m.mesh = some x → ((s.site v).link d x).up = true →
    let l := (s.site v).link d x
    let free := l.hasCredit m.op.cls = true ∧ l.retry.length < 512
    (free → ∃ t, step s = .next t ∧ t.mem = s.mem ∧ ((t.site v).link d x).seq = (l.seq + 1) % 4096 ∧
      ((t.site v).link d x).retry = l.retry ++ [{ seq := l.seq, msg := m }] ∧
      Tab.get 0 m.op.cls ((t.site v).link d x).credits = Tab.get 0 m.op.cls l.credits - 1) ∧
    (¬free → step s = .refused (.notDue "FLIT_SEND"))) ∧
  (∀ (s : State) (v d w : Nat) (x : Mesh) (f : Flit) (fs : List Flit) (rest : List Sched), s.agenda = .recv v d x :: rest → d < 4 →
    neighbour v d = some w → ((s.site v).link d x).up = true → ((s.site w).link (opposite d) x).wire = f :: fs → f.seq < 4096 →
    let l := (s.site v).link d x
    (∀ m, f.seq = (l.got + 1) % 4096 → f.hit = false → s.net.find? (fun q => q.id == f.msg.id) = some m →
      ∃ t, step s = .next t ∧ t.mem = s.mem ∧ ((t.site v).link d x).got = f.seq ∧ ((t.site v).link d x).dropping = false ∧
        { m with hops := m.hops + 1, sent := false, via := [d], buf := some d } ∈ t.net) ∧
    ((f.seq + 4096 - (l.got + 1) % 4096) % 4096 < 2048 → f.seq ≠ (l.got + 1) % 4096 → l.dropping = false →
      ∃ t, step s = .next t ∧ t.mem = s.mem ∧ t.net = s.net ∧ ((t.site v).link d x).got = l.got ∧ ((t.site v).link d x).dropping = true ∧
        ((t.site v).link d x).rq = true ∧ ((t.site w).link (opposite d) x).wire = fs))) ∧
  (∀ (s : State) (v d w : Nat) (x : Mesh), d < 4 → neighbour v d = some w →
    let l := (s.site v).link d x
    let p := (s.site w).link (opposite d) x
    let asked := fun (t : State) => t.mem = s.mem ∧ t.net = s.net ∧ ((t.site v).link d x).dropping = true ∧ ((t.site v).link d x).rq = true ∧
      (kindOf v = .pavilion → Tab.get 0 (lrOffset d x + 16) (t.site v).retries = Tab.get 0 (lrOffset d x + 16) (s.site v).retries + 1)
    (l.up = true → p.wire = [] → ∃ t, exec (.linkCrcError v d x) s = .next t ∧ asked t) ∧
    (∀ f fs, l.up = true → p.wire = f :: fs → f.hit = false → ∃ t, exec (.linkCrcError v d x) s = .next t ∧ asked t ∧
      ((t.site w).link (opposite d) x).wire = (fs.map fun g => if g.seq = f.seq then { g with hit := true } else g) ∧
      ((t.site w).link (opposite d) x).retry = p.retry.map fun g => if g.seq = f.seq then { g with hit := true } else g) ∧
    (∀ f fs, l.up = true → p.wire = f :: fs → f.hit = true → s.holdFull w 8 = false → s.dropStalls v d x = false →
      ∃ t, exec (.linkCrcError v d x) s = .next t ∧ t.mem = s.mem ∧ BothDown t v d w x ∧ t.holdFull w 8 = true) ∧
    (∀ y, ((s.site v).link d y).up = true → s.holdFull v 8 = false → ((s.site v).meshesUp d).any (s.dropStalls v d) = false →
      ∃ t, exec (.referenceClockLoss v d) s = .next t ∧ t.mem = s.mem ∧ BothDown t v d w y ∧ t.holdFull v 8 = true)) ∧
  (∀ (s : State) (v d w : Nat) (x : Mesh), d < 4 → neighbour v d = some w →
    let l := (s.site v).link d x
    let p := (s.site w).link (opposite d) x
    l.up = true →
    (l.retry ≠ [] → ∃ t, exec (.linkRetryTimeout v d x) s = .next t ∧ t.mem = s.mem ∧ t.net = s.net ∧ ((t.site v).link d x).retry = l.retry ∧
      ((t.site v).link d x).wire.map (·.seq) = l.wire.map (·.seq) ++ l.retry.map (·.seq) ∧
      (kindOf v = .pavilion → Tab.get 0 (lrOffset d x) (t.site v).retries = Tab.get 0 (lrOffset d x) (s.site v).retries + BitVec.ofNat 64 l.retry.length)) ∧
    (∀ f : LinkFields, p.wire = [] → p.canSay f = true → ∃ t, exec (.idleFlit v d x f) s = .next t ∧ t.mem = s.mem ∧ t.net = s.net ∧
      (∀ a b, l.retry = a ++ b → (∀ q ∈ a, (f.ack + 4096 - q.seq) % 4096 < 2048) → (∀ q ∈ b.head?, 2048 ≤ (f.ack + 4096 - q.seq) % 4096) →
        ((t.site v).link d x).retry = b) ∧
      Tab.get 0 f.ccl ((t.site v).link d x).credits = Tab.get 0 f.ccl l.credits + (if f.cv then f.crd else 0)) ∧
    (∀ b : List Byte, p.wire = [] → p.canSay (linkFieldsOf b) = true → crcOk b = true → (linkFieldsOf b).rq = false → s.holdFull v 8 = false →
      (p.retry.length < 512 → p.hasCredit (bufferClass b) = true → protocolOk b = false → bits (headAt b 0) 63 56 ≠ 0 →
        headAt b 0 % 4096 = p.seq → p.seq = (l.got + 1) % 4096 →
        ∃ t, exec (.flitProtocolError v d x b) s = .next t ∧ t.mem = s.mem ∧ t.net = s.net ∧ t.holdFull v 8 = true ∧
          ((t.site v).link d x).got = p.seq ∧
          Tab.get 0 (bufferClass b) ((t.site v).link d x).owed = Tab.get 0 (bufferClass b) l.owed + 1) ∧
      (bits (headAt b 0) 63 56 = 0 → flitReserved b = true →
        ∃ t, exec (.flitProtocolError v d x b) s = .next t ∧ t.mem = s.mem ∧ t.net = s.net ∧ t.holdFull v 8 = true ∧
          ((t.site v).link d x).got = l.got)))) ∧
  ((∀ (s : State) (v n1 n2 : Nat) (a b : Msg) (op : AmoOp), s.headOf n1 = some a → s.headOf n2 = some b → a.op = .req (.amo op) →
    s.mergeable v a b = true → (∀ q ∈ s.net, q.id < s.nextId) →
    ∃ t m, exec (.routerMergeAmo v n1 n2) s = .next t ∧ t.mem = s.mem ∧ m ∈ t.net ∧ m.op = a.op ∧ m.dst = a.dst ∧ m.off = a.off ∧ m.tag = a.tag ∧
      m.count = a.count + b.count ∧ (∀ q ∈ t.net, q.id ≠ n1 ∧ q.id ≠ n2) ∧ (∃ u ∈ t.txns, u.id = m.txn ∧ u.parts = [a, b]) ∧
      (op = .add → m.data = leBytes 8 (leWord (a.data.take 8) + leWord (b.data.take 8)).toNat)) ∧
  (∀ (s : State) (n : Nat) (m : Msg) (x : Txn), s.arriving n = some m → m.op = .ack → s.txn m.txn = some x → x.relays = false → x.parts ≠ [] →
    ∃ t, exec (.mergedAmoAnswer n) s = .next t ∧ t.mem = s.mem ∧ ∀ p ∈ x.parts, ∃ q ∈ t.net, q.op = .ack ∧ q.dst = p.src ∧ q.txn = p.txn))

/-- Host windows at a gatehouse (R77, R119-R121, R302, R420); that host memory shows the posted writes when the read behind them is complete is the
model's choice (log 52). Configuration space (R413, R414, R416): a read answers with the word, an offset without one with error 1, a write of a
read-only word is acknowledged, a FAILED site answers every write but that of cfg.cmd with error 7 (log 41), cfg.cmd isolates, and cfg.window relays an
access of a core or of the host. -/
def Obligations.WindowsOfSites : Prop :=
  ((∀ (s : State) (g : Nat) (p : Posted), (s.gate g).probe = none → (s.gate g).posted.getLast? = some p → (s.gate g).linkUp = true →
    exec (.gatehouseZeroLengthRead g) s = .next (s.modGate g fun x => { x with probe := some p.id })) ∧
  (∀ (s : State) (g w : Nat), (s.gate g).probe = some w →
    ∃ t, exec (.hostWriteComplete g) s = .next t ∧ (t.gate g).probe = none ∧ (t.gate g).posted = (s.gate g).posted.filter (fun p => !decide (p.id ≤ w)) ∧
      t.mem = ((s.gate g).posted.filter fun p => decide (p.id ≤ w)).foldl
        (fun m p => if p.atHost then m else Memory.writeN m (hostKey p.off) p.en p.data) s.mem) ∧
  (∀ (s : State) (g n w : Nat) (m : Msg),
    (s.hostPending g n (· == .read) = some (w, m) →
      (∃ t, exec (.hostReadCompletion g n true) s = .next t ∧ t.mem = s.mem ∧ Answered t m .data (s.hostBytes g m.off m.len) false) ∧
      (∃ t, exec (.hostReadCompletion g n false) s = .next t ∧ t.mem = s.mem ∧ Answered t m (.error 0x10) [] false)) ∧
    (s.hostPending g n hostAtomic = some (w, m) →
      (∃ t, exec (.hostAtomicopComplete g n false) s = .next t ∧ t.mem = s.mem ∧ Answered t m (.error 0x10) [] false) ∧
      ((s.gate g).posted = [] → Memory.wf s.mem = true →
        let old := BitVec.ofNat 64 (leNat (Memory.readN s.mem (hostKey m.off) 8))
        let x := leWord (m.data.take 8)
        let gives := fun (op : ReqOp) (new : Word) (r : MsgOp) (d : List Byte) => m.op = .req op → ∃ t, exec (.hostAtomicopComplete g n true) s = .next t ∧
          Answered t m r d false ∧ ∀ a, Memory.read t.mem a =
            if hostKey m.off ≤ a ∧ a < hostKey m.off + 8 then new.extractLsb' (8 * (a - hostKey m.off)) 8 else Memory.read s.mem a
        gives (.amo .add) (old + x) .ack [] ∧ gives (.famo .add) (old + x) .data (leBytes 8 old.toNat) ∧
        gives (.famo .swap) x .data (leBytes 8 old.toNat) ∧
        gives (.famo .cas) (if old = x then leWord ((m.data.drop 8).take 8) else old) .data (leBytes 8 old.toNat)))) ∧
  (∀ (s : State) (g : Nat), kindOf g = .gatehouse →
    ((s.gate g).linkUp = false → exec (.hostLinkStateChange g true) s = .next (s.modGate g fun x => { x with linkUp := true })) ∧
    ((s.gate g).linkUp = true → ∃ t, exec (.hostLinkStateChange g false) s = .next t ∧ t.mem = s.mem ∧ (t.gate g).linkUp = false ∧
      (t.gate g).pending = [] ∧ ∀ p ∈ (s.gate g).pending, Answered t p.2 (.error 0x10) [] false))) ∧
  ((∀ (s : State) (n : Nat) (m : Msg), s.arriving n = some m →
    let c := s.cfgRead m.dst m.off
    (m.op = .cfgRead → (∀ w, c = some w → ∃ t, exec (.reqConfigRead n) s = .next t ∧ t.mem = s.mem ∧ Answered t m .data (leBytes 8 w.toNat) false) ∧
      (c = none → ∃ t, exec (.reqConfigRead n) s = .next t ∧ t.mem = s.mem ∧ Answered t m (.error 0x01) [] false)) ∧
    (m.op = .cfgWrite → c = none → (s.site m.dst).state ≠ .failed → ∃ t, exec (.reqConfigWrite n) s = .next t ∧ t.mem = s.mem ∧ Answered t m (.error 0x01) [] false) ∧
    (m.op = .cfgWrite → (s.site m.dst).state = .failed → m.off ≠ 0x080 →
      ∃ t, exec (.reqConfigWrite n) s = .next t ∧ t.mem = s.mem ∧ Answered t m (.error 0x07) [] false) ∧
    (m.op = .cfgWrite → c ≠ none → (s.site m.dst).state ≠ .failed → m.off < 0x080 →
      ∃ t, exec (.reqConfigWrite n) s = .next t ∧ t.mem = s.mem ∧ Answered t m .ack [] false ∧ t.cfgRead m.dst 0x010 = s.cfgRead m.dst 0x010) ∧
    (m.op = .cfgWrite → m.off = 0x080 → (leWord m.data).getLsbD 0 = true → (s.site m.dst).state ≠ .cold → s.downStalls m.dst = false →
      ∃ t, exec (.reqConfigWrite n) s = .next t ∧ t.mem = s.mem ∧ (t.site m.dst).state = .isolated)) ∧
  (∀ (s : State) (v : Nat), s.cfgRead v 0x010 = some (match (s.site v).coord with
      | some (x, y) => BitVec.ofNat 64 (2 ^ 63 + y * 2 ^ 8 + x)
      | none => 0)) ∧
  (∀ (s : State) (g n : Nat) (m : Msg), s.arriving n = some m → m.dst = g → m.unit = 16 → m.host = false → inCfgWindow g m.off = true →
    m.len = 8 → m.off % 8 = 0 → (s.site g).state ≠ .failed → (s.site g).state ≠ .isolated →
    let d := siteAt ((s.gate g).cfgTarget % 256) ((s.gate g).cfgTarget / 256)
    onGrid ((s.gate g).cfgTarget % 256) ((s.gate g).cfgTarget / 256) = true → d ≠ g →
    ∀ p ∈ ([(.read, .cfgRead, true), (.write, .cfgWrite, m.en % 256 == 255)] : List (ReqOp × MsgOp × Bool)), m.op = .req p.1 → p.2.2 = true →
      ∃ t, exec (.cfgWindowAccess g n) s = .next t ∧ t.mem = s.mem ∧
        ∃ q ∈ t.net, q.op = p.2.1 ∧ q.src = g ∧ q.dst = d ∧ q.off = m.off - 0x81000 ∧ q.data = m.data) ∧
  (∀ (s : State) (g off : Nat) (w : Word), kindOf g = .gatehouse → siteKey g = true → (s.gate g).linkUp = true → inCfgWindow g off = true → off % 8 = 0 →
    (s.site g).outOfService = false →
    let d := siteAt ((s.gate g).cfgTarget % 256) ((s.gate g).cfgTarget / 256)
    onGrid ((s.gate g).cfgTarget % 256) ((s.gate g).cfgTarget / 256) = true →
    ∃ t, exec (.registerWrite (.window g off w)) s = .next t ∧ t.mem = s.mem ∧
      ∃ q ∈ t.net, q.op = .cfgWrite ∧ q.src = g ∧ q.dst = d ∧ q.off = off - 0x81000 ∧ q.data = leBytes 8 w.toNat))

/-- The states of a site (R65, R66, R415-R417): power, the reference, the links and hellos, coordinates, the time-outs, isolation and reset (log 38).
The image (R88, R415, R418, R419, R431, R432; log 39) and the quote (R435). A gatehouse answers image requests once its copy is present (R418) and
its keeper's firmware image, which attached storage gives it (log 83), has verified. Which images verify rests on the root key, a constant that the model leaves
open. -/
def Obligations.BringUp : Prop :=
  ((∀ (s : State) (v : Nat), siteKey v = true →
    ((s.site v).state = .cold → exec (.powerGood v) s = .next (s.modSite v fun t => { t with prev := .cold, state := .listen })) ∧
    (∃ t, exec (.moduleReset v) s = .next t ∧ t.mem = s.mem ∧ t.site v = { prev := (s.site v).state } ∧
      (∀ k, siteOfK k = v → t.strand k = {}) ∧ ∀ k, siteOfK k ≠ v → t.strand k = s.strand k) ∧
    ((s.site v).state = .map → exec (.mapImageTimeout v) s = .next (s.modSite v fun t => { t with prev := .map, state := .failed })) ∧
    ((s.site v).state = .listen → kindOf v = .gatehouse → exec (.listenTimeout v) s = .next (s.modSite v fun t => { t with prev := .listen, state := .failed })) ∧
    ((s.site v).state = .listen → kindOf v ≠ .gatehouse → s.noReference v = true → s.downStalls v = false →
      ∃ t, exec (.listenTimeout v) s = .next t ∧ t.mem = s.mem ∧ (t.site v).state = .isolated) ∧
    ((s.site v).state ≠ .cold → s.downStalls v = false → ∃ t, exec (.cfgIsolate v) s = .next t ∧ t.mem = s.mem ∧ (t.site v).state = .isolated) ∧
    ((s.site v).state = .listen → kindOf v = .gatehouse → ∃ t, exec (.gatehouseReferenceStable v) s = .next t ∧ t.mem = s.mem ∧
      (t.site v).state = .test ∧ (t.site v).coord = some (xOf v, yOf v))) ∧
  (∀ (s : State) (v d w : Nat), neighbour v d = some w →
    ((s.site v).state = .listen → kindOf v ≠ .gatehouse → (s.site v).meshUp d ≠ none → (s.site w).clocked = true →
      ∃ t, exec (.referenceLock v d) s = .next t ∧ t.mem = s.mem ∧ (t.site v).upstream = some d ∧ (t.site v).time = s.regionTime v ∧
        (t.site v).state = if (s.site v).met d then .test else .lock) ∧
    (∀ x, ((s.site v).link d x).up = false → ((s.site v).link d x).dead = false → ((s.site w).link (opposite d) x).dead = false →
      (s.site v).wired = true → (s.site w).wired = true → ((s.site v).clocked || (s.site w).clocked) = true →
      ∃ t, exec (.linkInitComplete v d x) s = .next t ∧ t.mem = s.mem ∧ ((t.site v).link d x).up = true ∧ ((t.site w).link (opposite d) x).up = true) ∧
    (∀ x, ((s.site v).link d x).up = true → ((s.site v).link d x).helloGot = false →
      ∃ t, exec (.helloResend v d x) s = .next t ∧ t.mem = s.mem ∧
        ∃ q ∈ t.net, q.src = v ∧ q.dst = w ∧ q.op = .hello (kindNo v) ((s.coord v).getD (0, 0)).2 ((s.coord v).getD (0, 0)).1 (s.coord v).isSome)) ∧
  (∀ (s : State) (n kind y x : Nat) (valid : Bool) (m : Msg) (p : Mesh), s.arriving n = some m → m.op = .hello kind y x valid → m.mesh = some p →
    let v := m.dst
    let met := fun (t : State) => t.mem = s.mem ∧ ((t.site v).link m.edge p).helloGot = true ∧ Tab.find m.edge (t.site v).peers = some { valid, kind, y, x }
    (∀ c, valid = true → kindOf v ≠ .gatehouse → (s.site v).coord = none → (s.site v).conflict = false → implied m.edge x y = some c → ∃ t, exec (.reqHello n) s = .next t ∧ met t ∧ (t.site v).coord = some c) ∧
    (valid = true → kindOf v = .gatehouse → implied m.edge x y = some (xOf v, yOf v) →
      ∃ t, exec (.reqHello n) s = .next t ∧ met t ∧ (t.site v).coord = (s.site v).coord) ∧
    (valid = true → kindOf v = .gatehouse → implied m.edge x y ≠ some (xOf v, yOf v) → s.holdFull v 15 = false →
      ∃ t, exec (.reqHello n) s = .next t ∧ met t ∧ (t.site v).conflict = true ∧ t.holdFull v 15 = true ∧
        ((s.site v).state = .map → (t.site v).state = .failed)) ∧
    (valid = false → ∃ t, exec (.reqHello n) s = .next t ∧ met t ∧ (t.site v).coord = (s.site v).coord))) ∧
  ((∀ (s : State) (v : Nat), (s.site v).state = .test → kindOf v = .pavilion →
    ((s.site v).conflict = false → ∃ t, exec (.selfTestDone v true) s = .next t ∧ (t.site v).state = .map ∧ AskedFor s t v 0 v ∧
      ∀ u o, (u < 4 ∧ o < 4194304 ∨ u = 4 ∧ o < 33554432) → Memory.read t.mem (homeKey v u o) = 0) ∧
    (s.holdFull v 15 = false → ∃ t, exec (.selfTestDone v false) s = .next t ∧ t.mem = s.mem ∧ (t.site v).state = .failed ∧ t.holdFull v 15 = true)) ∧
  (∀ (s : State) (n b : Nat) (m : Msg), s.arriving n = some m → m.op = .imageRequest b →
    let v := m.dst
    ((s.site v).outOfService = true → ∃ t, exec (.reqImageRequest n) s = .next t ∧ t.mem = s.mem ∧ Answered t m (.error 0x07) [] false) ∧
    (s.answersImage v = true → (s.site v).outOfService = false → ∃ t, exec (.reqImageRequest n) s = .next t ∧ t.mem = s.mem ∧ BlockSent t v m.edge b m.off) ∧
    (s.answersImage v = false → (s.site v).outOfService = false → ∃ t, exec (.reqImageRequest n) s = .next t ∧ t.mem = s.mem ∧
      (t.site v).imageReqs = (s.site v).imageReqs ++ [(m.edge, b, m.off)] ∧ ((s.site v).upstream ≠ none → AskedFor s t v b m.off) ∧
      ((s.site v).upstream = none → t.net = s.net.filter fun q => q.id != n))) ∧
  (∀ (s : State) (g : Nat) (rest : List Sched), s.agenda = .placeImage g :: rest → siteKey g = true → kindOf g = .gatehouse → (s.site g).state ≠ .cold →
    ∃ t, step s = .next t ∧ t.mem = s.mem ∧ (t.gate g).imageHere = true ∧
      (((s.site g).state = .ready ∨ (s.site g).state = .map ∧ s.keeperVerifies g = true) → (t.site g).imageReqs = [] ∧
        ∀ r ∈ (s.site g).imageReqs, BlockSent t g r.1 r.2.1 r.2.2)) ∧
  (∀ (s : State) (n b : Nat) (last : Bool) (m : Msg), s.arriving n = some m → m.op = .imageBlock b last → m.off = m.dst → (s.site m.dst).state = .map →
    let v := m.dst
    let img := imageOf (Tab.put b m.data (s.site v).image)
    (last = false → ∃ t, exec (.reqImageBlock n) s = .next t ∧ t.mem = s.mem ∧ Tab.find b (t.site v).image = some m.data ∧ AskedFor s t v (b + 1) v) ∧
    (last = true → (s.site v).coord ≠ none → (kindOf v = .gatehouse → s.keeperVerifies v = true) →
      (s.rejects v img = none → ∃ t, exec (.reqImageBlock n) s = .next t ∧ t.mem = s.mem ∧ (t.site v).state = .ready ∧ (t.site v).section_ = img) ∧
      (∀ c, s.rejects v img = some c → s.holdFull v 15 = false →
        ∃ t, exec (.reqImageBlock n) s = .next t ∧ t.mem = s.mem ∧ (t.site v).state = .failed ∧ t.holdFull v 15 = true))) ∧
  (∀ (s : State) (v : Nat),
    (kindOf v ≠ .memory → exec (.atGo v) s = .next (s.modSite v fun t =>
      if t.power.busy then t else { t with power := { t.power with busy := true, done := false } })) ∧
    ((s.site v).power.busy = true → ∃ t, exec (.quoteDone v) s = .next t ∧ t.mem = s.mem ∧ t.strands = s.strands ∧ (t.site v).power.busy = false ∧
      (t.site v).power.done = true ∧ (t.site v).power.quote.take (s.quoteBody v).length = s.quoteBody v)))
end

