-- ==== Sys2Proof/Laws/State.lean ====
section
/-! SUPPORT. What the updates of the state's records do to each field: one lemma per field and update, true by unfolding, so that no proof unfolds
an update of the whole state. -/

namespace Sys2Proof.Machine

/-! ## `State.setStrand` -/

@[simp] theorem State.setStrand_mem (s : State) (k : Nat) (x : Strand) : (s.setStrand k x).mem = s.mem := rfl
@[simp] theorem State.setStrand_full (s : State) (k : Nat) (x : Strand) : (s.setStrand k x).full = s.full := rfl
@[simp] theorem State.setStrand_flaws (s : State) (k : Nat) (x : Strand) : (s.setStrand k x).flaws = s.flaws := rfl
@[simp] theorem State.setStrand_strands (s : State) (k : Nat) (x : Strand) : (s.setStrand k x).strands = Tab.put k x s.strands := rfl
@[simp] theorem State.setStrand_cores (s : State) (k : Nat) (x : Strand) : (s.setStrand k x).cores = s.cores := rfl
@[simp] theorem State.setStrand_bowers (s : State) (k : Nat) (x : Strand) : (s.setStrand k x).bowers = s.bowers := rfl
@[simp] theorem State.setStrand_sites (s : State) (k : Nat) (x : Strand) : (s.setStrand k x).sites = s.sites := rfl
@[simp] theorem State.setStrand_net (s : State) (k : Nat) (x : Strand) : (s.setStrand k x).net = s.net := rfl
@[simp] theorem State.setStrand_txns (s : State) (k : Nat) (x : Strand) : (s.setStrand k x).txns = s.txns := rfl
@[simp] theorem State.setStrand_contexts (s : State) (k : Nat) (x : Strand) : (s.setStrand k x).contexts = s.contexts := rfl
@[simp] theorem State.setStrand_nextId (s : State) (k : Nat) (x : Strand) : (s.setStrand k x).nextId = s.nextId := rfl
@[simp] theorem State.setStrand_batch (s : State) (k : Nat) (x : Strand) : (s.setStrand k x).batch = s.batch := rfl
@[simp] theorem State.setStrand_instant (s : State) (k : Nat) (x : Strand) : (s.setStrand k x).instant = s.instant := rfl
@[simp] theorem State.setStrand_freeIx (s : State) (k : Nat) (x : Strand) : (s.setStrand k x).freeIx = s.freeIx := rfl
@[simp] theorem State.setStrand_agenda (s : State) (k : Nat) (x : Strand) : (s.setStrand k x).agenda = s.agenda := rfl
@[simp] theorem State.setStrand_cur (s : State) (k : Nat) (x : Strand) : (s.setStrand k x).cur = s.cur := rfl

/-! ## `State.modStrand` -/

@[simp] theorem State.modStrand_mem (s : State) (k : Nat) (f : Strand → Strand) : (s.modStrand k f).mem = s.mem := rfl
@[simp] theorem State.modStrand_full (s : State) (k : Nat) (f : Strand → Strand) : (s.modStrand k f).full = s.full := rfl
@[simp] theorem State.modStrand_flaws (s : State) (k : Nat) (f : Strand → Strand) : (s.modStrand k f).flaws = s.flaws := rfl
@[simp] theorem State.modStrand_strands (s : State) (k : Nat) (f : Strand → Strand) : (s.modStrand k f).strands = Tab.put k (f (s.strand k)) s.strands := rfl
@[simp] theorem State.modStrand_cores (s : State) (k : Nat) (f : Strand → Strand) : (s.modStrand k f).cores = s.cores := rfl
@[simp] theorem State.modStrand_bowers (s : State) (k : Nat) (f : Strand → Strand) : (s.modStrand k f).bowers = s.bowers := rfl
@[simp] theorem State.modStrand_sites (s : State) (k : Nat) (f : Strand → Strand) : (s.modStrand k f).sites = s.sites := rfl
@[simp] theorem State.modStrand_net (s : State) (k : Nat) (f : Strand → Strand) : (s.modStrand k f).net = s.net := rfl
@[simp] theorem State.modStrand_txns (s : State) (k : Nat) (f : Strand → Strand) : (s.modStrand k f).txns = s.txns := rfl
@[simp] theorem State.modStrand_contexts (s : State) (k : Nat) (f : Strand → Strand) : (s.modStrand k f).contexts = s.contexts := rfl
@[simp] theorem State.modStrand_nextId (s : State) (k : Nat) (f : Strand → Strand) : (s.modStrand k f).nextId = s.nextId := rfl
@[simp] theorem State.modStrand_batch (s : State) (k : Nat) (f : Strand → Strand) : (s.modStrand k f).batch = s.batch := rfl
@[simp] theorem State.modStrand_instant (s : State) (k : Nat) (f : Strand → Strand) : (s.modStrand k f).instant = s.instant := rfl
@[simp] theorem State.modStrand_freeIx (s : State) (k : Nat) (f : Strand → Strand) : (s.modStrand k f).freeIx = s.freeIx := rfl
@[simp] theorem State.modStrand_agenda (s : State) (k : Nat) (f : Strand → Strand) : (s.modStrand k f).agenda = s.agenda := rfl
@[simp] theorem State.modStrand_cur (s : State) (k : Nat) (f : Strand → Strand) : (s.modStrand k f).cur = s.cur := rfl

/-! ## `State.advance` -/

@[simp] theorem State.advance_mem (s : State) (k n : Nat) : (s.advance k n).mem = s.mem := rfl
@[simp] theorem State.advance_full (s : State) (k n : Nat) : (s.advance k n).full = s.full := rfl
@[simp] theorem State.advance_flaws (s : State) (k n : Nat) : (s.advance k n).flaws = s.flaws := rfl
@[simp] theorem State.advance_cores (s : State) (k n : Nat) : (s.advance k n).cores = s.cores := rfl
@[simp] theorem State.advance_bowers (s : State) (k n : Nat) : (s.advance k n).bowers = s.bowers := rfl
@[simp] theorem State.advance_sites (s : State) (k n : Nat) : (s.advance k n).sites = s.sites := rfl
@[simp] theorem State.advance_net (s : State) (k n : Nat) : (s.advance k n).net = s.net := rfl
@[simp] theorem State.advance_txns (s : State) (k n : Nat) : (s.advance k n).txns = s.txns := rfl
@[simp] theorem State.advance_contexts (s : State) (k n : Nat) : (s.advance k n).contexts = s.contexts := rfl
@[simp] theorem State.advance_nextId (s : State) (k n : Nat) : (s.advance k n).nextId = s.nextId := rfl
@[simp] theorem State.advance_batch (s : State) (k n : Nat) : (s.advance k n).batch = s.batch := rfl
@[simp] theorem State.advance_instant (s : State) (k n : Nat) : (s.advance k n).instant = s.instant := rfl
@[simp] theorem State.advance_freeIx (s : State) (k n : Nat) : (s.advance k n).freeIx = s.freeIx := rfl
@[simp] theorem State.advance_agenda (s : State) (k n : Nat) : (s.advance k n).agenda = s.agenda := rfl
@[simp] theorem State.advance_cur (s : State) (k n : Nat) : (s.advance k n).cur = s.cur := rfl

/-! ## `State.setCore` -/

@[simp] theorem State.setCore_mem (s : State) (c : Nat) (x : Core) : (s.setCore c x).mem = s.mem := rfl
@[simp] theorem State.setCore_full (s : State) (c : Nat) (x : Core) : (s.setCore c x).full = s.full := rfl
@[simp] theorem State.setCore_flaws (s : State) (c : Nat) (x : Core) : (s.setCore c x).flaws = s.flaws := rfl
@[simp] theorem State.setCore_strands (s : State) (c : Nat) (x : Core) : (s.setCore c x).strands = s.strands := rfl
@[simp] theorem State.setCore_cores (s : State) (c : Nat) (x : Core) : (s.setCore c x).cores = Tab.put c x s.cores := rfl
@[simp] theorem State.setCore_bowers (s : State) (c : Nat) (x : Core) : (s.setCore c x).bowers = s.bowers := rfl
@[simp] theorem State.setCore_sites (s : State) (c : Nat) (x : Core) : (s.setCore c x).sites = s.sites := rfl
@[simp] theorem State.setCore_net (s : State) (c : Nat) (x : Core) : (s.setCore c x).net = s.net := rfl
@[simp] theorem State.setCore_txns (s : State) (c : Nat) (x : Core) : (s.setCore c x).txns = s.txns := rfl
@[simp] theorem State.setCore_contexts (s : State) (c : Nat) (x : Core) : (s.setCore c x).contexts = s.contexts := rfl
@[simp] theorem State.setCore_nextId (s : State) (c : Nat) (x : Core) : (s.setCore c x).nextId = s.nextId := rfl
@[simp] theorem State.setCore_batch (s : State) (c : Nat) (x : Core) : (s.setCore c x).batch = s.batch := rfl
@[simp] theorem State.setCore_instant (s : State) (c : Nat) (x : Core) : (s.setCore c x).instant = s.instant := rfl
@[simp] theorem State.setCore_freeIx (s : State) (c : Nat) (x : Core) : (s.setCore c x).freeIx = s.freeIx := rfl
@[simp] theorem State.setCore_agenda (s : State) (c : Nat) (x : Core) : (s.setCore c x).agenda = s.agenda := rfl
@[simp] theorem State.setCore_cur (s : State) (c : Nat) (x : Core) : (s.setCore c x).cur = s.cur := rfl

/-! ## `State.modCore` -/

@[simp] theorem State.modCore_mem (s : State) (c : Nat) (f : Core → Core) : (s.modCore c f).mem = s.mem := rfl
@[simp] theorem State.modCore_full (s : State) (c : Nat) (f : Core → Core) : (s.modCore c f).full = s.full := rfl
@[simp] theorem State.modCore_flaws (s : State) (c : Nat) (f : Core → Core) : (s.modCore c f).flaws = s.flaws := rfl
@[simp] theorem State.modCore_strands (s : State) (c : Nat) (f : Core → Core) : (s.modCore c f).strands = s.strands := rfl
@[simp] theorem State.modCore_cores (s : State) (c : Nat) (f : Core → Core) : (s.modCore c f).cores = Tab.put c (f (s.core c)) s.cores := rfl
@[simp] theorem State.modCore_bowers (s : State) (c : Nat) (f : Core → Core) : (s.modCore c f).bowers = s.bowers := rfl
@[simp] theorem State.modCore_sites (s : State) (c : Nat) (f : Core → Core) : (s.modCore c f).sites = s.sites := rfl
@[simp] theorem State.modCore_net (s : State) (c : Nat) (f : Core → Core) : (s.modCore c f).net = s.net := rfl
@[simp] theorem State.modCore_txns (s : State) (c : Nat) (f : Core → Core) : (s.modCore c f).txns = s.txns := rfl
@[simp] theorem State.modCore_contexts (s : State) (c : Nat) (f : Core → Core) : (s.modCore c f).contexts = s.contexts := rfl
@[simp] theorem State.modCore_nextId (s : State) (c : Nat) (f : Core → Core) : (s.modCore c f).nextId = s.nextId := rfl
@[simp] theorem State.modCore_batch (s : State) (c : Nat) (f : Core → Core) : (s.modCore c f).batch = s.batch := rfl
@[simp] theorem State.modCore_instant (s : State) (c : Nat) (f : Core → Core) : (s.modCore c f).instant = s.instant := rfl
@[simp] theorem State.modCore_freeIx (s : State) (c : Nat) (f : Core → Core) : (s.modCore c f).freeIx = s.freeIx := rfl
@[simp] theorem State.modCore_agenda (s : State) (c : Nat) (f : Core → Core) : (s.modCore c f).agenda = s.agenda := rfl
@[simp] theorem State.modCore_cur (s : State) (c : Nat) (f : Core → Core) : (s.modCore c f).cur = s.cur := rfl

/-! ## `State.count` -/

@[simp] theorem State.count_mem (s : State) (c n m : Nat) : (s.count c n m).mem = s.mem := rfl
@[simp] theorem State.count_full (s : State) (c n m : Nat) : (s.count c n m).full = s.full := rfl
@[simp] theorem State.count_flaws (s : State) (c n m : Nat) : (s.count c n m).flaws = s.flaws := rfl
@[simp] theorem State.count_strands (s : State) (c n m : Nat) : (s.count c n m).strands = s.strands := rfl
@[simp] theorem State.count_bowers (s : State) (c n m : Nat) : (s.count c n m).bowers = s.bowers := rfl
@[simp] theorem State.count_sites (s : State) (c n m : Nat) : (s.count c n m).sites = s.sites := rfl
@[simp] theorem State.count_net (s : State) (c n m : Nat) : (s.count c n m).net = s.net := rfl
@[simp] theorem State.count_txns (s : State) (c n m : Nat) : (s.count c n m).txns = s.txns := rfl
@[simp] theorem State.count_contexts (s : State) (c n m : Nat) : (s.count c n m).contexts = s.contexts := rfl
@[simp] theorem State.count_nextId (s : State) (c n m : Nat) : (s.count c n m).nextId = s.nextId := rfl
@[simp] theorem State.count_batch (s : State) (c n m : Nat) : (s.count c n m).batch = s.batch := rfl
@[simp] theorem State.count_instant (s : State) (c n m : Nat) : (s.count c n m).instant = s.instant := rfl
@[simp] theorem State.count_freeIx (s : State) (c n m : Nat) : (s.count c n m).freeIx = s.freeIx := rfl
@[simp] theorem State.count_agenda (s : State) (c n m : Nat) : (s.count c n m).agenda = s.agenda := rfl
@[simp] theorem State.count_cur (s : State) (c n m : Nat) : (s.count c n m).cur = s.cur := rfl

/-! ## `State.modBower` -/

@[simp] theorem State.modBower_mem (s : State) (b : Nat) (f : Bower → Bower) : (s.modBower b f).mem = s.mem := rfl
@[simp] theorem State.modBower_full (s : State) (b : Nat) (f : Bower → Bower) : (s.modBower b f).full = s.full := rfl
@[simp] theorem State.modBower_flaws (s : State) (b : Nat) (f : Bower → Bower) : (s.modBower b f).flaws = s.flaws := rfl
@[simp] theorem State.modBower_strands (s : State) (b : Nat) (f : Bower → Bower) : (s.modBower b f).strands = s.strands := rfl
@[simp] theorem State.modBower_cores (s : State) (b : Nat) (f : Bower → Bower) : (s.modBower b f).cores = s.cores := rfl
@[simp] theorem State.modBower_bowers (s : State) (b : Nat) (f : Bower → Bower) : (s.modBower b f).bowers = Tab.put b (f (s.bower b)) s.bowers := rfl
@[simp] theorem State.modBower_sites (s : State) (b : Nat) (f : Bower → Bower) : (s.modBower b f).sites = s.sites := rfl
@[simp] theorem State.modBower_net (s : State) (b : Nat) (f : Bower → Bower) : (s.modBower b f).net = s.net := rfl
@[simp] theorem State.modBower_txns (s : State) (b : Nat) (f : Bower → Bower) : (s.modBower b f).txns = s.txns := rfl
@[simp] theorem State.modBower_contexts (s : State) (b : Nat) (f : Bower → Bower) : (s.modBower b f).contexts = s.contexts := rfl
@[simp] theorem State.modBower_nextId (s : State) (b : Nat) (f : Bower → Bower) : (s.modBower b f).nextId = s.nextId := rfl
@[simp] theorem State.modBower_batch (s : State) (b : Nat) (f : Bower → Bower) : (s.modBower b f).batch = s.batch := rfl
@[simp] theorem State.modBower_instant (s : State) (b : Nat) (f : Bower → Bower) : (s.modBower b f).instant = s.instant := rfl
@[simp] theorem State.modBower_freeIx (s : State) (b : Nat) (f : Bower → Bower) : (s.modBower b f).freeIx = s.freeIx := rfl
@[simp] theorem State.modBower_agenda (s : State) (b : Nat) (f : Bower → Bower) : (s.modBower b f).agenda = s.agenda := rfl
@[simp] theorem State.modBower_cur (s : State) (b : Nat) (f : Bower → Bower) : (s.modBower b f).cur = s.cur := rfl

/-! ## `State.setSite` -/

@[simp] theorem State.setSite_mem (s : State) (v : Nat) (x : Site) : (s.setSite v x).mem = s.mem := rfl
@[simp] theorem State.setSite_full (s : State) (v : Nat) (x : Site) : (s.setSite v x).full = s.full := rfl
@[simp] theorem State.setSite_flaws (s : State) (v : Nat) (x : Site) : (s.setSite v x).flaws = s.flaws := rfl
@[simp] theorem State.setSite_strands (s : State) (v : Nat) (x : Site) : (s.setSite v x).strands = s.strands := rfl
@[simp] theorem State.setSite_cores (s : State) (v : Nat) (x : Site) : (s.setSite v x).cores = s.cores := rfl
@[simp] theorem State.setSite_bowers (s : State) (v : Nat) (x : Site) : (s.setSite v x).bowers = s.bowers := rfl
@[simp] theorem State.setSite_sites (s : State) (v : Nat) (x : Site) : (s.setSite v x).sites = Tab.put v x s.sites := rfl
@[simp] theorem State.setSite_net (s : State) (v : Nat) (x : Site) : (s.setSite v x).net = s.net := rfl
@[simp] theorem State.setSite_txns (s : State) (v : Nat) (x : Site) : (s.setSite v x).txns = s.txns := rfl
@[simp] theorem State.setSite_contexts (s : State) (v : Nat) (x : Site) : (s.setSite v x).contexts = s.contexts := rfl
@[simp] theorem State.setSite_nextId (s : State) (v : Nat) (x : Site) : (s.setSite v x).nextId = s.nextId := rfl
@[simp] theorem State.setSite_batch (s : State) (v : Nat) (x : Site) : (s.setSite v x).batch = s.batch := rfl
@[simp] theorem State.setSite_instant (s : State) (v : Nat) (x : Site) : (s.setSite v x).instant = s.instant := rfl
@[simp] theorem State.setSite_freeIx (s : State) (v : Nat) (x : Site) : (s.setSite v x).freeIx = s.freeIx := rfl
@[simp] theorem State.setSite_agenda (s : State) (v : Nat) (x : Site) : (s.setSite v x).agenda = s.agenda := rfl
@[simp] theorem State.setSite_cur (s : State) (v : Nat) (x : Site) : (s.setSite v x).cur = s.cur := rfl

/-! ## `State.modSite` -/

@[simp] theorem State.modSite_mem (s : State) (v : Nat) (f : Site → Site) : (s.modSite v f).mem = s.mem := rfl
@[simp] theorem State.modSite_full (s : State) (v : Nat) (f : Site → Site) : (s.modSite v f).full = s.full := rfl
@[simp] theorem State.modSite_flaws (s : State) (v : Nat) (f : Site → Site) : (s.modSite v f).flaws = s.flaws := rfl
@[simp] theorem State.modSite_strands (s : State) (v : Nat) (f : Site → Site) : (s.modSite v f).strands = s.strands := rfl
@[simp] theorem State.modSite_cores (s : State) (v : Nat) (f : Site → Site) : (s.modSite v f).cores = s.cores := rfl
@[simp] theorem State.modSite_bowers (s : State) (v : Nat) (f : Site → Site) : (s.modSite v f).bowers = s.bowers := rfl
@[simp] theorem State.modSite_sites (s : State) (v : Nat) (f : Site → Site) : (s.modSite v f).sites = Tab.put v (f (s.site v)) s.sites := rfl
@[simp] theorem State.modSite_net (s : State) (v : Nat) (f : Site → Site) : (s.modSite v f).net = s.net := rfl
@[simp] theorem State.modSite_txns (s : State) (v : Nat) (f : Site → Site) : (s.modSite v f).txns = s.txns := rfl
@[simp] theorem State.modSite_contexts (s : State) (v : Nat) (f : Site → Site) : (s.modSite v f).contexts = s.contexts := rfl
@[simp] theorem State.modSite_nextId (s : State) (v : Nat) (f : Site → Site) : (s.modSite v f).nextId = s.nextId := rfl
@[simp] theorem State.modSite_batch (s : State) (v : Nat) (f : Site → Site) : (s.modSite v f).batch = s.batch := rfl
@[simp] theorem State.modSite_instant (s : State) (v : Nat) (f : Site → Site) : (s.modSite v f).instant = s.instant := rfl
@[simp] theorem State.modSite_freeIx (s : State) (v : Nat) (f : Site → Site) : (s.modSite v f).freeIx = s.freeIx := rfl
@[simp] theorem State.modSite_agenda (s : State) (v : Nat) (f : Site → Site) : (s.modSite v f).agenda = s.agenda := rfl
@[simp] theorem State.modSite_cur (s : State) (v : Nat) (f : Site → Site) : (s.modSite v f).cur = s.cur := rfl

/-! ## `State.modGate` -/

@[simp] theorem State.modGate_mem (s : State) (v : Nat) (f : Gate → Gate) : (s.modGate v f).mem = s.mem := rfl
@[simp] theorem State.modGate_full (s : State) (v : Nat) (f : Gate → Gate) : (s.modGate v f).full = s.full := rfl
@[simp] theorem State.modGate_flaws (s : State) (v : Nat) (f : Gate → Gate) : (s.modGate v f).flaws = s.flaws := rfl
@[simp] theorem State.modGate_strands (s : State) (v : Nat) (f : Gate → Gate) : (s.modGate v f).strands = s.strands := rfl
@[simp] theorem State.modGate_cores (s : State) (v : Nat) (f : Gate → Gate) : (s.modGate v f).cores = s.cores := rfl
@[simp] theorem State.modGate_bowers (s : State) (v : Nat) (f : Gate → Gate) : (s.modGate v f).bowers = s.bowers := rfl
@[simp] theorem State.modGate_net (s : State) (v : Nat) (f : Gate → Gate) : (s.modGate v f).net = s.net := rfl
@[simp] theorem State.modGate_txns (s : State) (v : Nat) (f : Gate → Gate) : (s.modGate v f).txns = s.txns := rfl
@[simp] theorem State.modGate_contexts (s : State) (v : Nat) (f : Gate → Gate) : (s.modGate v f).contexts = s.contexts := rfl
@[simp] theorem State.modGate_nextId (s : State) (v : Nat) (f : Gate → Gate) : (s.modGate v f).nextId = s.nextId := rfl
@[simp] theorem State.modGate_batch (s : State) (v : Nat) (f : Gate → Gate) : (s.modGate v f).batch = s.batch := rfl
@[simp] theorem State.modGate_instant (s : State) (v : Nat) (f : Gate → Gate) : (s.modGate v f).instant = s.instant := rfl
@[simp] theorem State.modGate_freeIx (s : State) (v : Nat) (f : Gate → Gate) : (s.modGate v f).freeIx = s.freeIx := rfl
@[simp] theorem State.modGate_agenda (s : State) (v : Nat) (f : Gate → Gate) : (s.modGate v f).agenda = s.agenda := rfl
@[simp] theorem State.modGate_cur (s : State) (v : Nat) (f : Gate → Gate) : (s.modGate v f).cur = s.cur := rfl

/-! ## `State.modGang` -/

@[simp] theorem State.modGang_mem (s : State) (v e : Nat) (f : Gang → Gang) : (s.modGang v e f).mem = s.mem := rfl
@[simp] theorem State.modGang_full (s : State) (v e : Nat) (f : Gang → Gang) : (s.modGang v e f).full = s.full := rfl
@[simp] theorem State.modGang_flaws (s : State) (v e : Nat) (f : Gang → Gang) : (s.modGang v e f).flaws = s.flaws := rfl
@[simp] theorem State.modGang_strands (s : State) (v e : Nat) (f : Gang → Gang) : (s.modGang v e f).strands = s.strands := rfl
@[simp] theorem State.modGang_cores (s : State) (v e : Nat) (f : Gang → Gang) : (s.modGang v e f).cores = s.cores := rfl
@[simp] theorem State.modGang_bowers (s : State) (v e : Nat) (f : Gang → Gang) : (s.modGang v e f).bowers = s.bowers := rfl
@[simp] theorem State.modGang_net (s : State) (v e : Nat) (f : Gang → Gang) : (s.modGang v e f).net = s.net := rfl
@[simp] theorem State.modGang_txns (s : State) (v e : Nat) (f : Gang → Gang) : (s.modGang v e f).txns = s.txns := rfl
@[simp] theorem State.modGang_contexts (s : State) (v e : Nat) (f : Gang → Gang) : (s.modGang v e f).contexts = s.contexts := rfl
@[simp] theorem State.modGang_nextId (s : State) (v e : Nat) (f : Gang → Gang) : (s.modGang v e f).nextId = s.nextId := rfl
@[simp] theorem State.modGang_batch (s : State) (v e : Nat) (f : Gang → Gang) : (s.modGang v e f).batch = s.batch := rfl
@[simp] theorem State.modGang_instant (s : State) (v e : Nat) (f : Gang → Gang) : (s.modGang v e f).instant = s.instant := rfl
@[simp] theorem State.modGang_freeIx (s : State) (v e : Nat) (f : Gang → Gang) : (s.modGang v e f).freeIx = s.freeIx := rfl
@[simp] theorem State.modGang_agenda (s : State) (v e : Nat) (f : Gang → Gang) : (s.modGang v e f).agenda = s.agenda := rfl
@[simp] theorem State.modGang_cur (s : State) (v e : Nat) (f : Gang → Gang) : (s.modGang v e f).cur = s.cur := rfl

/-! ## `State.modLink` -/

@[simp] theorem State.modLink_mem (s : State) (v d : Nat) (x : Mesh) (f : Link → Link) : (s.modLink v d x f).mem = s.mem := rfl
@[simp] theorem State.modLink_full (s : State) (v d : Nat) (x : Mesh) (f : Link → Link) : (s.modLink v d x f).full = s.full := rfl
@[simp] theorem State.modLink_flaws (s : State) (v d : Nat) (x : Mesh) (f : Link → Link) : (s.modLink v d x f).flaws = s.flaws := rfl
@[simp] theorem State.modLink_strands (s : State) (v d : Nat) (x : Mesh) (f : Link → Link) : (s.modLink v d x f).strands = s.strands := rfl
@[simp] theorem State.modLink_cores (s : State) (v d : Nat) (x : Mesh) (f : Link → Link) : (s.modLink v d x f).cores = s.cores := rfl
@[simp] theorem State.modLink_bowers (s : State) (v d : Nat) (x : Mesh) (f : Link → Link) : (s.modLink v d x f).bowers = s.bowers := rfl
@[simp] theorem State.modLink_net (s : State) (v d : Nat) (x : Mesh) (f : Link → Link) : (s.modLink v d x f).net = s.net := rfl
@[simp] theorem State.modLink_txns (s : State) (v d : Nat) (x : Mesh) (f : Link → Link) : (s.modLink v d x f).txns = s.txns := rfl
@[simp] theorem State.modLink_contexts (s : State) (v d : Nat) (x : Mesh) (f : Link → Link) : (s.modLink v d x f).contexts = s.contexts := rfl
@[simp] theorem State.modLink_nextId (s : State) (v d : Nat) (x : Mesh) (f : Link → Link) : (s.modLink v d x f).nextId = s.nextId := rfl
@[simp] theorem State.modLink_batch (s : State) (v d : Nat) (x : Mesh) (f : Link → Link) : (s.modLink v d x f).batch = s.batch := rfl
@[simp] theorem State.modLink_instant (s : State) (v d : Nat) (x : Mesh) (f : Link → Link) : (s.modLink v d x f).instant = s.instant := rfl
@[simp] theorem State.modLink_freeIx (s : State) (v d : Nat) (x : Mesh) (f : Link → Link) : (s.modLink v d x f).freeIx = s.freeIx := rfl
@[simp] theorem State.modLink_agenda (s : State) (v d : Nat) (x : Mesh) (f : Link → Link) : (s.modLink v d x f).agenda = s.agenda := rfl
@[simp] theorem State.modLink_cur (s : State) (v d : Nat) (x : Mesh) (f : Link → Link) : (s.modLink v d x f).cur = s.cur := rfl

/-! ## `State.raise` -/

@[simp] theorem State.raise_mem (s : State) (v u sev code : Nat) (n : Option Nat) (a : Addr) : (s.raise v u sev code n a).mem = s.mem := rfl
@[simp] theorem State.raise_full (s : State) (v u sev code : Nat) (n : Option Nat) (a : Addr) : (s.raise v u sev code n a).full = s.full := rfl
@[simp] theorem State.raise_flaws (s : State) (v u sev code : Nat) (n : Option Nat) (a : Addr) : (s.raise v u sev code n a).flaws = s.flaws := rfl
@[simp] theorem State.raise_strands (s : State) (v u sev code : Nat) (n : Option Nat) (a : Addr) : (s.raise v u sev code n a).strands = s.strands := rfl
@[simp] theorem State.raise_cores (s : State) (v u sev code : Nat) (n : Option Nat) (a : Addr) : (s.raise v u sev code n a).cores = s.cores := rfl
@[simp] theorem State.raise_bowers (s : State) (v u sev code : Nat) (n : Option Nat) (a : Addr) : (s.raise v u sev code n a).bowers = s.bowers := rfl
@[simp] theorem State.raise_net (s : State) (v u sev code : Nat) (n : Option Nat) (a : Addr) : (s.raise v u sev code n a).net = s.net := rfl
@[simp] theorem State.raise_txns (s : State) (v u sev code : Nat) (n : Option Nat) (a : Addr) : (s.raise v u sev code n a).txns = s.txns := rfl
@[simp] theorem State.raise_contexts (s : State) (v u sev code : Nat) (n : Option Nat) (a : Addr) : (s.raise v u sev code n a).contexts = s.contexts := rfl
@[simp] theorem State.raise_nextId (s : State) (v u sev code : Nat) (n : Option Nat) (a : Addr) : (s.raise v u sev code n a).nextId = s.nextId := rfl
@[simp] theorem State.raise_batch (s : State) (v u sev code : Nat) (n : Option Nat) (a : Addr) : (s.raise v u sev code n a).batch = s.batch := rfl
@[simp] theorem State.raise_instant (s : State) (v u sev code : Nat) (n : Option Nat) (a : Addr) : (s.raise v u sev code n a).instant = s.instant := rfl
@[simp] theorem State.raise_freeIx (s : State) (v u sev code : Nat) (n : Option Nat) (a : Addr) : (s.raise v u sev code n a).freeIx = s.freeIx := rfl
@[simp] theorem State.raise_agenda (s : State) (v u sev code : Nat) (n : Option Nat) (a : Addr) : (s.raise v u sev code n a).agenda = s.agenda := rfl
@[simp] theorem State.raise_cur (s : State) (v u sev code : Nat) (n : Option Nat) (a : Addr) : (s.raise v u sev code n a).cur = s.cur := rfl

/-! ## `State.dropWaiter` -/

@[simp] theorem State.dropWaiter_mem (s : State) (k : Nat) : (s.dropWaiter k).mem = s.mem := rfl
@[simp] theorem State.dropWaiter_full (s : State) (k : Nat) : (s.dropWaiter k).full = s.full := rfl
@[simp] theorem State.dropWaiter_flaws (s : State) (k : Nat) : (s.dropWaiter k).flaws = s.flaws := rfl
@[simp] theorem State.dropWaiter_strands (s : State) (k : Nat) : (s.dropWaiter k).strands = s.strands := rfl
@[simp] theorem State.dropWaiter_cores (s : State) (k : Nat) : (s.dropWaiter k).cores = s.cores := rfl
@[simp] theorem State.dropWaiter_bowers (s : State) (k : Nat) : (s.dropWaiter k).bowers = s.bowers := rfl
@[simp] theorem State.dropWaiter_net (s : State) (k : Nat) : (s.dropWaiter k).net = s.net := rfl
@[simp] theorem State.dropWaiter_txns (s : State) (k : Nat) : (s.dropWaiter k).txns = s.txns := rfl
@[simp] theorem State.dropWaiter_contexts (s : State) (k : Nat) : (s.dropWaiter k).contexts = s.contexts := rfl
@[simp] theorem State.dropWaiter_nextId (s : State) (k : Nat) : (s.dropWaiter k).nextId = s.nextId := rfl
@[simp] theorem State.dropWaiter_batch (s : State) (k : Nat) : (s.dropWaiter k).batch = s.batch := rfl
@[simp] theorem State.dropWaiter_instant (s : State) (k : Nat) : (s.dropWaiter k).instant = s.instant := rfl
@[simp] theorem State.dropWaiter_freeIx (s : State) (k : Nat) : (s.dropWaiter k).freeIx = s.freeIx := rfl
@[simp] theorem State.dropWaiter_agenda (s : State) (k : Nat) : (s.dropWaiter k).agenda = s.agenda := rfl
@[simp] theorem State.dropWaiter_cur (s : State) (k : Nat) : (s.dropWaiter k).cur = s.cur := rfl

/-! ## `State.free` -/

@[simp] theorem State.free_mem (s : State) : (s.free.2).mem = s.mem := rfl
@[simp] theorem State.free_full (s : State) : (s.free.2).full = s.full := rfl
@[simp] theorem State.free_flaws (s : State) : (s.free.2).flaws = s.flaws := rfl
@[simp] theorem State.free_strands (s : State) : (s.free.2).strands = s.strands := rfl
@[simp] theorem State.free_cores (s : State) : (s.free.2).cores = s.cores := rfl
@[simp] theorem State.free_bowers (s : State) : (s.free.2).bowers = s.bowers := rfl
@[simp] theorem State.free_sites (s : State) : (s.free.2).sites = s.sites := rfl
@[simp] theorem State.free_net (s : State) : (s.free.2).net = s.net := rfl
@[simp] theorem State.free_txns (s : State) : (s.free.2).txns = s.txns := rfl
@[simp] theorem State.free_contexts (s : State) : (s.free.2).contexts = s.contexts := rfl
@[simp] theorem State.free_nextId (s : State) : (s.free.2).nextId = s.nextId := rfl
@[simp] theorem State.free_batch (s : State) : (s.free.2).batch = s.batch := rfl
@[simp] theorem State.free_instant (s : State) : (s.free.2).instant = s.instant := rfl
@[simp] theorem State.free_freeIx (s : State) : (s.free.2).freeIx = s.freeIx + 1 := rfl
@[simp] theorem State.free_agenda (s : State) : (s.free.2).agenda = s.agenda := rfl
@[simp] theorem State.free_cur (s : State) : (s.free.2).cur = s.cur := rfl

/-! ## `State.fresh` -/

@[simp] theorem State.fresh_mem (s : State) : (s.fresh.2).mem = s.mem := rfl
@[simp] theorem State.fresh_full (s : State) : (s.fresh.2).full = s.full := rfl
@[simp] theorem State.fresh_flaws (s : State) : (s.fresh.2).flaws = s.flaws := rfl
@[simp] theorem State.fresh_strands (s : State) : (s.fresh.2).strands = s.strands := rfl
@[simp] theorem State.fresh_cores (s : State) : (s.fresh.2).cores = s.cores := rfl
@[simp] theorem State.fresh_bowers (s : State) : (s.fresh.2).bowers = s.bowers := rfl
@[simp] theorem State.fresh_sites (s : State) : (s.fresh.2).sites = s.sites := rfl
@[simp] theorem State.fresh_net (s : State) : (s.fresh.2).net = s.net := rfl
@[simp] theorem State.fresh_txns (s : State) : (s.fresh.2).txns = s.txns := rfl
@[simp] theorem State.fresh_contexts (s : State) : (s.fresh.2).contexts = s.contexts := rfl
@[simp] theorem State.fresh_nextId (s : State) : (s.fresh.2).nextId = s.nextId + 1 := rfl
@[simp] theorem State.fresh_batch (s : State) : (s.fresh.2).batch = s.batch := rfl
@[simp] theorem State.fresh_instant (s : State) : (s.fresh.2).instant = s.instant := rfl
@[simp] theorem State.fresh_freeIx (s : State) : (s.fresh.2).freeIx = s.freeIx := rfl
@[simp] theorem State.fresh_agenda (s : State) : (s.fresh.2).agenda = s.agenda := rfl
@[simp] theorem State.fresh_cur (s : State) : (s.fresh.2).cur = s.cur := rfl

/-! ## `State.unbuffer` -/

@[simp] theorem State.unbuffer_mem (s : State) (m : Msg) : (s.unbuffer m).mem = s.mem := by unfold State.unbuffer; split <;> rfl
@[simp] theorem State.unbuffer_full (s : State) (m : Msg) : (s.unbuffer m).full = s.full := by unfold State.unbuffer; split <;> rfl
@[simp] theorem State.unbuffer_flaws (s : State) (m : Msg) : (s.unbuffer m).flaws = s.flaws := by unfold State.unbuffer; split <;> rfl
@[simp] theorem State.unbuffer_strands (s : State) (m : Msg) : (s.unbuffer m).strands = s.strands := by unfold State.unbuffer; split <;> rfl
@[simp] theorem State.unbuffer_cores (s : State) (m : Msg) : (s.unbuffer m).cores = s.cores := by unfold State.unbuffer; split <;> rfl
@[simp] theorem State.unbuffer_bowers (s : State) (m : Msg) : (s.unbuffer m).bowers = s.bowers := by unfold State.unbuffer; split <;> rfl
@[simp] theorem State.unbuffer_txns (s : State) (m : Msg) : (s.unbuffer m).txns = s.txns := by unfold State.unbuffer; split <;> rfl
@[simp] theorem State.unbuffer_contexts (s : State) (m : Msg) : (s.unbuffer m).contexts = s.contexts := by unfold State.unbuffer; split <;> rfl
@[simp] theorem State.unbuffer_nextId (s : State) (m : Msg) : (s.unbuffer m).nextId = s.nextId := by unfold State.unbuffer; split <;> rfl
@[simp] theorem State.unbuffer_batch (s : State) (m : Msg) : (s.unbuffer m).batch = s.batch := by unfold State.unbuffer; split <;> rfl
@[simp] theorem State.unbuffer_freeIx (s : State) (m : Msg) : (s.unbuffer m).freeIx = s.freeIx := by unfold State.unbuffer; split <;> rfl
@[simp] theorem State.unbuffer_agenda (s : State) (m : Msg) : (s.unbuffer m).agenda = s.agenda := by unfold State.unbuffer; split <;> rfl
@[simp] theorem State.unbuffer_cur (s : State) (m : Msg) : (s.unbuffer m).cur = s.cur := by unfold State.unbuffer; split <;> rfl
@[simp] theorem State.unbuffer_instant (s : State) (m : Msg) : (s.unbuffer m).instant = s.instant := by unfold State.unbuffer; split <;> rfl
@[simp] theorem State.unbuffer_net (s : State) (m : Msg) : (s.unbuffer m).net = s.net := by unfold State.unbuffer; split <;> rfl
/-- A message that stands in no receive buffer gives back no credit. -/
theorem State.unbuffer_unbuffered (s : State) (m : Msg) (h : m.buf = none) : s.unbuffer m = s := by simp [State.unbuffer, h]

/-! ## `State.consume` -/

@[simp] theorem State.consume_mem (s : State) (n : Nat) : (s.consume n).mem = s.mem := by unfold State.consume; split <;> simp
@[simp] theorem State.consume_full (s : State) (n : Nat) : (s.consume n).full = s.full := by unfold State.consume; split <;> simp
@[simp] theorem State.consume_flaws (s : State) (n : Nat) : (s.consume n).flaws = s.flaws := by unfold State.consume; split <;> simp
@[simp] theorem State.consume_strands (s : State) (n : Nat) : (s.consume n).strands = s.strands := by unfold State.consume; split <;> simp
@[simp] theorem State.consume_cores (s : State) (n : Nat) : (s.consume n).cores = s.cores := by unfold State.consume; split <;> simp
@[simp] theorem State.consume_bowers (s : State) (n : Nat) : (s.consume n).bowers = s.bowers := by unfold State.consume; split <;> simp
@[simp] theorem State.consume_txns (s : State) (n : Nat) : (s.consume n).txns = s.txns := by unfold State.consume; split <;> simp
@[simp] theorem State.consume_contexts (s : State) (n : Nat) : (s.consume n).contexts = s.contexts := by unfold State.consume; split <;> simp
@[simp] theorem State.consume_nextId (s : State) (n : Nat) : (s.consume n).nextId = s.nextId := by unfold State.consume; split <;> simp
@[simp] theorem State.consume_batch (s : State) (n : Nat) : (s.consume n).batch = s.batch := by unfold State.consume; split <;> simp
@[simp] theorem State.consume_freeIx (s : State) (n : Nat) : (s.consume n).freeIx = s.freeIx := by unfold State.consume; split <;> simp
@[simp] theorem State.consume_agenda (s : State) (n : Nat) : (s.consume n).agenda = s.agenda := by unfold State.consume; split <;> simp
@[simp] theorem State.consume_cur (s : State) (n : Nat) : (s.consume n).cur = s.cur := by unfold State.consume; split <;> simp
@[simp] theorem State.consume_instant (s : State) (n : Nat) : (s.consume n).instant = s.instant := by unfold State.consume; split <;> simp
/-- A message taken leaves the network. -/
@[simp] theorem State.consume_net (s : State) (n : Nat) : (s.consume n).net = s.net.filter fun m => m.id != n := by
  unfold State.consume
  split
  · next h => exact (List.filter_eq_self.2 fun m hm => by simpa using List.find?_eq_none.1 h m hm).symm
  · rfl
/-- A message that stands in no receive buffer leaves the sites as they are. -/
theorem State.consume_sites (s : State) (n : Nat) (h : ∀ m ∈ s.net, m.id = n → m.buf = none) : (s.consume n).sites = s.sites := by
  unfold State.consume
  split
  · rfl
  · next m hm => simp [State.unbuffer_unbuffered s m (h m (List.mem_of_find?_eq_some hm) (by simpa using List.find?_some hm))]

/-! ## `State.dropTxn` -/

@[simp] theorem State.dropTxn_mem (s : State) (n : Nat) : (s.dropTxn n).mem = s.mem := rfl
@[simp] theorem State.dropTxn_full (s : State) (n : Nat) : (s.dropTxn n).full = s.full := rfl
@[simp] theorem State.dropTxn_flaws (s : State) (n : Nat) : (s.dropTxn n).flaws = s.flaws := rfl
@[simp] theorem State.dropTxn_strands (s : State) (n : Nat) : (s.dropTxn n).strands = s.strands := rfl
@[simp] theorem State.dropTxn_cores (s : State) (n : Nat) : (s.dropTxn n).cores = s.cores := rfl
@[simp] theorem State.dropTxn_bowers (s : State) (n : Nat) : (s.dropTxn n).bowers = s.bowers := rfl
@[simp] theorem State.dropTxn_sites (s : State) (n : Nat) : (s.dropTxn n).sites = s.sites := rfl
@[simp] theorem State.dropTxn_net (s : State) (n : Nat) : (s.dropTxn n).net = s.net := rfl
@[simp] theorem State.dropTxn_txns (s : State) (n : Nat) : (s.dropTxn n).txns = s.txns.filter fun x => x.id != n := rfl
@[simp] theorem State.dropTxn_contexts (s : State) (n : Nat) : (s.dropTxn n).contexts = s.contexts := rfl
@[simp] theorem State.dropTxn_nextId (s : State) (n : Nat) : (s.dropTxn n).nextId = s.nextId := rfl
@[simp] theorem State.dropTxn_batch (s : State) (n : Nat) : (s.dropTxn n).batch = s.batch := rfl
@[simp] theorem State.dropTxn_instant (s : State) (n : Nat) : (s.dropTxn n).instant = s.instant := rfl
@[simp] theorem State.dropTxn_freeIx (s : State) (n : Nat) : (s.dropTxn n).freeIx = s.freeIx := rfl
@[simp] theorem State.dropTxn_agenda (s : State) (n : Nat) : (s.dropTxn n).agenda = s.agenda := rfl
@[simp] theorem State.dropTxn_cur (s : State) (n : Nat) : (s.dropTxn n).cur = s.cur := rfl

/-! ## `State.park` -/

@[simp] theorem State.park_mem (s : State) (k : Nat) (r : Park) (c : Cont) : (s.park k r c).mem = s.mem := rfl
@[simp] theorem State.park_full (s : State) (k : Nat) (r : Park) (c : Cont) : (s.park k r c).full = s.full := rfl
@[simp] theorem State.park_flaws (s : State) (k : Nat) (r : Park) (c : Cont) : (s.park k r c).flaws = s.flaws := rfl
@[simp] theorem State.park_strands (s : State) (k : Nat) (r : Park) (c : Cont) : (s.park k r c).strands = Tab.put k { s.strand k with st := .parked, why := some r, cont := c } s.strands := rfl
@[simp] theorem State.park_bowers (s : State) (k : Nat) (r : Park) (c : Cont) : (s.park k r c).bowers = s.bowers := rfl
@[simp] theorem State.park_sites (s : State) (k : Nat) (r : Park) (c : Cont) : (s.park k r c).sites = s.sites := rfl
@[simp] theorem State.park_net (s : State) (k : Nat) (r : Park) (c : Cont) : (s.park k r c).net = s.net := rfl
@[simp] theorem State.park_txns (s : State) (k : Nat) (r : Park) (c : Cont) : (s.park k r c).txns = s.txns := rfl
@[simp] theorem State.park_contexts (s : State) (k : Nat) (r : Park) (c : Cont) : (s.park k r c).contexts = s.contexts := rfl
@[simp] theorem State.park_nextId (s : State) (k : Nat) (r : Park) (c : Cont) : (s.park k r c).nextId = s.nextId := rfl
@[simp] theorem State.park_batch (s : State) (k : Nat) (r : Park) (c : Cont) : (s.park k r c).batch = s.batch := rfl
@[simp] theorem State.park_instant (s : State) (k : Nat) (r : Park) (c : Cont) : (s.park k r c).instant = s.instant := rfl
@[simp] theorem State.park_freeIx (s : State) (k : Nat) (r : Park) (c : Cont) : (s.park k r c).freeIx = s.freeIx := rfl
@[simp] theorem State.park_agenda (s : State) (k : Nat) (r : Park) (c : Cont) : (s.park k r c).agenda = s.agenda := rfl
@[simp] theorem State.park_cur (s : State) (k : Nat) (r : Park) (c : Cont) : (s.park k r c).cur = s.cur := rfl

/-! ## `State.held` -/

@[simp] theorem State.held_mem (s : State) (k : Nat) : (s.held k).mem = s.mem := rfl
@[simp] theorem State.held_full (s : State) (k : Nat) : (s.held k).full = s.full := rfl
@[simp] theorem State.held_flaws (s : State) (k : Nat) : (s.held k).flaws = s.flaws := rfl
@[simp] theorem State.held_strands (s : State) (k : Nat) : (s.held k).strands = Tab.put k { s.strand k with st := .held } s.strands := rfl
@[simp] theorem State.held_bowers (s : State) (k : Nat) : (s.held k).bowers = s.bowers := rfl
@[simp] theorem State.held_sites (s : State) (k : Nat) : (s.held k).sites = s.sites := rfl
@[simp] theorem State.held_net (s : State) (k : Nat) : (s.held k).net = s.net := rfl
@[simp] theorem State.held_txns (s : State) (k : Nat) : (s.held k).txns = s.txns := rfl
@[simp] theorem State.held_contexts (s : State) (k : Nat) : (s.held k).contexts = s.contexts := rfl
@[simp] theorem State.held_nextId (s : State) (k : Nat) : (s.held k).nextId = s.nextId := rfl
@[simp] theorem State.held_batch (s : State) (k : Nat) : (s.held k).batch = s.batch := rfl
@[simp] theorem State.held_instant (s : State) (k : Nat) : (s.held k).instant = s.instant := rfl
@[simp] theorem State.held_freeIx (s : State) (k : Nat) : (s.held k).freeIx = s.freeIx := rfl
@[simp] theorem State.held_agenda (s : State) (k : Nat) : (s.held k).agenda = s.agenda := rfl
@[simp] theorem State.held_cur (s : State) (k : Nat) : (s.held k).cur = s.cur := rfl

end Sys2Proof.Machine
end

