-- ==== Sys2Proof/Laws/Tables.lean ====
section
/-! SUPPORT. Sparse tables: what a key reads after a write, a removal or a filter, whatever the list, and that tables keep rising keys. Then the
records of the state after the updates of Machine/Ops.lean. -/

namespace Sys2Proof.Machine

open Sys2Proof

variable {α : Type}

/-! ## Reading a table -/

theorem Tab.find_put (k j : Nat) (x : α) (t : List (Nat × α)) :
    Tab.find j (Tab.put k x t) = if j = k then some x else Tab.find j t := by
  induction t with
  | nil => simp [Tab.put, Tab.find, eq_comm]
  | cons p t ih =>
    obtain ⟨a, y⟩ := p
    by_cases hj : j = k
    · subst hj
      simp only [Tab.put, if_true]
      split_ifs with h1 h2
      · simp [Tab.find]
      · simp [Tab.find]
      · have : ¬a = j := fun h => h2 h.symm
        simp [Tab.find, this, ih]
    · simp only [Tab.put, if_neg hj]
      split_ifs with h1 h2
      · have : ¬k = j := fun h => hj h.symm
        simp [Tab.find, this]
      · subst h2
        have : ¬k = j := fun h => hj h.symm
        simp [Tab.find, this]
      · simp [Tab.find, ih, hj]

@[simp] theorem Tab.find_put_self (k : Nat) (x : α) (t : List (Nat × α)) : Tab.find k (Tab.put k x t) = some x := by
  simp [Tab.find_put]

theorem Tab.get_put (d : α) (k j : Nat) (x : α) (t : List (Nat × α)) :
    Tab.get d j (Tab.put k x t) = if j = k then x else Tab.get d j t := by
  unfold Tab.get; rw [Tab.find_put]; split_ifs <;> rfl

@[simp] theorem Tab.get_put_self (d : α) (k : Nat) (x : α) (t : List (Nat × α)) : Tab.get d k (Tab.put k x t) = x := by
  simp [Tab.get_put]

theorem Tab.put_put (k : Nat) (x y : α) (t : List (Nat × α)) : Tab.put k x (Tab.put k y t) = Tab.put k x t := by
  induction t with
  | nil => simp [Tab.put]
  | cons p t ih =>
    obtain ⟨a, z⟩ := p
    by_cases h1 : k < a
    · simp [Tab.put, h1]
    · by_cases h2 : k = a <;> simp [Tab.put, h1, h2, ih]

theorem Tab.find_filter (p : Nat → Bool) (j : Nat) (t : List (Nat × α)) :
    Tab.find j (t.filter fun q => p q.1) = if p j then Tab.find j t else none := by
  induction t with
  | nil => simp [Tab.find]
  | cons q t ih =>
    obtain ⟨a, y⟩ := q
    by_cases ha : p a <;> by_cases hj : a = j
    · subst hj; simp [List.filter, ha, Tab.find]
    · simp [List.filter, ha, Tab.find, hj, ih]
    · subst hj; simp [List.filter, ha, ih]
    · simp [List.filter, ha, Tab.find, hj, ih]

theorem Tab.find_del (k j : Nat) (t : List (Nat × α)) : Tab.find j (Tab.del k t) = if j = k then none else Tab.find j t := by
  unfold Tab.del
  rw [Tab.find_filter (fun a => a != k)]
  by_cases h : j = k <;> simp [h]

theorem Tab.find_map (f : α → α) (j : Nat) (t : List (Nat × α)) :
    Tab.find j (t.map fun q => (q.1, f q.2)) = (Tab.find j t).map f := by
  induction t with
  | nil => rfl
  | cons q t ih =>
    obtain ⟨a, y⟩ := q
    by_cases h : a = j <;> simp [Tab.find, h, ih]

theorem Tab.mem_keys_put (k : Nat) (x : α) (t : List (Nat × α)) (a : Nat) :
    a ∈ (Tab.put k x t).map (·.1) → a = k ∨ a ∈ t.map (·.1) := by
  induction t with
  | nil => simp [Tab.put]
  | cons p t ih =>
    obtain ⟨b, y⟩ := p
    simp only [Tab.put]
    split_ifs with h1 h2
    · simp
    · subst h2; simp
    · simp only [List.map_cons, List.mem_cons]
      rintro (h | h)
      · exact .inr (.inl h)
      · rcases ih h with h | h
        · exact .inl h
        · exact .inr (.inr h)

end Sys2Proof.Machine

/-! ## Rising keys -/

namespace Sys2Proof

open Sys2Proof.Machine

variable {α : Type}

theorem rising_nil : Rising ([] : List (Nat × α)) := List.Pairwise.nil

theorem Rising.put {t : List (Nat × α)} (h : Rising t) (k : Nat) (x : α) : Rising (Tab.put k x t) := by
  induction t with
  | nil => simp [Tab.put, Rising]
  | cons p t ih =>
    obtain ⟨b, y⟩ := p
    simp only [Rising, List.map_cons, List.pairwise_cons] at h
    simp only [Tab.put]
    split_ifs with h1 h2
    · simp only [Rising, List.map_cons, List.pairwise_cons, List.mem_cons]
      refine ⟨?_, h⟩
      rintro a (rfl | ha)
      · exact h1
      · exact h1.trans (h.1 a ha)
    · subst h2; simpa [Rising] using h
    · simp only [Rising, List.map_cons, List.pairwise_cons]
      refine ⟨fun a ha => ?_, ih h.2⟩
      rcases Tab.mem_keys_put k x t a ha with rfl | ha
      · omega
      · exact h.1 a ha

theorem Rising.filter {t : List (Nat × α)} (h : Rising t) (p : Nat × α → Bool) : Rising (t.filter p) :=
  List.Pairwise.sublist (List.filter_sublist.map _) h

theorem Rising.del {t : List (Nat × α)} (h : Rising t) (k : Nat) : Rising (Tab.del k t) := Rising.filter h _

theorem Rising.map {t : List (Nat × α)} (h : Rising t) (f : Nat × α → α) : Rising (t.map fun q => (q.1, f q)) := by
  unfold Rising at *
  rw [List.map_map]
  exact h

end Sys2Proof

namespace Sys2Proof.Machine

open Sys2Proof

/-! ## Records of the state -/

@[simp] theorem State.strand_setStrand (s : State) (k j : Nat) (x : Strand) : (s.setStrand k x).strand j = if j = k then x else s.strand j := Tab.get_put ..
@[simp] theorem State.strand_modStrand (s : State) (k j : Nat) (f : Strand → Strand) :
    (s.modStrand k f).strand j = if j = k then f (s.strand k) else s.strand j := Tab.get_put ..
@[simp] theorem State.core_setCore (s : State) (c j : Nat) (x : Core) : (s.setCore c x).core j = if j = c then x else s.core j := Tab.get_put ..
@[simp] theorem State.core_modCore (s : State) (c j : Nat) (f : Core → Core) :
    (s.modCore c f).core j = if j = c then f (s.core c) else s.core j := Tab.get_put ..
@[simp] theorem State.bower_modBower (s : State) (b j : Nat) (f : Bower → Bower) :
    (s.modBower b f).bower j = if j = b then f (s.bower b) else s.bower j := Tab.get_put ..
@[simp] theorem State.site_setSite (s : State) (v j : Nat) (x : Site) : (s.setSite v x).site j = if j = v then x else s.site j := Tab.get_put ..
@[simp] theorem State.site_modSite (s : State) (v j : Nat) (f : Site → Site) :
    (s.modSite v f).site j = if j = v then f (s.site v) else s.site j := Tab.get_put ..

@[simp] theorem State.strand_modCore (s : State) (c j : Nat) (f : Core → Core) : (s.modCore c f).strand j = s.strand j := rfl
@[simp] theorem State.strand_setSite (s : State) (v j : Nat) (x : Site) : (s.setSite v x).strand j = s.strand j := rfl
@[simp] theorem State.strand_modSite (s : State) (v j : Nat) (f : Site → Site) : (s.modSite v f).strand j = s.strand j := rfl
@[simp] theorem State.strand_count (s : State) (c n m j : Nat) : (s.count c n m).strand j = s.strand j := rfl
@[simp] theorem State.strand_consume (s : State) (n j : Nat) : (s.consume n).strand j = s.strand j := by simp [State.strand]
@[simp] theorem State.strand_raise (s : State) (v u sev code : Nat) (n : Option Nat) (a : Addr) (j : Nat) :
    (s.raise v u sev code n a).strand j = s.strand j := rfl
@[simp] theorem State.core_setStrand (s : State) (k j : Nat) (x : Strand) : (s.setStrand k x).core j = s.core j := rfl
@[simp] theorem State.core_modStrand (s : State) (k j : Nat) (f : Strand → Strand) : (s.modStrand k f).core j = s.core j := rfl
@[simp] theorem State.core_setSite (s : State) (v j : Nat) (x : Site) : (s.setSite v x).core j = s.core j := rfl
@[simp] theorem State.core_modSite (s : State) (v j : Nat) (f : Site → Site) : (s.modSite v f).core j = s.core j := rfl
@[simp] theorem State.core_consume (s : State) (n j : Nat) : (s.consume n).core j = s.core j := by simp [State.core]
@[simp] theorem State.site_setStrand (s : State) (k j : Nat) (x : Strand) : (s.setStrand k x).site j = s.site j := rfl
@[simp] theorem State.site_modStrand (s : State) (k j : Nat) (f : Strand → Strand) : (s.modStrand k f).site j = s.site j := rfl
@[simp] theorem State.site_modCore (s : State) (c j : Nat) (f : Core → Core) : (s.modCore c f).site j = s.site j := rfl
@[simp] theorem State.site_count (s : State) (c n m j : Nat) : (s.count c n m).site j = s.site j := rfl
/-- Taking a message that stands in no receive buffer leaves the sites as they are. -/
theorem State.site_consume (s : State) (n j : Nat) (h : ∀ m ∈ s.net, m.id = n → m.buf = none) : (s.consume n).site j = s.site j := by
  simp [State.site, State.consume_sites s n h]

/-- What a park leaves of its strand (R125, R126). -/
theorem State.strand_park (s : State) (k j : Nat) (r : Park) (c : Cont) :
    (s.park k r c).strand j = if j = k then { s.strand k with st := .parked, why := some r, cont := c } else s.strand j := by
  simp [State.park]

/-- What a wake leaves of its strand: nothing changes unless it is parked (R144). -/
theorem State.strand_wake (s : State) (k j : Nat) : (s.wake k).strand j =
    if j = k ∧ (s.strand k).st = .parked then
      { s.strand k with
        st := if (s.gang (siteOfK k) (s.strand k).entry).halting && decide (slotOf k < 13)
              && ((s.gang (siteOfK k) (s.strand k).entry).st == .aborting || !(s.strand k).lateDue) then .stopped else .ready,
        why := none, cont := .reissue }
    else s.strand j := by
  unfold State.wake
  by_cases h : (s.strand k).st = .parked <;> simp [h]

/-- A wake changes its strand alone, or nothing. -/
theorem State.wake_cases (s : State) (k : Nat) : s.wake k = s ∨ ∃ x, s.wake k = s.setStrand k x := by
  unfold State.wake
  by_cases h : (s.strand k).st = .parked
  · exact .inr ⟨_, if_pos h⟩
  · exact .inl (if_neg h)

end Sys2Proof.Machine
end

