-- ==== Sys2Proof/Laws/Memory.lean ====
section
/-! SUPPORT. Memory: what a byte reads after a write, and that every memory operation keeps the canonical form (log 2). The operations are `write`,
`writeN`, and the filters by which a range is cleared. -/

namespace Sys2Proof.Machine

open Sys2Proof

/-! ## The canonical form -/

/-- The canonical form in other words: rising addresses, and no entry equal to what an unlisted address reads as. -/
theorem Memory.wfAbove_iff (b : Option Nat) (m : List Host.Cell) :
    Memory.wfAbove b m = true ↔ Rising m ∧ (∀ p ∈ m, p.2 ≠ Memory.empty) ∧ ∀ k, b = some k → ∀ p ∈ m, k < p.1 := by
  induction m generalizing b with
  | nil => cases b <;> simp [Memory.wfAbove, Rising]
  | cons q t ih =>
    obtain ⟨a, y⟩ := q
    cases b with
    | none =>
      simp only [Memory.wfAbove, Bool.and_eq_true, bne_iff_ne, ih, Rising, List.map_cons, List.pairwise_cons, List.mem_cons, List.mem_map,
        forall_eq_or_imp, Option.some.injEq, forall_eq', reduceCtorEq, false_implies, implies_true, and_true]
      constructor
      · rintro ⟨hy, hr, hv, hb⟩
        refine ⟨⟨?_, hr⟩, hy, hv⟩
        rintro _ ⟨p, hp, rfl⟩; exact hb p hp
      · rintro ⟨⟨hb, hr⟩, hy, hv⟩
        exact ⟨hy, hr, hv, fun p hp => hb _ ⟨p, hp, rfl⟩⟩
    | some k =>
      simp only [Memory.wfAbove, Bool.and_eq_true, decide_eq_true_eq, bne_iff_ne, ih, Rising, List.map_cons, List.pairwise_cons, List.mem_cons,
        List.mem_map, forall_eq_or_imp, Option.some.injEq, forall_eq']
      constructor
      · rintro ⟨⟨hk, hy⟩, hr, hv, hb⟩
        refine ⟨⟨?_, hr⟩, ⟨hy, hv⟩, hk, fun p hp => hk.trans (hb p hp)⟩
        rintro _ ⟨p, hp, rfl⟩; exact hb p hp
      · rintro ⟨⟨hb, hr⟩, ⟨hy, hv⟩, hk, -⟩
        exact ⟨⟨hk, hy⟩, hr, hv, fun p hp => hb _ ⟨p, hp, rfl⟩⟩

theorem Memory.wf_iff (m : List Host.Cell) : Memory.wf m = true ↔ Rising m ∧ ∀ p ∈ m, p.2 ≠ Memory.empty := by
  unfold Memory.wf; rw [Memory.wfAbove_iff]; simp

theorem Memory.wf_reset : Memory.wf State.reset.mem = true := rfl

/-- Every entry of a write is an old one or the byte written. -/
theorem Memory.mem_write (a : Nat) (b : Byte) (m : List Host.Cell) (p : Host.Cell) (h : p ∈ Memory.write a b m) :
    p ∈ m ∨ (p = (a, b) ∧ b ≠ Memory.empty) := by
  induction m with
  | nil => unfold Memory.write at h; split_ifs at h <;> simp_all
  | cons q t ih =>
    obtain ⟨j, y⟩ := q
    unfold Memory.write at h
    split_ifs at h <;> simp only [List.mem_cons] at * <;> tauto

theorem Memory.wf_write {m : List Host.Cell} (h : Memory.wf m = true) (a : Nat) (b : Byte) : Memory.wf (Memory.write a b m) = true := by
  rw [Memory.wf_iff] at *
  refine ⟨?_, fun p hp => ?_⟩
  · obtain ⟨h, -⟩ := h
    induction m with
    | nil => unfold Memory.write; split_ifs <;> simp [Rising]
    | cons q t ih =>
      obtain ⟨j, y⟩ := q
      simp only [Rising, List.map_cons, List.pairwise_cons] at h
      unfold Memory.write
      split_ifs with h1 h2 h2 h3
      · simpa [Rising] using h
      · simp only [Rising, List.map_cons, List.pairwise_cons, List.mem_cons]
        refine ⟨?_, h⟩
        rintro x (rfl | hx)
        · exact h1
        · exact h1.trans (h.1 x hx)
      · exact h.2
      · subst h2; simpa [Rising] using h
      · simp only [Rising, List.map_cons, List.pairwise_cons]
        refine ⟨fun x hx => ?_, ih h.2⟩
        obtain ⟨p, hp, rfl⟩ := List.mem_map.1 hx
        rcases Memory.mem_write a b t p hp with hp | ⟨rfl, -⟩
        · exact h.1 _ (List.mem_map_of_mem hp)
        · dsimp only; omega
  · rcases Memory.mem_write a b m p hp with hp | ⟨rfl, hb⟩
    · exact h.2 p hp
    · exact hb

theorem Memory.wf_filter {m : List Host.Cell} (h : Memory.wf m = true) (f : Host.Cell → Bool) : Memory.wf (m.filter f) = true := by
  rw [Memory.wf_iff] at *
  exact ⟨Rising.filter h.1 f, fun p hp => h.2 p (List.mem_of_mem_filter hp)⟩

theorem Memory.wf_writeN {m : List Host.Cell} (h : Memory.wf m = true) (a en : Nat) (l : List Byte) :
    Memory.wf (Memory.writeN m a en l) = true := by
  unfold Memory.writeN
  generalize l.zipIdx = z
  induction z generalizing m with
  | nil => exact h
  | cons q t ih =>
    obtain ⟨b, j⟩ := q
    rw [List.foldl_cons]
    apply ih
    dsimp only
    split_ifs
    · exact Memory.wf_write h _ _
    · exact h

/-! ## Reading -/

theorem Tab.find_below {α : Type} {t : List (Nat × α)} {a : Nat} (h : ∀ x ∈ t.map (·.1), a < x) : Tab.find a t = none := by
  induction t with
  | nil => rfl
  | cons q t ih =>
    obtain ⟨j, y⟩ := q
    simp only [List.map_cons, List.mem_cons, forall_eq_or_imp] at h
    have : ¬j = a := by omega
    simp [Tab.find, this, ih h.2]

theorem Memory.read_write {m : List Host.Cell} (h : Memory.wf m = true) (a b : Nat) (x : Byte) :
    Memory.read (Memory.write a x m) b = if b = a then x else Memory.read m b := by
  replace h := ((Memory.wf_iff m).1 h).1
  unfold Memory.read Tab.get
  induction m with
  | nil =>
    unfold Memory.write
    by_cases hb : b = a
    · by_cases hx : x = Memory.empty <;> simp [Tab.find, hb, hx]
    · have : ¬a = b := fun h => hb h.symm
      by_cases hx : x = Memory.empty <;> simp [Tab.find, hb, hx, this]
  | cons q t ih =>
    obtain ⟨j, y⟩ := q
    simp only [Rising, List.map_cons, List.pairwise_cons] at h
    have ih := ih h.2
    unfold Memory.write
    by_cases h1 : a < j
    · simp only [if_pos h1]
      by_cases hx : x = Memory.empty
      · simp only [if_pos hx]
        by_cases hb : b = a
        · subst hb
          have h2 : ¬j = b := by omega
          have h3 : Tab.find b t = none := Tab.find_below fun z hz => h1.trans (h.1 z hz)
          simp [Tab.find, h2, h3, hx]
        · simp [hb]
      · simp only [if_neg hx]
        by_cases hb : b = a
        · simp [Tab.find, hb]
        · have : ¬a = b := fun h => hb h.symm
          simp [Tab.find, hb, this]
    · simp only [if_neg h1]
      by_cases h2 : a = j
      · subst h2
        simp only [if_true]
        by_cases hb : b = a
        · subst hb
          have h3 : Tab.find b t = none := Tab.find_below fun z hz => h.1 z hz
          by_cases hx : x = Memory.empty <;> simp [hx, h3, Tab.find]
        · have : ¬a = b := fun h => hb h.symm
          by_cases hx : x = Memory.empty <;> simp [hx, Tab.find, hb, this]
      · simp only [if_neg h2]
        by_cases hb : b = a
        · subst hb
          have : ¬j = b := fun h => h2 h.symm
          simpa [Tab.find, this] using ih
        · by_cases hj : j = b
          · simp [Tab.find, hj, hb]
          · simpa [Tab.find, hj, hb] using ih

theorem Memory.read_foldl (a : Nat) (en : Nat) (l : List Byte) (i : Nat) {m : List Host.Cell} (h : Memory.wf m = true) (b : Nat) :
    Memory.read ((l.zipIdx i).foldl (fun m (x, j) => if bitOn en j then Memory.write (a + j) x m else m) m) b =
      if a + i ≤ b ∧ b < a + i + l.length ∧ bitOn en (b - a) = true then l.getD (b - a - i) 0 else Memory.read m b := by
  induction l generalizing i m with
  | nil =>
    have : ¬(a + i ≤ b ∧ b < a + i + ([] : List Byte).length ∧ bitOn en (b - a) = true) := by simp; omega
    rw [if_neg this]; rfl
  | cons x l ih =>
    simp only [List.zipIdx_cons, List.foldl_cons]
    have hw : Memory.wf (if bitOn en i = true then Memory.write (a + i) x m else m) = true := by
      split_ifs
      · exact Memory.wf_write h _ _
      · exact h
    rw [ih (i + 1) hw]
    by_cases h1 : a + (i + 1) ≤ b ∧ b < a + (i + 1) + l.length ∧ bitOn en (b - a) = true
    · have h2 : a + i ≤ b ∧ b < a + i + (x :: l).length ∧ bitOn en (b - a) = true := ⟨by omega, by simp; omega, h1.2.2⟩
      rw [if_pos h1, if_pos h2]
      have : b - a - i = (b - a - (i + 1)) + 1 := by omega
      rw [this]; rfl
    · rw [if_neg h1]
      by_cases h3 : b = a + i
      · subst h3
        have : a + i - a = i := by omega
        by_cases h4 : bitOn en i = true
        · simp [h4, this, Memory.read_write h]
        · simp [h4, this]
      · have h2 : ¬(a + i ≤ b ∧ b < a + i + (x :: l).length ∧ bitOn en (b - a) = true) := by
          rintro ⟨p, q, r⟩
          exact h1 ⟨by omega, by simp only [List.length_cons] at q; omega, r⟩
        rw [if_neg h2]
        split_ifs with h4
        · rw [Memory.read_write h, if_neg h3]
        · rfl

/-- What a byte reads after bytes have been written from an address, by their enables (R401). -/
theorem Memory.read_writeN {m : List Host.Cell} (h : Memory.wf m = true) (a en : Nat) (l : List Byte) (b : Nat) :
    Memory.read (Memory.writeN m a en l) b =
      if a ≤ b ∧ b < a + l.length ∧ bitOn en (b - a) = true then l.getD (b - a) 0 else Memory.read m b := by
  have := Memory.read_foldl a en l 0 h b
  simpa [Memory.writeN] using this

/-- What a byte reads after a range has been cleared. -/
theorem Memory.read_filter (m : List Host.Cell) (f : Nat → Bool) (b : Nat) :
    Memory.read (m.filter fun p => f p.1) b = if f b then Memory.read m b else Memory.empty := by
  unfold Memory.read Tab.get
  rw [Tab.find_filter]
  split_ifs <;> rfl

end Sys2Proof.Machine
end

