-- ==== Sys2Proof/Laws/Sound.lean ====
section
/-! SUPPORT. The named operations keep the state sound: memory in canonical form, tables with rising keys. A change to the network, the transactions
or the counters touches nothing that `Sound` speaks of. -/

namespace Sys2Proof

open Sys2Proof.Machine

/-- A state that agrees with a sound one in memory and the four tables is sound. -/
theorem Sound.congr {s t : State} (h : Sound s) (h1 : t.mem = s.mem) (h2 : t.strands = s.strands) (h3 : t.cores = s.cores)
    (h4 : t.bowers = s.bowers) (h5 : t.sites = s.sites) : Sound t := by
  unfold Sound at *; rw [h1, h2, h3, h4, h5]; exact h

/-! ## Updates of one record -/

theorem Sound.setStrand {s : State} (h : Sound s) (k : Nat) (x : Strand) : Sound (s.setStrand k x) := ⟨h.1, h.2.1.put k x, h.2.2⟩
theorem Sound.modStrand {s : State} (h : Sound s) (k : Nat) (f : Strand → Strand) : Sound (s.modStrand k f) := h.setStrand k _
theorem Sound.setCore {s : State} (h : Sound s) (c : Nat) (x : Core) : Sound (s.setCore c x) := ⟨h.1, h.2.1, h.2.2.1.put c x, h.2.2.2⟩
theorem Sound.modCore {s : State} (h : Sound s) (c : Nat) (f : Core → Core) : Sound (s.modCore c f) := h.setCore c _
theorem Sound.modBower {s : State} (h : Sound s) (b : Nat) (f : Bower → Bower) : Sound (s.modBower b f) :=
  ⟨h.1, h.2.1, h.2.2.1, h.2.2.2.1.put b _, h.2.2.2.2⟩
theorem Sound.setSite {s : State} (h : Sound s) (v : Nat) (x : Site) : Sound (s.setSite v x) :=
  ⟨h.1, h.2.1, h.2.2.1, h.2.2.2.1, h.2.2.2.2.put v x⟩
theorem Sound.modSite {s : State} (h : Sound s) (v : Nat) (f : Site → Site) : Sound (s.modSite v f) := h.setSite v _
theorem Sound.modGate {s : State} (h : Sound s) (v : Nat) (f : Gate → Gate) : Sound (s.modGate v f) := h.modSite v _
theorem Sound.modGang {s : State} (h : Sound s) (v e : Nat) (f : Gang → Gang) : Sound (s.modGang v e f) := h.modSite v _
theorem Sound.modLink {s : State} (h : Sound s) (v d : Nat) (x : Mesh) (f : Link → Link) : Sound (s.modLink v d x f) := h.modSite v _
theorem Sound.count {s : State} (h : Sound s) (c n m : Nat) : Sound (s.count c n m) := h.modCore c _
theorem Sound.advance {s : State} (h : Sound s) (k n : Nat) : Sound (s.advance k n) := h.modStrand k _
theorem Sound.raise {s : State} (h : Sound s) (v u sev code : Nat) (n : Option Nat) (a : Addr) : Sound (s.raise v u sev code n a) := h.setSite v _
theorem Sound.free {s : State} (h : Sound s) : Sound s.free.2 := h
theorem Sound.fresh {s : State} (h : Sound s) : Sound s.fresh.2 := h
theorem Sound.unbuffer {s : State} (h : Sound s) (m : Msg) : Sound (s.unbuffer m) := by
  unfold State.unbuffer
  split
  · exact h.modLink ..
  · exact h
theorem Sound.consume {s : State} (h : Sound s) (n : Nat) : Sound (s.consume n) := by
  unfold State.consume
  split
  · exact h
  · exact h.unbuffer _
theorem Sound.dropTxn {s : State} (h : Sound s) (n : Nat) : Sound (s.dropTxn n) := h

/-- A change applied for each element of a list. -/
theorem Sound.each {α : Type} {f : State → α → State} (hf : ∀ s a, Sound s → Sound (f s a)) (l : List α) {s : State} (h : Sound s) :
    Sound (Machine.each l f s) := by
  unfold Machine.each
  induction l generalizing s with
  | nil => exact h
  | cons a l ih => exact ih (hf s a h)

/-! ## Parking, waking, permits -/

theorem Sound.park {s : State} (h : Sound s) (k : Nat) (r : Park) (c : Cont) : Sound (s.park k r c) := (h.modStrand k _).count _ _ _
theorem Sound.held {s : State} (h : Sound s) (k : Nat) : Sound (s.held k) := (h.modStrand k _).count _ _ _
theorem Sound.wake {s : State} (h : Sound s) (k : Nat) : Sound (s.wake k) := by
  rcases s.wake_cases k with e | ⟨x, e⟩ <;> rw [e]
  · exact h
  · exact h.setStrand k x
theorem Sound.repark {s : State} (h : Sound s) (k : Nat) (r : Park) : Sound (s.repark k r) := by
  unfold State.repark
  by_cases hp : (s.strand k).st = .parked
  · rw [if_pos hp]; exact (h.modStrand k _).count _ _ _
  · rw [if_neg hp]; exact h
theorem Sound.takePermit {s : State} (h : Sound s) (c : Nat) (p : PClass) : Sound (s.takePermit c p) := by
  cases p
  · exact h.modCore c _
  · exact (h.modCore c _).count _ _ _
  · exact (h.modCore c _).count _ _ _
  · exact h.modCore c _

/-! ## Messages -/

/-- A message that enters the network leaves memory and every record as they are. -/
theorem Sound.post {s : State} (h : Sound s) (m : Msg) : Sound (s.post m) := h

theorem Sound.reply {s : State} (h : Sound s) (m : Msg) (op : MsgOp) (d : List Byte) (f : Bool) : Sound (s.reply m op d f) := h.post _

/-! ## Abort and exceptions -/

theorem Sound.reown {s : State} (h : Sound s) (v : Nat) (f : Owner → Owner) : Sound (s.reown v f) := by
  unfold State.reown
  refine Sound.modSite ?_ _ _
  exact h
theorem Sound.disown {s : State} (h : Sound s) (v : Nat) (p : Owner → Bool) : Sound (s.disown v p) := h.reown _ _
theorem Sound.orphan {s : State} (h : Sound s) (k n : Nat) : Sound (s.orphan k n) := h.reown _ _
theorem Sound.rouse {s : State} (h : Sound s) (k : Nat) (r : Park) : Sound (s.rouse k r) := by
  unfold State.rouse
  split_ifs
  · exact h.wake k
  · exact h
theorem Sound.wakeRecord {s : State} (h : Sound s) (c : Nat) : Sound (s.wakeRecord c) := by
  unfold State.wakeRecord
  split_ifs
  · exact h.rouse ..
  · exact h
theorem Sound.dropReplays {s : State} (h : Sound s) (c : Nat) (p : Replay → Bool) : Sound (s.dropReplays c p) := (h.modCore c _).wakeRecord c
theorem Sound.stop {s : State} (h : Sound s) (k : Nat) : Sound (s.stop k) := h.modStrand k _
theorem Sound.dropWaiter {s : State} (h : Sound s) (k : Nat) : Sound (s.dropWaiter k) := h.modSite _ _
theorem Sound.forget {s : State} (h : Sound s) (k : Nat) : Sound (s.forget k) := ⟨h.1, h.2.1, h.2.2.1, h.2.2.2.1, h.2.2.2.2.map _⟩
theorem Sound.abortStrand {s : State} (h : Sound s) (k : Nat) : Sound (s.abortStrand k) :=
  ((((h.forget k).orphan k _).dropWaiter k).stop k).modCore _ _
theorem Sound.abortGang {s : State} (h : Sound s) (v e : Nat) : Sound (s.abortGang v e) :=
  Sound.each (fun _ k hs => hs.abortStrand k) _ ((h.modGang v e _).modSite v _)
theorem Sound.faultRecord {s : State} (h : Sound s) (k : Nat) (f : Trouble) : Sound (s.faultRecord k f) := by
  unfold State.faultRecord
  rcases f.addr with _ | a
  · exact (Sound.modStrand h.free k _).count _ _ _
  · exact (h.modStrand k _).count _ _ _
theorem Sound.trapEntry {s : State} (h : Sound s) (k : Nat) (a : Addr) (n : Nat) : Sound (s.trapEntry k a n) := h.modStrand k _
theorem Sound.trapReturn {s : State} (h : Sound s) (k : Nat) : Sound (s.trapReturn k) := h.modStrand k _
theorem Sound.faultTrap {s : State} (h : Sound s) (k : Nat) (f : Late) : Sound (s.faultTrap k f) := by
  unfold State.faultTrap
  dsimp only
  split_ifs
  · exact h.park ..
  · exact (h.raise ..).stop _
  · exact h.trapEntry ..
  · exact h.park ..
theorem Sound.faultAct {s : State} (h : Sound s) (k : Nat) (f : Late) : Sound (s.faultAct k f) := by
  unfold State.faultAct
  dsimp only
  split_ifs
  · exact h.faultTrap ..
  · exact h.park ..
  · exact (h.raise ..).abortGang ..
theorem Sound.takeFault {s : State} (h : Sound s) (k : Nat) (f : Trouble) : Sound (s.takeFault k f) := by
  unfold State.takeFault
  dsimp only
  split_ifs
  · exact (h.faultRecord k f).park ..
  · exact (h.faultRecord k f).faultAct ..
theorem Sound.raiseFault {s : State} (h : Sound s) (k : Nat) (c : Code) : Sound (s.raiseFault k c) := h.takeFault ..

/-! ## The issue of an instruction -/

theorem Sound.issue {s : State} (h : Sound s) (names : List Nat) (body : State → State) (hb : Sound (body s)) : Sound (s.issue names body) := by
  unfold State.issue
  split_ifs
  · exact h.park ..
  · exact hb
  · exact h.raiseFault ..
theorem Sound.withPermit {s : State} (h : Sound s) (p : PClass) (body : State → State) (hb : Sound (body (s.takePermit (coreOfK s.cur) p))) :
    Sound (s.withPermit p body) := by
  unfold State.withPermit
  split_ifs
  · exact hb
  · exact h.held _
theorem Sound.finish {s : State} (h : Sound s) (d : Nat) (w : Word) (n : Nat) : Sound (s.finish d w n) := h.modStrand _ _
theorem Sound.pass {s : State} (h : Sound s) (n : Nat) : Sound (s.pass n) := h.modStrand _ _
theorem Sound.compute {s : State} (h : Sound s) (names : List (BitVec 8)) (d : BitVec 8) (n : Nat) (f : State → Word) :
    Sound (s.compute names d n f) := h.issue _ _ (h.finish ..)

/-! ## Sending and storing -/

theorem Sound.sendOut {s : State} (h : Sound s) (m : Msg) : Sound (s.sendOut m) := h.post _
theorem Sound.txnNo {s : State} (h : Sound s) (i : Option Nat) : Sound (s.txnNo i).2 := by cases i <;> exact h
theorem Sound.requestAs {s : State} (h : Sound s) (i : Option Nat) (v key : Nat) (a : Acc) (r : Route) (fill : Option Line) (len : Nat) :
    Sound (s.requestAs i v key a r fill len) := by
  unfold State.requestAs
  refine Sound.sendOut ?_ _
  exact h.txnNo i
theorem Sound.request {s : State} (h : Sound s) (v key : Nat) (a : Acc) (r : Route) (fill : Option Line) (len : Nat) :
    Sound (s.request v key a r fill len) := h.requestAs ..
theorem Sound.toPort {s : State} (h : Sound s) (v : Nat) (a : Acc) : Sound (s.toPort v a) := by
  unfold State.toPort
  refine Sound.modSite ?_ _ _
  exact h
theorem Sound.localReply {s : State} (h : Sound s) (v : Nat) (a : Acc) (op : MsgOp) (d : List Byte) (fill : Option Line) :
    Sound (s.localReply v a op d fill) := by
  unfold State.localReply
  refine Sound.post ?_ _
  exact h
theorem Sound.sendAccess {s : State} (h : Sound s) (a : Acc) : Sound (s.sendAccess a) := by
  unfold State.sendAccess
  dsimp only
  split_ifs
  · exact h.toPort ..
  · split
    · exact h.request ..
    · exact h.localReply ..
theorem Sound.fire {s : State} (h : Sound s) (v u g key : Nat) : Sound (s.fire v u g key) := Sound.each (fun _ _ hs => hs.post _) _ h
theorem Sound.fireAll {s : State} (h : Sound s) (v u off n key : Nat) : Sound (s.fireAll v u off n key) :=
  Sound.each (fun _ _ hs => hs.fire ..) _ h
/-- A home's write keeps memory in canonical form. -/
theorem Sound.store {s : State} (h : Sound s) (v u off en : Nat) (d : List Byte) (key : Nat) : Sound (s.store v u off en d key) := by
  unfold State.store
  refine Sound.fireAll ?_ ..
  exact ⟨Memory.wf_writeN h.1 _ _ _, h.2⟩

end Sys2Proof
end

