-- ==== Sys2Proof/Laws/Messages.lean ====
section
/-! SUPPORT. Messages: what entering the network changes, and that a message whose way is whole stands in the network (R402, R408). -/

namespace Sys2Proof.Machine

open Sys2Proof

/-! ## A change applied for each element -/

/-- What each single change keeps, the changes for a whole list keep. -/
theorem each_keeps {α β : Type} (g : State → β) {f : State → α → State} (hf : ∀ s a, g (f s a) = g s) (l : List α) (s : State) :
    g (each l f s) = g s := by
  unfold each
  induction l generalizing s with
  | nil => rfl
  | cons a l ih => rw [List.foldl_cons, ih, hf]

@[simp] theorem each_nil {α : Type} (f : State → α → State) (s : State) : each [] f s = s := rfl
@[simp] theorem each_cons {α : Type} (f : State → α → State) (a : α) (l : List α) (s : State) : each (a :: l) f s = each l f (f s a) := rfl

/-! ## Entering the network -/

/-- What a value of the state must not look at for a message that enters the network to keep it: the network and the next number. -/
theorem State.post_keeps {β : Type} (g : State → β) (hg : ∀ (s : State) n i, g { s with net := n, nextId := i } = g s) (s : State) (m : Msg) :
    g (s.post m) = g s := hg s _ _

@[simp] theorem State.post_mem (s : State) (m : Msg) : (s.post m).mem = s.mem := rfl
@[simp] theorem State.post_full (s : State) (m : Msg) : (s.post m).full = s.full := rfl
@[simp] theorem State.post_flaws (s : State) (m : Msg) : (s.post m).flaws = s.flaws := rfl
@[simp] theorem State.post_strands (s : State) (m : Msg) : (s.post m).strands = s.strands := rfl
@[simp] theorem State.post_cores (s : State) (m : Msg) : (s.post m).cores = s.cores := rfl
@[simp] theorem State.post_bowers (s : State) (m : Msg) : (s.post m).bowers = s.bowers := rfl
@[simp] theorem State.post_sites (s : State) (m : Msg) : (s.post m).sites = s.sites := rfl
@[simp] theorem State.post_txns (s : State) (m : Msg) : (s.post m).txns = s.txns := rfl
@[simp] theorem State.post_contexts (s : State) (m : Msg) : (s.post m).contexts = s.contexts := rfl
@[simp] theorem State.post_batch (s : State) (m : Msg) : (s.post m).batch = s.batch := rfl
@[simp] theorem State.post_freeIx (s : State) (m : Msg) : (s.post m).freeIx = s.freeIx := rfl
@[simp] theorem State.post_agenda (s : State) (m : Msg) : (s.post m).agenda = s.agenda := rfl
@[simp] theorem State.post_cur (s : State) (m : Msg) : (s.post m).cur = s.cur := rfl
@[simp] theorem State.post_instant (s : State) (m : Msg) : (s.post m).instant = s.instant := rfl
@[simp] theorem State.post_nextId (s : State) (m : Msg) : (s.post m).nextId = s.nextId + 1 := rfl

/-- A message that is sent stands in the network under the next number, in the step under way (R100, R402). -/
@[simp] theorem State.post_net (s : State) (m : Msg) : (s.post m).net = s.net ++ [{ m with id := s.nextId, batch := s.batch }] := rfl

/-- The reply to a request stands in the network, on its way back (R204, R404). -/
@[simp] theorem State.reply_net (s : State) (m : Msg) (op : MsgOp) (d : List Byte) (f : Bool) :
    (s.reply m op d f).net = s.net ++
      [{ id := s.nextId, op, mesh := otherMesh m.mesh, src := m.dst, dst := m.src, key := m.key, data := d, full := f, bit := s.bitOf m,
         txn := m.txn, batch := s.batch }] := rfl

@[simp] theorem State.reply_mem (s : State) (m : Msg) (op : MsgOp) (d : List Byte) (f : Bool) : (s.reply m op d f).mem = s.mem := rfl
@[simp] theorem State.reply_full (s : State) (m : Msg) (op : MsgOp) (d : List Byte) (f : Bool) : (s.reply m op d f).full = s.full := rfl
@[simp] theorem State.reply_flaws (s : State) (m : Msg) (op : MsgOp) (d : List Byte) (f : Bool) : (s.reply m op d f).flaws = s.flaws := rfl
@[simp] theorem State.reply_strands (s : State) (m : Msg) (op : MsgOp) (d : List Byte) (f : Bool) : (s.reply m op d f).strands = s.strands := rfl
@[simp] theorem State.reply_cores (s : State) (m : Msg) (op : MsgOp) (d : List Byte) (f : Bool) : (s.reply m op d f).cores = s.cores := rfl
@[simp] theorem State.reply_bowers (s : State) (m : Msg) (op : MsgOp) (d : List Byte) (f : Bool) : (s.reply m op d f).bowers = s.bowers := rfl
@[simp] theorem State.reply_sites (s : State) (m : Msg) (op : MsgOp) (d : List Byte) (f : Bool) : (s.reply m op d f).sites = s.sites := rfl
@[simp] theorem State.reply_txns (s : State) (m : Msg) (op : MsgOp) (d : List Byte) (f : Bool) : (s.reply m op d f).txns = s.txns := rfl
@[simp] theorem State.reply_contexts (s : State) (m : Msg) (op : MsgOp) (d : List Byte) (f : Bool) : (s.reply m op d f).contexts = s.contexts := rfl
@[simp] theorem State.reply_batch (s : State) (m : Msg) (op : MsgOp) (d : List Byte) (f : Bool) : (s.reply m op d f).batch = s.batch := rfl
@[simp] theorem State.reply_freeIx (s : State) (m : Msg) (op : MsgOp) (d : List Byte) (f : Bool) : (s.reply m op d f).freeIx = s.freeIx := rfl
@[simp] theorem State.reply_agenda (s : State) (m : Msg) (op : MsgOp) (d : List Byte) (f : Bool) : (s.reply m op d f).agenda = s.agenda := rfl
@[simp] theorem State.reply_cur (s : State) (m : Msg) (op : MsgOp) (d : List Byte) (f : Bool) : (s.reply m op d f).cur = s.cur := rfl
@[simp] theorem State.reply_instant (s : State) (m : Msg) (op : MsgOp) (d : List Byte) (f : Bool) : (s.reply m op d f).instant = s.instant := rfl

/-! ## A home's write (R94, R134) -/

theorem State.fire_keeps {β : Type} (g : State → β) (hg : ∀ (s : State) n i, g { s with net := n, nextId := i } = g s) (s : State) (v u a key : Nat) :
    g (s.fire v u a key) = g s :=
  each_keeps g (fun s _ => s.post_keeps g hg _) _ s

theorem State.store_mem (s : State) (v u off en : Nat) (d : List Byte) (key : Nat) :
    (s.store v u off en d key).mem = Memory.writeN s.mem (homeKey v u off) en d :=
  each_keeps State.mem (fun s _ => s.fire_keeps State.mem (fun _ _ _ => rfl) ..) _ _

/-- A home's write changes the enabled bytes and no other (R401). -/
theorem State.store_read (s : State) (hs : Memory.wf s.mem = true) (v u off en : Nat) (d : List Byte) (key a : Nat) :
    Memory.read (s.store v u off en d key).mem a =
      if homeKey v u off ≤ a ∧ a < homeKey v u off + d.length ∧ bitOn en (a - homeKey v u off) = true then d.getD (a - homeKey v u off) 0
      else Memory.read s.mem a := by
  rw [State.store_mem, Memory.read_writeN hs]

theorem State.store_full (s : State) (v u off en : Nat) (d : List Byte) (key : Nat) : (s.store v u off en d key).full = s.full :=
  each_keeps State.full (fun s _ => s.fire_keeps State.full (fun _ _ _ => rfl) ..) _ _

end Sys2Proof.Machine
end

