-- ==== Sys2Proof/Laws/PerInstr.lean ====
section
/-! SUPPORT. The family Fields: for every constructor of Instr, the decoder's fields of the words that the encoder gives are the
instruction's own (R253, R259, R262), and the length of the words is that of the opcode byte (R252). An event has no words. -/

set_option linter.unusedSimpArgs false

namespace Sys2Proof.Laws.Fields

open Sys2Proof

/-- The words of a well-formed instruction give back its fields; one word has no long opcode, two words have one. -/
def Statement (i : Instr) : Prop :=
  i.wf = true →
    match encode i with
    | [] => True
    | [w] => isLong w = false ∧ decodeFields w 0 = some i
    | [w, w2] => isLong w = true ∧ decodeFields w w2 = some i
    | _ => False

/-! ## Fields of words put together -/

theorem extract_low {n m : Nat} (x : BitVec n) (y : BitVec m) (s k : Nat) (h : s + k ≤ m) :
    (x ++ y).extractLsb' s k = y.extractLsb' s k := by
  apply BitVec.eq_of_getLsbD_eq
  intro i hi
  have : s + i < m := by omega
  simp [BitVec.getLsbD_append, hi, this]

theorem extract_high {n m : Nat} (x : BitVec n) (y : BitVec m) (s k : Nat) (h : m ≤ s) :
    (x ++ y).extractLsb' s k = x.extractLsb' (s - m) k := by
  apply BitVec.eq_of_getLsbD_eq
  intro i hi
  have h1 : ¬ s + i < m := by omega
  have h2 : s + i - m = s - m + i := by omega
  simp [BitVec.getLsbD_append, hi, h1, h2]

theorem extract_all {n : Nat} (x : BitVec n) : x.extractLsb' 0 n = x := by
  apply BitVec.eq_of_getLsbD_eq
  intro i hi
  simp [hi]

/-! ## What the opcode byte decides -/

theorem long_of {w : BitVec 32} (op : BitVec 8) (h : w.extractLsb' 24 8 = op) :
    isLong w = (decide (0xE0 ≤ op.toNat) && decide (op.toNat ≤ 0xEA)) := by
  unfold isLong
  rw [h]

theorem high_of {w : BitVec 32} (op : BitVec 8) (h : w.extractLsb' 24 8 = op) : w.extractLsb' 28 4 = op.extractLsb' 4 4 := by
  rw [← h]
  apply BitVec.eq_of_getLsbD_eq
  intro i hi
  have h1 : 4 + i < 8 := by omega
  have h2 : 24 + (4 + i) = 28 + i := by omega
  simp [hi, h1, h2]

theorem low_of {w : BitVec 32} (op : BitVec 8) (h : w.extractLsb' 24 8 = op) : w.extractLsb' 24 4 = op.extractLsb' 0 4 := by
  rw [← h]
  apply BitVec.eq_of_getLsbD_eq
  intro i hi
  have h1 : i < 8 := by omega
  simp [hi, h1]

/-! ## The instructions -/

theorem add (d a b) : Statement (.add d a b) := by
  have h : (0x1#8 ++ d ++ a ++ b).extractLsb' 24 8 = 0x01#8 := by
    simp (disch := decide) only [Nat.reduceSub, extract_low, extract_high, extract_all]
  refine fun _ => ⟨long_of _ h, ?_⟩
  unfold decodeFields
  rw [high_of _ h]
  change decodeGroup0 _ = _
  unfold decodeGroup0
  rw [low_of _ h]
  change some _ = some _
  simp (disch := decide) only [Nat.reduceSub, extract_low, extract_high, extract_all]

theorem sub (d a b) : Statement (.sub d a b) := by
  have h : (0x2#8 ++ d ++ a ++ b).extractLsb' 24 8 = 0x02#8 := by
    simp (disch := decide) only [Nat.reduceSub, extract_low, extract_high, extract_all]
  refine fun _ => ⟨long_of _ h, ?_⟩
  unfold decodeFields
  rw [high_of _ h]
  change decodeGroup0 _ = _
  unfold decodeGroup0
  rw [low_of _ h]
  change some _ = some _
  simp (disch := decide) only [Nat.reduceSub, extract_low, extract_high, extract_all]

theorem mul (d a b) : Statement (.mul d a b) := by
  have h : (0x3#8 ++ d ++ a ++ b).extractLsb' 24 8 = 0x03#8 := by
    simp (disch := decide) only [Nat.reduceSub, extract_low, extract_high, extract_all]
  refine fun _ => ⟨long_of _ h, ?_⟩
  unfold decodeFields
  rw [high_of _ h]
  change decodeGroup0 _ = _
  unfold decodeGroup0
  rw [low_of _ h]
  change some _ = some _
  simp (disch := decide) only [Nat.reduceSub, extract_low, extract_high, extract_all]

theorem mulhI (d a b) : Statement (.mulhI d a b) := by
  have h : (0x4#8 ++ d ++ a ++ b).extractLsb' 24 8 = 0x04#8 := by
    simp (disch := decide) only [Nat.reduceSub, extract_low, extract_high, extract_all]
  refine fun _ => ⟨long_of _ h, ?_⟩
  unfold decodeFields
  rw [high_of _ h]
  change decodeGroup0 _ = _
  unfold decodeGroup0
  rw [low_of _ h]
  change some _ = some _
  simp (disch := decide) only [Nat.reduceSub, extract_low, extract_high, extract_all]

theorem mulhN (d a b) : Statement (.mulhN d a b) := by
  have h : (0x5#8 ++ d ++ a ++ b).extractLsb' 24 8 = 0x05#8 := by
    simp (disch := decide) only [Nat.reduceSub, extract_low, extract_high, extract_all]
  refine fun _ => ⟨long_of _ h, ?_⟩
  unfold decodeFields
  rw [high_of _ h]
  change decodeGroup0 _ = _
  unfold decodeGroup0
  rw [low_of _ h]
  change some _ = some _
  simp (disch := decide) only [Nat.reduceSub, extract_low, extract_high, extract_all]

theorem divI (d a b) : Statement (.divI d a b) := by
  have h : (0x6#8 ++ d ++ a ++ b).extractLsb' 24 8 = 0x06#8 := by
    simp (disch := decide) only [Nat.reduceSub, extract_low, extract_high, extract_all]
  refine fun _ => ⟨long_of _ h, ?_⟩
  unfold decodeFields
  rw [high_of _ h]
  change decodeGroup0 _ = _
  unfold decodeGroup0
  rw [low_of _ h]
  change some _ = some _
  simp (disch := decide) only [Nat.reduceSub, extract_low, extract_high, extract_all]

theorem divN (d a b) : Statement (.divN d a b) := by
  have h : (0x7#8 ++ d ++ a ++ b).extractLsb' 24 8 = 0x07#8 := by
    simp (disch := decide) only [Nat.reduceSub, extract_low, extract_high, extract_all]
  refine fun _ => ⟨long_of _ h, ?_⟩
  unfold decodeFields
  rw [high_of _ h]
  change decodeGroup0 _ = _
  unfold decodeGroup0
  rw [low_of _ h]
  change some _ = some _
  simp (disch := decide) only [Nat.reduceSub, extract_low, extract_high, extract_all]

theorem remI (d a b) : Statement (.remI d a b) := by
  have h : (0x8#8 ++ d ++ a ++ b).extractLsb' 24 8 = 0x08#8 := by
    simp (disch := decide) only [Nat.reduceSub, extract_low, extract_high, extract_all]
  refine fun _ => ⟨long_of _ h, ?_⟩
  unfold decodeFields
  rw [high_of _ h]
  change decodeGroup0 _ = _
  unfold decodeGroup0
  rw [low_of _ h]
  change some _ = some _
  simp (disch := decide) only [Nat.reduceSub, extract_low, extract_high, extract_all]

theorem remN (d a b) : Statement (.remN d a b) := by
  have h : (0x9#8 ++ d ++ a ++ b).extractLsb' 24 8 = 0x09#8 := by
    simp (disch := decide) only [Nat.reduceSub, extract_low, extract_high, extract_all]
  refine fun _ => ⟨long_of _ h, ?_⟩
  unfold decodeFields
  rw [high_of _ h]
  change decodeGroup0 _ = _
  unfold decodeGroup0
  rw [low_of _ h]
  change some _ = some _
  simp (disch := decide) only [Nat.reduceSub, extract_low, extract_high, extract_all]

theorem and (d a b) : Statement (.and d a b) := by
  have h : (0xA#8 ++ d ++ a ++ b).extractLsb' 24 8 = 0x0A#8 := by
    simp (disch := decide) only [Nat.reduceSub, extract_low, extract_high, extract_all]
  refine fun _ => ⟨long_of _ h, ?_⟩
  unfold decodeFields
  rw [high_of _ h]
  change decodeGroup0 _ = _
  unfold decodeGroup0
  rw [low_of _ h]
  change some _ = some _
  simp (disch := decide) only [Nat.reduceSub, extract_low, extract_high, extract_all]

theorem or (d a b) : Statement (.or d a b) := by
  have h : (0xB#8 ++ d ++ a ++ b).extractLsb' 24 8 = 0x0B#8 := by
    simp (disch := decide) only [Nat.reduceSub, extract_low, extract_high, extract_all]
  refine fun _ => ⟨long_of _ h, ?_⟩
  unfold decodeFields
  rw [high_of _ h]
  change decodeGroup0 _ = _
  unfold decodeGroup0
  rw [low_of _ h]
  change some _ = some _
  simp (disch := decide) only [Nat.reduceSub, extract_low, extract_high, extract_all]

theorem xor (d a b) : Statement (.xor d a b) := by
  have h : (0xC#8 ++ d ++ a ++ b).extractLsb' 24 8 = 0x0C#8 := by
    simp (disch := decide) only [Nat.reduceSub, extract_low, extract_high, extract_all]
  refine fun _ => ⟨long_of _ h, ?_⟩
  unfold decodeFields
  rw [high_of _ h]
  change decodeGroup0 _ = _
  unfold decodeGroup0
  rw [low_of _ h]
  change some _ = some _
  simp (disch := decide) only [Nat.reduceSub, extract_low, extract_high, extract_all]

theorem shl (d a b) : Statement (.shl d a b) := by
  have h : (0xD#8 ++ d ++ a ++ b).extractLsb' 24 8 = 0x0D#8 := by
    simp (disch := decide) only [Nat.reduceSub, extract_low, extract_high, extract_all]
  refine fun _ => ⟨long_of _ h, ?_⟩
  unfold decodeFields
  rw [high_of _ h]
  change decodeGroup0 _ = _
  unfold decodeGroup0
  rw [low_of _ h]
  change some _ = some _
  simp (disch := decide) only [Nat.reduceSub, extract_low, extract_high, extract_all]

theorem shr (d a b) : Statement (.shr d a b) := by
  have h : (0xE#8 ++ d ++ a ++ b).extractLsb' 24 8 = 0x0E#8 := by
    simp (disch := decide) only [Nat.reduceSub, extract_low, extract_high, extract_all]
  refine fun _ => ⟨long_of _ h, ?_⟩
  unfold decodeFields
  rw [high_of _ h]
  change decodeGroup0 _ = _
  unfold decodeGroup0
  rw [low_of _ h]
  change some _ = some _
  simp (disch := decide) only [Nat.reduceSub, extract_low, extract_high, extract_all]

theorem sra (d a b) : Statement (.sra d a b) := by
  have h : (0xF#8 ++ d ++ a ++ b).extractLsb' 24 8 = 0x0F#8 := by
    simp (disch := decide) only [Nat.reduceSub, extract_low, extract_high, extract_all]
  refine fun _ => ⟨long_of _ h, ?_⟩
  unfold decodeFields
  rw [high_of _ h]
  change decodeGroup0 _ = _
  unfold decodeGroup0
  rw [low_of _ h]
  change some _ = some _
  simp (disch := decide) only [Nat.reduceSub, extract_low, extract_high, extract_all]

theorem minI (d a b) : Statement (.minI d a b) := by
  have h : (0x10#8 ++ d ++ a ++ b).extractLsb' 24 8 = 0x10#8 := by
    simp (disch := decide) only [Nat.reduceSub, extract_low, extract_high, extract_all]
  refine fun _ => ⟨long_of _ h, ?_⟩
  unfold decodeFields
  rw [high_of _ h]
  change decodeGroup1 _ = _
  unfold decodeGroup1
  rw [low_of _ h]
  change some _ = some _
  simp (disch := decide) only [Nat.reduceSub, extract_low, extract_high, extract_all]

theorem maxI (d a b) : Statement (.maxI d a b) := by
  have h : (0x11#8 ++ d ++ a ++ b).extractLsb' 24 8 = 0x11#8 := by
    simp (disch := decide) only [Nat.reduceSub, extract_low, extract_high, extract_all]
  refine fun _ => ⟨long_of _ h, ?_⟩
  unfold decodeFields
  rw [high_of _ h]
  change decodeGroup1 _ = _
  unfold decodeGroup1
  rw [low_of _ h]
  change some _ = some _
  simp (disch := decide) only [Nat.reduceSub, extract_low, extract_high, extract_all]

theorem minN (d a b) : Statement (.minN d a b) := by
  have h : (0x12#8 ++ d ++ a ++ b).extractLsb' 24 8 = 0x12#8 := by
    simp (disch := decide) only [Nat.reduceSub, extract_low, extract_high, extract_all]
  refine fun _ => ⟨long_of _ h, ?_⟩
  unfold decodeFields
  rw [high_of _ h]
  change decodeGroup1 _ = _
  unfold decodeGroup1
  rw [low_of _ h]
  change some _ = some _
  simp (disch := decide) only [Nat.reduceSub, extract_low, extract_high, extract_all]

theorem maxN (d a b) : Statement (.maxN d a b) := by
  have h : (0x13#8 ++ d ++ a ++ b).extractLsb' 24 8 = 0x13#8 := by
    simp (disch := decide) only [Nat.reduceSub, extract_low, extract_high, extract_all]
  refine fun _ => ⟨long_of _ h, ?_⟩
  unfold decodeFields
  rw [high_of _ h]
  change decodeGroup1 _ = _
  unfold decodeGroup1
  rw [low_of _ h]
  change some _ = some _
  simp (disch := decide) only [Nat.reduceSub, extract_low, extract_high, extract_all]

theorem seq (d a b) : Statement (.seq d a b) := by
  have h : (0x14#8 ++ d ++ a ++ b).extractLsb' 24 8 = 0x14#8 := by
    simp (disch := decide) only [Nat.reduceSub, extract_low, extract_high, extract_all]
  refine fun _ => ⟨long_of _ h, ?_⟩
  unfold decodeFields
  rw [high_of _ h]
  change decodeGroup1 _ = _
  unfold decodeGroup1
  rw [low_of _ h]
  change some _ = some _
  simp (disch := decide) only [Nat.reduceSub, extract_low, extract_high, extract_all]

theorem sltI (d a b) : Statement (.sltI d a b) := by
  have h : (0x15#8 ++ d ++ a ++ b).extractLsb' 24 8 = 0x15#8 := by
    simp (disch := decide) only [Nat.reduceSub, extract_low, extract_high, extract_all]
  refine fun _ => ⟨long_of _ h, ?_⟩
  unfold decodeFields
  rw [high_of _ h]
  change decodeGroup1 _ = _
  unfold decodeGroup1
  rw [low_of _ h]
  change some _ = some _
  simp (disch := decide) only [Nat.reduceSub, extract_low, extract_high, extract_all]

theorem sltN (d a b) : Statement (.sltN d a b) := by
  have h : (0x16#8 ++ d ++ a ++ b).extractLsb' 24 8 = 0x16#8 := by
    simp (disch := decide) only [Nat.reduceSub, extract_low, extract_high, extract_all]
  refine fun _ => ⟨long_of _ h, ?_⟩
  unfold decodeFields
  rw [high_of _ h]
  change decodeGroup1 _ = _
  unfold decodeGroup1
  rw [low_of _ h]
  change some _ = some _
  simp (disch := decide) only [Nat.reduceSub, extract_low, extract_high, extract_all]

theorem sel (d a b) : Statement (.sel d a b) := by
  have h : (0x17#8 ++ d ++ a ++ b).extractLsb' 24 8 = 0x17#8 := by
    simp (disch := decide) only [Nat.reduceSub, extract_low, extract_high, extract_all]
  refine fun _ => ⟨long_of _ h, ?_⟩
  unfold decodeFields
  rw [high_of _ h]
  change decodeGroup1 _ = _
  unfold decodeGroup1
  rw [low_of _ h]
  change some _ = some _
  simp (disch := decide) only [Nat.reduceSub, extract_low, extract_high, extract_all]

theorem clz (d a) : Statement (.clz d a) := by
  have h : (0x18#8 ++ d ++ a ++ 0x0#8).extractLsb' 24 8 = 0x18#8 := by
    simp (disch := decide) only [Nat.reduceSub, extract_low, extract_high, extract_all]
  refine fun _ => ⟨long_of _ h, ?_⟩
  unfold decodeFields
  rw [high_of _ h]
  change decodeGroup1 _ = _
  unfold decodeGroup1
  rw [low_of _ h]
  change some _ = some _
  simp (disch := decide) only [Nat.reduceSub, extract_low, extract_high, extract_all]

theorem popc (d a) : Statement (.popc d a) := by
  have h : (0x19#8 ++ d ++ a ++ 0x0#8).extractLsb' 24 8 = 0x19#8 := by
    simp (disch := decide) only [Nat.reduceSub, extract_low, extract_high, extract_all]
  refine fun _ => ⟨long_of _ h, ?_⟩
  unfold decodeFields
  rw [high_of _ h]
  change decodeGroup1 _ = _
  unfold decodeGroup1
  rw [low_of _ h]
  change some _ = some _
  simp (disch := decide) only [Nat.reduceSub, extract_low, extract_high, extract_all]

theorem sext (d a b) : Statement (.sext d a b) := by
  have h : (0x1A#8 ++ d ++ a ++ b).extractLsb' 24 8 = 0x1A#8 := by
    simp (disch := decide) only [Nat.reduceSub, extract_low, extract_high, extract_all]
  refine fun _ => ⟨long_of _ h, ?_⟩
  unfold decodeFields
  rw [high_of _ h]
  change decodeGroup1 _ = _
  unfold decodeGroup1
  rw [low_of _ h]
  change some _ = some _
  simp (disch := decide) only [Nat.reduceSub, extract_low, extract_high, extract_all]

theorem zext (d a b) : Statement (.zext d a b) := by
  have h : (0x1B#8 ++ d ++ a ++ b).extractLsb' 24 8 = 0x1B#8 := by
    simp (disch := decide) only [Nat.reduceSub, extract_low, extract_high, extract_all]
  refine fun _ => ⟨long_of _ h, ?_⟩
  unfold decodeFields
  rw [high_of _ h]
  change decodeGroup1 _ = _
  unfold decodeGroup1
  rw [low_of _ h]
  change some _ = some _
  simp (disch := decide) only [Nat.reduceSub, extract_low, extract_high, extract_all]

theorem addW (d a b) : Statement (.addW d a b) := by
  have h : (0x1C#8 ++ d ++ a ++ b).extractLsb' 24 8 = 0x1C#8 := by
    simp (disch := decide) only [Nat.reduceSub, extract_low, extract_high, extract_all]
  refine fun _ => ⟨long_of _ h, ?_⟩
  unfold decodeFields
  rw [high_of _ h]
  change decodeGroup1 _ = _
  unfold decodeGroup1
  rw [low_of _ h]
  change some _ = some _
  simp (disch := decide) only [Nat.reduceSub, extract_low, extract_high, extract_all]

theorem mulW (d a b) : Statement (.mulW d a b) := by
  have h : (0x1D#8 ++ d ++ a ++ b).extractLsb' 24 8 = 0x1D#8 := by
    simp (disch := decide) only [Nat.reduceSub, extract_low, extract_high, extract_all]
  refine fun _ => ⟨long_of _ h, ?_⟩
  unfold decodeFields
  rw [high_of _ h]
  change decodeGroup1 _ = _
  unfold decodeGroup1
  rw [low_of _ h]
  change some _ = some _
  simp (disch := decide) only [Nat.reduceSub, extract_low, extract_high, extract_all]

theorem bfx (d a b) : Statement (.bfx d a b) := by
  have h : (0x1E#8 ++ d ++ a ++ b).extractLsb' 24 8 = 0x1E#8 := by
    simp (disch := decide) only [Nat.reduceSub, extract_low, extract_high, extract_all]
  refine fun _ => ⟨long_of _ h, ?_⟩
  unfold decodeFields
  rw [high_of _ h]
  change decodeGroup1 _ = _
  unfold decodeGroup1
  rw [low_of _ h]
  change some _ = some _
  simp (disch := decide) only [Nat.reduceSub, extract_low, extract_high, extract_all]

theorem bfi (d a b) : Statement (.bfi d a b) := by
  have h : (0x1F#8 ++ d ++ a ++ b).extractLsb' 24 8 = 0x1F#8 := by
    simp (disch := decide) only [Nat.reduceSub, extract_low, extract_high, extract_all]
  refine fun _ => ⟨long_of _ h, ?_⟩
  unfold decodeFields
  rw [high_of _ h]
  change decodeGroup1 _ = _
  unfold decodeGroup1
  rw [low_of _ h]
  change some _ = some _
  simp (disch := decide) only [Nat.reduceSub, extract_low, extract_high, extract_all]

theorem addi (d a i) : Statement (.addi d a i) := by
  have h : (0x20#8 ++ d ++ a ++ i).extractLsb' 24 8 = 0x20#8 := by
    simp (disch := decide) only [Nat.reduceSub, extract_low, extract_high, extract_all]
  refine fun _ => ⟨long_of _ h, ?_⟩
  unfold decodeFields
  rw [high_of _ h]
  change decodeGroup2 _ = _
  unfold decodeGroup2
  rw [low_of _ h]
  change some _ = some _
  simp (disch := decide) only [Nat.reduceSub, extract_low, extract_high, extract_all]

theorem andi (d a i) : Statement (.andi d a i) := by
  have h : (0x21#8 ++ d ++ a ++ i).extractLsb' 24 8 = 0x21#8 := by
    simp (disch := decide) only [Nat.reduceSub, extract_low, extract_high, extract_all]
  refine fun _ => ⟨long_of _ h, ?_⟩
  unfold decodeFields
  rw [high_of _ h]
  change decodeGroup2 _ = _
  unfold decodeGroup2
  rw [low_of _ h]
  change some _ = some _
  simp (disch := decide) only [Nat.reduceSub, extract_low, extract_high, extract_all]

theorem ori (d a i) : Statement (.ori d a i) := by
  have h : (0x22#8 ++ d ++ a ++ i).extractLsb' 24 8 = 0x22#8 := by
    simp (disch := decide) only [Nat.reduceSub, extract_low, extract_high, extract_all]
  refine fun _ => ⟨long_of _ h, ?_⟩
  unfold decodeFields
  rw [high_of _ h]
  change decodeGroup2 _ = _
  unfold decodeGroup2
  rw [low_of _ h]
  change some _ = some _
  simp (disch := decide) only [Nat.reduceSub, extract_low, extract_high, extract_all]

theorem xori (d a i) : Statement (.xori d a i) := by
  have h : (0x23#8 ++ d ++ a ++ i).extractLsb' 24 8 = 0x23#8 := by
    simp (disch := decide) only [Nat.reduceSub, extract_low, extract_high, extract_all]
  refine fun _ => ⟨long_of _ h, ?_⟩
  unfold decodeFields
  rw [high_of _ h]
  change decodeGroup2 _ = _
  unfold decodeGroup2
  rw [low_of _ h]
  change some _ = some _
  simp (disch := decide) only [Nat.reduceSub, extract_low, extract_high, extract_all]

theorem shli (d a i) : Statement (.shli d a i) := by
  have h : (0x24#8 ++ d ++ a ++ 0x0#2 ++ i).extractLsb' 24 8 = 0x24#8 := by
    simp (disch := decide) only [Nat.reduceSub, extract_low, extract_high, extract_all]
  refine fun _ => ⟨long_of _ h, ?_⟩
  unfold decodeFields
  rw [high_of _ h]
  change decodeGroup2 _ = _
  unfold decodeGroup2
  rw [low_of _ h]
  change some _ = some _
  simp (disch := decide) only [Nat.reduceSub, extract_low, extract_high, extract_all]

theorem shri (d a i) : Statement (.shri d a i) := by
  have h : (0x25#8 ++ d ++ a ++ 0x0#2 ++ i).extractLsb' 24 8 = 0x25#8 := by
    simp (disch := decide) only [Nat.reduceSub, extract_low, extract_high, extract_all]
  refine fun _ => ⟨long_of _ h, ?_⟩
  unfold decodeFields
  rw [high_of _ h]
  change decodeGroup2 _ = _
  unfold decodeGroup2
  rw [low_of _ h]
  change some _ = some _
  simp (disch := decide) only [Nat.reduceSub, extract_low, extract_high, extract_all]

theorem srai (d a i) : Statement (.srai d a i) := by
  have h : (0x26#8 ++ d ++ a ++ 0x0#2 ++ i).extractLsb' 24 8 = 0x26#8 := by
    simp (disch := decide) only [Nat.reduceSub, extract_low, extract_high, extract_all]
  refine fun _ => ⟨long_of _ h, ?_⟩
  unfold decodeFields
  rw [high_of _ h]
  change decodeGroup2 _ = _
  unfold decodeGroup2
  rw [low_of _ h]
  change some _ = some _
  simp (disch := decide) only [Nat.reduceSub, extract_low, extract_high, extract_all]

theorem seqi (d a i) : Statement (.seqi d a i) := by
  have h : (0x27#8 ++ d ++ a ++ i).extractLsb' 24 8 = 0x27#8 := by
    simp (disch := decide) only [Nat.reduceSub, extract_low, extract_high, extract_all]
  refine fun _ => ⟨long_of _ h, ?_⟩
  unfold decodeFields
  rw [high_of _ h]
  change decodeGroup2 _ = _
  unfold decodeGroup2
  rw [low_of _ h]
  change some _ = some _
  simp (disch := decide) only [Nat.reduceSub, extract_low, extract_high, extract_all]

theorem sltiI (d a i) : Statement (.sltiI d a i) := by
  have h : (0x28#8 ++ d ++ a ++ i).extractLsb' 24 8 = 0x28#8 := by
    simp (disch := decide) only [Nat.reduceSub, extract_low, extract_high, extract_all]
  refine fun _ => ⟨long_of _ h, ?_⟩
  unfold decodeFields
  rw [high_of _ h]
  change decodeGroup2 _ = _
  unfold decodeGroup2
  rw [low_of _ h]
  change some _ = some _
  simp (disch := decide) only [Nat.reduceSub, extract_low, extract_high, extract_all]

theorem sltiN (d a i) : Statement (.sltiN d a i) := by
  have h : (0x29#8 ++ d ++ a ++ i).extractLsb' 24 8 = 0x29#8 := by
    simp (disch := decide) only [Nat.reduceSub, extract_low, extract_high, extract_all]
  refine fun _ => ⟨long_of _ h, ?_⟩
  unfold decodeFields
  rw [high_of _ h]
  change decodeGroup2 _ = _
  unfold decodeGroup2
  rw [low_of _ h]
  change some _ = some _
  simp (disch := decide) only [Nat.reduceSub, extract_low, extract_high, extract_all]

theorem miniI (d a i) : Statement (.miniI d a i) := by
  have h : (0x2A#8 ++ d ++ a ++ i).extractLsb' 24 8 = 0x2A#8 := by
    simp (disch := decide) only [Nat.reduceSub, extract_low, extract_high, extract_all]
  refine fun _ => ⟨long_of _ h, ?_⟩
  unfold decodeFields
  rw [high_of _ h]
  change decodeGroup2 _ = _
  unfold decodeGroup2
  rw [low_of _ h]
  change some _ = some _
  simp (disch := decide) only [Nat.reduceSub, extract_low, extract_high, extract_all]

theorem maxiI (d a i) : Statement (.maxiI d a i) := by
  have h : (0x2B#8 ++ d ++ a ++ i).extractLsb' 24 8 = 0x2B#8 := by
    simp (disch := decide) only [Nat.reduceSub, extract_low, extract_high, extract_all]
  refine fun _ => ⟨long_of _ h, ?_⟩
  unfold decodeFields
  rw [high_of _ h]
  change decodeGroup2 _ = _
  unfold decodeGroup2
  rw [low_of _ h]
  change some _ = some _
  simp (disch := decide) only [Nat.reduceSub, extract_low, extract_high, extract_all]

theorem bz (a i) : Statement (.bz a i) := by
  have h : (0x30#8 ++ a ++ i).extractLsb' 24 8 = 0x30#8 := by
    simp (disch := decide) only [Nat.reduceSub, extract_low, extract_high, extract_all]
  refine fun _ => ⟨long_of _ h, ?_⟩
  unfold decodeFields
  rw [high_of _ h]
  change decodeGroup3 _ = _
  unfold decodeGroup3
  rw [low_of _ h]
  change some _ = some _
  simp (disch := decide) only [Nat.reduceSub, extract_low, extract_high, extract_all]

theorem bnz (a i) : Statement (.bnz a i) := by
  have h : (0x31#8 ++ a ++ i).extractLsb' 24 8 = 0x31#8 := by
    simp (disch := decide) only [Nat.reduceSub, extract_low, extract_high, extract_all]
  refine fun _ => ⟨long_of _ h, ?_⟩
  unfold decodeFields
  rw [high_of _ h]
  change decodeGroup3 _ = _
  unfold decodeGroup3
  rw [low_of _ h]
  change some _ = some _
  simp (disch := decide) only [Nat.reduceSub, extract_low, extract_high, extract_all]

theorem blt (a i) : Statement (.blt a i) := by
  have h : (0x32#8 ++ a ++ i).extractLsb' 24 8 = 0x32#8 := by
    simp (disch := decide) only [Nat.reduceSub, extract_low, extract_high, extract_all]
  refine fun _ => ⟨long_of _ h, ?_⟩
  unfold decodeFields
  rw [high_of _ h]
  change decodeGroup3 _ = _
  unfold decodeGroup3
  rw [low_of _ h]
  change some _ = some _
  simp (disch := decide) only [Nat.reduceSub, extract_low, extract_high, extract_all]

theorem bge (a i) : Statement (.bge a i) := by
  have h : (0x33#8 ++ a ++ i).extractLsb' 24 8 = 0x33#8 := by
    simp (disch := decide) only [Nat.reduceSub, extract_low, extract_high, extract_all]
  refine fun _ => ⟨long_of _ h, ?_⟩
  unfold decodeFields
  rw [high_of _ h]
  change decodeGroup3 _ = _
  unfold decodeGroup3
  rw [low_of _ h]
  change some _ = some _
  simp (disch := decide) only [Nat.reduceSub, extract_low, extract_high, extract_all]

theorem j (i) : Statement (.j i) := by
  have h : (0x34#8 ++ i).extractLsb' 24 8 = 0x34#8 := by
    simp (disch := decide) only [Nat.reduceSub, extract_low, extract_high, extract_all]
  refine fun _ => ⟨long_of _ h, ?_⟩
  unfold decodeFields
  rw [high_of _ h]
  change decodeGroup3 _ = _
  unfold decodeGroup3
  rw [low_of _ h]
  change some _ = some _
  simp (disch := decide) only [Nat.reduceSub, extract_low, extract_high, extract_all]

theorem call (i) : Statement (.call i) := by
  have h : (0x35#8 ++ i).extractLsb' 24 8 = 0x35#8 := by
    simp (disch := decide) only [Nat.reduceSub, extract_low, extract_high, extract_all]
  refine fun _ => ⟨long_of _ h, ?_⟩
  unfold decodeFields
  rw [high_of _ h]
  change decodeGroup3 _ = _
  unfold decodeGroup3
  rw [low_of _ h]
  change some _ = some _
  simp (disch := decide) only [Nat.reduceSub, extract_low, extract_high, extract_all]

theorem jr (a) : Statement (.jr a) := by
  have h : (0x36#8 ++ 0x0#8 ++ a ++ 0x0#8).extractLsb' 24 8 = 0x36#8 := by
    simp (disch := decide) only [Nat.reduceSub, extract_low, extract_high, extract_all]
  refine fun _ => ⟨long_of _ h, ?_⟩
  unfold decodeFields
  rw [high_of _ h]
  change decodeGroup3 _ = _
  unfold decodeGroup3
  rw [low_of _ h]
  change some _ = some _
  simp (disch := decide) only [Nat.reduceSub, extract_low, extract_high, extract_all]

theorem callr (d a) : Statement (.callr d a) := by
  have h : (0x37#8 ++ d ++ a ++ 0x0#8).extractLsb' 24 8 = 0x37#8 := by
    simp (disch := decide) only [Nat.reduceSub, extract_low, extract_high, extract_all]
  refine fun _ => ⟨long_of _ h, ?_⟩
  unfold decodeFields
  rw [high_of _ h]
  change decodeGroup3 _ = _
  unfold decodeGroup3
  rw [low_of _ h]
  change some _ = some _
  simp (disch := decide) only [Nat.reduceSub, extract_low, extract_high, extract_all]

theorem nest (i) : Statement (.nest i) := by
  have h : (0x38#8 ++ 0x0#22 ++ i).extractLsb' 24 8 = 0x38#8 := by
    simp (disch := decide) only [Nat.reduceSub, extract_low, extract_high, extract_all]
  refine fun _ => ⟨long_of _ h, ?_⟩
  unfold decodeFields
  rw [high_of _ h]
  change decodeGroup3 _ = _
  unfold decodeGroup3
  rw [low_of _ h]
  change some _ = some _
  simp (disch := decide) only [Nat.reduceSub, extract_low, extract_high, extract_all]

theorem next (i) : Statement (.next i) := by
  have h : (0x39#8 ++ 0x0#8 ++ i).extractLsb' 24 8 = 0x39#8 := by
    simp (disch := decide) only [Nat.reduceSub, extract_low, extract_high, extract_all]
  refine fun _ => ⟨long_of _ h, ?_⟩
  unfold decodeFields
  rw [high_of _ h]
  change decodeGroup3 _ = _
  unfold decodeGroup3
  rw [low_of _ h]
  change some _ = some _
  simp (disch := decide) only [Nat.reduceSub, extract_low, extract_high, extract_all]

theorem trap (i) : Statement (.trap i) := by
  have h : (0x3A#8 ++ 0x0#16 ++ i).extractLsb' 24 8 = 0x3A#8 := by
    simp (disch := decide) only [Nat.reduceSub, extract_low, extract_high, extract_all]
  refine fun _ => ⟨long_of _ h, ?_⟩
  unfold decodeFields
  rw [high_of _ h]
  change decodeGroup3 _ = _
  unfold decodeGroup3
  rw [low_of _ h]
  change some _ = some _
  simp (disch := decide) only [Nat.reduceSub, extract_low, extract_high, extract_all]

theorem eret : Statement (.eret) := by
  have h : (0x3B#8 ++ 0x0#24).extractLsb' 24 8 = 0x3B#8 := by
    simp (disch := decide) only [Nat.reduceSub, extract_low, extract_high, extract_all]
  refine fun _ => ⟨long_of _ h, ?_⟩
  unfold decodeFields
  rw [high_of _ h]
  change decodeGroup3 _ = _
  unfold decodeGroup3
  rw [low_of _ h]
  change some _ = some _
  simp (disch := decide) only [Nat.reduceSub, extract_low, extract_high, extract_all]

theorem ldI8 (d x s o) : Statement (.ldI8 d x s o) := by
  have h : (0x40#8 ++ d ++ x ++ s ++ o).extractLsb' 24 8 = 0x40#8 := by
    simp (disch := decide) only [Nat.reduceSub, extract_low, extract_high, extract_all]
  refine fun _ => ⟨long_of _ h, ?_⟩
  unfold decodeFields
  rw [high_of _ h]
  change decodeGroup4 _ = _
  unfold decodeGroup4
  rw [low_of _ h]
  change some _ = some _
  simp (disch := decide) only [Nat.reduceSub, extract_low, extract_high, extract_all]

theorem ldN8 (d x s o) : Statement (.ldN8 d x s o) := by
  have h : (0x41#8 ++ d ++ x ++ s ++ o).extractLsb' 24 8 = 0x41#8 := by
    simp (disch := decide) only [Nat.reduceSub, extract_low, extract_high, extract_all]
  refine fun _ => ⟨long_of _ h, ?_⟩
  unfold decodeFields
  rw [high_of _ h]
  change decodeGroup4 _ = _
  unfold decodeGroup4
  rw [low_of _ h]
  change some _ = some _
  simp (disch := decide) only [Nat.reduceSub, extract_low, extract_high, extract_all]

theorem ldI16 (d x s o) : Statement (.ldI16 d x s o) := by
  have h : (0x42#8 ++ d ++ x ++ s ++ o).extractLsb' 24 8 = 0x42#8 := by
    simp (disch := decide) only [Nat.reduceSub, extract_low, extract_high, extract_all]
  refine fun _ => ⟨long_of _ h, ?_⟩
  unfold decodeFields
  rw [high_of _ h]
  change decodeGroup4 _ = _
  unfold decodeGroup4
  rw [low_of _ h]
  change some _ = some _
  simp (disch := decide) only [Nat.reduceSub, extract_low, extract_high, extract_all]

theorem ldN16 (d x s o) : Statement (.ldN16 d x s o) := by
  have h : (0x43#8 ++ d ++ x ++ s ++ o).extractLsb' 24 8 = 0x43#8 := by
    simp (disch := decide) only [Nat.reduceSub, extract_low, extract_high, extract_all]
  refine fun _ => ⟨long_of _ h, ?_⟩
  unfold decodeFields
  rw [high_of _ h]
  change decodeGroup4 _ = _
  unfold decodeGroup4
  rw [low_of _ h]
  change some _ = some _
  simp (disch := decide) only [Nat.reduceSub, extract_low, extract_high, extract_all]

theorem ldI32 (d x s o) : Statement (.ldI32 d x s o) := by
  have h : (0x44#8 ++ d ++ x ++ s ++ o).extractLsb' 24 8 = 0x44#8 := by
    simp (disch := decide) only [Nat.reduceSub, extract_low, extract_high, extract_all]
  refine fun _ => ⟨long_of _ h, ?_⟩
  unfold decodeFields
  rw [high_of _ h]
  change decodeGroup4 _ = _
  unfold decodeGroup4
  rw [low_of _ h]
  change some _ = some _
  simp (disch := decide) only [Nat.reduceSub, extract_low, extract_high, extract_all]

theorem ldN32 (d x s o) : Statement (.ldN32 d x s o) := by
  have h : (0x45#8 ++ d ++ x ++ s ++ o).extractLsb' 24 8 = 0x45#8 := by
    simp (disch := decide) only [Nat.reduceSub, extract_low, extract_high, extract_all]
  refine fun _ => ⟨long_of _ h, ?_⟩
  unfold decodeFields
  rw [high_of _ h]
  change decodeGroup4 _ = _
  unfold decodeGroup4
  rw [low_of _ h]
  change some _ = some _
  simp (disch := decide) only [Nat.reduceSub, extract_low, extract_high, extract_all]

theorem ld64 (d x s o) : Statement (.ld64 d x s o) := by
  have h : (0x46#8 ++ d ++ x ++ s ++ o).extractLsb' 24 8 = 0x46#8 := by
    simp (disch := decide) only [Nat.reduceSub, extract_low, extract_high, extract_all]
  refine fun _ => ⟨long_of _ h, ?_⟩
  unfold decodeFields
  rw [high_of _ h]
  change decodeGroup4 _ = _
  unfold decodeGroup4
  rw [low_of _ h]
  change some _ = some _
  simp (disch := decide) only [Nat.reduceSub, extract_low, extract_high, extract_all]

theorem ld128 (d x s o) : Statement (.ld128 d x s o) := by
  have h : (0x47#8 ++ d ++ x ++ s ++ o).extractLsb' 24 8 = 0x47#8 := by
    simp (disch := decide) only [Nat.reduceSub, extract_low, extract_high, extract_all]
  refine fun _ => ⟨long_of _ h, ?_⟩
  unfold decodeFields
  rw [high_of _ h]
  change decodeGroup4 _ = _
  unfold decodeGroup4
  rw [low_of _ h]
  change some _ = some _
  simp (disch := decide) only [Nat.reduceSub, extract_low, extract_high, extract_all]

theorem ldr64 (d x s o) : Statement (.ldr64 d x s o) := by
  have h : (0x48#8 ++ d ++ x ++ s ++ o).extractLsb' 24 8 = 0x48#8 := by
    simp (disch := decide) only [Nat.reduceSub, extract_low, extract_high, extract_all]
  refine fun _ => ⟨long_of _ h, ?_⟩
  unfold decodeFields
  rw [high_of _ h]
  change decodeGroup4 _ = _
  unfold decodeGroup4
  rw [low_of _ h]
  change some _ = some _
  simp (disch := decide) only [Nat.reduceSub, extract_low, extract_high, extract_all]

theorem ldf64 (d x s o) : Statement (.ldf64 d x s o) := by
  have h : (0x49#8 ++ d ++ x ++ s ++ o).extractLsb' 24 8 = 0x49#8 := by
    simp (disch := decide) only [Nat.reduceSub, extract_low, extract_high, extract_all]
  refine fun _ => ⟨long_of _ h, ?_⟩
  unfold decodeFields
  rw [high_of _ h]
  change decodeGroup4 _ = _
  unfold decodeGroup4
  rw [low_of _ h]
  change some _ = some _
  simp (disch := decide) only [Nat.reduceSub, extract_low, extract_high, extract_all]

theorem ldfc64 (d x s o) : Statement (.ldfc64 d x s o) := by
  have h : (0x4A#8 ++ d ++ x ++ s ++ o).extractLsb' 24 8 = 0x4A#8 := by
    simp (disch := decide) only [Nat.reduceSub, extract_low, extract_high, extract_all]
  refine fun _ => ⟨long_of _ h, ?_⟩
  unfold decodeFields
  rw [high_of _ h]
  change decodeGroup4 _ = _
  unfold decodeGroup4
  rw [low_of _ h]
  change some _ = some _
  simp (disch := decide) only [Nat.reduceSub, extract_low, extract_high, extract_all]

theorem ldfn64 (d x s o) : Statement (.ldfn64 d x s o) := by
  have h : (0x4B#8 ++ d ++ x ++ s ++ o).extractLsb' 24 8 = 0x4B#8 := by
    simp (disch := decide) only [Nat.reduceSub, extract_low, extract_high, extract_all]
  refine fun _ => ⟨long_of _ h, ?_⟩
  unfold decodeFields
  rw [high_of _ h]
  change decodeGroup4 _ = _
  unfold decodeGroup4
  rw [low_of _ h]
  change some _ = some _
  simp (disch := decide) only [Nat.reduceSub, extract_low, extract_high, extract_all]

theorem pref (x s o) : Statement (.pref x s o) := by
  have h : (0x4C#8 ++ 0x0#8 ++ x ++ s ++ o).extractLsb' 24 8 = 0x4C#8 := by
    simp (disch := decide) only [Nat.reduceSub, extract_low, extract_high, extract_all]
  refine fun _ => ⟨long_of _ h, ?_⟩
  unfold decodeFields
  rw [high_of _ h]
  change decodeGroup4 _ = _
  unfold decodeGroup4
  rw [low_of _ h]
  change some _ = some _
  simp (disch := decide) only [Nat.reduceSub, extract_low, extract_high, extract_all]

theorem st8 (d x s o) : Statement (.st8 d x s o) := by
  have h : (0x50#8 ++ d ++ x ++ s ++ o).extractLsb' 24 8 = 0x50#8 := by
    simp (disch := decide) only [Nat.reduceSub, extract_low, extract_high, extract_all]
  refine fun _ => ⟨long_of _ h, ?_⟩
  unfold decodeFields
  rw [high_of _ h]
  change decodeGroup5 _ = _
  unfold decodeGroup5
  rw [low_of _ h]
  change some _ = some _
  simp (disch := decide) only [Nat.reduceSub, extract_low, extract_high, extract_all]

theorem st16 (d x s o) : Statement (.st16 d x s o) := by
  have h : (0x51#8 ++ d ++ x ++ s ++ o).extractLsb' 24 8 = 0x51#8 := by
    simp (disch := decide) only [Nat.reduceSub, extract_low, extract_high, extract_all]
  refine fun _ => ⟨long_of _ h, ?_⟩
  unfold decodeFields
  rw [high_of _ h]
  change decodeGroup5 _ = _
  unfold decodeGroup5
  rw [low_of _ h]
  change some _ = some _
  simp (disch := decide) only [Nat.reduceSub, extract_low, extract_high, extract_all]

theorem st32 (d x s o) : Statement (.st32 d x s o) := by
  have h : (0x52#8 ++ d ++ x ++ s ++ o).extractLsb' 24 8 = 0x52#8 := by
    simp (disch := decide) only [Nat.reduceSub, extract_low, extract_high, extract_all]
  refine fun _ => ⟨long_of _ h, ?_⟩
  unfold decodeFields
  rw [high_of _ h]
  change decodeGroup5 _ = _
  unfold decodeGroup5
  rw [low_of _ h]
  change some _ = some _
  simp (disch := decide) only [Nat.reduceSub, extract_low, extract_high, extract_all]

theorem st64 (d x s o) : Statement (.st64 d x s o) := by
  have h : (0x53#8 ++ d ++ x ++ s ++ o).extractLsb' 24 8 = 0x53#8 := by
    simp (disch := decide) only [Nat.reduceSub, extract_low, extract_high, extract_all]
  refine fun _ => ⟨long_of _ h, ?_⟩
  unfold decodeFields
  rw [high_of _ h]
  change decodeGroup5 _ = _
  unfold decodeGroup5
  rw [low_of _ h]
  change some _ = some _
  simp (disch := decide) only [Nat.reduceSub, extract_low, extract_high, extract_all]

theorem st128 (d x s o) : Statement (.st128 d x s o) := by
  have h : (0x54#8 ++ d ++ x ++ s ++ o).extractLsb' 24 8 = 0x54#8 := by
    simp (disch := decide) only [Nat.reduceSub, extract_low, extract_high, extract_all]
  refine fun _ => ⟨long_of _ h, ?_⟩
  unfold decodeFields
  rw [high_of _ h]
  change decodeGroup5 _ = _
  unfold decodeGroup5
  rw [low_of _ h]
  change some _ = some _
  simp (disch := decide) only [Nat.reduceSub, extract_low, extract_high, extract_all]

theorem str64 (d x s o) : Statement (.str64 d x s o) := by
  have h : (0x55#8 ++ d ++ x ++ s ++ o).extractLsb' 24 8 = 0x55#8 := by
    simp (disch := decide) only [Nat.reduceSub, extract_low, extract_high, extract_all]
  refine fun _ => ⟨long_of _ h, ?_⟩
  unfold decodeFields
  rw [high_of _ h]
  change decodeGroup5 _ = _
  unfold decodeGroup5
  rw [low_of _ h]
  change some _ = some _
  simp (disch := decide) only [Nat.reduceSub, extract_low, extract_high, extract_all]

theorem stf64 (d x s o) : Statement (.stf64 d x s o) := by
  have h : (0x56#8 ++ d ++ x ++ s ++ o).extractLsb' 24 8 = 0x56#8 := by
    simp (disch := decide) only [Nat.reduceSub, extract_low, extract_high, extract_all]
  refine fun _ => ⟨long_of _ h, ?_⟩
  unfold decodeFields
  rw [high_of _ h]
  change decodeGroup5 _ = _
  unfold decodeGroup5
  rw [low_of _ h]
  change some _ = some _
  simp (disch := decide) only [Nat.reduceSub, extract_low, extract_high, extract_all]

theorem stef64 (d x s o) : Statement (.stef64 d x s o) := by
  have h : (0x57#8 ++ d ++ x ++ s ++ o).extractLsb' 24 8 = 0x57#8 := by
    simp (disch := decide) only [Nat.reduceSub, extract_low, extract_high, extract_all]
  refine fun _ => ⟨long_of _ h, ?_⟩
  unfold decodeFields
  rw [high_of _ h]
  change decodeGroup5 _ = _
  unfold decodeGroup5
  rw [low_of _ h]
  change some _ = some _
  simp (disch := decide) only [Nat.reduceSub, extract_low, extract_high, extract_all]

theorem clre (x s o) : Statement (.clre x s o) := by
  have h : (0x58#8 ++ 0x0#8 ++ x ++ s ++ o).extractLsb' 24 8 = 0x58#8 := by
    simp (disch := decide) only [Nat.reduceSub, extract_low, extract_high, extract_all]
  refine fun _ => ⟨long_of _ h, ?_⟩
  unfold decodeFields
  rw [high_of _ h]
  change decodeGroup5 _ = _
  unfold decodeGroup5
  rw [low_of _ h]
  change some _ = some _
  simp (disch := decide) only [Nat.reduceSub, extract_low, extract_high, extract_all]

theorem setf (x s o) : Statement (.setf x s o) := by
  have h : (0x59#8 ++ 0x0#8 ++ x ++ s ++ o).extractLsb' 24 8 = 0x59#8 := by
    simp (disch := decide) only [Nat.reduceSub, extract_low, extract_high, extract_all]
  refine fun _ => ⟨long_of _ h, ?_⟩
  unfold decodeFields
  rw [high_of _ h]
  change decodeGroup5 _ = _
  unfold decodeGroup5
  rw [low_of _ h]
  change some _ = some _
  simp (disch := decide) only [Nat.reduceSub, extract_low, extract_high, extract_all]

theorem amoAdd (d x s o) : Statement (.amoAdd d x s o) := by
  have h : (0x60#8 ++ d ++ x ++ s ++ o).extractLsb' 24 8 = 0x60#8 := by
    simp (disch := decide) only [Nat.reduceSub, extract_low, extract_high, extract_all]
  refine fun _ => ⟨long_of _ h, ?_⟩
  unfold decodeFields
  rw [high_of _ h]
  change decodeGroup6 _ = _
  unfold decodeGroup6
  rw [low_of _ h]
  change some _ = some _
  simp (disch := decide) only [Nat.reduceSub, extract_low, extract_high, extract_all]

theorem amoFadd (d x s o) : Statement (.amoFadd d x s o) := by
  have h : (0x61#8 ++ d ++ x ++ s ++ o).extractLsb' 24 8 = 0x61#8 := by
    simp (disch := decide) only [Nat.reduceSub, extract_low, extract_high, extract_all]
  refine fun _ => ⟨long_of _ h, ?_⟩
  unfold decodeFields
  rw [high_of _ h]
  change decodeGroup6 _ = _
  unfold decodeGroup6
  rw [low_of _ h]
  change some _ = some _
  simp (disch := decide) only [Nat.reduceSub, extract_low, extract_high, extract_all]

theorem amoMinI (d x s o) : Statement (.amoMinI d x s o) := by
  have h : (0x62#8 ++ d ++ x ++ s ++ o).extractLsb' 24 8 = 0x62#8 := by
    simp (disch := decide) only [Nat.reduceSub, extract_low, extract_high, extract_all]
  refine fun _ => ⟨long_of _ h, ?_⟩
  unfold decodeFields
  rw [high_of _ h]
  change decodeGroup6 _ = _
  unfold decodeGroup6
  rw [low_of _ h]
  change some _ = some _
  simp (disch := decide) only [Nat.reduceSub, extract_low, extract_high, extract_all]

theorem amoMaxI (d x s o) : Statement (.amoMaxI d x s o) := by
  have h : (0x63#8 ++ d ++ x ++ s ++ o).extractLsb' 24 8 = 0x63#8 := by
    simp (disch := decide) only [Nat.reduceSub, extract_low, extract_high, extract_all]
  refine fun _ => ⟨long_of _ h, ?_⟩
  unfold decodeFields
  rw [high_of _ h]
  change decodeGroup6 _ = _
  unfold decodeGroup6
  rw [low_of _ h]
  change some _ = some _
  simp (disch := decide) only [Nat.reduceSub, extract_low, extract_high, extract_all]

theorem amoMinN (d x s o) : Statement (.amoMinN d x s o) := by
  have h : (0x64#8 ++ d ++ x ++ s ++ o).extractLsb' 24 8 = 0x64#8 := by
    simp (disch := decide) only [Nat.reduceSub, extract_low, extract_high, extract_all]
  refine fun _ => ⟨long_of _ h, ?_⟩
  unfold decodeFields
  rw [high_of _ h]
  change decodeGroup6 _ = _
  unfold decodeGroup6
  rw [low_of _ h]
  change some _ = some _
  simp (disch := decide) only [Nat.reduceSub, extract_low, extract_high, extract_all]

theorem amoMaxN (d x s o) : Statement (.amoMaxN d x s o) := by
  have h : (0x65#8 ++ d ++ x ++ s ++ o).extractLsb' 24 8 = 0x65#8 := by
    simp (disch := decide) only [Nat.reduceSub, extract_low, extract_high, extract_all]
  refine fun _ => ⟨long_of _ h, ?_⟩
  unfold decodeFields
  rw [high_of _ h]
  change decodeGroup6 _ = _
  unfold decodeGroup6
  rw [low_of _ h]
  change some _ = some _
  simp (disch := decide) only [Nat.reduceSub, extract_low, extract_high, extract_all]

theorem amoAnd (d x s o) : Statement (.amoAnd d x s o) := by
  have h : (0x66#8 ++ d ++ x ++ s ++ o).extractLsb' 24 8 = 0x66#8 := by
    simp (disch := decide) only [Nat.reduceSub, extract_low, extract_high, extract_all]
  refine fun _ => ⟨long_of _ h, ?_⟩
  unfold decodeFields
  rw [high_of _ h]
  change decodeGroup6 _ = _
  unfold decodeGroup6
  rw [low_of _ h]
  change some _ = some _
  simp (disch := decide) only [Nat.reduceSub, extract_low, extract_high, extract_all]

theorem amoOr (d x s o) : Statement (.amoOr d x s o) := by
  have h : (0x67#8 ++ d ++ x ++ s ++ o).extractLsb' 24 8 = 0x67#8 := by
    simp (disch := decide) only [Nat.reduceSub, extract_low, extract_high, extract_all]
  refine fun _ => ⟨long_of _ h, ?_⟩
  unfold decodeFields
  rw [high_of _ h]
  change decodeGroup6 _ = _
  unfold decodeGroup6
  rw [low_of _ h]
  change some _ = some _
  simp (disch := decide) only [Nat.reduceSub, extract_low, extract_high, extract_all]

theorem amoXor (d x s o) : Statement (.amoXor d x s o) := by
  have h : (0x68#8 ++ d ++ x ++ s ++ o).extractLsb' 24 8 = 0x68#8 := by
    simp (disch := decide) only [Nat.reduceSub, extract_low, extract_high, extract_all]
  refine fun _ => ⟨long_of _ h, ?_⟩
  unfold decodeFields
  rw [high_of _ h]
  change decodeGroup6 _ = _
  unfold decodeGroup6
  rw [low_of _ h]
  change some _ = some _
  simp (disch := decide) only [Nat.reduceSub, extract_low, extract_high, extract_all]

theorem famoAdd (d x s o) : Statement (.famoAdd d x s o) := by
  have h : (0x69#8 ++ d ++ x ++ s ++ o).extractLsb' 24 8 = 0x69#8 := by
    simp (disch := decide) only [Nat.reduceSub, extract_low, extract_high, extract_all]
  refine fun _ => ⟨long_of _ h, ?_⟩
  unfold decodeFields
  rw [high_of _ h]
  change decodeGroup6 _ = _
  unfold decodeGroup6
  rw [low_of _ h]
  change some _ = some _
  simp (disch := decide) only [Nat.reduceSub, extract_low, extract_high, extract_all]

theorem famoFadd (d x s o) : Statement (.famoFadd d x s o) := by
  have h : (0x6A#8 ++ d ++ x ++ s ++ o).extractLsb' 24 8 = 0x6A#8 := by
    simp (disch := decide) only [Nat.reduceSub, extract_low, extract_high, extract_all]
  refine fun _ => ⟨long_of _ h, ?_⟩
  unfold decodeFields
  rw [high_of _ h]
  change decodeGroup6 _ = _
  unfold decodeGroup6
  rw [low_of _ h]
  change some _ = some _
  simp (disch := decide) only [Nat.reduceSub, extract_low, extract_high, extract_all]

theorem famoOr (d x s o) : Statement (.famoOr d x s o) := by
  have h : (0x6B#8 ++ d ++ x ++ s ++ o).extractLsb' 24 8 = 0x6B#8 := by
    simp (disch := decide) only [Nat.reduceSub, extract_low, extract_high, extract_all]
  refine fun _ => ⟨long_of _ h, ?_⟩
  unfold decodeFields
  rw [high_of _ h]
  change decodeGroup6 _ = _
  unfold decodeGroup6
  rw [low_of _ h]
  change some _ = some _
  simp (disch := decide) only [Nat.reduceSub, extract_low, extract_high, extract_all]

theorem famoSwap (d x s o) : Statement (.famoSwap d x s o) := by
  have h : (0x6C#8 ++ d ++ x ++ s ++ o).extractLsb' 24 8 = 0x6C#8 := by
    simp (disch := decide) only [Nat.reduceSub, extract_low, extract_high, extract_all]
  refine fun _ => ⟨long_of _ h, ?_⟩
  unfold decodeFields
  rw [high_of _ h]
  change decodeGroup6 _ = _
  unfold decodeGroup6
  rw [low_of _ h]
  change some _ = some _
  simp (disch := decide) only [Nat.reduceSub, extract_low, extract_high, extract_all]

theorem famoCas (d x s o) : Statement (.famoCas d x s o) := by
  have h : (0x6D#8 ++ d ++ x ++ s ++ o).extractLsb' 24 8 = 0x6D#8 := by
    simp (disch := decide) only [Nat.reduceSub, extract_low, extract_high, extract_all]
  refine fun _ => ⟨long_of _ h, ?_⟩
  unfold decodeFields
  rw [high_of _ h]
  change decodeGroup6 _ = _
  unfold decodeGroup6
  rw [low_of _ h]
  change some _ = some _
  simp (disch := decide) only [Nat.reduceSub, extract_low, extract_high, extract_all]

theorem fenceAcq (s) : Statement (.fenceAcq s) := by
  have h : (0x70#8 ++ 0x2#21 ++ s).extractLsb' 24 8 = 0x70#8 := by
    simp (disch := decide) only [Nat.reduceSub, extract_low, extract_high, extract_all]
  refine fun _ => ⟨long_of _ h, ?_⟩
  unfold decodeFields
  rw [high_of _ h]
  change decodeGroup7 _ = _
  unfold decodeGroup7
  rw [low_of _ h]
  have h2 : (0x70#8 ++ 0x2#21 ++ s).extractLsb' 4 2 = 1#2 := by
    simp (disch := decide) only [Nat.reduceSub, extract_low, extract_high, extract_all]
    rfl
  rw [h2]
  change some _ = some _
  simp (disch := decide) only [Nat.reduceSub, extract_low, extract_high, extract_all]

theorem fenceRel (s) : Statement (.fenceRel s) := by
  have h : (0x70#8 ++ 0x4#21 ++ s).extractLsb' 24 8 = 0x70#8 := by
    simp (disch := decide) only [Nat.reduceSub, extract_low, extract_high, extract_all]
  refine fun _ => ⟨long_of _ h, ?_⟩
  unfold decodeFields
  rw [high_of _ h]
  change decodeGroup7 _ = _
  unfold decodeGroup7
  rw [low_of _ h]
  have h2 : (0x70#8 ++ 0x4#21 ++ s).extractLsb' 4 2 = 2#2 := by
    simp (disch := decide) only [Nat.reduceSub, extract_low, extract_high, extract_all]
    rfl
  rw [h2]
  change some _ = some _
  simp (disch := decide) only [Nat.reduceSub, extract_low, extract_high, extract_all]

theorem fenceAr (s) : Statement (.fenceAr s) := by
  have h : (0x70#8 ++ 0x6#21 ++ s).extractLsb' 24 8 = 0x70#8 := by
    simp (disch := decide) only [Nat.reduceSub, extract_low, extract_high, extract_all]
  refine fun _ => ⟨long_of _ h, ?_⟩
  unfold decodeFields
  rw [high_of _ h]
  change decodeGroup7 _ = _
  unfold decodeGroup7
  rw [low_of _ h]
  have h2 : (0x70#8 ++ 0x6#21 ++ s).extractLsb' 4 2 = 3#2 := by
    simp (disch := decide) only [Nat.reduceSub, extract_low, extract_high, extract_all]
    rfl
  rw [h2]
  change some _ = some _
  simp (disch := decide) only [Nat.reduceSub, extract_low, extract_high, extract_all]

theorem barArr : Statement (.barArr) := by
  have h : (0x71#8 ++ 0x0#24).extractLsb' 24 8 = 0x71#8 := by
    simp (disch := decide) only [Nat.reduceSub, extract_low, extract_high, extract_all]
  refine fun _ => ⟨long_of _ h, ?_⟩
  unfold decodeFields
  rw [high_of _ h]
  change decodeGroup7 _ = _
  unfold decodeGroup7
  rw [low_of _ h]
  change some _ = some _
  simp (disch := decide) only [Nat.reduceSub, extract_low, extract_high, extract_all]

theorem barWait : Statement (.barWait) := by
  have h : (0x72#8 ++ 0x0#24).extractLsb' 24 8 = 0x72#8 := by
    simp (disch := decide) only [Nat.reduceSub, extract_low, extract_high, extract_all]
  refine fun _ => ⟨long_of _ h, ?_⟩
  unfold decodeFields
  rw [high_of _ h]
  change decodeGroup7 _ = _
  unfold decodeGroup7
  rw [low_of _ h]
  change some _ = some _
  simp (disch := decide) only [Nat.reduceSub, extract_low, extract_high, extract_all]

theorem barSync : Statement (.barSync) := by
  have h : (0x73#8 ++ 0x0#24).extractLsb' 24 8 = 0x73#8 := by
    simp (disch := decide) only [Nat.reduceSub, extract_low, extract_high, extract_all]
  refine fun _ => ⟨long_of _ h, ?_⟩
  unfold decodeFields
  rw [high_of _ h]
  change decodeGroup7 _ = _
  unfold decodeGroup7
  rw [low_of _ h]
  change some _ = some _
  simp (disch := decide) only [Nat.reduceSub, extract_low, extract_high, extract_all]

theorem monArm (x s o) : Statement (.monArm x s o) := by
  have h : (0x74#8 ++ 0x0#8 ++ x ++ s ++ o).extractLsb' 24 8 = 0x74#8 := by
    simp (disch := decide) only [Nat.reduceSub, extract_low, extract_high, extract_all]
  refine fun _ => ⟨long_of _ h, ?_⟩
  unfold decodeFields
  rw [high_of _ h]
  change decodeGroup7 _ = _
  unfold decodeGroup7
  rw [low_of _ h]
  change some _ = some _
  simp (disch := decide) only [Nat.reduceSub, extract_low, extract_high, extract_all]

theorem monWait : Statement (.monWait) := by
  have h : (0x75#8 ++ 0x0#24).extractLsb' 24 8 = 0x75#8 := by
    simp (disch := decide) only [Nat.reduceSub, extract_low, extract_high, extract_all]
  refine fun _ => ⟨long_of _ h, ?_⟩
  unfold decodeFields
  rw [high_of _ h]
  change decodeGroup7 _ = _
  unfold decodeGroup7
  rw [low_of _ h]
  change some _ = some _
  simp (disch := decide) only [Nat.reduceSub, extract_low, extract_high, extract_all]

theorem monClr : Statement (.monClr) := by
  have h : (0x76#8 ++ 0x0#24).extractLsb' 24 8 = 0x76#8 := by
    simp (disch := decide) only [Nat.reduceSub, extract_low, extract_high, extract_all]
  refine fun _ => ⟨long_of _ h, ?_⟩
  unfold decodeFields
  rw [high_of _ h]
  change decodeGroup7 _ = _
  unfold decodeGroup7
  rw [low_of _ h]
  change some _ = some _
  simp (disch := decide) only [Nat.reduceSub, extract_low, extract_high, extract_all]

theorem waitR : Statement (.waitR) := by
  have h : (0x77#8 ++ 0x0#24).extractLsb' 24 8 = 0x77#8 := by
    simp (disch := decide) only [Nat.reduceSub, extract_low, extract_high, extract_all]
  refine fun _ => ⟨long_of _ h, ?_⟩
  unfold decodeFields
  rw [high_of _ h]
  change decodeGroup7 _ = _
  unfold decodeGroup7
  rw [low_of _ h]
  change some _ = some _
  simp (disch := decide) only [Nat.reduceSub, extract_low, extract_high, extract_all]

theorem inv (d x s o) : Statement (.inv d x s o) := by
  have h : (0x78#8 ++ d ++ x ++ s ++ o).extractLsb' 24 8 = 0x78#8 := by
    simp (disch := decide) only [Nat.reduceSub, extract_low, extract_high, extract_all]
  refine fun _ => ⟨long_of _ h, ?_⟩
  unfold decodeFields
  rw [high_of _ h]
  change decodeGroup7 _ = _
  unfold decodeGroup7
  rw [low_of _ h]
  change some _ = some _
  simp (disch := decide) only [Nat.reduceSub, extract_low, extract_high, extract_all]

theorem wb (d x s o) : Statement (.wb d x s o) := by
  have h : (0x79#8 ++ d ++ x ++ s ++ o).extractLsb' 24 8 = 0x79#8 := by
    simp (disch := decide) only [Nat.reduceSub, extract_low, extract_high, extract_all]
  refine fun _ => ⟨long_of _ h, ?_⟩
  unfold decodeFields
  rw [high_of _ h]
  change decodeGroup7 _ = _
  unfold decodeGroup7
  rw [low_of _ h]
  change some _ = some _
  simp (disch := decide) only [Nat.reduceSub, extract_low, extract_high, extract_all]

theorem start (d a n) : Statement (.start d a n) := by
  have h : (0x80#8 ++ d ++ a ++ n).extractLsb' 24 8 = 0x80#8 := by
    simp (disch := decide) only [Nat.reduceSub, extract_low, extract_high, extract_all]
  refine fun _ => ⟨long_of _ h, ?_⟩
  unfold decodeFields
  rw [high_of _ h]
  change decodeGroup8 _ = _
  unfold decodeGroup8
  rw [low_of _ h]
  change some _ = some _
  simp (disch := decide) only [Nat.reduceSub, extract_low, extract_high, extract_all]

theorem join (n) : Statement (.join n) := by
  have h : (0x81#8 ++ 0x0#16 ++ n).extractLsb' 24 8 = 0x81#8 := by
    simp (disch := decide) only [Nat.reduceSub, extract_low, extract_high, extract_all]
  refine fun _ => ⟨long_of _ h, ?_⟩
  unfold decodeFields
  rw [high_of _ h]
  change decodeGroup8 _ = _
  unfold decodeGroup8
  rw [low_of _ h]
  change some _ = some _
  simp (disch := decide) only [Nat.reduceSub, extract_low, extract_high, extract_all]

theorem endStrand : Statement (.endStrand) := by
  have h : (0x82#8 ++ 0x0#24).extractLsb' 24 8 = 0x82#8 := by
    simp (disch := decide) only [Nat.reduceSub, extract_low, extract_high, extract_all]
  refine fun _ => ⟨long_of _ h, ?_⟩
  unfold decodeFields
  rw [high_of _ h]
  change decodeGroup8 _ = _
  unfold decodeGroup8
  rw [low_of _ h]
  change some _ = some _
  simp (disch := decide) only [Nat.reduceSub, extract_low, extract_high, extract_all]

theorem halt : Statement (.halt) := by
  have h : (0x83#8 ++ 0x0#24).extractLsb' 24 8 = 0x83#8 := by
    simp (disch := decide) only [Nat.reduceSub, extract_low, extract_high, extract_all]
  refine fun _ => ⟨long_of _ h, ?_⟩
  unfold decodeFields
  rw [high_of _ h]
  change decodeGroup8 _ = _
  unfold decodeGroup8
  rw [low_of _ h]
  change some _ = some _
  simp (disch := decide) only [Nat.reduceSub, extract_low, extract_high, extract_all]

theorem idget (d i) : Statement (.idget d i) := by
  have h : (0x84#8 ++ d ++ 0x0#8 ++ i).extractLsb' 24 8 = 0x84#8 := by
    simp (disch := decide) only [Nat.reduceSub, extract_low, extract_high, extract_all]
  refine fun _ => ⟨long_of _ h, ?_⟩
  unfold decodeFields
  rw [high_of _ h]
  change decodeGroup8 _ = _
  unfold decodeGroup8
  rw [low_of _ h]
  change some _ = some _
  simp (disch := decide) only [Nat.reduceSub, extract_low, extract_high, extract_all]

theorem acqW (a k b) : Statement (.acqW a k b) := by
  have h : (0x85#8 ++ 0x0#8 ++ a ++ k ++ 0x0#4 ++ b).extractLsb' 24 8 = 0x85#8 := by
    simp (disch := decide) only [Nat.reduceSub, extract_low, extract_high, extract_all]
  refine fun _ => ⟨long_of _ h, ?_⟩
  unfold decodeFields
  rw [high_of _ h]
  change decodeGroup8 _ = _
  unfold decodeGroup8
  rw [low_of _ h]
  change some _ = some _
  simp (disch := decide) only [Nat.reduceSub, extract_low, extract_high, extract_all]

theorem acqF (d a k b) : Statement (.acqF d a k b) := by
  have h : (0x86#8 ++ d ++ a ++ k ++ 0x0#4 ++ b).extractLsb' 24 8 = 0x86#8 := by
    simp (disch := decide) only [Nat.reduceSub, extract_low, extract_high, extract_all]
  refine fun _ => ⟨long_of _ h, ?_⟩
  unfold decodeFields
  rw [high_of _ h]
  change decodeGroup8 _ = _
  unfold decodeGroup8
  rw [low_of _ h]
  change some _ = some _
  simp (disch := decide) only [Nat.reduceSub, extract_low, extract_high, extract_all]

theorem rel (a k b) : Statement (.rel a k b) := by
  have h : (0x87#8 ++ 0x0#8 ++ a ++ k ++ 0x0#4 ++ b).extractLsb' 24 8 = 0x87#8 := by
    simp (disch := decide) only [Nat.reduceSub, extract_low, extract_high, extract_all]
  refine fun hwf => ⟨long_of _ h, ?_⟩
  unfold decodeFields
  rw [high_of _ h]
  change decodeGroup8 _ = _
  unfold decodeGroup8
  rw [low_of _ h]
  have h2 : (0x87#8 ++ 0x0#8 ++ a ++ k ++ 0x0#4 ++ b).extractLsb' 6 2 = k := by
    simp (disch := decide) only [Nat.reduceSub, extract_low, extract_high, extract_all]
  have h3 : k ≠ 3 := by
    intro hk
    simp [Instr.wf, poolOk, hk] at hwf
  change (if _ then _ else _) = _
  rw [h2, if_neg h3]
  simp (disch := decide) only [Nat.reduceSub, extract_low, extract_high, extract_all]

theorem relAll : Statement (.relAll) := by
  have h : (0x87#8 ++ 0xC0#24).extractLsb' 24 8 = 0x87#8 := by
    simp (disch := decide) only [Nat.reduceSub, extract_low, extract_high, extract_all]
  refine fun _ => ⟨long_of _ h, ?_⟩
  unfold decodeFields
  rw [high_of _ h]
  change decodeGroup8 _ = _
  unfold decodeGroup8
  rw [low_of _ h]
  change some _ = some _
  simp (disch := decide) only [Nat.reduceSub, extract_low, extract_high, extract_all]

theorem claimqHeld (d a k b) : Statement (.claimqHeld d a k b) := by
  have h : (0x88#8 ++ d ++ a ++ k ++ 0x0#4 ++ b).extractLsb' 24 8 = 0x88#8 := by
    simp (disch := decide) only [Nat.reduceSub, extract_low, extract_high, extract_all]
  refine fun _ => ⟨long_of _ h, ?_⟩
  unfold decodeFields
  rw [high_of _ h]
  change decodeGroup8 _ = _
  unfold decodeGroup8
  rw [low_of _ h]
  have h2 : (0x88#8 ++ d ++ a ++ k ++ 0x0#4 ++ b).extractLsb' 4 2 = 0#2 := by
    simp (disch := decide) only [Nat.reduceSub, extract_low, extract_high]
    rfl
  rw [h2]
  change some _ = some _
  simp (disch := decide) only [Nat.reduceSub, extract_low, extract_high, extract_all]

theorem claimqRem (d a k b) : Statement (.claimqRem d a k b) := by
  have h : (0x88#8 ++ d ++ a ++ k ++ 0x4#4 ++ b).extractLsb' 24 8 = 0x88#8 := by
    simp (disch := decide) only [Nat.reduceSub, extract_low, extract_high, extract_all]
  refine fun _ => ⟨long_of _ h, ?_⟩
  unfold decodeFields
  rw [high_of _ h]
  change decodeGroup8 _ = _
  unfold decodeGroup8
  rw [low_of _ h]
  have h2 : (0x88#8 ++ d ++ a ++ k ++ 0x4#4 ++ b).extractLsb' 4 2 = 1#2 := by
    simp (disch := decide) only [Nat.reduceSub, extract_low, extract_high]
    rfl
  rw [h2]
  change some _ = some _
  simp (disch := decide) only [Nat.reduceSub, extract_low, extract_high, extract_all]

theorem claimqFree (d a k b) : Statement (.claimqFree d a k b) := by
  have h : (0x88#8 ++ d ++ a ++ k ++ 0x8#4 ++ b).extractLsb' 24 8 = 0x88#8 := by
    simp (disch := decide) only [Nat.reduceSub, extract_low, extract_high, extract_all]
  refine fun _ => ⟨long_of _ h, ?_⟩
  unfold decodeFields
  rw [high_of _ h]
  change decodeGroup8 _ = _
  unfold decodeGroup8
  rw [low_of _ h]
  have h2 : (0x88#8 ++ d ++ a ++ k ++ 0x8#4 ++ b).extractLsb' 4 2 = 2#2 := by
    simp (disch := decide) only [Nat.reduceSub, extract_low, extract_high]
    rfl
  rw [h2]
  change some _ = some _
  simp (disch := decide) only [Nat.reduceSub, extract_low, extract_high, extract_all]

theorem claimqGran (d a b) : Statement (.claimqGran d a b) := by
  have h : (0x88#8 ++ d ++ a ++ 0x1C#6 ++ b).extractLsb' 24 8 = 0x88#8 := by
    simp (disch := decide) only [Nat.reduceSub, extract_low, extract_high, extract_all]
  refine fun _ => ⟨long_of _ h, ?_⟩
  unfold decodeFields
  rw [high_of _ h]
  change decodeGroup8 _ = _
  unfold decodeGroup8
  rw [low_of _ h]
  have h2 : (0x88#8 ++ d ++ a ++ 0x1C#6 ++ b).extractLsb' 4 2 = 3#2 := by
    simp (disch := decide) only [Nat.reduceSub, extract_low, extract_high]
    rfl
  rw [h2]
  change some _ = some _
  simp (disch := decide) only [Nat.reduceSub, extract_low, extract_high, extract_all]

theorem launch (d a) : Statement (.launch d a) := by
  have h : (0x89#8 ++ d ++ a ++ 0x0#8).extractLsb' 24 8 = 0x89#8 := by
    simp (disch := decide) only [Nat.reduceSub, extract_low, extract_high, extract_all]
  refine fun _ => ⟨long_of _ h, ?_⟩
  unfold decodeFields
  rw [high_of _ h]
  change decodeGroup8 _ = _
  unfold decodeGroup8
  rw [low_of _ h]
  change some _ = some _
  simp (disch := decide) only [Nat.reduceSub, extract_low, extract_high, extract_all]

theorem ckpt (e) : Statement (.ckpt e) := by
  have h : (0x8A#8 ++ 0x0#8 ++ e).extractLsb' 24 8 = 0x8A#8 := by
    simp (disch := decide) only [Nat.reduceSub, extract_low, extract_high, extract_all]
  refine fun _ => ⟨long_of _ h, ?_⟩
  unfold decodeFields
  rw [high_of _ h]
  change decodeGroup8 _ = _
  unfold decodeGroup8
  rw [low_of _ h]
  change some _ = some _
  simp (disch := decide) only [Nat.reduceSub, extract_low, extract_high, extract_all]

theorem ctrAdd (a b) : Statement (.ctrAdd a b) := by
  have h : (0x90#8 ++ 0x0#8 ++ a ++ b).extractLsb' 24 8 = 0x90#8 := by
    simp (disch := decide) only [Nat.reduceSub, extract_low, extract_high, extract_all]
  refine fun _ => ⟨long_of _ h, ?_⟩
  unfold decodeFields
  rw [high_of _ h]
  change decodeGroup9 _ = _
  unfold decodeGroup9
  rw [low_of _ h]
  change some _ = some _
  simp (disch := decide) only [Nat.reduceSub, extract_low, extract_high, extract_all]

theorem ctrSet (a b) : Statement (.ctrSet a b) := by
  have h : (0x91#8 ++ 0x0#8 ++ a ++ b).extractLsb' 24 8 = 0x91#8 := by
    simp (disch := decide) only [Nat.reduceSub, extract_low, extract_high, extract_all]
  refine fun _ => ⟨long_of _ h, ?_⟩
  unfold decodeFields
  rw [high_of _ h]
  change decodeGroup9 _ = _
  unfold decodeGroup9
  rw [low_of _ h]
  change some _ = some _
  simp (disch := decide) only [Nat.reduceSub, extract_low, extract_high, extract_all]

theorem ctrRead (d a) : Statement (.ctrRead d a) := by
  have h : (0x92#8 ++ d ++ a ++ 0x0#8).extractLsb' 24 8 = 0x92#8 := by
    simp (disch := decide) only [Nat.reduceSub, extract_low, extract_high, extract_all]
  refine fun _ => ⟨long_of _ h, ?_⟩
  unfold decodeFields
  rw [high_of _ h]
  change decodeGroup9 _ = _
  unfold decodeGroup9
  rw [low_of _ h]
  change some _ = some _
  simp (disch := decide) only [Nat.reduceSub, extract_low, extract_high, extract_all]

theorem ctrWait (a b) : Statement (.ctrWait a b) := by
  have h : (0x93#8 ++ 0x0#8 ++ a ++ b).extractLsb' 24 8 = 0x93#8 := by
    simp (disch := decide) only [Nat.reduceSub, extract_low, extract_high, extract_all]
  refine fun _ => ⟨long_of _ h, ?_⟩
  unfold decodeFields
  rw [high_of _ h]
  change decodeGroup9 _ = _
  unfold decodeGroup9
  rw [low_of _ h]
  change some _ = some _
  simp (disch := decide) only [Nat.reduceSub, extract_low, extract_high, extract_all]

theorem ctrAddr (a b) : Statement (.ctrAddr a b) := by
  have h : (0x94#8 ++ 0x0#8 ++ a ++ b).extractLsb' 24 8 = 0x94#8 := by
    simp (disch := decide) only [Nat.reduceSub, extract_low, extract_high, extract_all]
  refine fun _ => ⟨long_of _ h, ?_⟩
  unfold decodeFields
  rw [high_of _ h]
  change decodeGroup9 _ = _
  unfold decodeGroup9
  rw [low_of _ h]
  change some _ = some _
  simp (disch := decide) only [Nat.reduceSub, extract_low, extract_high, extract_all]

theorem trigPost (d a b) : Statement (.trigPost d a b) := by
  have h : (0x95#8 ++ d ++ a ++ b).extractLsb' 24 8 = 0x95#8 := by
    simp (disch := decide) only [Nat.reduceSub, extract_low, extract_high, extract_all]
  refine fun _ => ⟨long_of _ h, ?_⟩
  unfold decodeFields
  rw [high_of _ h]
  change decodeGroup9 _ = _
  unfold decodeGroup9
  rw [low_of _ h]
  change some _ = some _
  simp (disch := decide) only [Nat.reduceSub, extract_low, extract_high, extract_all]

theorem trigCancel (d a) : Statement (.trigCancel d a) := by
  have h : (0x96#8 ++ d ++ a ++ 0x0#8).extractLsb' 24 8 = 0x96#8 := by
    simp (disch := decide) only [Nat.reduceSub, extract_low, extract_high, extract_all]
  refine fun _ => ⟨long_of _ h, ?_⟩
  unfold decodeFields
  rw [high_of _ h]
  change decodeGroup9 _ = _
  unfold decodeGroup9
  rw [low_of _ h]
  change some _ = some _
  simp (disch := decide) only [Nat.reduceSub, extract_low, extract_high, extract_all]

theorem trigQuery (d a b) : Statement (.trigQuery d a b) := by
  have h : (0x97#8 ++ d ++ a ++ b).extractLsb' 24 8 = 0x97#8 := by
    simp (disch := decide) only [Nat.reduceSub, extract_low, extract_high, extract_all]
  refine fun _ => ⟨long_of _ h, ?_⟩
  unfold decodeFields
  rw [high_of _ h]
  change decodeGroup9 _ = _
  unfold decodeGroup9
  rw [low_of _ h]
  change some _ = some _
  simp (disch := decide) only [Nat.reduceSub, extract_low, extract_high, extract_all]

theorem collArm (d a) : Statement (.collArm d a) := by
  have h : (0x98#8 ++ d ++ a ++ 0x0#8).extractLsb' 24 8 = 0x98#8 := by
    simp (disch := decide) only [Nat.reduceSub, extract_low, extract_high, extract_all]
  refine fun _ => ⟨long_of _ h, ?_⟩
  unfold decodeFields
  rw [high_of _ h]
  change decodeGroup9 _ = _
  unfold decodeGroup9
  rw [low_of _ h]
  change some _ = some _
  simp (disch := decide) only [Nat.reduceSub, extract_low, extract_high, extract_all]

theorem collPut (d a b) : Statement (.collPut d a b) := by
  have h : (0x99#8 ++ d ++ a ++ b).extractLsb' 24 8 = 0x99#8 := by
    simp (disch := decide) only [Nat.reduceSub, extract_low, extract_high, extract_all]
  refine fun _ => ⟨long_of _ h, ?_⟩
  unfold decodeFields
  rw [high_of _ h]
  change decodeGroup9 _ = _
  unfold decodeGroup9
  rw [low_of _ h]
  change some _ = some _
  simp (disch := decide) only [Nat.reduceSub, extract_low, extract_high, extract_all]

theorem collGetr (d a) : Statement (.collGetr d a) := by
  have h : (0x9A#8 ++ d ++ a ++ 0x0#8).extractLsb' 24 8 = 0x9A#8 := by
    simp (disch := decide) only [Nat.reduceSub, extract_low, extract_high, extract_all]
  refine fun _ => ⟨long_of _ h, ?_⟩
  unfold decodeFields
  rw [high_of _ h]
  change decodeGroup9 _ = _
  unfold decodeGroup9
  rw [low_of _ h]
  change some _ = some _
  simp (disch := decide) only [Nat.reduceSub, extract_low, extract_high, extract_all]

theorem nqSend (a b) : Statement (.nqSend a b) := by
  have h : (0x9B#8 ++ 0x0#8 ++ a ++ b).extractLsb' 24 8 = 0x9B#8 := by
    simp (disch := decide) only [Nat.reduceSub, extract_low, extract_high, extract_all]
  refine fun _ => ⟨long_of _ h, ?_⟩
  unfold decodeFields
  rw [high_of _ h]
  change decodeGroup9 _ = _
  unfold decodeGroup9
  rw [low_of _ h]
  change some _ = some _
  simp (disch := decide) only [Nat.reduceSub, extract_low, extract_high, extract_all]

theorem nqRecv (d a) : Statement (.nqRecv d a) := by
  have h : (0x9C#8 ++ d ++ a ++ 0x0#8).extractLsb' 24 8 = 0x9C#8 := by
    simp (disch := decide) only [Nat.reduceSub, extract_low, extract_high, extract_all]
  refine fun _ => ⟨long_of _ h, ?_⟩
  unfold decodeFields
  rw [high_of _ h]
  change decodeGroup9 _ = _
  unfold decodeGroup9
  rw [low_of _ h]
  change some _ = some _
  simp (disch := decide) only [Nat.reduceSub, extract_low, extract_high, extract_all]

theorem cpost (a b) : Statement (.cpost a b) := by
  have h : (0xA0#8 ++ 0x0#8 ++ a ++ b).extractLsb' 24 8 = 0xA0#8 := by
    simp (disch := decide) only [Nat.reduceSub, extract_low, extract_high, extract_all]
  refine fun _ => ⟨long_of _ h, ?_⟩
  unfold decodeFields
  rw [high_of _ h]
  change decodeGroupA _ = _
  unfold decodeGroupA
  rw [low_of _ h]
  change some _ = some _
  simp (disch := decide) only [Nat.reduceSub, extract_low, extract_high, extract_all]

theorem cquery (d a) : Statement (.cquery d a) := by
  have h : (0xA1#8 ++ d ++ a ++ 0x0#8).extractLsb' 24 8 = 0xA1#8 := by
    simp (disch := decide) only [Nat.reduceSub, extract_low, extract_high, extract_all]
  refine fun _ => ⟨long_of _ h, ?_⟩
  unfold decodeFields
  rw [high_of _ h]
  change decodeGroupA _ = _
  unfold decodeGroupA
  rw [low_of _ h]
  change some _ = some _
  simp (disch := decide) only [Nat.reduceSub, extract_low, extract_high, extract_all]

theorem ccancel (a) : Statement (.ccancel a) := by
  have h : (0xA2#8 ++ 0x0#8 ++ a ++ 0x0#8).extractLsb' 24 8 = 0xA2#8 := by
    simp (disch := decide) only [Nat.reduceSub, extract_low, extract_high, extract_all]
  refine fun _ => ⟨long_of _ h, ?_⟩
  unfold decodeFields
  rw [high_of _ h]
  change decodeGroupA _ = _
  unfold decodeGroupA
  rw [low_of _ h]
  change some _ = some _
  simp (disch := decide) only [Nat.reduceSub, extract_low, extract_high, extract_all]

theorem lset (a n) : Statement (.lset a n) := by
  have h : (0xA3#8 ++ 0x0#8 ++ a ++ 0x0#5 ++ n).extractLsb' 24 8 = 0xA3#8 := by
    simp (disch := decide) only [Nat.reduceSub, extract_low, extract_high, extract_all]
  refine fun _ => ⟨long_of _ h, ?_⟩
  unfold decodeFields
  rw [high_of _ h]
  change decodeGroupA _ = _
  unfold decodeGroupA
  rw [low_of _ h]
  change some _ = some _
  simp (disch := decide) only [Nat.reduceSub, extract_low, extract_high, extract_all]

theorem lget (d n) : Statement (.lget d n) := by
  have h : (0xA4#8 ++ d ++ 0x0#13 ++ n).extractLsb' 24 8 = 0xA4#8 := by
    simp (disch := decide) only [Nat.reduceSub, extract_low, extract_high, extract_all]
  refine fun _ => ⟨long_of _ h, ?_⟩
  unfold decodeFields
  rw [high_of _ h]
  change decodeGroupA _ = _
  unfold decodeGroupA
  rw [low_of _ h]
  change some _ = some _
  simp (disch := decide) only [Nat.reduceSub, extract_low, extract_high, extract_all]

theorem mzero (a) : Statement (.mzero a) := by
  have h : (0xA5#8 ++ 0x0#8 ++ a ++ 0x0#8).extractLsb' 24 8 = 0xA5#8 := by
    simp (disch := decide) only [Nat.reduceSub, extract_low, extract_high, extract_all]
  refine fun _ => ⟨long_of _ h, ?_⟩
  unfold decodeFields
  rw [high_of _ h]
  change decodeGroupA _ = _
  unfold decodeGroupA
  rw [low_of _ h]
  change some _ = some _
  simp (disch := decide) only [Nat.reduceSub, extract_low, extract_high, extract_all]

theorem mload (a b) : Statement (.mload a b) := by
  have h : (0xA6#8 ++ 0x0#8 ++ a ++ b).extractLsb' 24 8 = 0xA6#8 := by
    simp (disch := decide) only [Nat.reduceSub, extract_low, extract_high, extract_all]
  refine fun _ => ⟨long_of _ h, ?_⟩
  unfold decodeFields
  rw [high_of _ h]
  change decodeGroupA _ = _
  unfold decodeGroupA
  rw [low_of _ h]
  change some _ = some _
  simp (disch := decide) only [Nat.reduceSub, extract_low, extract_high, extract_all]

theorem mstore (a b) : Statement (.mstore a b) := by
  have h : (0xA7#8 ++ 0x0#8 ++ a ++ b).extractLsb' 24 8 = 0xA7#8 := by
    simp (disch := decide) only [Nat.reduceSub, extract_low, extract_high, extract_all]
  refine fun _ => ⟨long_of _ h, ?_⟩
  unfold decodeFields
  rw [high_of _ h]
  change decodeGroupA _ = _
  unfold decodeGroupA
  rw [low_of _ h]
  change some _ = some _
  simp (disch := decide) only [Nat.reduceSub, extract_low, extract_high, extract_all]

theorem mdrain (a b) : Statement (.mdrain a b) := by
  have h : (0xA8#8 ++ 0x0#8 ++ a ++ b).extractLsb' 24 8 = 0xA8#8 := by
    simp (disch := decide) only [Nat.reduceSub, extract_low, extract_high, extract_all]
  refine fun _ => ⟨long_of _ h, ?_⟩
  unfold decodeFields
  rw [high_of _ h]
  change decodeGroupA _ = _
  unfold decodeGroupA
  rw [low_of _ h]
  change some _ = some _
  simp (disch := decide) only [Nat.reduceSub, extract_low, extract_high, extract_all]

theorem mcapr (d) : Statement (.mcapr d) := by
  have h : (0xA9#8 ++ d ++ 0x0#16).extractLsb' 24 8 = 0xA9#8 := by
    simp (disch := decide) only [Nat.reduceSub, extract_low, extract_high, extract_all]
  refine fun _ => ⟨long_of _ h, ?_⟩
  unfold decodeFields
  rw [high_of _ h]
  change decodeGroupA _ = _
  unfold decodeGroupA
  rw [low_of _ h]
  change some _ = some _
  simp (disch := decide) only [Nat.reduceSub, extract_low, extract_high, extract_all]

theorem vadd (d a b t k z y s) : Statement (.vadd d a b t k z y s) := by
  have h : (0xB0#8 ++ d ++ a ++ b ++ t ++ k ++ z ++ y ++ s ++ 0x0#3).extractLsb' 24 8 = 0xB0#8 := by
    simp (disch := decide) only [Nat.reduceSub, extract_low, extract_high, extract_all]
  refine fun _ => ⟨long_of _ h, ?_⟩
  unfold decodeFields
  rw [high_of _ h]
  change decodeGroupB _ = _
  unfold decodeGroupB
  rw [low_of _ h]
  change some _ = some _
  simp (disch := decide) only [Nat.reduceSub, extract_low, extract_high, extract_all]

theorem vsub (d a b t k z y s) : Statement (.vsub d a b t k z y s) := by
  have h : (0xB1#8 ++ d ++ a ++ b ++ t ++ k ++ z ++ y ++ s ++ 0x0#3).extractLsb' 24 8 = 0xB1#8 := by
    simp (disch := decide) only [Nat.reduceSub, extract_low, extract_high, extract_all]
  refine fun _ => ⟨long_of _ h, ?_⟩
  unfold decodeFields
  rw [high_of _ h]
  change decodeGroupB _ = _
  unfold decodeGroupB
  rw [low_of _ h]
  change some _ = some _
  simp (disch := decide) only [Nat.reduceSub, extract_low, extract_high, extract_all]

theorem vmul (d a b t k z y s) : Statement (.vmul d a b t k z y s) := by
  have h : (0xB2#8 ++ d ++ a ++ b ++ t ++ k ++ z ++ y ++ s ++ 0x0#3).extractLsb' 24 8 = 0xB2#8 := by
    simp (disch := decide) only [Nat.reduceSub, extract_low, extract_high, extract_all]
  refine fun _ => ⟨long_of _ h, ?_⟩
  unfold decodeFields
  rw [high_of _ h]
  change decodeGroupB _ = _
  unfold decodeGroupB
  rw [low_of _ h]
  change some _ = some _
  simp (disch := decide) only [Nat.reduceSub, extract_low, extract_high, extract_all]

theorem vmulh (d a b t k z y) : Statement (.vmulh d a b t k z y) := by
  have h : (0xB3#8 ++ d ++ a ++ b ++ t ++ k ++ z ++ y ++ 0x0#4).extractLsb' 24 8 = 0xB3#8 := by
    simp (disch := decide) only [Nat.reduceSub, extract_low, extract_high, extract_all]
  refine fun _ => ⟨long_of _ h, ?_⟩
  unfold decodeFields
  rw [high_of _ h]
  change decodeGroupB _ = _
  unfold decodeGroupB
  rw [low_of _ h]
  change some _ = some _
  simp (disch := decide) only [Nat.reduceSub, extract_low, extract_high, extract_all]

theorem vmin (d a b t k z y) : Statement (.vmin d a b t k z y) := by
  have h : (0xB4#8 ++ d ++ a ++ b ++ t ++ k ++ z ++ y ++ 0x0#4).extractLsb' 24 8 = 0xB4#8 := by
    simp (disch := decide) only [Nat.reduceSub, extract_low, extract_high, extract_all]
  refine fun _ => ⟨long_of _ h, ?_⟩
  unfold decodeFields
  rw [high_of _ h]
  change decodeGroupB _ = _
  unfold decodeGroupB
  rw [low_of _ h]
  change some _ = some _
  simp (disch := decide) only [Nat.reduceSub, extract_low, extract_high, extract_all]

theorem vmax (d a b t k z y) : Statement (.vmax d a b t k z y) := by
  have h : (0xB5#8 ++ d ++ a ++ b ++ t ++ k ++ z ++ y ++ 0x0#4).extractLsb' 24 8 = 0xB5#8 := by
    simp (disch := decide) only [Nat.reduceSub, extract_low, extract_high, extract_all]
  refine fun _ => ⟨long_of _ h, ?_⟩
  unfold decodeFields
  rw [high_of _ h]
  change decodeGroupB _ = _
  unfold decodeGroupB
  rw [low_of _ h]
  change some _ = some _
  simp (disch := decide) only [Nat.reduceSub, extract_low, extract_high, extract_all]

theorem vand (d a b t k z y) : Statement (.vand d a b t k z y) := by
  have h : (0xB6#8 ++ d ++ a ++ b ++ t ++ k ++ z ++ y ++ 0x0#4).extractLsb' 24 8 = 0xB6#8 := by
    simp (disch := decide) only [Nat.reduceSub, extract_low, extract_high, extract_all]
  refine fun _ => ⟨long_of _ h, ?_⟩
  unfold decodeFields
  rw [high_of _ h]
  change decodeGroupB _ = _
  unfold decodeGroupB
  rw [low_of _ h]
  change some _ = some _
  simp (disch := decide) only [Nat.reduceSub, extract_low, extract_high, extract_all]

theorem vor (d a b t k z y) : Statement (.vor d a b t k z y) := by
  have h : (0xB7#8 ++ d ++ a ++ b ++ t ++ k ++ z ++ y ++ 0x0#4).extractLsb' 24 8 = 0xB7#8 := by
    simp (disch := decide) only [Nat.reduceSub, extract_low, extract_high, extract_all]
  refine fun _ => ⟨long_of _ h, ?_⟩
  unfold decodeFields
  rw [high_of _ h]
  change decodeGroupB _ = _
  unfold decodeGroupB
  rw [low_of _ h]
  change some _ = some _
  simp (disch := decide) only [Nat.reduceSub, extract_low, extract_high, extract_all]

theorem vxor (d a b t k z y) : Statement (.vxor d a b t k z y) := by
  have h : (0xB8#8 ++ d ++ a ++ b ++ t ++ k ++ z ++ y ++ 0x0#4).extractLsb' 24 8 = 0xB8#8 := by
    simp (disch := decide) only [Nat.reduceSub, extract_low, extract_high, extract_all]
  refine fun _ => ⟨long_of _ h, ?_⟩
  unfold decodeFields
  rw [high_of _ h]
  change decodeGroupB _ = _
  unfold decodeGroupB
  rw [low_of _ h]
  change some _ = some _
  simp (disch := decide) only [Nat.reduceSub, extract_low, extract_high, extract_all]

theorem vshl (d a b t k z y) : Statement (.vshl d a b t k z y) := by
  have h : (0xB9#8 ++ d ++ a ++ b ++ t ++ k ++ z ++ y ++ 0x0#4).extractLsb' 24 8 = 0xB9#8 := by
    simp (disch := decide) only [Nat.reduceSub, extract_low, extract_high, extract_all]
  refine fun _ => ⟨long_of _ h, ?_⟩
  unfold decodeFields
  rw [high_of _ h]
  change decodeGroupB _ = _
  unfold decodeGroupB
  rw [low_of _ h]
  change some _ = some _
  simp (disch := decide) only [Nat.reduceSub, extract_low, extract_high, extract_all]

theorem vshr (d a b t k z y) : Statement (.vshr d a b t k z y) := by
  have h : (0xBA#8 ++ d ++ a ++ b ++ t ++ k ++ z ++ y ++ 0x0#4).extractLsb' 24 8 = 0xBA#8 := by
    simp (disch := decide) only [Nat.reduceSub, extract_low, extract_high, extract_all]
  refine fun _ => ⟨long_of _ h, ?_⟩
  unfold decodeFields
  rw [high_of _ h]
  change decodeGroupB _ = _
  unfold decodeGroupB
  rw [low_of _ h]
  change some _ = some _
  simp (disch := decide) only [Nat.reduceSub, extract_low, extract_high, extract_all]

theorem vsra (d a b t k z y) : Statement (.vsra d a b t k z y) := by
  have h : (0xBB#8 ++ d ++ a ++ b ++ t ++ k ++ z ++ y ++ 0x0#4).extractLsb' 24 8 = 0xBB#8 := by
    simp (disch := decide) only [Nat.reduceSub, extract_low, extract_high, extract_all]
  refine fun _ => ⟨long_of _ h, ?_⟩
  unfold decodeFields
  rw [high_of _ h]
  change decodeGroupB _ = _
  unfold decodeGroupB
  rw [low_of _ h]
  change some _ = some _
  simp (disch := decide) only [Nat.reduceSub, extract_low, extract_high, extract_all]

theorem vabs (d a t k z s) : Statement (.vabs d a t k z s) := by
  have h : (0xBC#8 ++ d ++ a ++ 0x0#4 ++ t ++ k ++ z ++ 0x0#1 ++ s ++ 0x0#3).extractLsb' 24 8 = 0xBC#8 := by
    simp (disch := decide) only [Nat.reduceSub, extract_low, extract_high, extract_all]
  refine fun _ => ⟨long_of _ h, ?_⟩
  unfold decodeFields
  rw [high_of _ h]
  change decodeGroupB _ = _
  unfold decodeGroupB
  rw [low_of _ h]
  change some _ = some _
  simp (disch := decide) only [Nat.reduceSub, extract_low, extract_high, extract_all]

theorem vcmp (d a b t k y p) : Statement (.vcmp d a b t k y p) := by
  have h : (0xBD#8 ++ 0x0#2 ++ d ++ a ++ b ++ t ++ k ++ 0x0#1 ++ y ++ 0x0#1 ++ p).extractLsb' 24 8 = 0xBD#8 := by
    simp (disch := decide) only [Nat.reduceSub, extract_low, extract_high, extract_all]
  refine fun _ => ⟨long_of _ h, ?_⟩
  unfold decodeFields
  rw [high_of _ h]
  change decodeGroupB _ = _
  unfold decodeGroupB
  rw [low_of _ h]
  change some _ = some _
  simp (disch := decide) only [Nat.reduceSub, extract_low, extract_high, extract_all]

theorem vsel (d a b t k y) : Statement (.vsel d a b t k y) := by
  have h : (0xBE#8 ++ d ++ a ++ b ++ t ++ k ++ 0x0#1 ++ y ++ 0x0#4).extractLsb' 24 8 = 0xBE#8 := by
    simp (disch := decide) only [Nat.reduceSub, extract_low, extract_high, extract_all]
  refine fun _ => ⟨long_of _ h, ?_⟩
  unfold decodeFields
  rw [high_of _ h]
  change decodeGroupB _ = _
  unfold decodeGroupB
  rw [low_of _ h]
  change some _ = some _
  simp (disch := decide) only [Nat.reduceSub, extract_low, extract_high, extract_all]

theorem vpopc (d a t k z) : Statement (.vpopc d a t k z) := by
  have h : (0xBF#8 ++ d ++ a ++ 0x0#4 ++ t ++ k ++ z ++ 0x0#5).extractLsb' 24 8 = 0xBF#8 := by
    simp (disch := decide) only [Nat.reduceSub, extract_low, extract_high, extract_all]
  refine fun _ => ⟨long_of _ h, ?_⟩
  unfold decodeFields
  rw [high_of _ h]
  change decodeGroupB _ = _
  unfold decodeGroupB
  rw [low_of _ h]
  change some _ = some _
  simp (disch := decide) only [Nat.reduceSub, extract_low, extract_high, extract_all]

theorem vfadd (d a b t k z y r) : Statement (.vfadd d a b t k z y r) := by
  have h : (0xC0#8 ++ d ++ a ++ b ++ t ++ k ++ z ++ y ++ 0x0#1 ++ r).extractLsb' 24 8 = 0xC0#8 := by
    simp (disch := decide) only [Nat.reduceSub, extract_low, extract_high, extract_all]
  refine fun _ => ⟨long_of _ h, ?_⟩
  unfold decodeFields
  rw [high_of _ h]
  change decodeGroupC _ = _
  unfold decodeGroupC
  rw [low_of _ h]
  change some _ = some _
  simp (disch := decide) only [Nat.reduceSub, extract_low, extract_high, extract_all]

theorem vfsub (d a b t k z y r) : Statement (.vfsub d a b t k z y r) := by
  have h : (0xC1#8 ++ d ++ a ++ b ++ t ++ k ++ z ++ y ++ 0x0#1 ++ r).extractLsb' 24 8 = 0xC1#8 := by
    simp (disch := decide) only [Nat.reduceSub, extract_low, extract_high, extract_all]
  refine fun _ => ⟨long_of _ h, ?_⟩
  unfold decodeFields
  rw [high_of _ h]
  change decodeGroupC _ = _
  unfold decodeGroupC
  rw [low_of _ h]
  change some _ = some _
  simp (disch := decide) only [Nat.reduceSub, extract_low, extract_high, extract_all]

theorem vfmul (d a b t k z y r) : Statement (.vfmul d a b t k z y r) := by
  have h : (0xC2#8 ++ d ++ a ++ b ++ t ++ k ++ z ++ y ++ 0x0#1 ++ r).extractLsb' 24 8 = 0xC2#8 := by
    simp (disch := decide) only [Nat.reduceSub, extract_low, extract_high, extract_all]
  refine fun _ => ⟨long_of _ h, ?_⟩
  unfold decodeFields
  rw [high_of _ h]
  change decodeGroupC _ = _
  unfold decodeGroupC
  rw [low_of _ h]
  change some _ = some _
  simp (disch := decide) only [Nat.reduceSub, extract_low, extract_high, extract_all]

theorem vfma (d a b t k z y r) : Statement (.vfma d a b t k z y r) := by
  have h : (0xC3#8 ++ d ++ a ++ b ++ t ++ k ++ z ++ y ++ 0x0#1 ++ r).extractLsb' 24 8 = 0xC3#8 := by
    simp (disch := decide) only [Nat.reduceSub, extract_low, extract_high, extract_all]
  refine fun _ => ⟨long_of _ h, ?_⟩
  unfold decodeFields
  rw [high_of _ h]
  change decodeGroupC _ = _
  unfold decodeGroupC
  rw [low_of _ h]
  change some _ = some _
  simp (disch := decide) only [Nat.reduceSub, extract_low, extract_high, extract_all]

theorem vfms (d a b t k z y r) : Statement (.vfms d a b t k z y r) := by
  have h : (0xC4#8 ++ d ++ a ++ b ++ t ++ k ++ z ++ y ++ 0x0#1 ++ r).extractLsb' 24 8 = 0xC4#8 := by
    simp (disch := decide) only [Nat.reduceSub, extract_low, extract_high, extract_all]
  refine fun _ => ⟨long_of _ h, ?_⟩
  unfold decodeFields
  rw [high_of _ h]
  change decodeGroupC _ = _
  unfold decodeGroupC
  rw [low_of _ h]
  change some _ = some _
  simp (disch := decide) only [Nat.reduceSub, extract_low, extract_high, extract_all]

theorem vfmin (d a b t k z y) : Statement (.vfmin d a b t k z y) := by
  have h : (0xC5#8 ++ d ++ a ++ b ++ t ++ k ++ z ++ y ++ 0x0#4).extractLsb' 24 8 = 0xC5#8 := by
    simp (disch := decide) only [Nat.reduceSub, extract_low, extract_high, extract_all]
  refine fun _ => ⟨long_of _ h, ?_⟩
  unfold decodeFields
  rw [high_of _ h]
  change decodeGroupC _ = _
  unfold decodeGroupC
  rw [low_of _ h]
  change some _ = some _
  simp (disch := decide) only [Nat.reduceSub, extract_low, extract_high, extract_all]

theorem vfmax (d a b t k z y) : Statement (.vfmax d a b t k z y) := by
  have h : (0xC6#8 ++ d ++ a ++ b ++ t ++ k ++ z ++ y ++ 0x0#4).extractLsb' 24 8 = 0xC6#8 := by
    simp (disch := decide) only [Nat.reduceSub, extract_low, extract_high, extract_all]
  refine fun _ => ⟨long_of _ h, ?_⟩
  unfold decodeFields
  rw [high_of _ h]
  change decodeGroupC _ = _
  unfold decodeGroupC
  rw [low_of _ h]
  change some _ = some _
  simp (disch := decide) only [Nat.reduceSub, extract_low, extract_high, extract_all]

theorem vfabs (d a t k z) : Statement (.vfabs d a t k z) := by
  have h : (0xC7#8 ++ d ++ a ++ 0x0#4 ++ t ++ k ++ z ++ 0x0#5).extractLsb' 24 8 = 0xC7#8 := by
    simp (disch := decide) only [Nat.reduceSub, extract_low, extract_high, extract_all]
  refine fun _ => ⟨long_of _ h, ?_⟩
  unfold decodeFields
  rw [high_of _ h]
  change decodeGroupC _ = _
  unfold decodeGroupC
  rw [low_of _ h]
  change some _ = some _
  simp (disch := decide) only [Nat.reduceSub, extract_low, extract_high, extract_all]

theorem vfcmp (d a b t k y p) : Statement (.vfcmp d a b t k y p) := by
  have h : (0xC8#8 ++ 0x0#2 ++ d ++ a ++ b ++ t ++ k ++ 0x0#1 ++ y ++ 0x0#1 ++ p).extractLsb' 24 8 = 0xC8#8 := by
    simp (disch := decide) only [Nat.reduceSub, extract_low, extract_high, extract_all]
  refine fun _ => ⟨long_of _ h, ?_⟩
  unfold decodeFields
  rw [high_of _ h]
  change decodeGroupC _ = _
  unfold decodeGroupC
  rw [low_of _ h]
  change some _ = some _
  simp (disch := decide) only [Nat.reduceSub, extract_low, extract_high, extract_all]

theorem vcvt (d a b t k q s r) : Statement (.vcvt d a b t k q s r) := by
  have h : (0xC9#8 ++ d ++ a ++ b ++ t ++ k ++ q ++ s ++ r).extractLsb' 24 8 = 0xC9#8 := by
    simp (disch := decide) only [Nat.reduceSub, extract_low, extract_high, extract_all]
  refine fun _ => ⟨long_of _ h, ?_⟩
  unfold decodeFields
  rw [high_of _ h]
  change decodeGroupC _ = _
  unfold decodeGroupC
  rw [low_of _ h]
  change some _ = some _
  simp (disch := decide) only [Nat.reduceSub, extract_low, extract_high, extract_all]

theorem vrcp (d a t k z r) : Statement (.vrcp d a t k z r) := by
  have h : (0xCA#8 ++ d ++ a ++ 0x0#4 ++ t ++ k ++ z ++ 0x0#2 ++ r).extractLsb' 24 8 = 0xCA#8 := by
    simp (disch := decide) only [Nat.reduceSub, extract_low, extract_high, extract_all]
  refine fun _ => ⟨long_of _ h, ?_⟩
  unfold decodeFields
  rw [high_of _ h]
  change decodeGroupC _ = _
  unfold decodeGroupC
  rw [low_of _ h]
  change some _ = some _
  simp (disch := decide) only [Nat.reduceSub, extract_low, extract_high, extract_all]

theorem vrsq (d a t k z r) : Statement (.vrsq d a t k z r) := by
  have h : (0xCB#8 ++ d ++ a ++ 0x0#4 ++ t ++ k ++ z ++ 0x0#2 ++ r).extractLsb' 24 8 = 0xCB#8 := by
    simp (disch := decide) only [Nat.reduceSub, extract_low, extract_high, extract_all]
  refine fun _ => ⟨long_of _ h, ?_⟩
  unfold decodeFields
  rw [high_of _ h]
  change decodeGroupC _ = _
  unfold decodeGroupC
  rw [low_of _ h]
  change some _ = some _
  simp (disch := decide) only [Nat.reduceSub, extract_low, extract_high, extract_all]

theorem vexp2 (d a t k z r) : Statement (.vexp2 d a t k z r) := by
  have h : (0xCC#8 ++ d ++ a ++ 0x0#4 ++ t ++ k ++ z ++ 0x0#2 ++ r).extractLsb' 24 8 = 0xCC#8 := by
    simp (disch := decide) only [Nat.reduceSub, extract_low, extract_high, extract_all]
  refine fun _ => ⟨long_of _ h, ?_⟩
  unfold decodeFields
  rw [high_of _ h]
  change decodeGroupC _ = _
  unfold decodeGroupC
  rw [low_of _ h]
  change some _ = some _
  simp (disch := decide) only [Nat.reduceSub, extract_low, extract_high, extract_all]

theorem vlog2 (d a t k z r) : Statement (.vlog2 d a t k z r) := by
  have h : (0xCD#8 ++ d ++ a ++ 0x0#4 ++ t ++ k ++ z ++ 0x0#2 ++ r).extractLsb' 24 8 = 0xCD#8 := by
    simp (disch := decide) only [Nat.reduceSub, extract_low, extract_high, extract_all]
  refine fun _ => ⟨long_of _ h, ?_⟩
  unfold decodeFields
  rw [high_of _ h]
  change decodeGroupC _ = _
  unfold decodeGroupC
  rw [low_of _ h]
  change some _ = some _
  simp (disch := decide) only [Nat.reduceSub, extract_low, extract_high, extract_all]

theorem vtanh (d a t k z r) : Statement (.vtanh d a t k z r) := by
  have h : (0xCE#8 ++ d ++ a ++ 0x0#4 ++ t ++ k ++ z ++ 0x0#2 ++ r).extractLsb' 24 8 = 0xCE#8 := by
    simp (disch := decide) only [Nat.reduceSub, extract_low, extract_high, extract_all]
  refine fun _ => ⟨long_of _ h, ?_⟩
  unfold decodeFields
  rw [high_of _ h]
  change decodeGroupC _ = _
  unfold decodeGroupC
  rw [low_of _ h]
  change some _ = some _
  simp (disch := decide) only [Nat.reduceSub, extract_low, extract_high, extract_all]

theorem vfsum (d a b t k r) : Statement (.vfsum d a b t k r) := by
  have h : (0xCF#8 ++ d ++ a ++ b ++ t ++ k ++ 0x0#3 ++ r).extractLsb' 24 8 = 0xCF#8 := by
    simp (disch := decide) only [Nat.reduceSub, extract_low, extract_high, extract_all]
  refine fun _ => ⟨long_of _ h, ?_⟩
  unfold decodeFields
  rw [high_of _ h]
  change decodeGroupC _ = _
  unfold decodeGroupC
  rw [low_of _ h]
  change some _ = some _
  simp (disch := decide) only [Nat.reduceSub, extract_low, extract_high, extract_all]

theorem vld (d a t k z g) : Statement (.vld d a t k z g) := by
  have h : (0xD0#8 ++ d ++ a ++ 0x0#4 ++ t ++ k ++ z ++ 0x0#2 ++ g).extractLsb' 24 8 = 0xD0#8 := by
    simp (disch := decide) only [Nat.reduceSub, extract_low, extract_high, extract_all]
  refine fun _ => ⟨long_of _ h, ?_⟩
  unfold decodeFields
  rw [high_of _ h]
  change decodeGroupD _ = _
  unfold decodeGroupD
  rw [low_of _ h]
  change some _ = some _
  simp (disch := decide) only [Nat.reduceSub, extract_low, extract_high, extract_all]

theorem vst (d a t k g) : Statement (.vst d a t k g) := by
  have h : (0xD1#8 ++ d ++ a ++ 0x0#4 ++ t ++ k ++ 0x0#3 ++ g).extractLsb' 24 8 = 0xD1#8 := by
    simp (disch := decide) only [Nat.reduceSub, extract_low, extract_high, extract_all]
  refine fun _ => ⟨long_of _ h, ?_⟩
  unfold decodeFields
  rw [high_of _ h]
  change decodeGroupD _ = _
  unfold decodeGroupD
  rw [low_of _ h]
  change some _ = some _
  simp (disch := decide) only [Nat.reduceSub, extract_low, extract_high, extract_all]

theorem vldf (d a t c g) : Statement (.vldf d a t c g) := by
  have h : (0xD2#8 ++ d ++ a ++ 0x0#4 ++ t ++ 0x0#4 ++ c ++ g).extractLsb' 24 8 = 0xD2#8 := by
    simp (disch := decide) only [Nat.reduceSub, extract_low, extract_high, extract_all]
  refine fun _ => ⟨long_of _ h, ?_⟩
  unfold decodeFields
  rw [high_of _ h]
  change decodeGroupD _ = _
  unfold decodeGroupD
  rw [low_of _ h]
  change some _ = some _
  simp (disch := decide) only [Nat.reduceSub, extract_low, extract_high, extract_all]

theorem vstf (d a t g) : Statement (.vstf d a t g) := by
  have h : (0xD3#8 ++ d ++ a ++ 0x0#4 ++ t ++ 0x0#5 ++ g).extractLsb' 24 8 = 0xD3#8 := by
    simp (disch := decide) only [Nat.reduceSub, extract_low, extract_high, extract_all]
  refine fun _ => ⟨long_of _ h, ?_⟩
  unfold decodeFields
  rw [high_of _ h]
  change decodeGroupD _ = _
  unfold decodeGroupD
  rw [low_of _ h]
  change some _ = some _
  simp (disch := decide) only [Nat.reduceSub, extract_low, extract_high, extract_all]

theorem vgather (d a b t k z g) : Statement (.vgather d a b t k z g) := by
  have h : (0xD4#8 ++ d ++ a ++ b ++ t ++ k ++ z ++ 0x0#2 ++ g).extractLsb' 24 8 = 0xD4#8 := by
    simp (disch := decide) only [Nat.reduceSub, extract_low, extract_high, extract_all]
  refine fun _ => ⟨long_of _ h, ?_⟩
  unfold decodeFields
  rw [high_of _ h]
  change decodeGroupD _ = _
  unfold decodeGroupD
  rw [low_of _ h]
  change some _ = some _
  simp (disch := decide) only [Nat.reduceSub, extract_low, extract_high, extract_all]

theorem vscatter (d a b t k g) : Statement (.vscatter d a b t k g) := by
  have h : (0xD5#8 ++ d ++ a ++ b ++ t ++ k ++ 0x0#3 ++ g).extractLsb' 24 8 = 0xD5#8 := by
    simp (disch := decide) only [Nat.reduceSub, extract_low, extract_high, extract_all]
  refine fun _ => ⟨long_of _ h, ?_⟩
  unfold decodeFields
  rw [high_of _ h]
  change decodeGroupD _ = _
  unfold decodeGroupD
  rw [low_of _ h]
  change some _ = some _
  simp (disch := decide) only [Nat.reduceSub, extract_low, extract_high, extract_all]

theorem vbcast (d a b t k z) : Statement (.vbcast d a b t k z) := by
  have h : (0xD6#8 ++ d ++ a ++ b ++ t ++ k ++ z ++ 0x0#5).extractLsb' 24 8 = 0xD6#8 := by
    simp (disch := decide) only [Nat.reduceSub, extract_low, extract_high, extract_all]
  refine fun _ => ⟨long_of _ h, ?_⟩
  unfold decodeFields
  rw [high_of _ h]
  change decodeGroupD _ = _
  unfold decodeGroupD
  rw [low_of _ h]
  change some _ = some _
  simp (disch := decide) only [Nat.reduceSub, extract_low, extract_high, extract_all]

theorem vext (d a b t) : Statement (.vext d a b t) := by
  have h : (0xD7#8 ++ d ++ a ++ b ++ t ++ 0x0#8).extractLsb' 24 8 = 0xD7#8 := by
    simp (disch := decide) only [Nat.reduceSub, extract_low, extract_high, extract_all]
  refine fun _ => ⟨long_of _ h, ?_⟩
  unfold decodeFields
  rw [high_of _ h]
  change decodeGroupD _ = _
  unfold decodeGroupD
  rw [low_of _ h]
  change some _ = some _
  simp (disch := decide) only [Nat.reduceSub, extract_low, extract_high, extract_all]

theorem vins (d a b t) : Statement (.vins d a b t) := by
  have h : (0xD8#8 ++ d ++ a ++ b ++ t ++ 0x0#8).extractLsb' 24 8 = 0xD8#8 := by
    simp (disch := decide) only [Nat.reduceSub, extract_low, extract_high, extract_all]
  refine fun _ => ⟨long_of _ h, ?_⟩
  unfold decodeFields
  rw [high_of _ h]
  change decodeGroupD _ = _
  unfold decodeGroupD
  rw [low_of _ h]
  change some _ = some _
  simp (disch := decide) only [Nat.reduceSub, extract_low, extract_high, extract_all]

theorem vperm (d a b t k z) : Statement (.vperm d a b t k z) := by
  have h : (0xD9#8 ++ d ++ a ++ b ++ t ++ k ++ z ++ 0x0#5).extractLsb' 24 8 = 0xD9#8 := by
    simp (disch := decide) only [Nat.reduceSub, extract_low, extract_high, extract_all]
  refine fun _ => ⟨long_of _ h, ?_⟩
  unfold decodeFields
  rw [high_of _ h]
  change decodeGroupD _ = _
  unfold decodeGroupD
  rw [low_of _ h]
  change some _ = some _
  simp (disch := decide) only [Nat.reduceSub, extract_low, extract_high, extract_all]

theorem vred (d a b t k o) : Statement (.vred d a b t k o) := by
  have h : (0xDA#8 ++ d ++ a ++ b ++ t ++ k ++ 0x0#3 ++ o).extractLsb' 24 8 = 0xDA#8 := by
    simp (disch := decide) only [Nat.reduceSub, extract_low, extract_high, extract_all]
  refine fun _ => ⟨long_of _ h, ?_⟩
  unfold decodeFields
  rw [high_of _ h]
  change decodeGroupD _ = _
  unfold decodeGroupD
  rw [low_of _ h]
  change some _ = some _
  simp (disch := decide) only [Nat.reduceSub, extract_low, extract_high, extract_all]

theorem vscan (d a b t k z o) : Statement (.vscan d a b t k z o) := by
  have h : (0xDB#8 ++ d ++ a ++ b ++ t ++ k ++ z ++ 0x0#2 ++ o).extractLsb' 24 8 = 0xDB#8 := by
    simp (disch := decide) only [Nat.reduceSub, extract_low, extract_high, extract_all]
  refine fun _ => ⟨long_of _ h, ?_⟩
  unfold decodeFields
  rw [high_of _ h]
  change decodeGroupD _ = _
  unfold decodeGroupD
  rw [low_of _ h]
  change some _ = some _
  simp (disch := decide) only [Nat.reduceSub, extract_low, extract_high, extract_all]

theorem mop (d a b t o) : Statement (.mop d a b t o) := by
  have h : (0xDC#8 ++ 0x0#2 ++ d ++ 0x0#2 ++ a ++ 0x0#2 ++ b ++ t ++ 0x0#5 ++ o).extractLsb' 24 8 = 0xDC#8 := by
    simp (disch := decide) only [Nat.reduceSub, extract_low, extract_high, extract_all]
  refine fun _ => ⟨long_of _ h, ?_⟩
  unfold decodeFields
  rw [high_of _ h]
  change decodeGroupD _ = _
  unfold decodeGroupD
  rw [low_of _ h]
  change some _ = some _
  simp (disch := decide) only [Nat.reduceSub, extract_low, extract_high, extract_all]

theorem vsplat (d a t k z) : Statement (.vsplat d a t k z) := by
  have h : (0xDD#8 ++ d ++ a ++ 0x0#4 ++ t ++ k ++ z ++ 0x0#5).extractLsb' 24 8 = 0xDD#8 := by
    simp (disch := decide) only [Nat.reduceSub, extract_low, extract_high, extract_all]
  refine fun _ => ⟨long_of _ h, ?_⟩
  unfold decodeFields
  rw [high_of _ h]
  change decodeGroupD _ = _
  unfold decodeGroupD
  rw [low_of _ h]
  change some _ = some _
  simp (disch := decide) only [Nat.reduceSub, extract_low, extract_high, extract_all]

theorem illegalInstruction (a) : Statement (.illegalInstruction a) := by
  have h : (0x0#8 ++ a).extractLsb' 24 8 = 0x00#8 := by
    simp (disch := decide) only [Nat.reduceSub, extract_low, extract_high, extract_all]
  refine fun _ => ⟨long_of _ h, ?_⟩
  unfold decodeFields
  rw [high_of _ h]
  change decodeGroup0 _ = _
  unfold decodeGroup0
  rw [low_of _ h]
  change some _ = some _
  simp (disch := decide) only [Nat.reduceSub, extract_low, extract_high, extract_all]

theorem li (d imm) : Statement (.li d imm) := by
  have h : (0xE0#8 ++ d ++ 0x0#16).extractLsb' 24 8 = 0xE0#8 := by
    simp (disch := decide) only [Nat.reduceSub, extract_low, extract_high, extract_all]
  refine fun _ => ⟨long_of _ h, ?_⟩
  unfold decodeFields
  rw [high_of _ h]
  change decodeGroupE _ _ = _
  unfold decodeGroupE
  rw [low_of _ h]
  change some _ = some _
  simp (disch := decide) only [Nat.reduceSub, extract_low, extract_high, extract_all]

theorem lih (d imm) : Statement (.lih d imm) := by
  have h : (0xE1#8 ++ d ++ 0x0#16).extractLsb' 24 8 = 0xE1#8 := by
    simp (disch := decide) only [Nat.reduceSub, extract_low, extract_high, extract_all]
  refine fun _ => ⟨long_of _ h, ?_⟩
  unfold decodeFields
  rw [high_of _ h]
  change decodeGroupE _ _ = _
  unfold decodeGroupE
  rw [low_of _ h]
  change some _ = some _
  simp (disch := decide) only [Nat.reduceSub, extract_low, extract_high, extract_all]

theorem addl (d a imm) : Statement (.addl d a imm) := by
  have h : (0xE2#8 ++ d ++ a ++ 0x0#8).extractLsb' 24 8 = 0xE2#8 := by
    simp (disch := decide) only [Nat.reduceSub, extract_low, extract_high, extract_all]
  refine fun _ => ⟨long_of _ h, ?_⟩
  unfold decodeFields
  rw [high_of _ h]
  change decodeGroupE _ _ = _
  unfold decodeGroupE
  rw [low_of _ h]
  change some _ = some _
  simp (disch := decide) only [Nat.reduceSub, extract_low, extract_high, extract_all]

theorem getc (d n) : Statement (.getc d n) := by
  have h : (0xE3#8 ++ d ++ 0x0#16).extractLsb' 24 8 = 0xE3#8 := by
    simp (disch := decide) only [Nat.reduceSub, extract_low, extract_high, extract_all]
  refine fun _ => ⟨long_of _ h, ?_⟩
  unfold decodeFields
  rw [high_of _ h]
  change decodeGroupE _ _ = _
  unfold decodeGroupE
  rw [low_of _ h]
  change some _ = some _
  simp (disch := decide) only [Nat.reduceSub, extract_low, extract_high, extract_all]

theorem setc (a n) : Statement (.setc a n) := by
  have h : (0xE4#8 ++ 0x0#8 ++ a ++ 0x0#8).extractLsb' 24 8 = 0xE4#8 := by
    simp (disch := decide) only [Nat.reduceSub, extract_low, extract_high, extract_all]
  refine fun _ => ⟨long_of _ h, ?_⟩
  unfold decodeFields
  rw [high_of _ h]
  change decodeGroupE _ _ = _
  unfold decodeGroupE
  rw [low_of _ h]
  change some _ = some _
  simp (disch := decide) only [Nat.reduceSub, extract_low, extract_high, extract_all]

theorem mma (d a acc k x tb ta m) : Statement (.mma d a acc k x tb ta m) := by
  have h : (0xE5#8 ++ d ++ a ++ acc ++ k ++ x ++ 0x0#2).extractLsb' 24 8 = 0xE5#8 := by
    simp (disch := decide) only [Nat.reduceSub, extract_low, extract_high, extract_all]
  refine fun _ => ⟨long_of _ h, ?_⟩
  unfold decodeFields
  rw [high_of _ h]
  change decodeGroupE _ _ = _
  unfold decodeGroupE
  rw [low_of _ h]
  change some _ = some _
  simp (disch := decide) only [Nat.reduceSub, extract_low, extract_high, extract_all]

theorem mmaIdx (d a acc k x vi tb ta m) : Statement (.mmaIdx d a acc k x vi tb ta m) := by
  have h : (0xE6#8 ++ d ++ a ++ acc ++ k ++ x ++ 0x0#2).extractLsb' 24 8 = 0xE6#8 := by
    simp (disch := decide) only [Nat.reduceSub, extract_low, extract_high, extract_all]
  refine fun _ => ⟨long_of _ h, ?_⟩
  unfold decodeFields
  rw [high_of _ h]
  change decodeGroupE _ _ = _
  unfold decodeGroupE
  rw [low_of _ h]
  change some _ = some _
  simp (disch := decide) only [Nat.reduceSub, extract_low, extract_high, extract_all]

theorem segset (d a st sp rights) : Statement (.segset d a st sp rights) := by
  have h : (0xE7#8 ++ d ++ a ++ st ++ sp ++ 0x0#2).extractLsb' 24 8 = 0xE7#8 := by
    simp (disch := decide) only [Nat.reduceSub, extract_low, extract_high, extract_all]
  refine fun _ => ⟨long_of _ h, ?_⟩
  unfold decodeFields
  rw [high_of _ h]
  change decodeGroupE _ _ = _
  unfold decodeGroupE
  rw [low_of _ h]
  change some _ = some _
  simp (disch := decide) only [Nat.reduceSub, extract_low, extract_high, extract_all]

theorem ldl (d a s t imm) : Statement (.ldl d a s t imm) := by
  have h : (0xE8#8 ++ d ++ a ++ s ++ 0x0#2 ++ t).extractLsb' 24 8 = 0xE8#8 := by
    simp (disch := decide) only [Nat.reduceSub, extract_low, extract_high, extract_all]
  refine fun _ => ⟨long_of _ h, ?_⟩
  unfold decodeFields
  rw [high_of _ h]
  change decodeGroupE _ _ = _
  unfold decodeGroupE
  rw [low_of _ h]
  change some _ = some _
  simp (disch := decide) only [Nat.reduceSub, extract_low, extract_high, extract_all]

theorem stl (d a s z imm) : Statement (.stl d a s z imm) := by
  have h : (0xE9#8 ++ d ++ a ++ s ++ 0x0#3 ++ z).extractLsb' 24 8 = 0xE9#8 := by
    simp (disch := decide) only [Nat.reduceSub, extract_low, extract_high, extract_all]
  refine fun _ => ⟨long_of _ h, ?_⟩
  unfold decodeFields
  rw [high_of _ h]
  change decodeGroupE _ _ = _
  unfold decodeGroupE
  rw [low_of _ h]
  change some _ = some _
  simp (disch := decide) only [Nat.reduceSub, extract_low, extract_high, extract_all]

theorem trigPostl (d a imm) : Statement (.trigPostl d a imm) := by
  have h : (0xEA#8 ++ d ++ a ++ 0x0#8).extractLsb' 24 8 = 0xEA#8 := by
    simp (disch := decide) only [Nat.reduceSub, extract_low, extract_high, extract_all]
  refine fun _ => ⟨long_of _ h, ?_⟩
  unfold decodeFields
  rw [high_of _ h]
  change decodeGroupE _ _ = _
  unfold decodeGroupE
  rw [low_of _ h]
  change some _ = some _
  simp (disch := decide) only [Nat.reduceSub, extract_low, extract_high, extract_all]

/-! ## The events -/

theorem abortComplete : ∀ a b, Statement (.abortComplete a b) := fun _ _ _ => trivial
theorem lateFaultTaken : ∀ a, Statement (.lateFaultTaken a) := fun _ _ => trivial
theorem rspData : ∀ a, Statement (.rspData a) := fun _ _ => trivial
theorem rspAcknowledge : ∀ a, Statement (.rspAcknowledge a) := fun _ _ => trivial
theorem rspDeferral : ∀ a, Statement (.rspDeferral a) := fun _ _ => trivial
theorem feDeferralResend : ∀ a, Statement (.feDeferralResend a) := fun _ _ => trivial
theorem rspError : ∀ a, Statement (.rspError a) := fun _ _ => trivial
theorem rspMonitorFire : ∀ a, Statement (.rspMonitorFire a) := fun _ _ => trivial
theorem rspQueueRefusal : ∀ a, Statement (.rspQueueRefusal a) := fun _ _ => trivial
theorem nqResend : ∀ a, Statement (.nqResend a) := fun _ _ => trivial
theorem rspHostRetry : ∀ a, Statement (.rspHostRetry a) := fun _ _ => trivial
theorem rspStatus : ∀ a, Statement (.rspStatus a) := fun _ _ => trivial
theorem icacheFill : ∀ a, Statement (.icacheFill a) := fun _ _ => trivial
theorem reqRead : ∀ a, Statement (.reqRead a) := fun _ _ => trivial
theorem reqWrite : ∀ a, Statement (.reqWrite a) := fun _ _ => trivial
theorem reqWriteSetFull : ∀ a, Statement (.reqWriteSetFull a) := fun _ _ => trivial
theorem reqLdf : ∀ a, Statement (.reqLdf a) := fun _ _ => trivial
theorem reqLdfc : ∀ a, Statement (.reqLdfc a) := fun _ _ => trivial
theorem reqLdfn : ∀ a, Statement (.reqLdfn a) := fun _ _ => trivial
theorem reqStef : ∀ a, Statement (.reqStef a) := fun _ _ => trivial
theorem reqClre : ∀ a, Statement (.reqClre a) := fun _ _ => trivial
theorem reqSetf : ∀ a, Statement (.reqSetf a) := fun _ _ => trivial
theorem reqVldf : ∀ a, Statement (.reqVldf a) := fun _ _ => trivial
theorem reqFeWithdraw : ∀ a, Statement (.reqFeWithdraw a) := fun _ _ => trivial
theorem reqNibbleWrite : ∀ a, Statement (.reqNibbleWrite a) := fun _ _ => trivial
theorem reqAmo : ∀ a, Statement (.reqAmo a) := fun _ _ => trivial
theorem reqFamo : ∀ a, Statement (.reqFamo a) := fun _ _ => trivial
theorem reqMonitorArm : ∀ a, Statement (.reqMonitorArm a) := fun _ _ => trivial
theorem reqMonitorClear : ∀ a, Statement (.reqMonitorClear a) := fun _ _ => trivial
theorem reqNqWord : ∀ a, Statement (.reqNqWord a) := fun _ _ => trivial
theorem drainMarkerReturn : ∀ a, Statement (.drainMarkerReturn a) := fun _ _ => trivial
theorem routerMergeAmo : ∀ a b c, Statement (.routerMergeAmo a b c) := fun _ _ _ _ => trivial
theorem mergedAmoAnswer : ∀ a, Statement (.mergedAmoAnswer a) := fun _ _ => trivial
theorem l1dFill : ∀ a, Statement (.l1dFill a) := fun _ _ => trivial
theorem stridePrefetch : ∀ a b c, Statement (.stridePrefetch a b c) := fun _ _ _ _ => trivial
theorem scrubPass : ∀ a b c d e, Statement (.scrubPass a b c d e) := fun _ _ _ _ _ _ => trivial
theorem memoryPortTranslate : ∀ a b, Statement (.memoryPortTranslate a b) := fun _ _ _ => trivial
theorem missDoneInstall : ∀ a, Statement (.missDoneInstall a) := fun _ _ => trivial
theorem missDoneNotPresent : ∀ a, Statement (.missDoneNotPresent a) := fun _ _ => trivial
theorem missDoneFault : ∀ a, Statement (.missDoneFault a) := fun _ _ => trivial
theorem missDoneIgnored : ∀ a, Statement (.missDoneIgnored a) := fun _ _ => trivial
theorem fqWake : ∀ a b, Statement (.fqWake a b) := fun _ _ _ => trivial
theorem replayEntryEnd : ∀ a b, Statement (.replayEntryEnd a b) := fun _ _ _ => trivial
theorem tlbInvAddr : ∀ a b, Statement (.tlbInvAddr a b) := fun _ _ _ => trivial
theorem tlbInvAll : ∀ a, Statement (.tlbInvAll a) := fun _ _ => trivial
theorem tlbBusyClear : ∀ a, Statement (.tlbBusyClear a) := fun _ _ => trivial
theorem smMapWrite : ∀ a b c, Statement (.smMapWrite a b c) := fun _ _ _ _ => trivial
theorem smRefq : ∀ a b, Statement (.smRefq a b) := fun _ _ _ => trivial
theorem nsUpdate : ∀ a b, Statement (.nsUpdate a b) := fun _ _ _ => trivial
theorem cfgNsupdate : ∀ a b, Statement (.cfgNsupdate a b) := fun _ _ _ => trivial
theorem bandWrite : ∀ a b c, Statement (.bandWrite a b c) := fun _ _ _ _ => trivial
theorem trClear : ∀ a b c, Statement (.trClear a b c) := fun _ _ _ _ => trivial
theorem slicePinWrite : ∀ a, Statement (.slicePinWrite a) := fun _ _ => trivial
theorem permitWrite : ∀ a b c, Statement (.permitWrite a b c) := fun _ _ _ _ => trivial
theorem permitRefill : ∀ a, Statement (.permitRefill a) := fun _ _ => trivial
theorem watchdogWrite : ∀ a, Statement (.watchdogWrite a) := fun _ _ => trivial
theorem watchdogExpiry : ∀ a, Statement (.watchdogExpiry a) := fun _ _ => trivial
theorem counterWindowStore : ∀ a b c, Statement (.counterWindowStore a b c) := fun _ _ _ _ => trivial
theorem registerWrite : ∀ a, Statement (.registerWrite a) := fun _ _ => trivial
theorem reqCounterAdd : ∀ a, Statement (.reqCounterAdd a) := fun _ _ => trivial
theorem triggerFire : ∀ a b, Statement (.triggerFire a b) := fun _ _ _ => trivial
theorem triggerOpComplete : ∀ a b, Statement (.triggerOpComplete a b) := fun _ _ _ => trivial
theorem triggerLaunchRetry : ∀ a b, Statement (.triggerLaunchRetry a b) := fun _ _ _ => trivial
theorem barrierArrival : ∀ a, Statement (.barrierArrival a) := fun _ _ => trivial
theorem nestClaim : ∀ a, Statement (.nestClaim a) := fun _ _ => trivial
theorem vectorQueueTake : ∀ a, Statement (.vectorQueueTake a) := fun _ _ => trivial
theorem vectorResult : ∀ a, Statement (.vectorResult a) := fun _ _ => trivial
theorem matrixOpBegin : ∀ a b, Statement (.matrixOpBegin a b) := fun _ _ _ => trivial
theorem matrixKgroupStep : ∀ a, Statement (.matrixKgroupStep a) := fun _ _ => trivial
theorem matrixOpComplete : ∀ a b, Statement (.matrixOpComplete a b) := fun _ _ _ => trivial
theorem drainRowEnd : ∀ a, Statement (.drainRowEnd a) := fun _ _ => trivial
theorem copyTake : ∀ a, Statement (.copyTake a) := fun _ _ => trivial
theorem copyBeat : ∀ a b, Statement (.copyBeat a b) := fun _ _ _ => trivial
theorem copyComplete : ∀ a b, Statement (.copyComplete a b) := fun _ _ _ => trivial
theorem copyFaultDelivery : ∀ a b, Statement (.copyFaultDelivery a b) := fun _ _ _ => trivial
theorem hostCmdLaunch : ∀ a b, Statement (.hostCmdLaunch a b) := fun _ _ _ => trivial
theorem hostCmdReplay : ∀ a b, Statement (.hostCmdReplay a b) := fun _ _ _ => trivial
theorem hostCmdPreempt : ∀ a b, Statement (.hostCmdPreempt a b) := fun _ _ _ => trivial
theorem hostCmdDrain : ∀ a b, Statement (.hostCmdDrain a b) := fun _ _ _ => trivial
theorem hostCmdReserved : ∀ a b, Statement (.hostCmdReserved a b) := fun _ _ _ => trivial
theorem qtailWrite : ∀ a b c, Statement (.qtailWrite a b c) := fun _ _ _ _ => trivial
theorem qctlWrite : ∀ a b c, Statement (.qctlWrite a b c) := fun _ _ _ _ => trivial
theorem creadWrite : ∀ a b c, Statement (.creadWrite a b c) := fun _ _ _ _ => trivial
theorem completionRecordWrite : ∀ a b, Statement (.completionRecordWrite a b) := fun _ _ _ => trivial
theorem replayStart : ∀ a b, Statement (.replayStart a b) := fun _ _ _ => trivial
theorem graphNodeStart : ∀ a b c, Statement (.graphNodeStart a b c) := fun _ _ _ _ => trivial
theorem reqLaunchSubmission : ∀ a, Statement (.reqLaunchSubmission a) := fun _ _ => trivial
theorem gangOffer : ∀ a b c, Statement (.gangOffer a b c) := fun _ _ _ _ => trivial
theorem placementReservation : ∀ a b, Statement (.placementReservation a b) := fun _ _ _ => trivial
theorem preemptRequest : ∀ a b c, Statement (.preemptRequest a b c) := fun _ _ _ _ => trivial
theorem psaveDeadlineExpiry : ∀ a b, Statement (.psaveDeadlineExpiry a b) := fun _ _ _ => trivial
theorem gangSaveComplete : ∀ a b, Statement (.gangSaveComplete a b) := fun _ _ _ => trivial
theorem resumption : ∀ a, Statement (.resumption a) := fun _ _ => trivial
theorem eventHoldToRecord : ∀ a, Statement (.eventHoldToRecord a) := fun _ _ => trivial
theorem eventForward : ∀ a, Statement (.eventForward a) := fun _ _ => trivial
theorem eventResend : ∀ a, Statement (.eventResend a) := fun _ _ => trivial
theorem reqArmReserve : ∀ a, Statement (.reqArmReserve a) := fun _ _ => trivial
theorem reqArmCommit : ∀ a, Statement (.reqArmCommit a) := fun _ _ => trivial
theorem reqArmRelease : ∀ a, Statement (.reqArmRelease a) := fun _ _ => trivial
theorem reqContribution : ∀ a, Statement (.reqContribution a) := fun _ _ => trivial
theorem reqResult : ∀ a, Statement (.reqResult a) := fun _ _ => trivial
theorem trellisDeliver : ∀ a b c, Statement (.trellisDeliver a b c) := fun _ _ _ _ => trivial
theorem tick : ∀ a b, Statement (.tick a b) := fun _ _ _ => trivial
theorem offsetProbe : ∀ a b, Statement (.offsetProbe a b) := fun _ _ _ => trivial
theorem reqProbeTimestamp : ∀ a, Statement (.reqProbeTimestamp a) := fun _ _ => trivial
theorem reqProbeEcho : ∀ a, Statement (.reqProbeEcho a) := fun _ _ => trivial
theorem controlInterval : ∀ a, Statement (.controlInterval a) := fun _ _ => trivial
theorem levelChangeComplete : ∀ a, Statement (.levelChangeComplete a) := fun _ _ => trivial
theorem limiterWindow : ∀ a b, Statement (.limiterWindow a b) := fun _ _ _ => trivial
theorem thermalTrip : ∀ a b, Statement (.thermalTrip a b) := fun _ _ _ => trivial
theorem linkCrcError : ∀ a b c, Statement (.linkCrcError a b c) := fun _ _ _ _ => trivial
theorem linkRetryTimeout : ∀ a b c, Statement (.linkRetryTimeout a b c) := fun _ _ _ _ => trivial
theorem flitProtocolError : ∀ a b c d, Statement (.flitProtocolError a b c d) := fun _ _ _ _ _ => trivial
theorem referenceClockLoss : ∀ a b, Statement (.referenceClockLoss a b) := fun _ _ _ => trivial
theorem gatehouseZeroLengthRead : ∀ a, Statement (.gatehouseZeroLengthRead a) := fun _ _ => trivial
theorem hostWriteComplete : ∀ a, Statement (.hostWriteComplete a) := fun _ _ => trivial
theorem hostAtomicopComplete : ∀ a b c, Statement (.hostAtomicopComplete a b c) := fun _ _ _ _ => trivial
theorem reqConfigRead : ∀ a, Statement (.reqConfigRead a) := fun _ _ => trivial
theorem reqConfigWrite : ∀ a, Statement (.reqConfigWrite a) := fun _ _ => trivial
theorem cfgWindowAccess : ∀ a b, Statement (.cfgWindowAccess a b) := fun _ _ _ => trivial
theorem cfgIsolate : ∀ a, Statement (.cfgIsolate a) := fun _ _ => trivial
theorem powerGood : ∀ a, Statement (.powerGood a) := fun _ _ => trivial
theorem moduleReset : ∀ a, Statement (.moduleReset a) := fun _ _ => trivial
theorem referenceLock : ∀ a b, Statement (.referenceLock a b) := fun _ _ _ => trivial
theorem gatehouseReferenceStable : ∀ a, Statement (.gatehouseReferenceStable a) := fun _ _ => trivial
theorem listenTimeout : ∀ a, Statement (.listenTimeout a) := fun _ _ => trivial
theorem linkInitComplete : ∀ a b c, Statement (.linkInitComplete a b c) := fun _ _ _ _ => trivial
theorem helloResend : ∀ a b c, Statement (.helloResend a b c) := fun _ _ _ _ => trivial
theorem reqHello : ∀ a, Statement (.reqHello a) := fun _ _ => trivial
theorem selfTestDone : ∀ a b, Statement (.selfTestDone a b) := fun _ _ _ => trivial
theorem reqImageRequest : ∀ a, Statement (.reqImageRequest a) := fun _ _ => trivial
theorem reqImageBlock : ∀ a, Statement (.reqImageBlock a) := fun _ _ => trivial
theorem mapImageTimeout : ∀ a, Statement (.mapImageTimeout a) := fun _ _ => trivial
theorem atGo : ∀ a, Statement (.atGo a) := fun _ _ => trivial
theorem quoteDone : ∀ a, Statement (.quoteDone a) := fun _ _ => trivial
theorem idleFlit : ∀ a b c d, Statement (.idleFlit a b c d) := fun _ _ _ _ _ => trivial
theorem reqDrainMarker : ∀ a, Statement (.reqDrainMarker a) := fun _ _ => trivial
theorem hostReadCompletion : ∀ a b c, Statement (.hostReadCompletion a b c) := fun _ _ _ _ => trivial
theorem hostLinkStateChange : ∀ a b, Statement (.hostLinkStateChange a b) := fun _ _ _ => trivial
theorem fqHeadWrite : ∀ a b, Statement (.fqHeadWrite a b) := fun _ _ _ => trivial
theorem faultQueueNotice : ∀ a, Statement (.faultQueueNotice a) := fun _ _ => trivial
theorem gatehouseRetryAnswer : ∀ a b, Statement (.gatehouseRetryAnswer a b) := fun _ _ _ => trivial

end Sys2Proof.Laws.Fields
end

