-- ==== Sys2Proof/Laws/Scalar.lean ====
section
/-! SUPPORT. The issue of an instruction, its permit and the checks of an access: what each can do, said once (R42, R43, R78, R226, R264, R290). -/

namespace Sys2Proof.Machine

open Sys2Proof

/-! ## Issue -/

/-- Everything that issue can do: the fault of a register not held, the wait for a pending one, or the body (R42, R43, R264). -/
theorem State.issue_cases (s : State) (names : List Nat) (body : State → State) :
    ((∃ r ∈ names, s.me.holds r = false) ∧ s.issue names body = s.raiseFault s.cur .unheldWindow) ∨
    ((∀ r ∈ names, s.me.holds r = true) ∧ (∃ r ∈ names, s.me.pend.contains r = true) ∧
      s.issue names body = s.park s.cur .pendingRegister (.regs (names.filter s.me.pend.contains))) ∨
    ((∀ r ∈ names, s.me.holds r = true) ∧ (∀ r ∈ names, s.me.pend.contains r = false) ∧ s.issue names body = body s) := by
  unfold State.issue
  split
  · next h =>
    rw [List.all_eq_true] at h
    split
    · next h2 =>
      rw [List.any_eq_true] at h2
      exact .inr (.inl ⟨h, h2, rfl⟩)
    · next h2 =>
      refine .inr (.inr ⟨h, fun r hr => ?_, rfl⟩)
      simpa using fun hc => h2 (List.any_eq_true.mpr ⟨r, hr, hc⟩)
  · next h =>
    refine .inl ⟨?_, rfl⟩
    simpa [List.all_eq_true] using h

/-- With every register held and none pending the body runs. -/
theorem State.issue_ready {s : State} {names : List Nat} (body : State → State)
    (h : ∀ r ∈ names, s.me.holds r = true ∧ s.me.pend.contains r = false) : s.issue names body = body s := by
  obtain ⟨⟨r, hr, h1⟩, -⟩ | ⟨-, ⟨r, hr, h1⟩, -⟩ | ⟨-, -, h1⟩ := s.issue_cases names body
  · simp [(h r hr).1] at h1
  · rw [(h r hr).2] at h1
    cases h1
  · exact h1

/-- A register not held faults before anything else (R42). -/
theorem State.issue_unheld {s : State} {names : List Nat} (body : State → State) {r : Nat} (hr : r ∈ names) (h : s.me.holds r = false) :
    s.issue names body = s.raiseFault s.cur .unheldWindow := by
  obtain ⟨-, h1⟩ | ⟨h1, -⟩ | ⟨h1, -⟩ := s.issue_cases names body
  · exact h1
  · simp [h1 r hr] at h
  · simp [h1 r hr] at h

/-- A pending register parks the strand when every named register is held (R43). -/
theorem State.issue_pending {s : State} {names : List Nat} (body : State → State) (hh : ∀ r ∈ names, s.me.holds r = true) {r : Nat}
    (hr : r ∈ names) (h : s.me.pend.contains r = true) :
    s.issue names body = s.park s.cur .pendingRegister (.regs (names.filter s.me.pend.contains)) := by
  obtain ⟨⟨r', hr', h1⟩, -⟩ | ⟨-, -, h1⟩ | ⟨-, h1, -⟩ := s.issue_cases names body
  · simp [hh r' hr'] at h1
  · exact h1
  · rw [h1 r hr] at h
    cases h

/-- An instruction of the integer chapter with its registers ready writes d and moves pc on (R274). -/
theorem State.compute_ready {s : State} {names : List (BitVec 8)} (d : BitVec 8) (n : Nat) (f : State → Word)
    (h : ∀ r ∈ names, s.me.holds r.toNat = true ∧ s.me.pend.contains r.toNat = false) :
    s.compute names d n f = s.modStrand s.cur fun x => { x.setReg d.toNat (f s) with pc := x.pc + BitVec.ofNat 60 n } := by
  refine State.issue_ready _ ?_
  simpa using h

/-- A write to z is discarded (R38). -/
theorem Strand.setReg_zero (x : Strand) (w : Word) : x.setReg 0 w = x := rfl

/-! ## Permits (R226) -/

theorem State.withPermit_yes {s : State} {p : PClass} (body : State → State) (h : s.hasPermit (coreOfK s.cur) p = true) :
    s.withPermit p body = body (s.takePermit (coreOfK s.cur) p) := by
  unfold State.withPermit
  rw [h]
  rfl

theorem State.withPermit_no {s : State} {p : PClass} (body : State → State) (h : s.hasPermit (coreOfK s.cur) p = false) :
    s.withPermit p body = s.held s.cur := by
  unfold State.withPermit
  rw [h]
  rfl

/-! ## The part that every access shares (R290) -/

theorem State.reach_held {s : State} (r : Reach) (kind : Nat) (waits : State → Addr → Option State) (body : State → Addr → State)
    (h : s.hasPermit (coreOfK s.cur) .memory = false) : s.reach r kind waits body = s.held s.cur := by
  unfold State.reach
  simp [h]

theorem State.reach_fault {s : State} {r : Reach} (kind : Nat) (waits : State → Addr → Option State) (body : State → Addr → State) {e : Code}
    {a : Option Addr} (h : s.hasPermit (coreOfK s.cur) .memory = true)
    (hc : s.checkAccess s.cur (s.me.seg r.seg) r.off r.size r.need r.align = .error (e, a)) :
    s.reach r kind waits body = (s.takePermit (coreOfK s.cur) .memory).faultAt e a kind := by
  unfold State.reach
  simp [h, hc]

theorem State.reach_waits {s : State} {r : Reach} (kind : Nat) (waits : State → Addr → Option State) (body : State → Addr → State) {a : Addr}
    (h : s.hasPermit (coreOfK s.cur) .memory = true)
    (hc : s.checkAccess s.cur (s.me.seg r.seg) r.off r.size r.need r.align = .ok a) (hb : s.granuleBusy s.cur (a, r.size) = true) :
    s.reach r kind waits body = s.park s.cur .granuleOrder (.granules [(a, r.size)]) := by
  unfold State.reach
  simp [h, hc, hb]

/-- A wait of the access's own kind takes no permit (R162, R226). -/
theorem State.reach_own {s t : State} {r : Reach} (kind : Nat) (waits : State → Addr → Option State) (body : State → Addr → State) {a : Addr}
    (h : s.hasPermit (coreOfK s.cur) .memory = true)
    (hc : s.checkAccess s.cur (s.me.seg r.seg) r.off r.size r.need r.align = .ok a) (hb : s.granuleBusy s.cur (a, r.size) = false)
    (hw : waits s a = some t) : s.reach r kind waits body = t := by
  unfold State.reach
  simp [h, hc, hb, hw]

theorem State.reach_ok {s : State} {r : Reach} (kind : Nat) (waits : State → Addr → Option State) (body : State → Addr → State) {a : Addr}
    (h : s.hasPermit (coreOfK s.cur) .memory = true)
    (hc : s.checkAccess s.cur (s.me.seg r.seg) r.off r.size r.need r.align = .ok a) (hb : s.granuleBusy s.cur (a, r.size) = false)
    (hw : waits s a = none) : s.reach r kind waits body = body (s.takePermit (coreOfK s.cur) .memory) a := by
  unfold State.reach
  simp [h, hc, hb, hw]

/-- A segment check that answers an address: the rights, the limit, the kind and the alignment are those that R78 asks for. -/
theorem Seg.check_ok {g : Seg} {sup : Bool} {off size need align : Nat} {a : Addr} (h : g.check sup off size need align = .ok a) :
    (bitOn g.rights.toNat 5 && !sup) = false ∧ subRights need g.rights.toNat = true ∧ off < g.limit.toNat ∧ off + size ≤ g.limit.toNat ∧
      kindBits g.base.toNat < 4 ∧ g.form off = some a ∧ a.toNat % align = 0 := by
  unfold Seg.check at h
  split at h
  · cases h
  · next h1 =>
    split at h
    · cases h
    · next h2 =>
      split at h
      · cases h
      · next h3 =>
        split at h
        · cases h
        · next h4 =>
          split at h
          · cases h
          · next b h5 =>
            split at h
            · cases h
            · next h6 =>
              cases h
              refine ⟨by simpa using h1, by simpa using h2, by omega, by omega, by omega, h5, by omega⟩

end Sys2Proof.Machine
end

