-- ==== Sys2Proof/Tests/Slice0.lean ====
section
/-! SUPPORT. Tests. First the small states that the tests use; then decoding and well-formedness on words and terms taken from the spec; then a few
results that the spec or a published check value gives; then, for every statement with hypotheses, states and operands that meet them. -/

namespace Sys2Proof.Tests

-- One theorem at a time: a kernel evaluation takes a thread of its own.
set_option Elab.async false

open Sys2Proof Sys2Proof.Machine Sys2Proof.Spec

/-! ## The states of the tests -/

/-- Slot 0 of core 0 of the pavilion (0,0) runs, as for `State.withFetchWord`. -/
def base : State := State.reset.withFetchWord 32 0x01000102

/-- The base with the strand changed. -/
def me (f : Strand → Strand) : State := base.modStrand 0 f

/-- The first address of the pavilion's bower store 0 (R75). -/
def storeAddr : Addr := 0x200000000000000

/-- The gang of the strand: it runs on core 0 with twelve helper slots and holds granule 0 of the bower store 0
and an accumulator. -/
def gang : Gang := { st := .running, cores := [0], stores := [(0, [0])], mats := [(0, 1)], desc := { crews := 1, slotmask := 0x1FFF, sreg := 64, creg := 64, mslots := 2, st := [4, 0, 0, 0] } }

/-- Two granules of window, numbers in registers, and segments: 1 a heap, 2 the pavilion's bower store 0, 3 host memory, 4 without rights. -/
def ready : State := (me fun x =>
  { x with control := true, granules := 2, regs := [(1, 8), (2, 63), (3, 0x8000000000000000), (4, 5), (5, 1), (8, 0x1002), (9, 0x1000), (11, 48)],
           segs := [(0, { base := 0x10000000, limit := 0x1000, rights := 0b000101 }), (1, { base := 0, limit := 0x1000, rights := 0b011111 }),
                    (2, { base := storeAddr, limit := 0x1000, rights := 0b011111 }), (3, { base := 0x600000000000000, limit := 0x1000, rights := 0b011111 }),
                    (4, { base := storeAddr, limit := 0x1000, rights := 0 })] }).modGang 0 0 fun _ => gang

/-- The same with register w1 pending. -/
def pending : State := ready.modStrand 0 fun x => { x with pend := [9] }

/-- The same in supervisor mode. -/
def super : State := ready.modStrand 0 fun x => { x with sup := true }

/-- The trap registers set. -/
def trapSet (s : State) : State := s.modCore 0 fun c => { c with trapBase := 0x20000000, trapSw0 := 0x5000000020000000, trapSw1 := 0x10000 }

/-- An L1D line with the write mark for heap address 0. -/
def cached : State := ready.modCore 0 fun c => { c with l1d := [{ line := 0, data := (List.range 128).map (BitVec.ofNat 8 ·), mark := true }] }

/-- Eight relaxed accesses outstanding on far granules. -/
def tracked : State := ready.modStrand 0 fun x => { x with tracker := (List.range 8).map fun i => { id := i, granule := 1000 + i } }

/-- The core without memory permits. -/
def noPermit : State := ready.modCore 0 fun c => { c with pMem := { rate := 1024, cap := 1024, count := 0 } }

/-- A message numbered 7 for the bower store 0 of the pavilion (0,0) itself: 8 bytes at offset 64, for transaction 3. -/
def note (op : MsgOp) : Msg :=
  { id := 7, op, src := 0, dst := 0, unit := 0, off := 64, len := 8, data := [1, 2, 3, 4, 5, 6, 7, 0x88], en := 0x0F, hi := 0x3C, txn := 3 }

/-- Transaction 3, an access of the strand. -/
def trans (op : ReqOp) : Txn :=
  { id := 3, acc := { addr := storeAddr + 64, op, k := 0, kind := 2, pc := 0x10000000, owner := .strand 0 }, req := note (.req op) }

/-- A state in which one message has arrived. -/
def arrived (m : Msg) : State := { ready with net := [m], txns := [trans .read], nextId := 10 }

/-- Some bytes of the store, and the full/empty bits of the granules 4 to 11 of it. -/
def filled (s : State) : State :=
  { s with mem := (List.range 16).map fun j => (homeKey 0 0 64 + j, BitVec.ofNat 8 (0xF0 - j)), full := (List.range 8).map fun j => homeKey 0 0 0 / 16 + 4 + j }

/-- The same message in another unit's place: the host. -/
def awaiting (c : Cont) (op : MsgOp) : State := (arrived (note op)).modStrand 0 fun x => { x with st := .parked, why := some .access, cont := c }

/-- Dirty lines in the L1D and the slice, one of the L1D in the line of heap address 128. -/
def dirty : State := (ready.modCore 0 fun c => { c with l1d := [{ line := 1, data := List.replicate 128 7, dirty := 1, mark := true }, { line := 5, data := List.replicate 128 9 }] }).modSite
  0 fun x => { x with slice := [{ line := 1, data := List.replicate 128 6, dirty := 2 }, { line := 9, data := List.replicate 128 5, dirty := 1 }] }

/-- The gang has a second crew on core 1, whose lead is given; the strand waits for its arrival to be added. -/
def arriving (sync : Bool) (lead : Nat) : State :=
  (ready.modGang 0 0 fun g => { g with cores := [0, 1], leads := [(1, lead)] }).modStrand 0 fun x =>
    { x with st := .parked, why := some .access, cont := .arrive sync }

/-- The monitor of the strand in a given state. -/
def watching (m : Monitor) : State := ready.modStrand 0 fun x => { x with monitor := m }

/-- The pavilion's store 0 has two watches on its granule 4: of slot 0 and of slot 5 of core 0. -/
def watched (m : Msg) : State :=
  (arrived m).modSite 0 fun x =>
    { x with watches := [{ unit := 0, granule := 4, k := 0, src := 0 }, { unit := 0, granule := 4, k := 5, src := 0 }, { unit := 0, granule := 5, k := 0, src := 0 }] }

/-- A second gang on the pavilion that leaves no unit free: its strand in slot 5 holds 246 granules. -/
def crowded : State :=
  (ready.modGang 0 1 fun _ => { st := .running, cores := [0], stores := [(0, (List.range 255).map (· + 1))], mats := [(0, 3)],
                                desc := { crews := 1, slotmask := 0x20, sreg := 64, creg := 248, mslots := 3, st := [255, 0, 0, 0] } }).modStrand
    5 fun x => { x with st := .ready, entry := 1, granules := 246 }

/-- Two more gangs that hold 100 store granules each and claim 200: no grant is safe. -/
def unsafeState : State :=
  each [1, 2] (fun s e => s.modGang 0 e fun _ =>
    { st := .running, cores := [e], stores := [(0, (List.range 100).map (· + 100 * e - 99))], desc := { crews := 1, slotmask := 1, st := [200, 0, 0, 0] } }) ready

/-- A helper in slot 3 runs for the strand. -/
def helped : State :=
  (ready.modStrand 0 fun x => { x with helpers := 0x8 }).modStrand 3 fun x => { x with st := .ready, pc := 0x10000100, segs := ready.me.segs }

/-- The helper's turn, with the starter waiting in `join`. -/
def helper : State :=
  { helped.modStrand 0 (fun x => { x with st := .parked, why := some .join, cont := .join 3 }) with cur := 3 }

/-- The gang is to stop at a checkpoint; its live-range table, in the pavilion's store, has one entry, which names nothing (R211). -/
def stopping : State :=
  { ready.modGang 0 0 (fun g => { g with st := .stopping, desc := { g.desc with live := storeAddr } }) with
    mem := [(homeKey 0 0 0, 1), (homeKey 0 0 4, 1)] }

/-- A copy that the strand has posted waits in mailbox 0. -/
def mailed : State := ready.modCore 0 fun c => { c with mail := [(0, { off := 0, slot := 0, entry := 0, pc := 0, segs := [] })] }

/-- A gang that aborts, its one strand STOPPED. -/
def aborted : State := (ready.modStrand 0 fun x => { x with st := .stopped }).modGang 0 0 fun g => { g with st := .aborting, aborted := true }

/-- Loop registers 0 to 4 of the crew hold a nest of 4 by 3 with chunk 2. -/
def nested : State := ready.modCore 0 fun c => { c with loops := [(0, 4), (1, 3), (2, 1), (3, 1), (4, 2)] }

/-- The same with a shape of 2^64. -/
def hugeNest : State := ready.modCore 0 fun c => { c with loops := [(0, 0x80000000), (1, 0x80000000), (2, 4), (3, 1)] }

/-- The nest is open with 10 of 12 iterations left; the crew's chunk stands at f of h. -/
def inNest (f h : Nat) : State :=
  (nested.modGang 0 0 fun g => { g with nest := { isOpen := true, e0 := 4, e1 := 3, e2 := 1, e3 := 1, c := 2, total := 12, left := 10, gen := 1 } }).modCore 0
    fun c => { c with fetch := [(0, { f, h, joined := true })] }

/-- The crew's claim of the next chunk has been sent. -/
def claiming : State :=
  ((inNest 2 2).modCore 0 fun c => { c with fetch := [(0, { f := 2, h := 2, joined := true, claiming := true, waiters := [0] })] }).modStrand 0
    fun x => { x with st := .parked, why := some .access, cont := .next 0x10000040 }

/-- Four vector registers: v0 and v1 numbers of many bits, v2 and v3 small indices in lanes of 32 and of 16 bits; and a mask. -/
def vectors : State := ready.modStrand 0 fun x =>
  { x with granules := 5, m1 := 0x5A0F00FF33,
           regs := (x.regs.filter (·.1 < 8)) ++ ((List.range 32).map fun j => (8 + j, BitVec.ofNat 64 ((j + 3) ^ 21 * 0x9E3779B97F4A7C15 + j))) ++
             ((List.range 16).map fun j => (40 + j, BitVec.ofNat 64 ((2 * j + 1) * 2 ^ 32 + 2 * j))) ++
             (List.range 16).map fun j => (56 + j, BitVec.ofNat 64 (0x0003000200010002 + 0x0004000400040004 * j)) }

/-- An operation of the vector queue of core 0, for the strand. -/
def vectorOp (taken : Bool) : VOp := { k := 0, taken, result := { regs := vecWords 1 0x123456789ABCDEF0123456789 } }

/-- The strand waits for that operation. -/
def queued (taken : Bool) : State :=
  (vectors.modCore 0 fun c => { c with vq := [vectorOp taken] }).modStrand 0 fun x => { x with st := .parked, why := some .vector, cont := .engine }

/-- The core has an engine of 4 rows: loop registers for K, scales and drains, two elements of accumulator 0, and operands in registers 20 to 25. -/
def matrix : State :=
  { (vectors.modCore 0 fun c =>
      { c with maxm := 4, loops := [(0, 40), (1, 0x100), (2, 0x200), (6, 3), (7, 4)], accs := [(0, [(0, 0x3F800000), (33, 0x40000000)])] }).modStrand 0 fun x =>
      { x with regs := Tab.put 20 0x0000200000001000 (Tab.put 21 0x0000000000020002 (Tab.put 22 0 (Tab.put 23 0x0000800300050002 (Tab.put 24 0x10000100 (Tab.put 25 0x3000 x.regs))))) } with
    mem := (List.range 64).map fun j => (homeKey 0 0 0x1000 + j, BitVec.ofNat 8 (0x38 + j)) }

/-- An operation of the engine for the strand, and the strand waiting for it at the head of its lane. -/
def engineOp (kind : MKind) (begun : Bool) (g : Nat) : MOp := { seq := 0, k := 0, acc := 0, pc := 0x10000000, adv := 8, kind, begun, g }
def engaged (drain : Bool) (o : MOp) : State :=
  (matrix.modCore 0 fun c => if drain then { c with drn := [o] } else { c with mul := [o] }).modStrand 0 fun x =>
    { x with sup := true, st := .parked, why := some .matrix, cont := .engine }

/-- A multiply of FP8 by FP8 with 40 products and two rows. -/
def product : Mma := { ta := 4, tb := 4, x := false, kk := 40, offA := 0x1000, offB := 0x2000, lda := 2, ldb := 2, ldsa := 0, ldsb := 0, offSA := 0, offSB := 0, rowIx := [0, 1] }

/-- A drain of two rows whose handler in slot 5 has ended row g. -/
def draining (g : Nat) : State :=
  (engaged true { engineOp (.drain 2 5 0x10000100 3 4 none) true g with running := true }).modStrand 5 fun x =>
    { x with st := .parked, why := some .access, cont := .rowEnd, drain := true, granules := 2 }

/-- Slot 0 has a stream over heap lines, from line 3 on by 1. -/
def streaming (seg : Nat) : State := ready.modCore 0 fun c => { c with streams := [{ slot := 0, last := 3, stride := 1, hits := 3, seg }] }

/-- The line of transaction 3 has come back to the core: 128 bytes for line 1 of the heap, for a read or a write of 8 bytes at its offset 64. -/
def filling (op : ReqOp) (fill : Option Line) (owner : Owner) (why : Park) (c : Cont) : State :=
  let m : Msg := { note .data with data := (List.range 128).map (BitVec.ofNat 8 ·) }
  { (awaiting c .data).modStrand 0 (fun x => { x with why := some why }) with
    net := [m], txns := [{ trans op with acc := { (trans op).acc with addr := 192, op, data := [9, 9, 9, 9, 9, 9, 9, 9], en := 0x0F, owner }, fill }] }

/-- An access of the strand in the memory port, its strand parked for it. -/
def ported (op : ReqOp) : PortReq :=
  { id := 5, acc := { addr := 0x40010, op, size := 8, data := [1, 2, 3, 4, 5, 6, 7, 8], en := 0xFF, kind := 2, pc := 0x10000000, owner := .strand 0 } }

/-- A leaf that maps 64 KiB of the own pavilion's slice, with rights w 57 and r 58 and the marks set. -/
def leaf (r w : Nat) : Word := BitVec.ofNat 64 (2 ^ 63 + 2 * 2 ^ 61 + r * 2 ^ 58 + w * 2 ^ 57 + 2 ^ 56 + 3 * 2 ^ 16)

/-- The port with an access, and a TLB; the walk strand rests. -/
def port (op : ReqOp) (tlb : List TlbEntry) : State :=
  (((awaiting (.load .w64 8 4) .data).modSite 0 fun x => { x with port := [ported op], tlb }).modStrand 13 fun x =>
    { x with st := .parked, why := some .missIdle, sup := true }).modStrand 0 fun x => x

/-- The leaf as the TLB holds it. -/
def entryOf (r w : Nat) : TlbEntry := { size := 0, vpn := 4, pte := leaf r w, pteAddr := 0, dirty := true }

/-- The access has missed, its message heads the mailbox, and the walk strand has written an outcome. -/
def missing (w : Word) (leaf : Word) : State :=
  { ((port .read []).modSite 0 fun x => { x with port := [{ ported .read with missed := true }] }).modCore 0 (fun c =>
      { c with misses := [{ va := 0x40010, slot := 0, kind := 2, port := 5, epoch := 0 }], missPte := leaf }) with cur := 13 }.modStrand 13 fun x =>
    { x with st := .parked, why := some .access, cont := .setc 0x0912 w }

/-- A late fault waits for the strand. -/
def lateFor (f : Late) : State := super.modStrand 0 fun x => { x with late := [f] }

/-- The strand's vector load waits in replay entry 2 of its core. -/
def replaying (waiting : Bool) : State :=
  (ready.modCore 0 fun c => { c with replays := [{ ix := 2, slot := 0, kind := 4, pc := 0x10000000, accs := [], waiting }] }).modStrand 0 fun x =>
    { x with st := .parked, why := some .pageFault, cont := .engine }

/-- The pavilion has a TLB with two leaves; BUSY says whether an invalidation is under way. -/
def translating (busy : Bool) : State :=
  ready.modSite 0 fun x => { x with tlb := [entryOf 1 1, { entryOf 1 0 with vpn := 5 }], tlbBusy := busy, tlbEpoch := 0xFFFFFFFF }

/-- A corner of the module is READY: the pavilions (0,0), (1,0) and (0,1), the gatehouse (2,0) and the memory site (1,1), each with a map of the
pavilions and with its links up. -/
def corner (s : State) : State :=
  each [0, 1, 2, 256, 257] (fun s v => s.modSite v fun x =>
    { x with state := .ready, coord := some (xOf v, yOf v), smap := [(0, 0), (1, 1), (256, 256)], upstream := some 1,
             links := (List.range 8).map fun i => (i, Link.start {}) }) s

/-- The strand waits to have a control register written. -/
def setting (n : Nat) (w : Word) : State :=
  (corner ready).modStrand 0 fun x => { x with st := .parked, why := some .access, cont := .setc n w }

/-- The strand runs in slot 15, with some queue registers filled. -/
def netStrand (full : List Nat) : State :=
  { ((corner ready).modStrand 15 fun _ => { ready.me with entry := 32, sup := true }).modCore 0 fun c =>
      { c with nq := full.map fun r => (r, { value := 77, full := true }) } with cur := 15 }

/-- A word for queue register 1 of core 0 has arrived; the net strand is parked for some registers, or runs. -/
def wordFor (full : List Nat) (set : Option Nat) : State :=
  { (netStrand full).modStrand 15 (fun x => match set with
      | some l => { x with st := .parked, why := some .queueIdle, cont := .queue 8 l }
      | none => x) with net := [note (.nqWord 0 1)], nextId := 10 }

/-- A request of a strand has been turned away, or waits to be sent again. -/
def resending (op : MsgOp) (resend : Bool) : State :=
  let t : Txn := { trans .ldf with resend }
  let t : Txn := { t with req := { t.req with op } }
  { (corner (awaiting (.load .w64 8 4) .data)) with net := [], txns := [t] }

/-- A request waits at the gatehouse (2,0) for the host, for transaction 3. -/
def hostWait (op : ReqOp) : Msg :=
  { id := 7, op := .req op, mesh := some .oak, src := 0, dst := 2, host := true, off := 0x1000, len := 8, data := leBytes 8 5 ++ leBytes 8 6, txn := 3 }
def atHost (op : ReqOp) (posted : List Posted) (expired : Bool) : State :=
  (({ awaiting (.load .w64 8 4) .data with net := [], txns := [{ trans op with req := hostWait op }] }).modSite 2 fun x =>
    { x with gate := { linkUp := true, pending := [(4, hostWait op)], posted } }).modGang 0 0 fun g => { g with expired }

/-- A drain of site 0 for virtual site 1 is under way, with n markers out. -/
def drainingNs (n : Nat) : State :=
  { (corner ready).modSite 0 fun x => { x with nsBusy := some (1, 2), nsMarkers := n } with net := [note (.drainMarker 1 true)], nextId := 10 }

/-- Target words in registers 20 (counter 5 of (1,0)), 21 (counter 5 of the own pavilion) and 22 (of a gatehouse); counter 5 is 3, and slot 1 waits
for 4 in it. -/
def counting : State :=
  ((corner ready).modStrand 0 (fun x => { x with regs := [(20, 0x100000005), (21, 5), (22, 0x200000005), (23, 1), (24, 4)] })).modStrand 1 (fun _ =>
    { st := .parked, why := some .counter, cont := .counter 5 4, sup := true }) |>.modSite 0 fun x => { x with tc := [(5, 3)] }

/-- An operation block that raises counter 7 by 9 when counter 5 reaches its threshold, twice with step 2 if it repeats. -/
def addBlock (again : Bool) : List Word := [BitVec.ofNat 64 (5 * 2 ^ 16 + (if again then 16 else 0) + 3 + 32 + 8 * 2 ^ 32), 2, 0, 7, 9, 0, 0, 0]

/-- The block stands at offset 1024 of the strand's store, registers 20 to 23 hold offsets and a number; one trigger entry is taken. -/
def posting (taken : Nat) (block : List Word) (launch : BitVec 32) : State :=
  { (counting.modStrand 0 fun x => { x with regs := [(20, 3), (21, 1024), (22, 1025), (23, 0x400000), (24, 0), (25, 1)] }).modSite 0 fun x =>
      { x with trigs := (List.range taken).map fun i => (i, { st := .armed, block := addBlock true, threshold := 50, launch }) } with
    mem := (List.range 64).map fun j => (homeKey 0 0 1024 + j, ((block[j / 8]?).getD 0).extractLsb' (8 * (j % 8)) 8) }

/-- Entry 2 of the trigger list is ELIGIBLE. -/
def eligible (again : Bool) : State :=
  counting.modSite 0 fun x => { x with trigs := [(2, { st := .eligible, block := addBlock again, threshold := 3, due := 1 })], trigDue := 2 }

/-- An operation of the trigger engine is done, or has met a fault, or its launch is to be sent again. -/
def operating (q : TrigOp) (txns : List Txn) : State := { counting.modSite 0 fun x => { x with ops := [q] } with txns }
def trigOp (done : Bool) (fault : Option (Nat × Addr)) (retry : Bool) : TrigOp :=
  { id := 6, op := 3, block := addBlock false, k := 0, strand := 0, launch := 0, sup := true, done, fault, retry }
def launchTxn : Txn :=
  { id := 8, acc := { owner := .trigger 0 6 }, req := { id := 0, op := .launchSub {} 0, mesh := some .oak, src := 0, dst := 2 }, resend := true }

/-- A copy block: 20 elements of 16 bytes in chunks of 16 from heap offset 0 through segment 1 to itself at 0x400, with counter 7. -/
def copyBytes (rop : Nat) : List Byte :=
  ([BitVec.ofNat 64 (1 + 4 * 2 ^ 4 + rop * 2 ^ 8 + 2 ^ 13 + 7 * 2 ^ 16 + 16 * 2 ^ 32), 0, 0x400, 0x11, BitVec.ofNat 64 (16 * 2 ^ 40 + 16 * 2 ^ 16 + 19)] : List Word).flatMap fun w => leBytes 8 w.toNat

/-- The block stands at offset 0x800 of the store, and is posted in mailbox 2 or not; registers 20 to 22 name it. -/
def copying (posted : Bool) (rop : Nat) : State :=
  let m : Mail := { off := 0x800, slot := 0, entry := 0, pc := 0x10000000, segs := ready.me.segs, sup := true }
  { (ready.modStrand 0 fun x => { x with regs := [(20, 0x800), (21, 2), (22, 4), (23, 0x801), (24, 0x400000)] }).modCore 0 fun c =>
      if posted then { c with mail := [(2, m)], mailSeq := 1, posts := [(0, 0x800, 0)] } else c with
    mem := ((copyBytes rop).zipIdx.filter fun p => p.1 != 0).map fun p => (homeKey 0 0 0x800 + p.2, p.1) }

/-- The copy is in flight. -/
def flight (phase : CopyPhase) (todo : List Nat) (fault : Option Late) (sseg : Nat) : Copy :=
  { n := 4, block := { copyBlockOf (copyBytes 0) with sseg }, segs := ready.me.segs, pc := 0x10000000, k := 0, entry := 0, sup := true, phase, todo, fault,
    writes := [(0, 0)], chunk := 0 }
def flying (q : Copy) : State := (copying true 0).modCore 0 fun c => { c with mail := [], copies := [q] }

/-- Register 20 names a launch descriptor in the heap, or at an odd place, or outside the segments. -/
def submitting (a : Word) : State := ready.modStrand 0 fun x => { x with regs := [(20, a)] }

/-- A descriptor that a gatehouse takes: one gang on one core of the pavilion (0,0). -/
def desc : Desc :=
  { version := 1, dims := 1, crews := 1, coremask := 1, slotmask := 1, entry := 0x10000000, shape := [1, 1, 1, 1], ext := [1, 1, 1, 1], tile := [1, 1, 1, 1], sreg := 2, creg := 2,
    st := [0, 0, 0, 0], segs := [(0, { base := 0x10000000, limit := 0x1000, rights := 0b000101 })] }
def submission (st : Nat) (d : Desc) : Msg := { id := 7, op := .launchSub d st, mesh := some .oak, src := 0, dst := 2, txn := 3, hops := 2, via := [3], buf := some 3 }

/-- Bytes written into a memory. -/
def laid (m : List Host.Cell) (a : Nat) (l : List Word) : List Host.Cell := Memory.writeN m a (allOn (8 * l.length)) (l.flatMap fun w => leBytes 8 w.toNat)

/-- The words of a descriptor for one gang of one crew, with some claims (R149). -/
def descWords (crews sreg : Nat) : List Word :=
  [BitVec.ofNat 64 (1 + 2 ^ 8 + crews * 2 ^ 16 + 2 ^ 32 + 2 ^ 48), 0x10000000, 0x40, 0x100000001, 0x100000001, 0x100000001, 0x100000001, 0x01010101,
   BitVec.ofNat 64 (sreg + 2 * 2 ^ 8), 0, 0, 0, 0, 0, 0, 0, 0x10000000, BitVec.ofNat 64 (0x1000 + 5 * 2 ^ 48)]

/-- The words of a graph object of two nodes, the second after the first, with banks of 64 bytes (R156). -/
def graphObject : List Word :=
  let a (n : Nat) : Word := (storeAddr + BitVec.ofNat 60 n).setWidth 64
  [BitVec.ofNat 64 (2 + 64 * 2 ^ 16), a 0x2000, a 0x3000, 0, 0, 0, 0, 0, a 0x4000, 0, a 0x4000, 1]

/-- Queue 0 of the gatehouse (2,0) holds one command; a descriptor stands at offset 0x4000 of the own pavilion's store 0, a graph object at 0x1000, its
bank A at 0x2000 and a patch of one entry at 0x5000. -/
def ringed (c : List Word) (h : HostQueue) (crews sreg : Nat) : State :=
  { (corner ready).modSite 2 (fun x => { x with gate := { linkUp := true, queues := [(0, h)] } }) with
    mem := laid (laid (laid (laid (laid [] (homeKey 0 0 0x1000) graphObject) (homeKey 0 0 0x2000) [0x1122334455667788]) (homeKey 0 0 0x4000) (descWords crews sreg))
      (homeKey 0 0 0x5000) [BitVec.ofNat 64 (8 + 4 * 2 ^ 32), 0xAABBCCDD]) (hostKey 0x1000) c }

/-- A queue of 16 entries with n commands. -/
def ring (n : Nat) : HostQueue := { base := 0x1000, en := true, prio := 2, lsize := 4, tail := n, cbase := 0x2000 }

/-- Queue 0 with its command and a usual descriptor. -/
def commanded (c : List Word) : State := ringed c (ring 1) 1 2

/-- The address of offset n of the own pavilion's store 0. -/
def inStore (n : Nat) : Nat := storeAddr.toNat + n

/-- A replay of the graph object with its patch, not started, or started on bank A. -/
def replayOf (bank : Option Bool) : ReplayCmd :=
  { id := 9, object := BitVec.ofNat 60 (inStore 0x1000), patch := BitVec.ofNat 60 (inStore 0x5000), patchLen := 16, queue := 0, tag := 3, bank, nodes := 2 }

/-- The gatehouse has that replay; bank `last` of its object was used last. -/
def replayingGraph (bank : Option Bool) (last : Option Bool) : State :=
  (ringed [] { ring 0 with blocked := some 9 } 1 2).modSite 2 fun x =>
    { x with gate := { x.gate with replays := [replayOf bank], objects := [((replayOf bank).object.toNat, { last })] } }

/-- A launch of one gang of one crew, on the second core of the pavilion (0,0), which is no spare; its scan has come to a place. -/
def offering (scan : Nat) (self : Option (Nat × Nat)) : State :=
  let l : Launch := { number := 0x80000000, desc := { desc with coremask := 2, param := 0x40 }, prio := 2, total := 1, scan }
  (((corner ready).modSite 2 fun x => { x with gate := { linkUp := true, launches := [l] } })).modSite 0 fun x => { x with self }

/-- The gang of the strand runs, with an ARMED entry in the trigger list; or it is stopping, with so many ticks to its deadline, its strand STOPPED or
not. -/
def preempting (st : GangState) (deadline : Nat) (stopped : Bool) : State :=
  (((corner ready).modGang 0 0 fun g => { g with st, deadline, area := storeAddr + 0x8000 }).modStrand 0 fun x => if stopped then { x with st := .stopped } else x).modSite 0
    fun x => { x with self := some (0, 0), trigs := [(3, { st := .armed, block := addBlock true, threshold := 50 })] }

/-- A context of the strand's gang; its pavilion is vacant, or the gang still holds it. -/
def saved (vacant : Bool) : State :=
  let s := preempting .stopping 0 true
  let s : State := { s with contexts := [s.contextOf 0 0 4] }
  if vacant then { s.modSite 0 (fun x => { x with gangs := [] }) with strands := [] } else s

/-- An arm block of n members for group 3 of the mesh Ash, operator 7, one element, mode down, with result counter 6 and destination 64 of bower 0
(R366). -/
def armHead (n : Nat) : List Word := [BitVec.ofNat 64 (3 + 256 + 7 * 2 ^ 12 + 2 ^ 16 + 6 * 2 ^ 32), BitVec.ofNat 64 (64 + n * 2 ^ 32)]

/-- A member: a pavilion, its parent, its children and its own contributions. -/
def armMember (x parent children nlocal : Nat) : Word := BitVec.ofNat 64 (x + parent * 2 ^ 16 + children * 2 ^ 24 + nlocal * 2 ^ 32)

/-- The strand's store holds the words at offset 1024; registers 20 to 24 hold offsets and an entry's key. -/
def arming (l : List Word) : State :=
  { (corner ready).modStrand 0 (fun x => { x with regs := [(20, 1024), (21, 1025), (22, 0x3FFFC0), (23, 0x103), (24, 0x400000), (25, 0x303)] }) with mem := laid [] (homeKey 0 0 1024) l }

/-- The entry of that group at the own pavilion. -/
def trellised (e : Trellis) (l : List Msg) : State :=
  { ((arming []).setTrellis 0 0x103 e) with net := l, nextId := 10 }

/-- An entry of the block above, collecting. -/
def collecting : Trellis := { st := .collect, parent := 4, children := 18, op := 7, count := 1, nlocal := 2, dest := 64, rctr := 6, latch := 33, user := true }

/-- A piece of one element from the east, number 7, of transaction 3. -/
def piece (op : MsgOp) : Msg := { note op with len := 8, off := 0, words := [0x77], wflags := [{}] }

/-- An arm operation of the strand waits for its last reply. -/
def armDone (st : Nat) : State :=
  let p : ArmOp := { id := 2, k := 0, d := 20, key := 0x103, members := [(0, collecting)], left := 1, stage := 1, reserved := [0] }
  let s := awaiting (.arm 20) (.status st)
  let s : State := { s with txns := s.txns.map fun t => { t with acc := { t.acc with owner := .arm 0 2 } } }
  s.modSite 0 fun x => { x with arms := [p] }

/-- An event record of severity notice, number 6. -/
def evRec : EventRec := { w0 := 0xFFFFFF0000010003, w1 := 0, w2 := 0, w3 := 6 }

/-- The own pavilion tells the gatehouse (2,0) of its events: one is held, or stands in the buffer, perhaps refused before; the queue there is full or
not. -/
def telling (held buffered : List EventRec) (refused full : Bool) : State :=
  (((corner base).modStrand 0 fun x => { x with st := .free }).modSite 0 fun x =>
    { x with evHolds := held.map fun r => (6, r), events := buffered, evTarget := 8, evRefused := refused }).modSite 2 fun x =>
      { x with gate := { linkUp := true, eqTail := if full then 4096 else 5 } }

/-- A message of a neighbour of another clock region, of the pavilion (2,0)'s edge. -/
def timing (op : MsgOp) : State :=
  { (corner ready).modSite 0 (fun x => { x with time := 1000 }) with net := [{ note op with src := 0, dst := 0, edge := 1 }], nextId := 10 }

/-- The pavilion's power unit, and its bowers' settings. -/
def powered (p : Power) (w : Bower) : State :=
  each [0, 1, 2, 3] (fun s b => s.modBower b fun _ => w) ((corner ready).modSite 0 fun x => { x with power := p })

/-- The permits of core 0 while the limiter is at work. -/
def limited (p : Power) (saved : Option (Nat × Nat)) : State :=
  (powered p {}).modCore 0 fun c => { c with pMem := { rate := 512, cap := 300, count := 200, saved } }

/-- A read by the own pavilion of the pavilion (1,0), at the first link of its way, and an atomic add to the same place. -/
def eastward (n : Nat) (op : ReqOp) : Msg :=
  { id := n, op := .req op, mesh := some .oak, src := 0, dst := 1, unit := 0, off := 64, len := 8, data := leBytes 8 (n + 9), en := 0xFF, key := n * 2 ^ 25, txn := n - 4 }

/-- The messages stand at the own pavilion, and the link to (1,0) on the mesh Oak is as given there, and as given at the other end. -/
def linked (l : List Msg) (here there : Link) (ag : List Sched) : State :=
  { ((corner ready).modLink 0 1 .oak fun _ => here).modLink 1 3 .oak (fun _ => there) with
    net := l, nextId := 20, agenda := ag, txns := l.map fun m => { id := m.txn, acc := { k := 0, owner := .strand 0 }, req := m } }

/-- A link that is up, with three flits unacknowledged. -/
def waitingLink : Link :=
  { Link.start {} with seq := 3, retry := (List.range 3).map fun i => { seq := i, msg := eastward (7 + i) .read } }

/-- The far end has a flit on its way to the own pavilion. -/
def sender (f : Flit) : Link := { Link.start {} with seq := 1, retry := [f], wire := [f] }

/-- A message of the far pavilion for the own one, on the link between them. -/
def westward : Msg := { eastward 7 .read with src := 1, dst := 0, sent := true }

/-- A configuration message for the pavilion (1,0)'s neighbour (0,0), which is in a state. -/
def configuring (op : MsgOp) (off : Nat) (data : Nat) (st : SiteState) : State :=
  { (corner ready).modSite 0 (fun x => { x with state := st }) with
    net := [{ note op with src := 1, off, data := leBytes 8 data }], nextId := 10 }

/-- A request for the configuration window of the gatehouse (2,0), which names the pavilion (1,0). -/
def relaying (op : ReqOp) : State :=
  { (corner ready).modSite 2 (fun x => { x with gate := { x.gate with cfgTarget := 1 } }) with
    net := [{ note (.req op) with src := 2, dst := 2, unit := 16, off := 0x81010, len := 8, en := 0xFF, data := leBytes 8 77 }], nextId := 10 }

/-- The gatehouse's buffer holds posted writes, and a probe of them is under way or not. -/
def probing (probe : Option Nat) : State :=
  (corner ready).modSite 2 fun x =>
    { x with gate := { linkUp := true, probe, posted := [{ id := 4, off := 0x1000, data := leBytes 8 1, en := 0xFF, k := 0 }, { id := 5, off := 0x1008, data := leBytes 8 2, en := 0xFF, k := 0 }] } }

/-- A site of the corner in a state, without coordinates or with. -/
def rising (v : Nat) (st : SiteState) (coord : Option (Nat × Nat)) : State :=
  (corner ready).modSite v fun x => { x with state := st, coord }

/-- The links of a site and of its neighbours are not up. -/
def unlinked (v : Nat) (st : SiteState) : State :=
  { corner ready with sites := [] } |>.modSite v (fun x => { x with state := st }) |>.modSite 1 fun x => { x with state := .ready }

/-- A bring-up message at a site in a state. -/
def meeting (v : Nat) (st : SiteState) (coord : Option (Nat × Nat)) (m : Msg) : State :=
  { rising v st coord with net := [m], nextId := 10 }

/-- Such a message from the east, on the mesh Oak, for a site. -/
def fromEast (op : MsgOp) (dst : Nat) : Msg := { note op with src := 1, dst, mesh := some .oak, edge := 1, off := dst, data := [], hops := 1, via := [1], buf := some 1 }

/-! ## Decoding, and what is well formed -/

/-- Words of the opcodes 0x00 to 0x0F, written out from the formats and the opcode map (R253, R258, R259, R262, R314): register forms. -/
theorem test_decode_0x :
    decodeTableWord 32 0x014A93E5 = some (.add 0x4A 0x93 0xE5) ∧ decodeTableWord 32 0x024A93E5 = some (.sub 0x4A 0x93 0xE5) ∧
    decodeTableWord 32 0x034A93E5 = some (.mul 0x4A 0x93 0xE5) ∧ decodeTableWord 32 0x044A93E5 = some (.mulhI 0x4A 0x93 0xE5) ∧
    decodeTableWord 32 0x054A93E5 = some (.mulhN 0x4A 0x93 0xE5) ∧ decodeTableWord 32 0x064A93E5 = some (.divI 0x4A 0x93 0xE5) ∧
    decodeTableWord 32 0x074A93E5 = some (.divN 0x4A 0x93 0xE5) ∧ decodeTableWord 32 0x084A93E5 = some (.remI 0x4A 0x93 0xE5) ∧
    decodeTableWord 32 0x094A93E5 = some (.remN 0x4A 0x93 0xE5) ∧ decodeTableWord 32 0x0A4A93E5 = some (.and 0x4A 0x93 0xE5) ∧
    decodeTableWord 32 0x0B4A93E5 = some (.or 0x4A 0x93 0xE5) ∧ decodeTableWord 32 0x0C4A93E5 = some (.xor 0x4A 0x93 0xE5) ∧
    decodeTableWord 32 0x0D4A93E5 = some (.shl 0x4A 0x93 0xE5) ∧ decodeTableWord 32 0x0E4A93E5 = some (.shr 0x4A 0x93 0xE5) ∧
    decodeTableWord 32 0x0F4A93E5 = some (.sra 0x4A 0x93 0xE5) := by
  decide +kernel

/-- Words of the opcodes 0x10 to 0x1F, written out from the formats and the opcode map (R253, R258, R259, R262, R314): register forms of the second row. -/
theorem test_decode_1x :
    decodeTableWord 32 0x104A93E5 = some (.minI 0x4A 0x93 0xE5) ∧ decodeTableWord 32 0x114A93E5 = some (.maxI 0x4A 0x93 0xE5) ∧
    decodeTableWord 32 0x124A93E5 = some (.minN 0x4A 0x93 0xE5) ∧ decodeTableWord 32 0x134A93E5 = some (.maxN 0x4A 0x93 0xE5) ∧
    decodeTableWord 32 0x144A93E5 = some (.seq 0x4A 0x93 0xE5) ∧ decodeTableWord 32 0x154A93E5 = some (.sltI 0x4A 0x93 0xE5) ∧
    decodeTableWord 32 0x164A93E5 = some (.sltN 0x4A 0x93 0xE5) ∧ decodeTableWord 32 0x174A93E5 = some (.sel 0x4A 0x93 0xE5) ∧
    decodeTableWord 32 0x184A9300 = some (.clz 0x4A 0x93) ∧ decodeTableWord 32 0x194A9300 = some (.popc 0x4A 0x93) ∧
    decodeTableWord 32 0x1A4A93E5 = some (.sext 0x4A 0x93 0xE5) ∧ decodeTableWord 32 0x1B4A93E5 = some (.zext 0x4A 0x93 0xE5) ∧
    decodeTableWord 32 0x1C4A93E5 = some (.addW 0x4A 0x93 0xE5) ∧ decodeTableWord 32 0x1D4A93E5 = some (.mulW 0x4A 0x93 0xE5) ∧
    decodeTableWord 32 0x1E4A93E5 = some (.bfx 0x4A 0x93 0xE5) ∧ decodeTableWord 32 0x1F4A93E5 = some (.bfi 0x4A 0x93 0xE5) := by
  decide +kernel

/-- Words of the opcodes 0x20 to 0x2F, written out from the formats and the opcode map (R253, R258, R259, R262, R314): immediates. -/
theorem test_decode_2x :
    decodeTableWord 32 0x204A93A7 = some (.addi 0x4A 0x93 0xA7) ∧ decodeTableWord 32 0x214A93A7 = some (.andi 0x4A 0x93 0xA7) ∧
    decodeTableWord 32 0x224A93A7 = some (.ori 0x4A 0x93 0xA7) ∧ decodeTableWord 32 0x234A93A7 = some (.xori 0x4A 0x93 0xA7) ∧
    decodeTableWord 32 0x244A932B = some (.shli 0x4A 0x93 0x2B) ∧ decodeTableWord 32 0x254A932B = some (.shri 0x4A 0x93 0x2B) ∧
    decodeTableWord 32 0x264A932B = some (.srai 0x4A 0x93 0x2B) ∧ decodeTableWord 32 0x274A93A7 = some (.seqi 0x4A 0x93 0xA7) ∧
    decodeTableWord 32 0x284A93A7 = some (.sltiI 0x4A 0x93 0xA7) ∧ decodeTableWord 32 0x294A93A7 = some (.sltiN 0x4A 0x93 0xA7) ∧
    decodeTableWord 32 0x2A4A93A7 = some (.miniI 0x4A 0x93 0xA7) ∧ decodeTableWord 32 0x2B4A93A7 = some (.maxiI 0x4A 0x93 0xA7) := by
  decide +kernel

/-- Words of the opcodes 0x30 to 0x3F, written out from the formats and the opcode map (R253, R258, R259, R262, R314): branches and jumps. -/
theorem test_decode_3x :
    decodeTableWord 32 0x3093F731 = some (.bz 0x93 0xF731) ∧ decodeTableWord 32 0x3193F731 = some (.bnz 0x93 0xF731) ∧
    decodeTableWord 32 0x3293F731 = some (.blt 0x93 0xF731) ∧ decodeTableWord 32 0x3393F731 = some (.bge 0x93 0xF731) ∧
    decodeTableWord 32 0x34ABCDEF = some (.j 0xABCDEF) ∧ decodeTableWord 32 0x35ABCDEF = some (.call 0xABCDEF) ∧
    decodeTableWord 32 0x36009300 = some (.jr 0x93) ∧ decodeTableWord 32 0x374A9300 = some (.callr 0x4A 0x93) ∧
    decodeTableWord 32 0x38000003 = some (.nest 3) ∧ decodeTableWord 32 0x3900F731 = some (.next 0xF731) ∧
    decodeTableWord 32 0x3A0000A7 = some (.trap 0xA7) ∧ decodeTableWord 32 0x3B000000 = some .eret := by
  decide +kernel

/-- Words of the opcodes 0x40 to 0x4F, written out from the formats and the opcode map (R253, R258, R259, R262, R314): loads. -/
theorem test_decode_4x :
    decodeTableWord 32 0x404A51B3 = some (.ldI8 0x4A 0x51 5 0x13) ∧ decodeTableWord 32 0x414A51B3 = some (.ldN8 0x4A 0x51 5 0x13) ∧
    decodeTableWord 32 0x424A51B3 = some (.ldI16 0x4A 0x51 5 0x13) ∧ decodeTableWord 32 0x434A51B3 = some (.ldN16 0x4A 0x51 5 0x13) ∧
    decodeTableWord 32 0x444A51B3 = some (.ldI32 0x4A 0x51 5 0x13) ∧ decodeTableWord 32 0x454A51B3 = some (.ldN32 0x4A 0x51 5 0x13) ∧
    decodeTableWord 32 0x464A51B3 = some (.ld64 0x4A 0x51 5 0x13) ∧ decodeTableWord 32 0x474A51B3 = some (.ld128 0x4A 0x51 5 0x13) ∧
    decodeTableWord 32 0x484A51B3 = some (.ldr64 0x4A 0x51 5 0x13) ∧ decodeTableWord 32 0x494A51B3 = some (.ldf64 0x4A 0x51 5 0x13) ∧
    decodeTableWord 32 0x4A4A51B3 = some (.ldfc64 0x4A 0x51 5 0x13) ∧ decodeTableWord 32 0x4B4A51B3 = some (.ldfn64 0x4A 0x51 5 0x13) ∧
    decodeTableWord 32 0x4C0051B3 = some (.pref 0x51 5 0x13) := by
  decide +kernel

/-- Words of the opcodes 0x50 to 0x5F, written out from the formats and the opcode map (R253, R258, R259, R262, R314): stores. -/
theorem test_decode_5x :
    decodeTableWord 32 0x504A51B3 = some (.st8 0x4A 0x51 5 0x13) ∧ decodeTableWord 32 0x514A51B3 = some (.st16 0x4A 0x51 5 0x13) ∧
    decodeTableWord 32 0x524A51B3 = some (.st32 0x4A 0x51 5 0x13) ∧ decodeTableWord 32 0x534A51B3 = some (.st64 0x4A 0x51 5 0x13) ∧
    decodeTableWord 32 0x544A51B3 = some (.st128 0x4A 0x51 5 0x13) ∧ decodeTableWord 32 0x554A51B3 = some (.str64 0x4A 0x51 5 0x13) ∧
    decodeTableWord 32 0x564A51B3 = some (.stf64 0x4A 0x51 5 0x13) ∧ decodeTableWord 32 0x574A51B3 = some (.stef64 0x4A 0x51 5 0x13) ∧
    decodeTableWord 32 0x580051B3 = some (.clre 0x51 5 0x13) ∧ decodeTableWord 32 0x590051B3 = some (.setf 0x51 5 0x13) := by
  decide +kernel

/-- Words of the opcodes 0x60 to 0x6F, written out from the formats and the opcode map (R253, R258, R259, R262, R314): atomics. -/
theorem test_decode_6x :
    decodeTableWord 32 0x604A51B3 = some (.amoAdd 0x4A 0x51 5 0x13) ∧ decodeTableWord 32 0x614A51B3 = some (.amoFadd 0x4A 0x51 5 0x13) ∧
    decodeTableWord 32 0x624A51B3 = some (.amoMinI 0x4A 0x51 5 0x13) ∧ decodeTableWord 32 0x634A51B3 = some (.amoMaxI 0x4A 0x51 5 0x13) ∧
    decodeTableWord 32 0x644A51B3 = some (.amoMinN 0x4A 0x51 5 0x13) ∧ decodeTableWord 32 0x654A51B3 = some (.amoMaxN 0x4A 0x51 5 0x13) ∧
    decodeTableWord 32 0x664A51B3 = some (.amoAnd 0x4A 0x51 5 0x13) ∧ decodeTableWord 32 0x674A51B3 = some (.amoOr 0x4A 0x51 5 0x13) ∧
    decodeTableWord 32 0x684A51B3 = some (.amoXor 0x4A 0x51 5 0x13) ∧ decodeTableWord 32 0x694A51B3 = some (.famoAdd 0x4A 0x51 5 0x13) ∧
    decodeTableWord 32 0x6A4A51B3 = some (.famoFadd 0x4A 0x51 5 0x13) ∧ decodeTableWord 32 0x6B4A51B3 = some (.famoOr 0x4A 0x51 5 0x13) ∧
    decodeTableWord 32 0x6C4A51B3 = some (.famoSwap 0x4A 0x51 5 0x13) ∧ decodeTableWord 32 0x6D4A51B3 = some (.famoCas 0x4A 0x51 5 0x13) := by
  decide +kernel

/-- Words of the opcodes 0x70 to 0x7F, written out from the formats and the opcode map (R253, R258, R259, R262, R314): ordering and caches. -/
theorem test_decode_7x :
    decodeTableWord 32 0x70000013 = some (.fenceAcq 3) ∧ decodeTableWord 32 0x70000023 = some (.fenceRel 3) ∧
    decodeTableWord 32 0x70000033 = some (.fenceAr 3) ∧ decodeTableWord 32 0x71000000 = some .barArr ∧
    decodeTableWord 32 0x72000000 = some .barWait ∧ decodeTableWord 32 0x73000000 = some .barSync ∧
    decodeTableWord 32 0x740051B3 = some (.monArm 0x51 5 0x13) ∧ decodeTableWord 32 0x75000000 = some .monWait ∧
    decodeTableWord 32 0x76000000 = some .monClr ∧ decodeTableWord 32 0x77000000 = some .waitR ∧
    decodeTableWord 32 0x784A51B3 = some (.inv 0x4A 0x51 5 0x13) ∧ decodeTableWord 32 0x794A51B3 = some (.wb 0x4A 0x51 5 0x13) := by
  decide +kernel

/-- Words of the opcodes 0x80 to 0x8F, written out from the formats and the opcode map (R253, R258, R259, R262, R314): strands and claims. -/
theorem test_decode_8x :
    decodeTableWord 32 0x804A930B = some (.start 0x4A 0x93 0xB) ∧ decodeTableWord 32 0x8100000B = some (.join 0xB) ∧
    decodeTableWord 32 0x82000000 = some .endStrand ∧ decodeTableWord 32 0x83000000 = some .halt ∧
    decodeTableWord 32 0x844A000D = some (.idget 0x4A 0xD) ∧ decodeTableWord 32 0x85009343 = some (.acqW 0x93 1 3) ∧
    decodeTableWord 32 0x864A9343 = some (.acqF 0x4A 0x93 1 3) ∧ decodeTableWord 32 0x87009343 = some (.rel 0x93 1 3) ∧
    decodeTableWord 32 0x870000C0 = some .relAll ∧ decodeTableWord 32 0x884A9343 = some (.claimqHeld 0x4A 0x93 1 3) ∧
    decodeTableWord 32 0x884A9353 = some (.claimqRem 0x4A 0x93 1 3) ∧ decodeTableWord 32 0x884A9363 = some (.claimqFree 0x4A 0x93 1 3) ∧
    decodeTableWord 32 0x884A9372 = some (.claimqGran 0x4A 0x93 2) ∧ decodeTableWord 32 0x894A9300 = some (.launch 0x4A 0x93) ∧
    decodeTableWord 32 0x8A00BEEF = some (.ckpt 0xBEEF) := by
  decide +kernel

/-- Words of the opcodes 0x90 to 0x9F, written out from the formats and the opcode map (R253, R258, R259, R262, R314): counters, triggers, collectives, queues and copies. -/
theorem test_decode_9x :
    decodeTableWord 32 0x900093E5 = some (.ctrAdd 0x93 0xE5) ∧ decodeTableWord 32 0x910093E5 = some (.ctrSet 0x93 0xE5) ∧
    decodeTableWord 32 0x924A9300 = some (.ctrRead 0x4A 0x93) ∧ decodeTableWord 32 0x930093E5 = some (.ctrWait 0x93 0xE5) ∧
    decodeTableWord 32 0x940093E5 = some (.ctrAddr 0x93 0xE5) ∧ decodeTableWord 32 0x954A93E5 = some (.trigPost 0x4A 0x93 0xE5) ∧
    decodeTableWord 32 0x964A9300 = some (.trigCancel 0x4A 0x93) ∧ decodeTableWord 32 0x974A93E5 = some (.trigQuery 0x4A 0x93 0xE5) ∧
    decodeTableWord 32 0x984A9300 = some (.collArm 0x4A 0x93) ∧ decodeTableWord 32 0x994A93E5 = some (.collPut 0x4A 0x93 0xE5) ∧
    decodeTableWord 32 0x9A4A9300 = some (.collGetr 0x4A 0x93) ∧ decodeTableWord 32 0x9B0093E5 = some (.nqSend 0x93 0xE5) ∧
    decodeTableWord 32 0x9C4A9300 = some (.nqRecv 0x4A 0x93) := by
  decide +kernel

/-- Words of the opcodes 0xA0 to 0xAF, written out from the formats and the opcode map (R253, R258, R259, R262, R314): loop registers and the engine. -/
theorem test_decode_Ax :
    decodeTableWord 32 0xA00093E5 = some (.cpost 0x93 0xE5) ∧ decodeTableWord 32 0xA14A9300 = some (.cquery 0x4A 0x93) ∧
    decodeTableWord 32 0xA2009300 = some (.ccancel 0x93) ∧ decodeTableWord 32 0xA3009306 = some (.lset 0x93 6) ∧
    decodeTableWord 32 0xA44A0006 = some (.lget 0x4A 6) ∧ decodeTableWord 32 0xA5009300 = some (.mzero 0x93) ∧
    decodeTableWord 32 0xA60093E5 = some (.mload 0x93 0xE5) ∧ decodeTableWord 32 0xA70093E5 = some (.mstore 0x93 0xE5) ∧
    decodeTableWord 32 0xA80093E5 = some (.mdrain 0x93 0xE5) ∧ decodeTableWord 32 0xA94A0000 = some (.mcapr 0x4A) := by
  decide +kernel

/-- Words of the opcodes 0xB0 to 0xBF, written out from the formats and the opcode map (R253, R258, R259, R262, R314): integer lanes. -/
theorem test_decode_Bx :
    decodeTableWord 32 0xB0965BB8 = some (.vadd 9 6 5 0xB 2 1 1 1) ∧ decodeTableWord 32 0xB1965BB8 = some (.vsub 9 6 5 0xB 2 1 1 1) ∧
    decodeTableWord 32 0xB2965BB8 = some (.vmul 9 6 5 0xB 2 1 1 1) ∧ decodeTableWord 32 0xB3965C90 = some (.vmulh 9 6 5 0xC 2 0 1) ∧
    decodeTableWord 32 0xB4965C90 = some (.vmin 9 6 5 0xC 2 0 1) ∧ decodeTableWord 32 0xB5965C90 = some (.vmax 9 6 5 0xC 2 0 1) ∧
    decodeTableWord 32 0xB6965C90 = some (.vand 9 6 5 0xC 2 0 1) ∧ decodeTableWord 32 0xB7965C90 = some (.vor 9 6 5 0xC 2 0 1) ∧
    decodeTableWord 32 0xB8965C90 = some (.vxor 9 6 5 0xC 2 0 1) ∧ decodeTableWord 32 0xB9965C90 = some (.vshl 9 6 5 0xC 2 0 1) ∧
    decodeTableWord 32 0xBA965C90 = some (.vshr 9 6 5 0xC 2 0 1) ∧ decodeTableWord 32 0xBB965C90 = some (.vsra 9 6 5 0xC 2 0 1) ∧
    decodeTableWord 32 0xBC960AA8 = some (.vabs 9 6 0xA 2 1 1) ∧ decodeTableWord 32 0xBD365B94 = some (.vcmp 3 6 5 0xB 2 1 4) ∧
    decodeTableWord 32 0xBE965B90 = some (.vsel 9 6 5 0xB 2 1) ∧ decodeTableWord 32 0xBF9609A0 = some (.vpopc 9 6 9 2 1) := by
  decide +kernel

/-- Words of the opcodes 0xC0 to 0xCF, written out from the formats and the opcode map (R253, R258, R259, R262, R314): floating-point lanes. -/
theorem test_decode_Cx :
    decodeTableWord 32 0xC09651B3 = some (.vfadd 9 6 5 1 2 1 1 3) ∧ decodeTableWord 32 0xC19651B3 = some (.vfsub 9 6 5 1 2 1 1 3) ∧
    decodeTableWord 32 0xC29651B3 = some (.vfmul 9 6 5 1 2 1 1 3) ∧ decodeTableWord 32 0xC39651B3 = some (.vfma 9 6 5 1 2 1 1 3) ∧
    decodeTableWord 32 0xC49651B3 = some (.vfms 9 6 5 1 2 1 1 3) ∧ decodeTableWord 32 0xC59651B0 = some (.vfmin 9 6 5 1 2 1 1) ∧
    decodeTableWord 32 0xC69651B0 = some (.vfmax 9 6 5 1 2 1 1) ∧ decodeTableWord 32 0xC79601A0 = some (.vfabs 9 6 1 2 1) ∧
    decodeTableWord 32 0xC8365194 = some (.vfcmp 3 6 5 1 2 1 4) ∧ decodeTableWord 32 0xC9962095 = some (.vcvt 9 6 2 0 2 1 0 5) ∧
    decodeTableWord 32 0xCA9601A3 = some (.vrcp 9 6 1 2 1 3) ∧ decodeTableWord 32 0xCB9601A3 = some (.vrsq 9 6 1 2 1 3) ∧
    decodeTableWord 32 0xCC9601A3 = some (.vexp2 9 6 1 2 1 3) ∧ decodeTableWord 32 0xCD9601A3 = some (.vlog2 9 6 1 2 1 3) ∧
    decodeTableWord 32 0xCE9601A3 = some (.vtanh 9 6 1 2 1 3) ∧ decodeTableWord 32 0xCF660283 = some (.vfsum 6 6 0 2 2 3) := by
  decide +kernel

/-- Words of the opcodes 0xD0 to 0xDF, written out from the formats and the opcode map (R253, R258, R259, R262, R314): blocks of memory and lane movement. -/
theorem test_decode_Dx :
    decodeTableWord 32 0xD09607A6 = some (.vld 9 6 7 2 1 6) ∧ decodeTableWord 32 0xD1960786 = some (.vst 9 6 7 2 6) ∧
    decodeTableWord 32 0xD296070E = some (.vldf 9 6 7 1 6) ∧ decodeTableWord 32 0xD3960706 = some (.vstf 9 6 7 6) ∧
    decodeTableWord 32 0xD497DDA6 = some (.vgather 9 7 0xD 0xD 2 1 6) ∧ decodeTableWord 32 0xD597DD86 = some (.vscatter 9 7 0xD 0xD 2 6) ∧
    decodeTableWord 32 0xD6967BA0 = some (.vbcast 9 6 7 0xB 2 1) ∧ decodeTableWord 32 0xD76E3B00 = some (.vext 6 0xE 3 0xB) ∧
    decodeTableWord 32 0xD8E63B00 = some (.vins 0xE 6 3 0xB) ∧ decodeTableWord 32 0xD996DBA0 = some (.vperm 9 6 0xD 0xB 2 1) ∧
    decodeTableWord 32 0xDA660B85 = some (.vred 6 6 0 0xB 2 5) ∧ decodeTableWord 32 0xDB960BA1 = some (.vscan 9 6 0 0xB 2 1 1) ∧
    decodeTableWord 32 0xDC321703 = some (.mop 3 2 1 7 3) ∧ decodeTableWord 32 0xDD970BA0 = some (.vsplat 9 7 0xB 2 1) := by
  decide +kernel

/-- Words of the opcodes 0xE0 to 0xEF, written out from the formats and the opcode map (R253, R258, R259, R262, R314): two words. -/
theorem test_decode_Ex :
    decodeTableWord 64 0x87654321E04A0000 = some (.li 0x4A 0x87654321) ∧ decodeTableWord 64 0x87654321E14A0000 = some (.lih 0x4A 0x87654321) ∧
    decodeTableWord 64 0x87654321E24A9300 = some (.addl 0x4A 0x93 0x87654321) ∧ decodeTableWord 64 0x0000B123E34A0000 = some (.getc 0x4A 0xB123) ∧
    decodeTableWord 64 0x0000B123E4009300 = some (.setc 0x93 0xB123) ∧ decodeTableWord 64 0x0000431EE54A93AC = some (.mma 0x4A 0x93 2 5 1 4 3 30) ∧
    decodeTableWord 64 0xD0009C01E64A93E0 = some (.mmaIdx 0x4A 0x93 3 4 0 13 9 0xC 1) ∧
    decodeTableWord 64 0x0000002BE74A93B8 = some (.segset 0x4A 0x93 5 6 0x2B) ∧
    decodeTableWord 64 0x87654321E84A93C5 = some (.ldl 0x4A 0x93 6 5 0x87654321) ∧
    decodeTableWord 64 0x87654321E94A93C2 = some (.stl 0x4A 0x93 6 2 0x87654321) ∧
    decodeTableWord 64 0x87654321EA4A9300 = some (.trigPostl 0x4A 0x93 0x87654321) := by
  decide +kernel

/-- Words that the spec's examples write out (R286, R297, R304, R314, R324, R335 and others), and words it calls no instruction (R263): a reserved
specifier, a b that must be 0, a shift above 63, an odd pair, an opcode without an entry; the zero word is the illegal instruction. -/
theorem test_decode_spec_words :
    decodeTableWord 32 0x200C0C01 = some (.addi 0x0C 0x0C 1) ∧ decodeTableWord 32 0x85000241 = some (.acqW 2 1 1) ∧
    decodeTableWord 32 0xB0123B40 = some (.vadd 1 2 3 0xB 1 0 0 0) ∧ decodeTableWord 32 0xB0123BB8 = some (.vadd 1 2 3 0xB 2 1 1 1) ∧
    decodeTableWord 32 0xC3456000 = some (.vfma 4 5 6 0 0 0 0 0) ∧ decodeTableWord 64 0x00000300E3090000 = some (.getc 9 0x300) ∧
    decodeTableWord 64 0x000186A0E80A0B26 = some (.ldl 10 11 1 6 100000) ∧ decodeTableWord 64 0x00000001E70C0D44 = some (.segset 12 13 2 1 1) ∧
    decodeTableWord 64 0x00000003E4000200 = some (.setc 2 3) ∧ decodeTableWord 32 0xC9780318 = some (.vcvt 7 8 0 3 0 1 1 0) ∧
    decodeTableWord 32 0 = some (.illegalInstruction 0) ∧
    (∀ w ∈ [0x010001F8, 0x18000201, 0x24030340, 0x470B0000, 0xF0123456], (decodeTableWord 32 w).all (fun i => !i.wf) = true) := by
  decide +kernel

/-- One ill-formed term for each check of `Instr.wf`, which the check refuses, and a well-formed neighbour (R254-R257, R263). -/
theorem test_wf_operands :
    (Instr.add 1 2 248).wf = false ∧ (Instr.add 1 2 247).wf = true ∧ (Instr.ldr64 7 1 0 0).wf = false ∧ (Instr.ldr64 8 1 0 0).wf = true ∧
    (Instr.ld128 11 1 0 0).wf = false ∧ (Instr.ld128 12 1 0 0).wf = true ∧ (Instr.vadd 15 0 0 9 0 0 0 0).wf = false ∧
    (Instr.vadd 14 0 0 9 0 0 0 0).wf = true ∧ (Instr.vext 8 0 0 0).wf = false ∧ (Instr.vext 7 0 0 0).wf = true ∧
    (Instr.vadd 0 0 8 9 0 0 1 0).wf = false ∧ (Instr.vadd 0 0 8 9 0 0 0 0).wf = true := by decide

/-- The same for types, rounding codes and selectors. -/
theorem test_wf_types :
    (Instr.vadd 0 0 0 8 0 0 0 0).wf = false ∧ (Instr.vfadd 0 0 0 3 0 0 0 0).wf = false ∧ (Instr.vfadd 0 0 0 2 0 0 0 5).wf = false ∧
    (Instr.vfadd 0 0 0 2 0 0 0 4).wf = true ∧ (Instr.vgather 0 0 0 9 0 0 0).wf = false ∧ (Instr.vgather 0 0 0 0xA 0 0 0).wf = true ∧
    (Instr.vcvt 0 0 0 1 0 2 0 0).wf = false ∧ (Instr.vcvt 0 0 0 1 0 1 0 5).wf = true ∧ (Instr.vcvt 0 0 0 1 0 1 0 6).wf = false ∧
    (Instr.vcvt 0 0 9 8 0 0 0 0).wf = false ∧ (Instr.vsel 0 0 0 15 0 0).wf = false ∧ (Instr.vcmp 0 0 0 9 0 0 0).wf = false ∧
    (Instr.vcmp 1 0 0 9 0 0 6).wf = false ∧ (Instr.vcmp 1 0 0 9 0 0 5).wf = true ∧ (Instr.vperm 0 0 0 7 0 0).wf = false ∧
    (Instr.vred 0 0 1 9 0 0).wf = false ∧ (Instr.vred 0 0 0 9 0 6).wf = false ∧ (Instr.vscan 0 0 0 9 0 0 3).wf = false ∧
    (Instr.vscan 0 0 0 0 0 0 3).wf = true ∧ (Instr.mop 0 1 1 9 0).wf = false ∧ (Instr.mop 1 1 1 9 4).wf = false ∧ (Instr.mop 1 1 0 9 5).wf = false := by decide

/-- The same for strands, claims, the engine and the two-word forms. -/
theorem test_wf_fields :
    (Instr.fenceAcq 5).wf = false ∧ (Instr.fenceAcq 4).wf = true ∧ (Instr.start 1 1 0).wf = false ∧ (Instr.start 1 1 12).wf = true ∧
    (Instr.join 13).wf = false ∧ (Instr.idget 1 7).wf = false ∧ (Instr.idget 1 0x13).wf = true ∧ (Instr.acqW 1 3 0).wf = false ∧
    (Instr.acqW 1 0 1).wf = false ∧ (Instr.acqW 1 1 3).wf = true ∧ (Instr.mma 1 1 0 6 1 3 3 1).wf = false ∧ (Instr.mma 1 1 0 5 1 3 3 1).wf = true ∧
    (Instr.mma 1 1 0 0 1 9 9 1).wf = false ∧ (Instr.mma 1 1 0 0 0 1 2 1).wf = false ∧ (Instr.mma 1 1 0 0 0 3 3 0).wf = false ∧
    (Instr.mma 1 1 0 0 0 3 3 33).wf = false ∧ (Instr.mmaIdx 1 1 0 0 0 15 3 3 1).wf = false ∧ (Instr.ldl 1 1 0 7 0).wf = false := by decide

/-- The same for the arguments of events. -/
theorem test_wf_events :
    (Instr.powerGood 20).wf = false ∧ (Instr.powerGood 5120).wf = false ∧ (Instr.powerGood 4883).wf = true ∧ (Instr.vectorQueueTake (20 * 16)).wf = false ∧
    (Instr.vectorResult (20 * 256)).wf = false ∧ (Instr.levelChangeComplete 80).wf = false ∧ (Instr.abortComplete 0 32).wf = false ∧
    (Instr.stridePrefetch 0 16 1).wf = false ∧ (Instr.replayEntryEnd 0 32).wf = false ∧ (Instr.smMapWrite 0 100 0).wf = false ∧
    (Instr.permitWrite 0 4 0).wf = false ∧ (Instr.counterWindowStore 0 1024 0).wf = false ∧ (Instr.triggerFire 0 512).wf = false ∧
    (Instr.hostCmdDrain 2 64).wf = false ∧ (Instr.trellisDeliver 0 .oak 256).wf = false ∧ (Instr.tick 10 0).wf = false ∧ (Instr.tick 0 10).wf = false ∧
    (Instr.offsetProbe 0 4).wf = false ∧ (Instr.flitProtocolError 0 0 .oak []).wf = false := by decide

/-- The example of R38: `add z, a1, a2` keeps nothing and moves pc by 4; a step runs it from the word in memory. -/
theorem test_step_add_z : (match step (base.withFetchWord 32 0x01000102) with
    | .next t => t.me.reg 0 == 0 && t.me.pc == base.me.pc + 4
    | _ => false) = true := by decide +kernel

/-- Division by zero and of the least number by -1 (R246). -/
theorem test_div_corners :
    let s := base.modStrand 0 fun x => { x with regs := [(1, 0x8000000000000000), (2, 0xFFFFFFFFFFFFFFFF)] }
    let val (o : Host.Outcome State Fault Refusal) : Word := match o with | .next t => t.me.reg 3 | _ => 7
    val (exec (.divI 3 1 2) s) = 0x8000000000000000 ∧ val (exec (.remI 3 1 2) s) = 0 ∧ val (exec (.divI 3 1 0) s) = 0xFFFFFFFFFFFFFFFF ∧
      val (exec (.remN 3 2 0) s) = 0xFFFFFFFFFFFFFFFF := by
  intros; and_intros <;> decide +revert +kernel

/-- The check value of CRC-32C for the bytes "123456789" (R401 gives the polynomial, the start and the final XOR). -/
theorem test_crc32c : crc32c [0x31, 0x32, 0x33, 0x34, 0x35, 0x36, 0x37, 0x38, 0x39] = 0xE3069283 := by decide +kernel

/-- The head words of the example of R410: slot 0 of core 0 on (2,4) adds 1 at offset 0x80 of b0 of (5,4). -/
theorem test_flit_head :
    let m : Msg := { id := 0, op := .req (.amo .add), mesh := some .oak, src := siteAt 2 4, dst := siteAt 5 4, unit := 0, off := 0x80, len := 8,
                     data := leBytes 8 1, en := 0xFF, key := 0x040200, txn := 0x12 }
    m.head 5 { cv := false, ccl := 0, crd := 0, av := false, ack := 0, rq := false } =
      [0x1004000000000005, 0x0000000000000080, 0x0402040500040200, 0x0001001200000000] := by decide +kernel

/-! ## Witnesses: states and operands that meet the hypotheses of the statements -/

/-- `DecodeOfEncode`, `EncodeOfDecode`: an instruction that is well formed and has an encoding, with bytes behind it. -/
theorem witness_DecodeOfEncode :
    encode (.add 0 1 2) ≠ [] ∧ (Instr.add 0 1 2).wf = true ∧
      (match decode [2, 1, 0, 1, 9] with | .ok p => decide (p = (.add 0 1 2, [9])) | _ => false) = true := by decide +kernel

/-- `StepRunsWord`: a cycle at the head of the agenda or none, a strand that issues, a short word and a long form at its pc. -/
theorem witness_StepRunsWord :
    let bytes (f : Fetched) : List Byte := match f with | .word _ w => w | _ => []
    let at_ (f : Fetched) : Nat := match f with | .word a _ => a | _ => 0
    let l := base.withFetchWord 64 0x00010000E00C0000
    NextIs base 0 [] ∧ NextIs { base with agenda := [.cycle 0] } 0 [] ∧ Issues base 0 0 ∧ Issues l 0 0 ∧
      (Instr.add 0 1 2).wf = true ∧ (Instr.li 0x0C 0x10000).wf = true ∧
      (∃ u, exec (.add 0 1 2) ((atTurn base 0 []).readClean (coreOfK 0) (at_ ((atTurn base 0 []).fetchWord 0 (base.strand 0).pc))) = .next u) ∧
      bytes ((atTurn base 0 []).fetchWord 0 (base.strand 0).pc) = [0x02, 0x01, 0x00, 0x01] ∧
      bytes ((atTurn l 0 []).fetchWord 0 (l.strand 0).pc) = [0x00, 0x00, 0x0C, 0xE0] ∧
      bytes (((atTurn l 0 []).readClean (coreOfK 0) 0x10000000).fetchWord 0 ((l.strand 0).pc + 4)) = [0x00, 0x00, 0x01, 0x00] ∧
      at_ ((atTurn l 0 []).fetchWord 0 (l.strand 0).pc) = 0x10000000 := by
  unfold NextIs Issues; intros; and_intros <;> first | decide +revert +kernel | exact ⟨_, rfl⟩

/-- `StepRunsEvent`: an event at the head of the agenda, an instruction there, and a late fault there. -/
theorem witness_StepRunsEvent :
    encode (.watchdogExpiry 0) = [] ∧ ofTurn (.watchdogExpiry 0) = false ∧ encode (.add 0 1 2) ≠ [] ∧ ofTurn (.copyBeat 0 1) = true ∧
      ({ base with agenda := [.event (.watchdogExpiry 0)] }).agenda = .event (.watchdogExpiry 0) :: [] := by
  and_intros <;> decide +revert +kernel

/-- `StepKeepsSound`: a state with a strand at work is sound, and steps. -/
theorem witness_StepKeepsSound : Sound base ∧ ∃ t, step base = .next t :=
  ⟨by unfold Sound Rising; decide +kernel, _, rfl⟩

/-- `MemoryLaws`: a memory in canonical form that lists a byte. -/
theorem witness_MemoryLaws : Memory.wf [(4, 7)] = true := by decide

/-- `IntegerForms`, `DivisionsShiftsFields`, `LoopsAndIdentity`: the registers are ready, z among them; the divisor is 0 or not. -/
theorem witness_IntegerForms :
    Ready ready [4, 1, 2] ∧ Ready ready [0, 0, 0] ∧ ready.val 0 = 0 ∧ ready.val 2 ≠ 0 := by unfold Ready; and_intros <;> decide +revert +kernel

/-- `UnheldThenPending`, `IntegerFrame`: a register above the window, a pending one, and completion. -/
theorem witness_UnheldThenPending :
    intDest (.add 4 1 2) = some 4 ∧ (∃ r ∈ intNames (.add 4 1 100), pending.me.holds r.toNat = false) ∧
      (∀ r ∈ intNames (.add 4 1 9), pending.me.holds r.toNat = true) ∧ (∃ r ∈ intNames (.add 4 1 9), pending.me.pend.contains r.toNat = true) ∧
      ∃ t, exec (.add 4 1 2) ready = .next t := by
  and_intros <;> first | decide +revert +kernel | exact ⟨_, rfl⟩

/-- `Branches`: a register that is a multiple of 4 and one that is not. -/
theorem witness_Branches :
    Ready ready [0, 1] ∧ (ready.val 1).extractLsb' 0 2 = 0 ∧ Ready ready [0, 4] ∧ (ready.val 4).extractLsb' 0 2 ≠ 0 := by
  unfold Ready; and_intros <;> decide +revert +kernel

/-- `Traps`: trap registers set or not, a relaxed access outstanding or not, each mode. -/
theorem witness_Traps :
    ((trapSet ready).core (coreOfK 0)).trapUnset = false ∧ (trapSet ready).me.tracker = [] ∧ (trapSet ready).me.pc.extractLsb' 0 2 = 0 ∧
      (ready.core (coreOfK 0)).trapUnset = true ∧ ready.me.sup = false ∧ super.me.sup = true ∧
      ((trapSet tracked).core (coreOfK 0)).trapUnset = false ∧ (trapSet tracked).me.tracker ≠ [] := by
  and_intros <;> decide +revert +kernel

/-- `FaultsTaken`: supervisor mode with the trap registers set, and user mode with an empty event hold. -/
theorem witness_FaultsTaken :
    Code.segment ≠ Code.pageFault ∧ (trapSet super).me.sup = true ∧ ((trapSet super).core (coreOfK 0)).trapUnset = false ∧
      (trapSet super).me.tracker = [] ∧ ready.me.sup = false ∧ ready.me.st ≠ .free ∧ slotOf ready.cur < 13 ∧
      ready.holdFull (siteOfK 0) (16 + coreNo 0) = false := by
  and_intros <;> decide +revert +kernel

/-- `SegmentChecks`: a segment inside its source, one outside it, and supervisor mode. -/
theorem witness_SegmentChecks :
    let inside (s : State) (d a : BitVec 8) : Prop :=
      let n : Seg := { base := (s.val d).setWidth 60, limit := (s.val a).setWidth 48, rights := 1 }
      let p := s.me.seg 1
      p.base.toNat ≤ n.base.toNat ∧ n.base.toNat + n.limit.toNat ≤ p.base.toNat + p.limit.toNat ∧
        n.base.extractLsb' 57 3 = p.base.extractLsb' 57 3 ∧ (∀ i, i < 6 → (1 : BitVec 6).getLsbD i = true → p.rights.getLsbD i = true) ∧
        (1 : BitVec 6).getLsbD 5 = false
    Ready ready [1, 4] ∧ inside ready 1 4 ∧ Ready ready [3, 4] ∧ ¬inside ready 9 4 ∧ Ready super [3, 4] ∧ super.me.sup = true ∧
      ready.me.sup = false := by unfold Ready; intros; and_intros <;> decide +revert +kernel

/-- `CacheHits`: a load, a pair and a store that the L1D serves. -/
theorem witness_CacheHits :
    let l : Line := { line := 0, data := (List.range 128).map (BitVec.ofNat 8 ·), mark := true }
    Ready cached [8, 8 + 1, 1] ∧ pairOk 8 = true ∧ Reaches cached 1 (mOff 1 0 8 cached) 8 rR 8 8 ∧ Reaches cached 1 (mOff 0 1 16 cached) 16 rR 16 16 ∧
      Reaches cached 1 (((cached.val 1).toNat + 8) % 2 ^ 64) (2 ^ 3) rW (2 ^ 3) 16 ∧ Reaches cached 1 (mOff 1 0 1 cached) 1 rW 1 8 ∧
      Cached cached 8 l ∧ Cached cached 16 l ∧ l.mark = true := by
  unfold Ready Reaches Cached; intros; and_intros <;> decide +revert +kernel

/-- `AccessesAsk`: a placed and a host address within reach, and full/empty operations where no full/empty operation of the core is on its way. -/
theorem witness_AccessesAsk :
    Ready ready [8, 8 + 1, 1] ∧ pairOk 8 = true ∧ Reaches ready 2 (mOff 1 0 8 ready) 8 rR 8 (storeAddr + 8) ∧ kindBits (storeAddr + 8).toNat ≠ 0 ∧
      Reaches ready 3 (mOff 1 0 8 ready) 8 rR 8 0x600000000000008 ∧ kindBits (0x600000000000008 : Addr).toNat ≠ 0 ∧
      Reaches ready 2 (mOff 0 1 16 ready) 16 rR 16 (storeAddr + 16) ∧
      Reaches ready 2 (mOff 0 1 16 ready) 16 (rW + rF) 16 (storeAddr + 16) ∧ Reaches ready 2 (mOff 1 0 8 ready) 8 (rR + rF) 8 (storeAddr + 8) ∧
      Reaches ready 2 (mOff 1 0 8 ready) 8 (rR + rW + rA) 8 (storeAddr + 8) ∧ ready.feCore (siteOfK 0) (storeAddr + 8) false = false ∧
      Reaches ready 2 (((ready.val 1).toNat + 8) % 2 ^ 64) (2 ^ 3) rW (2 ^ 3) (storeAddr + 16) := by
  unfold Ready Reaches; and_intros <;> decide +revert +kernel

/-- `RelaxedAndFaults`: room in the tracker, none, a check that fails, and no permit. -/
theorem witness_RelaxedAndFaults :
    Ready ready [4, 1] ∧ Reaches ready 2 (mOff 1 0 8 ready) 8 rR 8 (storeAddr + 8) ∧ kindBits (storeAddr + 8).toNat ≠ 0 ∧ ready.me.tracker.length < 8 ∧
      Ready tracked [4, 1] ∧ Reaches tracked 2 (mOff 1 0 8 tracked) 8 (rW + rA) 8 (storeAddr + 8) ∧ 8 ≤ tracked.me.tracker.length ∧
      slotOf ready.cur ≠ walkSlot ∧ ready.hasPermit (coreOfK ready.cur) .memory = true ∧
      ready.checkAccess ready.cur (ready.me.seg 4) (mOff 1 0 8 ready) 8 rR 8 = .error (.segment, some (storeAddr + 8)) ∧
      ready.checkAccess ready.cur (ready.me.seg 4) (mOff 1 0 8 ready) 8 rW 8 = .error (.segment, some (storeAddr + 8)) ∧
      Ready noPermit [4, 1] ∧ noPermit.hasPermit (coreOfK noPermit.cur) .memory = false := by
  unfold Ready Reaches; and_intros <;> decide +revert +kernel

/-- `HomeReadsAndWrites`: requests of each form that their home serves. -/
theorem witness_HomeReadsAndWrites :
    Memory.wf (arrived (note (.req .read))).mem = true ∧ (note (.req .write)).data.length = (note (.req .write)).len ∧
      Serves (arrived (note (.req .read))) 7 (note (.req .read)) .read false ∧ Serves (arrived (note (.req .write))) 7 (note (.req .write)) .write false ∧
      Serves (arrived (note (.req .nibble))) 7 (note (.req .nibble)) .nibble false ∧
      Serves (arrived (note (.req .writeFull))) 7 (note (.req .writeFull)) .writeFull true ∧
      ((arrived (note (.req .writeFull))).site 0).waits = [] := by
  unfold Serves; and_intros <;> decide +revert +kernel

/-- `FullEmpty`: a full granule and an empty one under each operation, at a home where nothing waits, and a table with 256 records. -/
theorem witness_FullEmpty :
    let e (op : ReqOp) := arrived (note (.req op))
    let f (op : ReqOp) := filled (e op)
    let v (c : Bool) : Msg := { note (.req (.vldf c)) with len := 128 }
    let many := (e .ldf).modSite 0 fun x => { x with waits := List.replicate 256 { unit := 0, granule := 9, order := 0, op := .ldf, off := 0, data := [], src := 0, txn := 4 } }
    Memory.wf (f .ldf).mem = true ∧ ((f .ldf).site 0).waits = [] ∧ (note (.req .stef)).data.length = 8 ∧
      Serves (f .ldf) 7 (note (.req .ldf)) .ldf true ∧ (f .ldf).isFull 0 0 4 = true ∧ Serves (f .ldfc) 7 (note (.req .ldfc)) .ldfc true ∧
      Serves (f .ldfn) 7 (note (.req .ldfn)) .ldfn true ∧ Serves (e .stef) 7 (note (.req .stef)) .stef true ∧ (e .stef).isFull 0 0 4 = false ∧
      Serves (f .clre) 7 (note (.req .clre)) .clre true ∧ Serves (f .setf) 7 (note (.req .setf)) .setf true ∧
      Serves (filled (arrived (v true))) 7 (v true) (.vldf true) true ∧ (∀ j, j < 8 → (filled (arrived (v true))).isFull 0 0 (4 + j) = true) ∧
      (e .ldf).txn (note (.req .ldf)).txn = some (trans .read) ∧ (trans .read).acc.owner.gone = false ∧
      ((e .ldf).gang (siteOfK 0) ((e .ldf).strand 0).entry).expired = false ∧
      Serves (e .ldf) 7 (note (.req .ldf)) .ldf true ∧ (e .ldf).isFull 0 0 4 = false ∧ Serves (e .ldfc) 7 (note (.req .ldfc)) .ldfc true ∧
      Serves (f .stef) 7 (note (.req .stef)) .stef true ∧ (f .stef).isFull 0 0 4 = true ∧
      Serves (arrived (v false)) 7 (v false) (.vldf false) true ∧ (arrived (v false)).isFull 0 0 4 = false ∧
      Serves many 7 (note (.req .ldf)) .ldf true ∧ many.isFull 0 0 4 = false ∧ 256 ≤ (many.site 0).tableLoad 0 := by
  unfold Serves; intros; and_intros <;> decide +revert +kernel

/-- `HomeAtomics`: an atomic of each kind that its home serves. -/
theorem witness_HomeAtomics :
    Memory.wf (filled (arrived (note (.req (.amo .add))))).mem = true ∧
      (∀ o ∈ [AmoOp.add, .minI, .maxI, .minN, .maxN, .and, .or, .xor],
        Serves (filled (arrived (note (.req (.amo o))))) 7 (note (.req (.amo o))) (.amo o) false) ∧
      ∀ o ∈ [FamoOp.add, .or, .swap, .cas], Serves (filled (arrived (note (.req (.famo o))))) 7 (note (.req (.famo o))) (.famo o) false := by
  unfold Serves; and_intros <;> decide +revert +kernel

/-- `RepliesComplete`: a strand parked for each kind of reply, and an error response. -/
theorem witness_RepliesComplete :
    let a (c : Cont) := awaiting c .data
    let e := awaiting (.load .w64 8 4) (.error 7)
    Replied (a (.load .w64 8 4)) 7 (note .data) .data (trans .read) ∧ (trans .read).acc.owner = .strand 0 ∧
      ((a (.load .w64 8 4)).strand 0).st = .parked ∧ ((a (.load .w64 8 4)).gang (siteOfK 0) ((a (.load .w64 8 4)).strand 0).entry).halting = false ∧
      ((a (.load .w64 8 4)).strand 0).cont = .load .w64 (8 : BitVec 8).toNat 4 ∧ Replied (a (.pair 8 4)) 7 (note .data) .data (trans .read) ∧
      ((a (.pair 8 4)).strand 0).cont = .pair (8 : BitVec 8).toNat 4 ∧ Replied (a (.probe 8 4)) 7 (note .data) .data (trans .read) ∧
      ((a (.probe 8 4)).strand 0).cont = .probe (8 : BitVec 8).toNat 4 ∧ Replied (a (.old32 8 4)) 7 (note .data) .data (trans .read) ∧
      ((a (.old32 8 4)).strand 0).cont = .old32 (8 : BitVec 8).toNat 4 ∧ Replied (awaiting (.done 4) .ack) 7 (note .ack) .ack (trans .read) ∧
      ((awaiting (.done 4) .ack).strand 0).cont = .done 4 ∧ Replied e 7 (note (.error 7)) (.error 7) (trans .read) ∧ (trans .read).acc.kind ≠ 0 ∧
      (e.strand 0).cont = .load .w64 8 4 ∧ slotOf 0 ≠ walkSlot ∧ (e.core (coreOfK 0)).replays = [] ∧
      (e.gang (siteOfK 0) (e.strand 0).entry).expired = false := by
  unfold Replied; intros; and_intros <;> first | decide +revert +kernel | exact ⟨_, rfl⟩

/-- `Fences`: no relaxed access and some, clean and dirty caches, a write-back that is owed or none, and ranges of each kind. -/
theorem witness_Fences :
    let far := ready.modStrand 0 fun x => { x with regs := [(1, 128), (2, 0), (3, 0x2000)] }
    tracked.me.tracker ≠ [] ∧ dirty.me.tracker = [] ∧ (3 : BitVec 3).toNat ≤ 4 ∧ Clean (cached.core 0).l1d ∧ Clean (cached.site 0).slice ∧
      cached.unwritten 0 (cached.fenceTxns 3) = false ∧ (∀ l ∈ (dirty.core 0).l1d, l.flaw = 0) ∧ Ready far [1, 2, 3] ∧ (far.val 2).toNat = 0 ∧
      far.checkAccess 0 (far.me.seg 2) (mOff 2 0 128 far) 128 rR 1 = .ok storeAddr ∧ kindBits storeAddr.toNat ≠ 0 ∧ (far.val 1).toNat = 128 ∧
      far.checkAccess 0 (far.me.seg 1) (mOff 3 0 128 far) 128 rR 1 = .error (.segment, some 0x2000) ∧ slotOf far.cur ≠ walkSlot ∧
      far.checkAccess 0 (far.me.seg 1) (mOff 2 0 128 far) 128 rR 1 = .ok 0 ∧ kindBits (0 : Addr).toNat = 0 := by
  unfold Clean Ready; intros; and_intros <;> decide +revert +kernel

/-- `GangBarrier`: an arrival that waits for another crew, the one that ends the phase, and the two answers of `bar.wait`. -/
theorem witness_GangBarrier :
    let w (lead : Nat) := (awaiting .barAsk .ack).modGang 0 0 fun g => { g with leads := [(0, lead)] }
    ready.me.tracker = [] ∧ Replied (w 0) 7 (note .ack) .ack (trans .read) ∧ (trans .read).acc.owner = .strand 0 ∧ ((w 0).strand 0).st = .parked ∧
      ((w 0).strand 0).cont = .barAsk ∧ ((w 0).gang 0 ((w 0).strand 0).entry).halting = false ∧ ((w 0).gang 0 0).lead ((w 0).strand 0).crew = 0 ∧
      Replied (w 1) 7 (note .ack) .ack (trans .read) ∧ ((w 1).strand 0).cont = .barAsk ∧ ((w 1).gang 0 0).lead ((w 1).strand 0).crew ≠ 0 ∧
      (∀ n ∈ [0, 1], let s := arriving true n
        (s.strand 0).st = .parked ∧ (s.strand 0).cont = .arrive true ∧ (s.strand 0).entry = 0 ∧ (s.strand 0).crew ∈ (s.gang 0 0).live ∧
          (s.gang 0 0).lead (s.strand 0).crew < 3 ∧ (s.gang 0 0).halting = false ∧ 1 ∈ (s.gang 0 0).live ∧ 1 ≠ (s.strand 0).crew ∧
          (s.gang 0 0).lead 1 = n ∧ ∀ l ∈ (s.gang 0 0).live, l ≠ (s.strand 0).crew → n ≤ (s.gang 0 0).lead l) ∧
      (∀ p ∈ (arriving false 0).strands, p.2.cont = .reissue ∨ p.2.cont = .arrive false) ∧ ((arriving false 0).strand 0).cont = .arrive false := by
  unfold Replied; intros; and_intros <;> first | decide +revert +kernel | exact ⟨_, rfl⟩

/-- `MonitorsAndWatches`: a monitor that has fired, one that has not, one on its way; a heap granule to watch; fires; watches at the home. -/
theorem witness_MonitorsAndWatches :
    let fired := watching { fired := true }
    let waits := (watching {}).modStrand 0 fun x => { x with st := .parked, why := some .monitor, cont := .done 4 }
    let hit (s : State) : State := { s with net := [{ note (.monFire 0) with key := 0 }], nextId := 10 }
    let s (op : ReqOp) := watched (note (.req op))
    fired.me.monitor.fired = true ∧ fired.me.monitor.inFlight = [] ∧ (watching {}).me.monitor.fired = false ∧
      Ready fired [0] ∧ fired.checkAccess fired.cur (fired.me.seg 1) (mOff 0 1 16 fired) 16 rR 16 = .ok 16 ∧ kindBits (16 : Addr).toNat = 0 ∧
      (hit ready).arriving 7 = some { note (.monFire 0) with key := 0 } ∧ ((hit ready).strand 0).st ≠ .free ∧ ((hit ready).strand 0).st ≠ .parked ∧
      (hit waits).arriving 7 = some { note (.monFire 0) with key := 0 } ∧ ((hit waits).strand 0).st = .parked ∧
      ((hit waits).strand 0).why = some .monitor ∧ ((hit waits).strand 0).cont = .done 4 ∧ ((hit waits).strand 0).monitor.inFlight = [] ∧
      ((hit waits).gang 0 ((hit waits).strand 0).entry).halting = false ∧
      (s .monArm).txn 3 = some (trans .read) ∧ (note (.req .monArm)).txn = 3 ∧ Serves (s .monArm) 7 (note (.req .monArm)) .monArm false ∧
      (trans .read).acc.owner.gone = false ∧ (((s .monArm).site 0).watches.filter fun w => w.unit == 0).length < 128 ∧
      Serves (s .monClr) 7 (note (.req .monClr)) .monClr false ∧
      (∃ w ∈ ((s .write).site 0).watches, Serves (s .write) 7 (note (.req .write)) .write false ∧ w.unit = 0 ∧ 64 / 16 ≤ w.granule ∧
        (note (.req .write)).data.length = (note (.req .write)).len ∧ 0 < (note (.req .write)).len ∧
        w.granule ≤ (64 + (note (.req .write)).len - 1) / 16 ∧ (s .write).number w.k ≠ (note (.req .write)).key) := by
  unfold Ready Serves; intros; and_intros <;> decide +revert +kernel

/-- `Acquires`: too many units, none, a grant, a wait, and the two refusals of `acq.f`, for store granules and registers. -/
theorem witness_Acquires :
    let two (s : State) := s.modStrand 0 fun x => { x with st := .ready }
    (∀ s ∈ [two ready, two crowded, two unsafeState],
      Memory.wf s.mem = true ∧ Rising s.strands ∧ Rising s.cores ∧ Rising s.bowers ∧ Rising s.sites ∧ Rising (s.site 0).gangs ∧
      Ready s [5, 5] ∧ Ready s [2] ∧ s.myGang.st = .running ∧ (s.site 0).waiters = [] ∧ coreNo s.cur ∈ s.myGang.cores ∧ s.me.st ≠ .free ∧
      s.me.drain = false ∧ s.myGang.halting = false) ∧
      ready.remaining 0 (poolOf 0 0 0) < (ready.val 2).toNat ∧ (ready.val 0).toNat = 0 ∧ 0 < (ready.val 5).toNat ∧
      (∀ p ∈ [poolOf 0 0 0, poolOf 0 1 0, poolOf 0 2 0], (ready.val 5).toNat ≤ ready.remaining 0 p ∧ (ready.val 5).toNat ≤ ready.freeUnits 0 p ∧
        ready.safeGrant 0 ready.me.entry p (ready.val 5).toNat = true ∧ crowded.freeUnits 0 p < (crowded.val 5).toNat ∧
        (crowded.val 5).toNat ≤ crowded.remaining 0 p) ∧
      (unsafeState.val 5).toNat ≤ unsafeState.freeUnits 0 (poolOf 0 1 0) ∧ (unsafeState.val 5).toNat ≤ unsafeState.remaining 0 (poolOf 0 1 0) ∧
      unsafeState.safeGrant 0 unsafeState.me.entry (poolOf 0 1 0) (unsafeState.val 5).toNat = false := by
  unfold Rising Ready; intros; and_intros <;> decide +revert +kernel

/-- `Releases`: more than is held, none, a release that nothing delays, one that waits for relaxed accesses and one whose waits are over, and the
queries. -/
theorem witness_Releases :
    let again := ready.modStrand 0 fun x => { x with cont := .release 0 [(poolOf 0 1 0, 1)] }
    ready.relNamed = none ∧ tracked.relNamed = none ∧ tracked.me.tracker ≠ [] ∧ Ready tracked [5] ∧ 0 < (tracked.val 5).toNat ∧
      (tracked.val 5).toNat ≤ tracked.heldOf 0 (poolOf 0 1 0) ∧ again.me.cont = .release 0 [(poolOf 0 1 0, 1)] ∧ 1 ≤ again.heldOf again.cur (poolOf 0 1 0) ∧
      again.me.tracker = [] ∧ again.me.pend = [] ∧
      again.accBusy again.cur (if 20 ≤ poolOf 0 1 0 then again.heldOf again.cur (poolOf 0 1 0) - 1 else 4) = false ∧
      (again.site (siteOfK again.cur)).waiters = [] ∧
    Ready ready [4, 5] ∧ ready.heldOf 0 (poolOf 0 1 0) < (ready.val 4).toNat ∧ (ready.val 0).toNat = 0 ∧ 0 < (ready.val 5).toNat ∧
      (ready.val 5).toNat ≤ ready.heldOf 0 (poolOf 0 1 0) ∧ ready.me.tracker = [] ∧ ready.me.pend = [] ∧
      (ready.val 5).toNat ≤ ready.heldOf 0 (poolOf 0 2 0) ∧ ready.accBusy 0 (ready.heldOf 0 (poolOf 0 2 0) - 1) = false ∧
      ready.accBusy 0 4 = false ∧ ready.accBusy 0 0 = false ∧ (ready.site 0).waiters = [] := by
  unfold Ready; intros; and_intros <;> decide +revert +kernel

/-- `Helpers`: a free slot, a strand without control, a misaligned entry, and joins. -/
theorem witness_Helpers :
    let plain := ready.modStrand 0 fun x => { x with control := false }
    Ready ready [1, 1] ∧ ready.me.control = true ∧ ready.slotOpen 3 = true ∧ (ready.val 1).extractLsb' 0 2 = 0 ∧ slotKey (coreOfK 0) 3 ≠ 0 ∧
      Ready plain [1, 1] ∧ plain.me.control = false ∧ Ready ready [4, 4] ∧ (ready.val 4).extractLsb' 0 2 ≠ 0 ∧
      bitOn ready.myGang.desc.slotmask 3 = true ∧ 3 ≠ ready.myGang.desc.controlSlot ∧ ready.me.helpers.getLsbD 3 = false ∧
      helped.me.control = true ∧ bitOn helped.myGang.desc.slotmask 3 = true ∧ helped.me.helpers.getLsbD 3 = true := by
  unfold Ready; intros; and_intros <;> decide +revert +kernel

/-- `StrandsEnd`: a strand that waits at `end`, a helper whose starter joins it, a checkpoint with and without a pre-emption, an aborted gang. -/
theorem witness_StrandsEnd :
    let stuck : State := { stopping with flaws := [(homeKey 0 0 0 / 16, 1)] }.raise 0 0 sevNotice 1 none 0
    stuck.preempted stuck.cur = true ∧ stuck.me.tracker = [] ∧ stuck.me.st ≠ .free ∧ (stuck.liveEntry 0 stuck.myGang.desc.live 0).isSome = true ∧
      stuck.liveStalled 0 stuck.myGang.desc.live 0 = true ∧ stopping.liveStalled 0 stopping.myGang.desc.live 0 = false ∧
      Quiet stopping 0 (stopping.liveReads 0 stopping.myGang.desc.live 0) ∧
    slotOf tracked.cur < 13 ∧ tracked.me.tracker ≠ [] ∧ mailed.me.tracker = [] ∧ mailed.copying mailed.cur = true ∧
      slotOf helper.cur < 13 ∧ helper.me.tracker = [] ∧ helper.copying helper.cur = false ∧ helper.me.drain = false ∧ helper.myGang.st ≠ .free ∧
      helper.me.control = false ∧ (helper.site 0).waiters = [] ∧ slotKey (coreOfK helper.cur) helper.me.starter = 0 ∧ helper.cur ≠ 0 ∧
      (helper.strand 0).st = .parked ∧ (helper.strand 0).entry = helper.me.entry ∧ (helper.strand 0).cont = .join (slotOf helper.cur) ∧
      (helper.strand 0).helpers.getLsbD (slotOf helper.cur) = true ∧ helper.myGang.halting = false ∧
      ready.preempted ready.cur = false ∧ stopping.preempted stopping.cur = true ∧ stopping.me.tracker = [] ∧ stopping.me.st ≠ .free ∧
      (stopping.liveEntry 0 stopping.myGang.desc.live 0).isSome = true ∧
      Sound aborted ∧ (aborted.gang 0 0).st = .aborting ∧ (∀ k ∈ aborted.gangStrands 0 0, (aborted.strand k).st = .stopped) ∧
      (aborted.site 0).waiters = [] := by
  unfold Quiet Sound Rising; intros; and_intros <;> decide +revert +kernel

/-- `LoopsAndIdentity`: a nest that can open, one too large, a `next` in and out of the nest, and a claim. -/
theorem witness_LoopsAndIdentity :
    let total (s : State) := ((List.range 4).map fun j => (s.loop s.cur j).toNat).prod
    Ready ready [5] ∧ total nested < 2 ^ 64 ∧ nested.myGang.nest.isOpen = false ∧ 2 ^ 64 ≤ total hugeNest ∧
      (nested.fetcher 0 0).joined = false ∧ ((inNest 2 4).fetcher 0 0).joined = true ∧ (inNest 2 4).myGang.nest.isOpen = true ∧
      ((inNest 2 4).fetcher 0 0).f ≠ ((inNest 2 4).fetcher 0 0).h ∧ ((inNest 2 2).fetcher 0 0).joined = true ∧
      ((inNest 2 2).fetcher 0 0).f = ((inNest 2 2).fetcher 0 0).h ∧ (claiming.fetcher 0 0).claiming = true ∧ (claiming.fetcher 0 0).waiters = [0] ∧
      (claiming.fetcher 0 0).joined = true ∧ (claiming.strand 0).st = .parked ∧ (claiming.strand 0).cont = .next 0x10000040 ∧
      (claiming.gang 0 0).halting = false ∧ (claiming.liveCores 0 0).filter (fun d => (claiming.fetcher d 0).joined) = [coreOfK 0] ∧
      0 < (claiming.gang 0 0).nest.left := by
  unfold Ready; intros; and_intros <;> decide +revert +kernel

/-- `VectorLanes`, `VectorFloats`, `VectorReductions`: the registers of a form with two vectors and an anchor, and a permit of each class. -/
theorem witness_VectorLanes :
    intTy 11 = true ∧ lanesOf 11 ≠ 0 ∧ lanesOf 2 ≠ 0 ∧ ReadyN vectors (namesAB 1 2 0 3) ∧ ReadyN vectors (namesAB 1 2 1 3) ∧
      ReadyN vectors (vecRegs 1 ++ [2, 3]) ∧ ReadyN vectors (2 :: vecRegs 1) ∧ vectors.hasPermit (coreOfK vectors.cur) .vector = true ∧
      vectors.hasPermit (coreOfK vectors.cur) .sfu = true ∧ (0 : BitVec 3) ≠ 5 := by
  unfold ReadyN; and_intros <;> decide +revert +kernel

/-- `VectorUnit`: an operation to take, and one to complete. -/
theorem witness_VectorUnit :
    ((queued false).core 0).vq.find? (fun o => !o.taken) = some (vectorOp false) ∧ (vectorOp false).elems = [] ∧
      (queued true).vopOf 0 = some (vectorOp true) ∧ (vectorOp true).k = 0 ∧ (vectorOp true).taken = true ∧ (vectorOp true).elems = [] ∧
      (vectorOp true).fault = none ∧ (vectorOp true).dest = none ∧ ((queued true).core 0).vectorReplay 0 = false ∧
      (vectorOp true).result = { regs := vecWords 1 0x123456789ABCDEF0123456789 } ∧ ((queued true).strand 0).st = .parked ∧
      ((queued true).gang 0 ((queued true).strand 0).entry).halting = false := by
  and_intros <;> decide +revert +kernel

/-- A vector load of the strand in the unit, with one element, whose bytes are here or come with transaction 3. -/
def loading (done : Bool) : State :=
  let e : VElem := { ix := 0, acc := (trans .read).acc, pos := 0, done }
  let o : VOp := { k := 0, unit := .pipe, taken := true, elems := [e], dest := some { vd := 1, ty := 11, mask := 1, zero := false } }
  { (vectors.modCore 0 fun c => { c with vq := [o] }).modStrand 0 (fun x => { x with st := .parked, why := some .vector, cont := .engine }) with
    net := [note .data], txns := [{ trans .read with acc := { (trans .read).acc with owner := .element 0 0 } }], nextId := 10 }

/-- `VectorMemory`: the reply of an element, and a load whose elements are performed. -/
theorem witness_VectorMemory_ends :
    let x : Txn := { trans .read with acc := { (trans .read).acc with owner := .element 0 0 } }
    let o (b : Bool) : VOp := { k := 0, unit := .pipe, taken := true, elems := [{ ix := 0, acc := (trans .read).acc, pos := 0, done := b }],
                                dest := some { vd := 1, ty := 11, mask := 1, zero := false } }
    Replied (loading false) 7 (note .data) .data x ∧ x.acc.owner = .element 0 0 ∧ (loading false).vopOf 0 = some (o false) ∧
      ((o false).elems.find? (fun e => e.ix == 0)).isSome = true ∧ Rising (o false).buf ∧
      (loading true).vopOf 0 = some (o true) ∧ (∀ e ∈ (o true).elems, e.done = true) ∧ (o true).result = {} ∧ (o true).fault = none ∧
      ((loading true).core (coreOfK 0)).vectorReplay 0 = false ∧ ((loading true).strand 0).st = .parked ∧
      ((loading true).gang (siteOfK 0) ((loading true).strand 0).entry).halting = false := by
  unfold Replied Rising; intros; and_intros <;> first | decide +revert +kernel | exact ⟨_, rfl⟩

/-- `VectorMemory`: a block, a full/empty block, and lane addresses that pass their checks. -/
theorem witness_VectorMemory :
    let at_ (need align : Nat) := vectors.checkAccess vectors.cur (vectors.me.seg 2) (vectors.me.reg 0).toNat 128 need align = .ok storeAddr
    lanesOf 11 ≠ 0 ∧ MemReady vectors (vecRegs 1 ++ [0]) ∧ at_ rR 16 ∧ at_ rW 16 ∧ at_ (rR + rF) 128 ∧ at_ (rW + rF) 128 ∧
      vectors.feCore 0 storeAddr false = false ∧ MemReady vectors (vecRegs 1 ++ [0] ++ vecRegs 2) ∧
      (∃ l, vectors.laneAddrs 0 2 11 1 2 rR = .ok l) ∧ ∃ l, vectors.laneAddrs 0 2 11 1 2 rW = .ok l := by
  unfold MemReady ReadyN; intros; and_intros <;> first | decide +revert +kernel | exact ⟨_, rfl⟩

/-- `MatrixIssue`: the parameters of a multiply, of a load or store of an accumulator, and of a drain. -/
theorem witness_MatrixIssue :
    let off := matrix.modStrand 0 fun x => { x with regs := Tab.put 26 0 x.regs }
    let n := ((matrix.val 23).extractLsb' 0 6).toNat
    MatrixReady matrix [20, 21] 0 ∧ MatrixReady matrix ([20, 21] ++ vecRegs 2) 0 ∧ 2 ≤ (matrix.core 0).maxm ∧ (matrix.loop 0 0).toNat ≤ 65536 ∧
      ((matrix.val 20).extractLsb' 0 22).toNat % 16 = 0 ∧ ((matrix.val 20).extractLsb' 32 22).toNat % 16 = 0 ∧ product.outside = false ∧
      MatrixReady off [26] (off.val 26).toNat ∧ MatrixReady off [26, 25] (off.val 26).toNat ∧ (off.val 25).toNat % 16 = 0 ∧
      (off.val 25).toNat + 4096 ≤ 4194304 ∧ MatrixReady matrix [23, 24] ((matrix.val 23).extractLsb' 8 2).toNat ∧ 0 < n ∧ n ≤ 32 ∧
      matrix.slotOpen ((matrix.val 23).extractLsb' 16 4).toNat = true ∧ (matrix.val 24).extractLsb' 0 2 = 0 ∧ 2 ≤ matrix.myGang.desc.sgran ∧
      2 ≤ matrix.myGang.desc.creg - matrix.crewGranules 0 matrix.me.entry ∧ Ready matrix [4] := by
  unfold MatrixReady ReadyN Ready; intros; and_intros <;> decide +revert +kernel

/-- `MatrixLanes`: an operation to begin, those that complete, and the rows of a drain, with one to come and the last. -/
theorem witness_MatrixLanes :
    let z := engaged false (engineOp .zero true 0)
    let o (n : Nat) : MOp := { engineOp (.drain 2 5 0x10000100 3 4 none) true n with running := true }
    ((engaged false (engineOp .zero false 0)).core 0).lane false = [engineOp .zero false 0] ∧
      ((engaged false (engineOp .zero false 0)).core 0).lane true = [] ∧ AtHead z 0 false (engineOp .zero true 0) ∧
      AtHead (engaged false (engineOp (.load 0x1000) true 0)) 0 false (engineOp (.load 0x1000) true 0) ∧
      TileOk (engaged false (engineOp (.load 0x1000) true 0)) 0 0x1000 4096 ∧
      Sound (engaged true (engineOp (.store 0x1000) true 0)) ∧ AtHead (engaged true (engineOp (.store 0x1000) true 0)) 0 true (engineOp (.store 0x1000) true 0) ∧
      TileOk (engaged true (engineOp (.store 0x1000) true 0)) 0 0x1000 4096 ∧
      ∀ n ∈ [0, 1], AtHead (draining n) 0 true (o n) ∧ slotKey 0 5 ≠ (o n).k ∧ ((draining n).strand (slotKey 0 5)).st = .parked ∧
        ((draining n).strand (slotKey 0 5)).cont = .rowEnd ∧ ((draining n).gang 0 ((draining n).strand 0).entry).expired = false ∧
        siteOfC 0 = siteOfK (o n).k ∧ ((draining n).site 0).waiters = [] := by
  unfold AtHead TileOk Sound Rising; intros; and_intros <;> decide +revert +kernel

/-- `MatrixGroups`: a group to come, in either mode and with a granule that nobody holds, and the end after the last. -/
theorem witness_MatrixGroups :
    let o (n : Nat) := engineOp (.mma product) true n
    let user := (engaged false (o 0)).modStrand 0 fun x => { x with sup := false }
    let far := engineOp (.mma { product with offB := 0x8000 }) true 0
    let lost := (engaged false far).modStrand 0 fun x => { x with sup := false }
    let rs (p : Mma) := p.ranges (0 * groupOf p.ta) (min p.kk ((0 + 1) * groupOf p.ta))
    AtHead user 0 false (o 0) ∧ (user.strand 0).sup = false ∧ (user.gang 0 (user.strand 0).entry).expired = false ∧
      ((rs product).all fun r => (List.range ((r.1 + r.2 - 1) / 16384 + 1)).all fun g => (user.site 0).storeHeld 0 g) = true ∧
      AtHead lost 0 false far ∧ (lost.strand 0).sup = false ∧ (lost.gang 0 (lost.strand 0).entry).expired = false ∧ far.g < product.groups ∧
      (∃ r ∈ rs { product with offB := 0x8000 }, r.1 / 16384 ≤ 2 ∧ 2 ≤ (r.1 + r.2 - 1) / 16384) ∧ (lost.site 0).storeHeld 0 2 = false ∧
    AtHead (engaged false (o 0)) 0 false (o 0) ∧ (o 0).g < product.groups ∧ (engaged false (o 0)).flaws = [] ∧
      ((engaged false (o 0)).strand 0).sup = true ∧ ((engaged false (o 0)).gang 0 ((engaged false (o 0)).strand 0).entry).expired = false ∧
      AtHead (engaged false (o 1)) 0 false (o 1) ∧ (o 1).g < product.groups ∧ (engaged false (o 1)).hasPermit 0 .matrix = true ∧
      AtHead (engaged false (o 2)) 0 false (o 2) ∧ (o 2).g = product.groups := by
  unfold AtHead; intros; and_intros <;> decide +revert +kernel

/-- `CachesFill`: a prefetch that passes and one that does not, a stream, fills of a load, a store and a fetch, and a granule to scrub. -/
theorem witness_CachesFill :
    let l : Line := { line := 1, mark := true }
    let r := filling .read (some l) (.strand 0) .access (.load .w64 (8 : BitVec 8).toNat 4)
    let w := filling .write (some l) (.strand 0) .access (.done 4)
    let f := filling .read none (.fetch 0 7) .fetch .reissue
    let m : Msg := { note .data with data := (List.range 128).map (BitVec.ofNat 8 ·) }
    let x (op : ReqOp) (fill : Option Line) (o : Owner) : Txn :=
      { trans op with acc := { (trans op).acc with addr := 192, op, data := [9, 9, 9, 9, 9, 9, 9, 9], en := 0x0F, owner := o }, fill }
    Ready ready [0] ∧ ready.hasPermit (coreOfK ready.cur) .memory = true ∧
      ready.checkAccess 0 (ready.me.seg 1) (mOff 0 1 128 ready) 1 rR 1 = .ok 128 ∧ kindBits (128 : Addr).toNat = 0 ∧
      lineOf 1 (ready.core 0).l1d = none ∧ ready.checkAccess 0 (ready.me.seg 4) (mOff 0 1 128 ready) 1 rR 1 = .error (.segment, some (storeAddr + 128)) ∧
      (∀ p ∈ [(1, true), (4, false)], ((streaming p.1).core 0).streams.find? (fun q => q.slot == 0) = some { slot := 0, last := 3, stride := 1, hits := 3, seg := p.1 } ∧
        lineOf 4 ((streaming p.1).core 0).l1d = none ∧ (streaming p.1).streamAdmits (slotKey 0 0) (((streaming p.1).strand 0).seg p.1) (4 * 128) = p.2) ∧
      FillArrives r 7 m (x .read (some l) (.strand 0)) l ∧ WaitsFor r 0 (.load .w64 (8 : BitVec 8).toNat 4) ∧
      FillArrives w 7 m (x .write (some l) (.strand 0)) l ∧ WaitsFor w 0 (.done 4) ∧
      f.arriving 7 = some m ∧ f.txn m.txn = some (x .read none (.fetch 0 7)) ∧ (x .read none (.fetch 0 7)).stale = false ∧ (f.strand 0).st = .parked ∧
      (f.strand 0).why = some .fetch ∧ (f.gang 0 (f.strand 0).entry).halting = false ∧
      siteKey 0 = true ∧ 3 < unitGranules 0 0 ∧ ready.holdFull 0 14 = false ∧ Tab.find (homeKey 0 0 0 / 16 + 3) ready.flaws = none := by
  unfold Ready FillArrives WaitsFor; intros; and_intros <;> decide +revert +kernel

/-- `Misses`: an access without a TLB entry, with one that lacks its right, and one that goes on; and each outcome of a miss. -/
theorem witness_Misses :
    let q : PortReq := { ported .read with missed := true }
    let m : Miss := { va := 0x40010, slot := 0, kind := 2, port := 5, epoch := 0 }
    let bad := missing 0 1
    AtPort (port .read []) 0 5 (ported .read) ∧ tlbFind ((port .read []).site 0).tlb 0x40010 = none ∧ ((port .read []).core 0).misses = [] ∧
      (∀ q ∈ ((port .read []).site 0).port, q.queued = false) ∧
      AtPort (port .read [entryOf 0 0]) 0 5 (ported .read) ∧ tlbFind ((port .read [entryOf 0 0]).site 0).tlb 0x40010 = some (entryOf 0 0) ∧
      (port .read [entryOf 0 0]).granuleWaits 0 (ported .read).acc = false ∧ (port .write [entryOf 1 1]).bypassWaits 0 0 (ported .write).acc = false ∧ (entryOf 0 0).pte.getLsbD 58 = false ∧
      AtPort (port .write [entryOf 1 1]) 0 5 (ported .write) ∧ tlbFind ((port .write [entryOf 1 1]).site 0).tlb 0x40010 = some (entryOf 1 1) ∧
      (port .write [entryOf 1 1]).granuleWaits 0 (ported .write).acc = false ∧ (entryOf 1 1).pte.getLsbD 57 = true ∧ 2 ≤ pteClass (entryOf 1 1).pte ∧
      (entryOf 1 1).pte.getLsbD 56 = true ∧ (entryOf 1 1).dirty = true ∧
      ((port .write [entryOf 1 1]).resolve 0 (pteX (entryOf 1 1).pte) (pteY (entryOf 1 1).pte)
        (pteFrame (entryOf 1 1).pte + 0x40010 % 2 ^ pageBits (entryOf 1 1).size)).isSome = true ∧
      (∀ n ∈ [0, 1, 2, 3], let w := BitVec.ofNat 64 n
        MissWritten (missing w (leaf 1 1)) 13 w m [] ∧ ((missing w (leaf 1 1)).site 0).portReq m.port = some q) ∧
      ((missing 0 (leaf 1 1)).site 0).tlbEpoch = m.epoch ∧ (missing 0 (leaf 1 1)).pteMalformed 0 (leaf 1 1) = false ∧
      MissWritten bad 13 0 m [] ∧ (bad.site 0).tlbEpoch = m.epoch ∧ bad.pteMalformed 0 (bad.core 0).missPte = true ∧ (bad.site 0).portReq m.port = some q ∧
      q.acc.owner = .strand 0 ∧ q.acc.k = 0 ∧ m.kind ≠ 0x13 ∧ replayable m.kind = false ∧ ((missing 1 (leaf 1 1)).site 0).fqFull = false ∧
      ((missing 1 (leaf 1 1)).strand 0).st = .parked ∧ ((missing 1 (leaf 1 1)).gang 0 ((missing 1 (leaf 1 1)).strand 0).entry).expired = false := by
  unfold AtPort MissWritten; intros; and_intros <;> decide +revert +kernel

/-- `LateFaultsAndTlb`: a late fault, a replay entry that ends, wake words with V clear and set, a notice, and invalidations. -/
theorem witness_LateFaultsAndTlb :
    let f : Late := { code := 7, addr := 5, pc := 9, kind := 3 }
    let r : Replay := { ix := 2, slot := 0, kind := 4, pc := 0x10000000, accs := [], waiting := false }
    let w : Word := 0
    let asleep := ready.modStrand 0 fun x => { x with st := .parked, why := some .pageFault }
    let told := arrived (note .faultNotice)
    ((lateFor f).strand 0).late = f :: [] ∧ ((lateFor f).strand 0).st = .ready ∧ f.code ≠ 0x0B ∧
      ((replaying false).core 0).replays.find? (fun q => q.ix == 2) = some r ∧ r.dead = false ∧ 4 ≤ r.kind ∧ r.kind ≤ 6 ∧ r.slot < 13 ∧
      WaitsFor (replaying false) (slotKey 0 r.slot) .engine ∧ ((replaying false).strand (slotKey 0 r.slot)).why = some .pageFault ∧
      (∀ q ∈ ((replaying false).core 0).replays, q.ix ≠ 2 → q.slot = r.slot → q.kind < 4 ∨ 6 < q.kind) ∧
      kindOf 0 = .pavilion ∧ (w.extractLsb' 38 16).toNat = (asleep.virt 0).2 * 256 + (asleep.virt 0).1 ∧ w.getLsbD 24 = false ∧
      (asleep.strand 0).st = .parked ∧ (asleep.strand 0).why = some .pageFault ∧ (asleep.gang 0 (asleep.strand 0).entry).halting = false ∧
      (∀ o ∈ (asleep.core 0).vq, o.k ≠ 0) ∧ (0x5000000 : Word).getLsbD 24 = true ∧ ((0x5000000 : Word).extractLsb' 25 5).toNat = 2 ∧
      ((replaying true).core 0).replays.any (fun q => q.ix == 2 && q.waiting) = true ∧
      told.arriving 7 = some (note .faultNotice) ∧ (note .faultNotice).op = .faultNotice ∧
      ((translating false).site 0).tlbBusy = false ∧ ((translating true).site 0).tlbBusy = true ∧ ((translating true).site 0).tlbWait = [] ∧
      (translating true).dirtyLines 0 = [] ∧ (translating true).txns = [] ∧ ((translating true).site 0).tlbHeld = [] := by
  unfold WaitsFor; intros; and_intros <;> decide +revert +kernel

/-- `ControlRegisters`: numbers with and without a register, each privilege, the writes that wait, permits, ticks and the watchdog. -/
theorem witness_ControlRegisters :
    let free (w : Word) := (setting 0x900 w).modSite 0 fun x => { x with gangs := [] }
    let idle := corner (ready.modStrand 0 fun x => { x with st := .free })
    let due := (corner ready).modSite 0 fun x => { x with wdEn := true, wdPeriod := 1, wdCount := 1024 }
    Ready ready [8] ∧ regKind 0x777 = none ∧ regKind 0x930 ≠ none ∧ ready.me.sup = false ∧ regKind 0x303 = some .sup ∧ Ready super [8] ∧ super.me.sup = true ∧
      WaitsFor (setting 0x930 5) 0 (.setc 0x930 5) ∧ WaitsFor (setting 0x303 20000) 0 (.setc 0x303 20000) ∧
      WaitsFor (setting 0x304 5) 0 (.setc 0x304 5) ∧ ((setting 0x304 5).site 0).wdDue = false ∧ WaitsFor (setting 0x900 3) 0 (.setc 0x900 3) ∧
      (setting 0x900 3).entries 0 ≠ [] ∧ WaitsFor (free 3) 0 (.setc 0x900 3) ∧ (free 3).entries 0 = [] ∧ ((free 3).site 0).slice = [] ∧
      ((free 3).site 0).waits = [] ∧ (free 3).unwritten 0 ((free 3).writeBacks 0 [] true fun _ => true) = false ∧
      kindOf 0 = .pavilion ∧ siteKey 0 = true ∧ (idle.site 0).inService = true ∧ kindOf (siteOfC 0) = .pavilion ∧ idle.instant = none ∧
      (∀ p, p < 4 → ((idle.core 0).permit (permitClass p)).was = none) ∧ (idle.site (siteOfC 0)).state = .ready ∧
      (match idle.turn (idle.dueStrand 0) with | .bubble u => (u.site (siteOfC 0)).inService | _ => false) = true ∧ (coreNos (siteOfC 0)).contains (0 % 16) = true ∧
      (due.site 0).wdEn = true ∧ 0 < (due.site 0).wdPeriod ∧ (due.site 0).wdPeriod * 1024 ≤ (due.site 0).wdCount ∧ (due.site 0).wdX = false ∧
      due.holdFull 0 15 = false ∧ ∃ v ∈ regionSites 0 0, (idle.site v).clocked = true := by
  unfold Ready WaitsFor; intros; and_intros <;> decide +revert +kernel

/-- `QueuesAndResends`: sends and receipts of the net strand, words that arrive at a full and an empty register, the three answers that turn a request
away, their resends, a withdrawal, and a retry. -/
theorem witness_QueuesAndResends :
    let tx := (netStrand []).modStrand 15 fun x => { x with regs := [(8, 0x100000001), (9, 1)] }
    let got := (netStrand [1]).modStrand 15 fun x => { x with regs := [(9, 1)] }
    let turned (op : MsgOp) := awaiting (.load .w64 8 4) op
    slotOf ready.cur ≠ 15 ∧ slotOf tx.cur = 15 ∧ Ready tx [8, 9] ∧ (tx.target? 0 (tx.val 8).toNat 0).isSome = true ∧ Ready got [8, 9] ∧
      (got.val 9).getLsbD 2 = false ∧ (Tab.get {} 1 (got.core 0).nq).full = true ∧ (Tab.get {} 1 (tx.core 0).nq).full = false ∧
      (∀ p ∈ [([1], none), ([], none), ([], some 2)], let s := wordFor p.1 p.2
        s.arriving 7 = some (note (.nqWord 0 1)) ∧ (s.site 0).state ≠ .failed ∧ (s.site 0).state ≠ .isolated ∧
          (Tab.get {} 1 (s.core 0).nq).full = (p.1 == [1])) ∧
      ((wordFor [] none).strand 15).st ≠ .parked ∧ ((wordFor [] (some 2)).strand 15).st = .parked ∧
      ((wordFor [] (some 2)).strand 15).cont = .queue (8 : BitVec 8).toNat 2 ∧ Nat.testBit 2 1 = true ∧
      (∀ op ∈ [MsgOp.deferral, .refusal, .hostRetry], (turned op).arriving 7 = some (note op) ∧ (turned op).txn 3 = some (trans .read)) ∧
      (trans .read).acc.owner = .strand 0 ∧ (trans .read).acc.owner.gone = false ∧ (trans .read).withdrawn = false ∧ ((turned .hostRetry).strand 0).st = .parked ∧
      ((turned .hostRetry).gang 0 ((turned .hostRetry).strand 0).entry).halting = false ∧
      (∀ op ∈ [MsgOp.req .ldf, .nqWord 0 1], ((resending op true).txn 3).any (fun u => u.resend && decide (u.req.op = op) && u.req.mesh.isNone) = true) ∧
      (arrived (note (.feWithdraw 3))).arriving 7 = some (note (.feWithdraw 3)) ∧ ((arrived (note (.feWithdraw 3))).site 0).state ≠ .failed ∧
      ((arrived (note (.feWithdraw 3))).site 0).state ≠ .isolated ∧ kindOf 0 = .pavilion ∧
      (atHost .read [] true).hostPending 2 3 (· == .read) = some (4, hostWait .read) ∧
      ((atHost .read [] true).txns.map (·.acc.owner)) = [.strand 0] ∧
      ((atHost .read [] true).gang 0 ((atHost .read [] true).strand 0).entry).expired = true := by
  unfold Ready; intros; and_intros <;> decide +revert +kernel

/-- `FabricTables`: tables of a site in service, an off setting and an on setting of the network select, and markers. -/
theorem witness_FabricTables :
    let s := corner ready
    let off := (s.modSite 0 fun x => { x with ns := [(1, 3)] }).modSite 257 fun x => { x with ns := [(1, 3)] }
    let here := { corner ready with net := [note (.drainMarker 1 false)], nextId := 10 }
    (s.site 0).inService = true ∧ kindOf 0 = .pavilion ∧ (s.site 0).trellis = [] ∧ kindOf 257 = .memory ∧
      (∀ v ∈ [0, 257], onGrid 1 0 = true ∧ s.virt v ≠ (1, 0) ∧ (s.site v).inService = true ∧ (s.site v).nsBusy = none ∧ s.physical v 1 0 = some 1 ∧
        Tab.get 0 (siteAt 1 0) (s.site v).ns = 0 ∧ (off.site v).inService = true ∧ off.virt v ≠ (1, 0) ∧ (off.site v).nsBusy = none ∧
        off.physical v 1 0 = some 1 ∧ Tab.get 0 (siteAt 1 0) (off.site v).ns = 3) ∧
      kindOf (entrySite (4 * 0 + 1)) = .pavilion ∧ Tab.get 0 (entrySite (4 * 0 + 1)) (off.site 0).ns = 3 ∧
      ((drainingNs 3).site 0).inService = true ∧ ((drainingNs 3).site 0).nsBusy ≠ none ∧
      here.arriving 7 = some (note (.drainMarker 1 false)) ∧ (drainingNs 3).arriving 7 = some (note (.drainMarker 1 true)) ∧
      1 < ((drainingNs 3).site 0).nsMarkers ∧ (drainingNs 1).arriving 7 = some (note (.drainMarker 1 true)) ∧ ((drainingNs 1).site 0).nsMarkers = 1 ∧
      ((drainingNs 1).site 0).nsBusy = some (1, 2) := by
  intros; and_intros <;> decide +revert +kernel

/-- `Counters`: a counter of the own pavilion below and above a threshold, one elsewhere, one out of reach, and additions that arrive. -/
theorem witness_Counters :
    let add (st : SiteState) : State := { (corner ready).modSite 0 (fun x => { x with state := st }) with net := [note (.counterAdd 5)], nextId := 10 }
    let far (a : BitVec 8) := counting.target? 0 (counting.val a).toNat (counterHash ((counting.val a).toNat % 1024))
    Sound counting ∧ counting.instant = none ∧ Ready counting [20, 21] ∧ Ready counting [22, 23] ∧ Ready counting [24, 24] ∧ counting.me.tracker = [] ∧
      (counting.val 23).toNat ≤ (counting.tc 0 5).toNat ∧ (counting.tc 0 5).toNat < (counting.val 24).toNat ∧ 1 ≠ counting.cur ∧
      WaitsFor counting 1 (.counter 5 4) ∧ (4 : Word).toNat ≤ (counting.tc 0 5 + counting.val 23).toNat ∧
      far 21 = some (0, none) ∧ (far 20).map (·.1) = some 1 ∧ ((far 20).bind (·.2)).isSome = true ∧ far 22 = none ∧
      (add .ready).arriving 7 = some (note (.counterAdd 5)) ∧ ((add .ready).site 0).state ≠ .failed ∧ ((add .ready).site 0).state ≠ .isolated ∧
      (add .ready).instant = none ∧ (add .failed).arriving 7 = some (note (.counterAdd 5)) ∧ ((add .failed).site 0).state = .failed := by
  unfold Sound Rising Ready WaitsFor; intros; and_intros <;> decide +revert +kernel

/-- A table of one value for every key below m. -/
theorem find_filled {α : Type} (x : α) (n m : Nat) (h : n < m) : Tab.find n ((List.range m).map fun i => (i, x)) = some x := by
  rw [List.range_eq_range']
  suffices ∀ k, k ≤ n → n < k + m → Tab.find n ((List.range' k m).map fun i => (i, x)) = some x from this 0 (by omega) (by omega)
  clear h
  induction m with
  | zero => omega
  | succ m ih =>
    intro k h1 h2
    by_cases hk : k = n
    · simp [List.range'_succ, Tab.find, hk]
    · simp only [List.range'_succ, List.map_cons, Tab.find, if_neg hk]
      exact ih (k + 1) (by omega) (by omega)

/-- `Triggers`: no entry of a full list is FREE. -/
theorem witness_Triggers_full : ∀ n, n < 512 → ((posting 512 (addBlock true) 0).trig 0 n).st ≠ .free := by
  intro n h
  have : ((posting 512 (addBlock true) 0).site 0).trigs = (List.range 512).map fun i => (i, { st := .armed, block := addBlock true, threshold := 50, launch := 0 }) := by
    simp only [posting, State.site, State.modSite, State.setSite, Tab.get_put_self]
  unfold State.trig Tab.get
  rw [this, find_filled _ n 512 h]
  decide

/-- `Triggers`: posts that fault, find no entry and find one; entries to cancel; an entry that fires, and operations that end. -/
theorem witness_Triggers :
    let s := posting 3 (addBlock true) 0
    let wrong := posting 0 ((addBlock true).set 3 5000) 0
    let other := posting 3 (addBlock true) 9
    let op (d : Bool) (f : Option (Nat × Addr)) (r : Bool) (t : List Txn) := operating (trigOp d f r) t
    s.me.tracker = [] ∧ Ready s [20, 20, 21] ∧ Ready s [20, 22] ∧ Ready s [20, 23] ∧ (s.val 21).toNat % 64 = 0 ∧ (s.val 22).toNat % 64 ≠ 0 ∧
      (s.val 23).toNat % 64 = 0 ∧ 4194304 ≤ (s.val 23).toNat ∧ (s.val 21).toNat < 4194304 ∧ s.flaws = [] ∧ MayRead s 0 1024 64 ∧ bowerOf s.cur = 0 ∧
      s.checkBlock 0 (blockAt s 0 0 1024) = none ∧ (s.trig 0 3).st = .free ∧ s.instant = none ∧ (∀ m, m < 3 → (s.trig 0 m).st ≠ .free) ∧
      (wrong.checkBlock 0 (blockAt wrong 0 0 1024)).isSome = true ∧
      (s.trig 0 ((s.val 20).toNat % 512)).st = .free ∧ (s.trig 0 ((s.val 25).toNat % 512)).st ≠ .free ∧
      (s.trig 0 ((s.val 25).toNat % 512)).launch = s.me.launch ∧ (other.trig 0 ((other.val 25).toNat % 512)).st ≠ .free ∧
      other.me.sup = false ∧ (other.trig 0 ((other.val 25).toNat % 512)).launch ≠ other.me.launch ∧
      (∀ b ∈ [true, false], ((eligible b).site 0).nextFire = some 2 ∧ ((eligible b).site 0).fires < 16 ∧ (eligible b).flaws = [] ∧ (eligible b).holdFull 0 6 = false ∧
        (eligible b).holdFull 0 7 = false ∧ (eligible b).instant = none ∧ blockOp ((eligible b).trig 0 2).block = 3 ∧
        (blockWord ((eligible b).trig 0 2).block 0).testBit 4 = b) ∧
      ((op true none false []).site 0).trigOp 6 = some (trigOp true none false) ∧ (op true none false []).instant = none ∧
      ((op false (some (3, 7)) false []).site 0).trigOp 6 = some (trigOp false (some (3, 7)) false) ∧
      (op false (some (3, 7)) false []).holdFull 0 6 = false ∧ ((op false none true [launchTxn]).site 0).trigOp 6 = some (trigOp false none true) ∧
      (op false none true [launchTxn]).txns.find? (fun t => decide (t.acc.owner = .trigger 0 6) && t.resend) = some launchTxn ∧
      (op false none true [launchTxn]).virtualOf launchTxn.req.src launchTxn.req.dst = some 2 ∧ Tab.get 0 2 ((op false none true [launchTxn]).site 0).ns ≠ 3 := by
  unfold Ready MayRead; intros; and_intros <;> decide +revert +kernel

/-- `Copies`: posts that fault, wait and pass; each place of a copy; the sequencer's moves; the ends of a copy. -/
theorem witness_Copies :
    let far (s : State) := s.modStrand 0 fun x => { x with regs := [(20, 0x880), (21, 3), (22, 2)] }
    let mail : Mail := { off := 0x800, slot := 0, entry := 0, pc := 0x10000000, segs := ready.me.segs, sup := true }
    let lent := (copying false 0).modCore 0 fun c => { c with offered := [(none, { mail with seq := 5 })], posts := [(0, 0x800, 5)] }
    let place (s : State) : Nat := match s.copyNamed 0x800 with | .none => 0 | .mailbox n _ => 100 + n | .offered m => 200 + m.seq | .flight q => 300 + q.n
    let late : Late := { code := 3, addr := 5, pc := 9 }
    let q (p : CopyPhase) (t : List Nat) (f : Option Late) (g : Nat) := flight p t f g
    let s (p : CopyPhase) (t : List Nat) (f : Option Late) (g : Nat) := flying (q p t f g)
    let gone := (s .finished [] (some late) 1).modStrand 0 fun x => { x with st := .free }
    Ready (copying true 0) [20, 22] ∧ Ready (copying true 0) [23, 21] ∧ Ready (copying true 0) [24, 21] ∧ 3 < ((copying true 0).val 22).toNat ∧
      ((copying true 0).val 21).toNat ≤ 3 ∧ ((copying true 0).val 23).toNat % 128 ≠ 0 ∧ ((copying true 0).val 24).toNat % 128 = 0 ∧
      4194304 ≤ ((copying true 0).val 24).toNat ∧ ((copying true 0).val 20).toNat % 128 = 0 ∧ ((copying true 0).val 20).toNat < 4194304 ∧
      (copying true 0).me.tracker = [] ∧ Tab.find 2 ((copying true 0).core 0).mail = some mail ∧ Ready (far (copying true 0)) [20, 21] ∧
      Tab.find 3 ((far (copying true 0)).core 0).mail = none ∧ (copying true 0).me.st = .ready ∧
      Rising ((copying true 0).core 0).mail ∧ place (copying false 0) = 0 ∧ place (copying true 0) = 102 ∧ place lent = 205 ∧ place (s .source [0, 1] none 1) = 304 ∧
      ((copying true 0).core 0).nextMail = some (none, mail, some 2) ∧ ((copying true 0).core 0).sequencing = true ∧
      ((copying true 0).core 0).copies.length < 64 ∧ (copying true 0).hasPermit 0 .memory = true ∧ (copying true 0).flaws = [] ∧ mail.sup = true ∧
      copyRejected (copyBytes 0) = false ∧ copyRejected (copyBytes 0x1F) = true ∧
      (∀ p ∈ [(CopyPhase.source, 1), (.source, 4), (.dest, 1)], (s p.1 [0, 1] none p.2).nextBeat 0 = some (q p.1 [0, 1] none p.2) ∧
        ((s p.1 [0, 1] none p.2).core 0).sequencing = true ∧ ((s p.1 [0, 1] none p.2).core 0).canTake = false ∧ (s p.1 [0, 1] none p.2).hasPermit 0 .memory = true) ∧
      (s .source [0, 1] none 1).copyCheck 0 (q .source [0, 1] none 1) false 0 = .ok 0 ∧ kindBits (0 : Addr).toNat = 0 ∧
      (s .dest [0, 1] none 1).copyCheck 0 (q .dest [0, 1] none 1) true 0 = .ok 0x400 ∧ (q .dest [0, 1] none 1).block.rop = 0 ∧
      (s .source [0, 1] none 4).copyCheck 0 (q .source [0, 1] none 4) false 0 = .error (.segment, some storeAddr) ∧
      ((s .finished [] none 1).core 0).copy 4 = some (q .finished [] none 1) ∧ (q .finished [] none 1).fault = none ∧
      (∀ w ∈ (q .finished [] none 1).writes, w.2 = 0) ∧ (s .finished [] none 1).instant = none ∧
      ((s .finished [] (some late) 1).core 0).copy 4 = some (q .finished [] (some late) 1) ∧ (q .finished [] (some late) 1).reads = 0 ∧
      ((s .finished [] (some late) 1).core 0).replays = [] ∧ (q .finished [] (some late) 1).trig = none ∧ coreOfK (q .finished [] (some late) 1).k = 0 ∧
      (gone.strand 0).st = .free ∧ ((s .finished [] (some late) 1).strand 0).st = .ready ∧
      ((s .finished [] (some late) 1).strand 0).entry = (q .finished [] (some late) 1).entry ∧
      ((s .finished [] (some late) 1).strand 0).gang = (q .finished [] (some late) 1).gang ∧
      ((s .finished [] (some late) 1).strand 0).launch = (q .finished [] (some late) 1).launch := by
  unfold Ready Rising; intros; and_intros <;> decide +revert +kernel

/-- `DeviceLaunch`: a descriptor in reach, a misaligned one and one outside the segments; submissions with each status; the status at the strand. -/
theorem witness_DeviceLaunch :
    let sub (st : Nat) (d : Desc) : State := { corner ready with net := [submission st d], nextId := 10 }
    let full := (sub 0 desc).modSite 2 fun x => { x with gate := { x.gate with launches := (List.range 256).map fun i => { number := BitVec.ofNat 32 i, desc, total := 1 } } }
    let s := submitting 0
    let told := awaiting (.status (8 : BitVec 8).toNat) (.status 3)
    Ready s [4, 20] ∧ s.me.tracker = [] ∧ Clean (s.core 0).l1d ∧ Clean (s.site 0).slice ∧ s.unwritten 0 (s.fenceTxns 3) = false ∧
      s.covered 0 s.me ((s.val 20).setWidth 60) 256 rR = true ∧ (((submitting 8).val 20).setWidth 60).toNat % 64 ≠ 0 ∧
      (((submitting 0x10000).val 20).setWidth 60).toNat % 64 = 0 ∧
      (submitting 0x10000).covered 0 s.me (((submitting 0x10000).val 20).setWidth 60) 256 rR = false ∧
      (∀ p ∈ [(0, desc), (5, desc), (0, { desc with crews := 0 }), (0, { desc with sreg := 241 })],
        (sub p.1 p.2).arriving 7 = some (submission p.1 p.2)) ∧
      ((sub 0 desc).site 2).state ≠ .failed ∧ ((sub 0 desc).site 2).state ≠ .isolated ∧
      (∀ st ∈ [SiteState.failed, .isolated], let u := (sub 0 desc).modSite 2 fun x => { x with state := st }
        (u.site 2).state = st ∧ u.arriving 7 = some (submission 0 desc)) ∧
      desc.rejected = false ∧ (sub 0 desc).strayCounter 2 desc = false ∧ desc.overclaims = false ∧ { desc with crews := 0 }.rejected = true ∧
      { desc with sreg := 241 }.overclaims = true ∧ 256 ≤ (full.gate 2).deviceLoad ∧ full.arriving 7 = some (submission 0 desc) ∧
      told.arriving 7 = some (note (.status 3)) ∧ told.txn 3 = some (trans .read) ∧ (trans .read).acc.owner = .strand 0 ∧
      WaitsFor told 0 (.status (8 : BitVec 8).toNat) := by
  unfold Ready Clean WaitsFor; intros; and_intros <;> decide +revert +kernel

/-- The 256 bytes of the descriptor of `descWords`. -/
def descBytes (crews sreg : Nat) : List Byte := (descWords crews sreg ++ List.replicate 14 0).flatMap fun (w : Word) => leBytes 8 w.toNat

/-- `HostQueues`, its registers and commands: tails in and beyond the ring, a record to write, and each command with each status. -/
theorem witness_HostQueues_commands :
    let w0 (op : Nat) := 5 * 0x100000000 + op
    let cmd (l : List Nat) := commanded (l.map (BitVec.ofNat 64 ·))
    let at_ := inStore 0x4000
    let launch (crews sreg : Nat) := ringed [BitVec.ofNat 64 (w0 1), BitVec.ofNat 64 at_] (ring 1) crews sreg
    let owes := ringed [] { ring 0 with held := [(0x0001000000000005, 0x1122)] } 1 2
    let h := (launch 1 2).hostQueue 2 0
    hostQueueAt 2 0 = true ∧ (16 + 0x100000000 - h.head) % 0x100000000 ≤ 2 ^ h.lsize ∧ 2 ^ h.lsize < (17 + 0x100000000 - h.head) % 0x100000000 ∧ h.en = true ∧
      h.stopped = false ∧ (launch 1 2).holdFull 2 10 = false ∧ h.ahead ≤ 2 ^ h.lsize ∧ (owes.hostQueue 2 0).held = (0x0001000000000005, 0x1122) :: [] ∧
      ((owes.hostQueue 2 0).cdone + 0x100000000 - (owes.hostQueue 2 0).cread) % 0x100000000 < 2 ^ (owes.hostQueue 2 0).lsize ∧ Memory.wf owes.mem = true ∧
      at_ < 0x1000000000000000 ∧ at_ % 64 = 0 ∧
      (∀ p ∈ [(1, 2), (0, 2), (1, 241)], let s := launch p.1 p.2
        Takes s 2 0 [w0 1, at_, 0, 0, 0, 0, 0, 0] ∧ Placed s 2 0 ∧ s.sysStalled (s.sysGranules 2 true false true (BitVec.ofNat 60 at_) 256) = false ∧ s.sysRead 2 (BitVec.ofNat 60 at_) 256 = some (descBytes p.1 p.2) ∧
          s.strayCounter 2 (descOf (descBytes p.1 p.2)) = false ∧ (descOf (descBytes p.1 p.2)).rejected = (p.1 == 0) ∧
          (descOf (descBytes p.1 p.2)).overclaims = (p.2 == 241)) ∧
      Takes (cmd [w0 1, 0]) 2 0 [w0 1, 0, 0, 0, 0, 0, 0, 0] ∧ Placed (cmd [w0 1, 0]) 2 0 ∧ (cmd [w0 1, 0]).sysStalled ((cmd [w0 1, 0]).sysGranules 2 true false true 0 256) = false ∧ (cmd [w0 1, 0]).sysRead 2 0 256 = none ∧
      Takes (cmd [w0 2, inStore 0x1000, inStore 0x5000, 16]) 2 0 [w0 2, inStore 0x1000, inStore 0x5000, 16, 0, 0, 0, 0] ∧
      Takes (cmd [w0 3, 0, 0]) 2 0 [w0 3, 0, 0, 0, 0, 0, 0, 0] ∧ Sound (cmd [w0 3, 0, 0]) ∧ (cmd [w0 3, 0, 0]).named 0 0 ≠ [] ∧
      Takes (cmd [w0 3, 7, 0]) 2 0 [w0 3, 7, 0, 0, 0, 0, 0, 0] ∧ (cmd [w0 3, 7, 0]).named 7 0 = [] ∧
      Takes (cmd [w0 4]) 2 0 [w0 4, 0, 0, 0, 0, 0, 0, 0] ∧ (cmd [w0 4]).queueIdle 2 0 = true ∧
      Takes (cmd [w0 5]) 2 0 [w0 5, 0, 0, 0, 0, 0, 0, 0] := by
  unfold Takes Placed Sound Rising; intros; and_intros <;> decide +revert +kernel

/-- `HostQueues`, its replays: one that takes bank A with nothing before it, one that takes bank B and copies A, and one with a node to start. -/
theorem witness_HostQueues_replays :
    let ws := graphObject.map (·.toNat)
    let at_ (n : Nat) : Addr := BitVec.ofNat 60 (inStore n)
    let m : Graph := { bsize := 64, bankA := at_ 0x2000, bankB := at_ 0x3000, nodes := [(at_ 0x4000, []), (at_ 0x4000, [0])] }
    let pb := leBytes 8 (8 + 4 * 2 ^ 32) ++ leBytes 8 0xAABBCCDD
    let old := leBytes 8 0x1122334455667788 ++ List.replicate 56 0
    let started := replayingGraph (some true) (some false)
    graphOf ws = some m ∧ (patchEntries 17 m.bsize pb).isSome = true ∧ (descOf (descBytes 1 2)).rejected = false ∧
      (descOf (descBytes 1 2)).overclaims = false ∧
      started.flaws = [] ∧ started.sysStalled (started.graphReads 2 (replayOf (some true)).object) = false ∧
      (∀ l ∈ [none, some false], let s := replayingGraph none l
        s.flaws = [] ∧
        (s.gate 2).replays.find? (fun q => q.id == 9 && q.bank.isNone && !q.done) = some (replayOf none) ∧
          s.graphWords 2 (replayOf none).object = some ws ∧ s.sysRead 2 (replayOf none).patch 16 = some pb ∧ s.sysRead 2 m.bankA m.bsize = some old ∧
          s.sysRead 2 (at_ 0x4000) 256 = some (descBytes 1 2) ∧ s.strayCounter 2 (descOf (descBytes 1 2)) = false ∧
          (Tab.get {} (replayOf none).object.toNat (s.gate 2).objects : GraphObj) = { last := l }) ∧
      (started.gate 2).replays.find? (fun q => q.id == 9) = some (replayOf (some true)) ∧ 0 ∉ (replayOf (some true)).started ∧
      (replayOf (some true)).done = false ∧ started.graphWords 2 (replayOf (some true)).object = some ws ∧ m.nodes[0]? = some (at_ 0x4000, []) ∧
      started.sysRead 2 (at_ 0x4000) 256 = some (descBytes 1 2) := by
  intros; and_intros <;> decide +revert +kernel

/-- `GangsPlacedAndSaved`: an offer that is taken and one that is not, a scan at its end; a pre-emption that begins, and one that ends; a resumption
that fits and one that does not. -/
theorem witness_GangsPlacedAndSaved :
    let l (n : Nat) : Launch := { number := 0x80000000, desc := { desc with coremask := 2, param := 0x40 }, prio := 2, total := 1, scan := n }
    let s := offering 0 (some (0, 0))
    let full := s.modSite 0 fun x => { x with reservation := some (7, 1, 5) }
    let y := preempting .stopping 0 true
    (s.gate 2).launches.find? (fun q => q.number.toNat == 0x80000000) = some (l 0) ∧ (l 0).next < (l 0).total ∧ (s.window 2 (l 0).desc)[0]? = some 0 ∧
      s.outranked 2 0 (l 0) = false ∧ (s.site 0).releases = [] ∧ s.admits 0 (l 0).prio = true ∧ s.freeEntry 0 = some 1 ∧
      s.chooseCores 0 (l 0).desc = some [1] ∧ full.admits 0 (l 0).prio = false ∧
      ((offering 1 none).gate 2).launches.find? (fun q => q.number.toNat == 0x80000000) = some (l 1) ∧
      ((offering 1 (some (0, 0))).window 2 (l 1).desc).length ≤ 1 ∧
      kindOf 0 = .pavilion ∧ (preempting .running 5 false).entryOf 0 0 0 = some 0 ∧ ((preempting .running 5 false).gang 0 0).st = .running ∧
      ((preempting .running 5 false).trig 0 3).postedBy ((preempting .running 5 false).gang 0 0) = true ∧
      y.entryOf 0 0 0 = some 0 ∧ (y.gang 0 0).st ≠ .running ∧ (y.gang 0 0).st = .stopping ∧ (y.gang 0 0).expired = false ∧ (y.gang 0 0).deadline = 0 ∧
      Sound y ∧ y.halted 0 0 = true ∧ (y.site 0).waiters = [] ∧
      y.sysStalled (y.saveReads 0 0 ++ y.writeReads 0 (y.gang 0 0).area (Config.contextBytes y.freeIx)) = false ∧
      (let w : State := { (saved false).modSite 0 (fun x => { x with resuming := [(4, true)] }) with agenda := [.withdraw 4] };
        w.agenda = .withdraw 4 :: [] ∧ (w.sites.any fun p => (Tab.find 4 p.2.resuming).isSome) = true) ∧
      ((saved true).contexts.map fun x => ((saved true).pavilionOf x.site, (saved true).fitsAgain 0 x)) = [(some 0, true)] ∧
      ((saved false).contexts.map fun x => ((saved false).pavilionOf x.site, (saved false).fitsAgain 0 x)) = [(some 0, false)] ∧
      (∀ x ∈ (saved true).contexts, (x.strands.map (·.1)).Nodup ∧ ∀ p ∈ x.strands, p.2.cont = .reissue) ∧ ((saved true).site 0).releases = [] ∧
      (saved true).freeEntry 0 = some 0 := by
  unfold Sound Rising; intros; and_intros <;> decide +revert +kernel

/-- `Collectives` at the strand: an entry that accepts and one that does not, of one element and of two; arm blocks of each kind. -/
theorem witness_Collectives_strand :
    let one := armHead 1 ++ [armMember 0 4 16 2]
    let noTree := armHead 2 ++ [armMember 0 4 18 1, armMember 1 2 16 1]
    let noPavilion := armHead 1 ++ [armMember 2 4 16 1]
    let wrong := armHead 1 ++ [armMember 0 4 0 2]
    let put (e : Trellis) := trellised e []
    let bytes (s : State) (n : Nat) := Memory.readN s.mem (homeKey 0 0 1024) n
    let word (s : State) (i : Nat) := wordAt (bytes s 16) i
    let members (s : State) (n : Nat) := (List.range n).map fun i => memberOf (wordAt (bytes s (16 + 8 * n)) (2 + i))
    let sites (s : State) (n : Nat) := (members s n).mapM fun m =>
      if s.kindAt 0 m.x m.y = some .pavilion then (s.resolve 0 m.x m.y 0).map (fun r => (r.1, m)) else none
    let big : State := { arming [] with mem := laid [] (homeKey 0 0 0x3FFFC0) (armHead 8) }.modStrand 0 fun x => { x with sup := true }
    Ready (put collecting) [20, 23, 1] ∧ (put collecting).trellis 0 (((put collecting).val 23).toNat % 512) = collecting ∧
      collecting.accepts 4 = true ∧ collecting.count = 1 ∧ { collecting with glocal := 2 }.accepts 4 = false ∧
      (put { collecting with glocal := 2 }).holdFull 0 7 = false ∧ { collecting with count := 2 }.accepts 4 = true ∧
      Ready (arming one) [20, 20] ∧ (arming one).flaws = [] ∧ ((arming one).val 20).toNat = 1024 ∧ ((arming one).val 21).toNat % 64 ≠ 0 ∧
      ((arming one).val 24).toNat % 64 = 0 ∧ 4194304 < ((arming one).val 24).toNat + 16 ∧ MayRead (arming one) 0 1024 24 ∧
      bits (word (arming one) 1) 40 32 = 1 ∧ armBad (word (arming one) 0) (word (arming one) 1) (members (arming one) 1) = false ∧
      (sites (arming one) 1).any wellFormedTree = true ∧ MayRead (arming noTree) 0 1024 32 ∧ bits (word (arming noTree) 1) 40 32 = 2 ∧
      armBad (word (arming noTree) 0) (word (arming noTree) 1) (members (arming noTree) 2) = false ∧
      (sites (arming noTree) 2).any (fun l => !wellFormedTree l) = true ∧ MayRead (arming noPavilion) 0 1024 24 ∧
      armBad (word (arming noPavilion) 0) (word (arming noPavilion) 1) (members (arming noPavilion) 1) = false ∧
      (sites (arming noPavilion) 1).isNone = true ∧ MayRead (arming wrong) 0 1024 24 ∧
      armBad (word (arming wrong) 0) (word (arming wrong) 1) (members (arming wrong) 1) = true ∧
      Ready big [20, 22] ∧ MayRead big 0 0x3FFFC0 16 ∧ (big.val 22).toNat = 0x3FFFC0 ∧
      bits (wordAt (Memory.readN big.mem (homeKey 0 0 0x3FFFC0) 16) 1) 40 32 = 8 := by
  unfold Ready MayRead; intros; and_intros <;> decide +revert +kernel

/-- `Collectives` at the router: arm messages, a last reply, pieces that are taken and that are refused, and deliveries. -/
theorem witness_Collectives_router :
    let entry := armEntry ((armHead 1).getD 0 0).toNat 64 { x := 0, y := 0, nlocal := 1, children := 16, parent := 4, clean := true } 0 false
    let held : Trellis := { reserved := some 2, bufs := 1, latch := 5 }
    let s (e : Trellis) (op : MsgOp) := trellised e [piece op]
    let arr (e : Trellis) (op : MsgOp) : Bool := (s e op).arriving 7 == some (piece op) && (s e op).trellis 0 0x103 == e
    let room (e : Trellis) (op : MsgOp) := 64 - popCount ((s e op).buffersUsed 0 0x103) 64
    let again := (s { collecting with gchild := 2 } (.contribution 0x103 1)).modSite 0 fun x => { x with refused := [(0x103 * 8 + 1, 3)] }
    let ready : Trellis := { collecting with st := .deliver, elems := [(0, 0x1122334455667788)] }
    let wait : Trellis := { collecting with st := .wait, parent := 1 }
    let last (parent : Nat) : Trellis := { collecting with glocal := 2, parent }
    let away (op : MsgOp) := (s collecting op).modSite 0 fun x => { x with state := .failed }
    (∀ op ∈ [MsgOp.armReserve 0x103 2 entry, .armCommit 0x103 2 entry, .armRelease 0x103 2, .contribution 0x103 1, .result 0x103 1],
      (away op).arriving 7 = some (piece op) ∧ ((away op).site 0).outOfService = true ∧ ((s collecting op).site 0).outOfService = false) ∧
      (∀ p ∈ [4, 0], arr (last p) (.contribution 0x103 1) = true ∧ (last p).accepts 1 = true ∧ (last p).nlocal ≤ (last p).glocal ∧
        ((List.range 4).all fun c => c == 1 || !bitOn (last p).children c || bitOn (last p).gchild c) = true ∧
        (last p).count ≤ Tab.get 0 1 (last p).pieces + (piece .data).words.length ∧ ((s (last p) (.contribution 0x103 1)).site 0).refused = []) ∧
      (last 4).parent = 4 ∧ neighbour 0 (last 0).parent = some 256 ∧
    arr {} (.armReserve 0x103 2 entry) = true ∧ entry.buffers ≤ room {} (.armReserve 0x103 2 entry) ∧ arr held (.armReserve 0x103 1 entry) = true ∧
      arr collecting (.armReserve 0x103 1 entry) = true ∧ collecting.st ≠ .free ∧ arr held (.armCommit 0x103 2 entry) = true ∧ entry.glocal < entry.nlocal ∧
      arr held (.armRelease 0x103 2) = true ∧
      (armDone 0).arriving 7 = some (note (.status 0)) ∧ ((armDone 0).txn 3).any (fun x => decide (x.acc.owner = .arm 0 2)) = true ∧
      ((armDone 0).site 0).arms.any (fun q => q.id == 2 && q.left == 1 && q.stage == 1 && q.k == 0 && q.d == 20) = true ∧
      WaitsFor (armDone 0) 0 (.arm (20 : BitVec 8).toNat) ∧
      arr collecting (.contribution 0x103 1) = true ∧ collecting.accepts 1 = true ∧ collecting.glocal < collecting.nlocal ∧
      (piece .data).wflags.length = (piece .data).words.length ∧
      arr { collecting with gchild := 2 } (.contribution 0x103 1) = true ∧ { collecting with gchild := 2 }.accepts 1 = false ∧
      ((s { collecting with gchild := 2 } (.contribution 0x103 1)).site 0).refused = [] ∧
      (s { collecting with gchild := 2 } (.contribution 0x103 1)).holdFull 0 7 = false ∧
      again.arriving 7 = some (piece (.contribution 0x103 1)) ∧ Tab.find (0x103 * 8 + 1) (again.site 0).refused = some (piece .data).txn ∧
      arr wait (.result 0x103 1) = true ∧ arr collecting (.result 0x103 1) = true ∧ (s collecting (.result 0x103 1)).holdFull 0 7 = false ∧
      (s ready .data).trellis 0 (trellisKey .ash 3) = ready ∧ (s ready .data).instant = none ∧ ready.writesHere = true ∧
      ready.user = true ∧ (s ready .data).destHeld 0 ready = true ∧ (s ready .data).flaws = [] ∧ Memory.wf (s ready .data).mem = true ∧
      (s { ready with dest := 0x8000 } .data).trellis 0 0x103 = { ready with dest := 0x8000 } ∧
      (s { ready with dest := 0x8000 } .data).destHeld 0 { ready with dest := 0x8000 } = false ∧
      (s { ready with dest := 0x8000 } .data).holdFull 0 7 = false ∧ (s { ready with mode := 1, parent := 1 } .data).trellis 0 0x103 = { ready with mode := 1, parent := 1 } ∧
      { ready with mode := 1, parent := 1 }.writesHere = false := by
  unfold WaitsFor; intros; and_intros <;> decide +revert +kernel

/-- `EventsAndPower`, events and time: a hold that becomes a record, records that leave, are refused and are sent again; probes and their echoes. -/
theorem witness_EventsAndPower_events :
    let r := evRec
    let h := telling [r] [] false false
    (h.site 0).evHolds = (6, r) :: [] ∧ (h.site 0).roomFor r = true ∧ (h.site 0).leaving = [] ∧ (h.site 0).unserved = [] ∧ (h.site 0).releases = [] ∧
      (∀ p ∈ h.strands, p.2.st ≠ .parked ∧ p.2.cont = .reissue) ∧
      (∀ refused ∈ [true, false], ∀ full ∈ [true, false], let s := telling [] [r] refused full
        (s.site 0).nextRecord = some r ∧ s.resolve 0 (xOf (rimSite (s.site 0).evTarget)) (yOf (rimSite (s.site 0).evTarget)) 0 = some (2, some .oak) ∧
          (s.site 2).state ≠ .failed ∧ (s.site 2).state ≠ .isolated ∧ s.nsHolds 0 2 = false ∧
          (∀ q ∈ Machine.route 40 .oak 0 2, ((s.site q.1).link q.2 .oak).up = true) ∧ (s.site 0).evRefused = refused ∧
          (decide (4096 ≤ ((s.gate 2).eqTail + 2 ^ 32 - (s.gate 2).eqHead) % 2 ^ 32)) = full) ∧
      neighbour 1 1 = some 2 ∧ ((corner ready).site 1).meshUp 1 = some .oak ∧ regionOf 1 ≠ regionOf 2 ∧ ((corner ready).site 1).clocked = true ∧
      ((corner ready).site 2).clocked = true ∧ ((corner ready).site 2).state ≠ .failed ∧ ((corner ready).site 2).state ≠ .isolated ∧
      (timing (.probeTs 900)).arriving 7 = some { note (.probeTs 900) with edge := 1 } ∧
      (timing (.probeEcho 900 5000 5100)).arriving 7 = some { note (.probeEcho 900 5000 5100) with edge := 1 } := by
  intros; and_intros <;> decide +revert +kernel

/-- `EventsAndPower`, power: a control interval, a level change, each stage of the limiter on each side of its limits, and temperatures. -/
theorem witness_EventsAndPower_power :
    let lim (n : Nat) := limited { ilimit := 100, stage := n } none
    kindOf 0 = .pavilion ∧ ((powered {} {}).site 0).clocked = true ∧
      ((powered {} { level := 3, target := 5 }).bower 0).level ≠ ((powered {} { level := 3, target := 5 }).bower 0).target ∧
      (∀ n ∈ [0, 1, 2], ((lim n).site 0).power.stage = n ∧ ((lim n).site 0).power.ilimit = 100 ∧ (lim n).instant = none ∧
        ∀ c ∈ (lim n).cores, [PClass.matrix, .vector, .sfu, .memory].all fun q => (c.2.permit q).was == none) ∧
      100 < 101 ∧ 95 * 100 ≤ 100 * 95 ∧ 100 * 95 < 96 * 100 ∧ (lim 2).holdFull 0 12 = false ∧
      ((powered {} {}).site 0).power.trip = false ∧ ((powered { trip := true } {}).site 0).power.trip = true := by
  intros; and_intros <;> decide +revert +kernel

/-- `FlitBytes`: head words, data, link fields and flits within their ranges. -/
theorem witness_FlitBytes :
    let f : Flit := { seq := 4095, msg := note (.req .read), crd := some (7, 255), ack := 77, rq := true }
    [1, 2, 3, 4].length = 4 ∧ (List.replicate 128 (5 : Byte)).length ≤ 128 ∧ 7 < 8 ∧ 255 < 256 ∧ 4095 < 4096 ∧ f.seq < 4096 ∧ f.ack < 4096 ∧
      f.crd = some (7, 255) ∧ f.msg.code < 256 ∧ f.msg.lenField < 16 := by
  intros; and_intros <;> decide +revert +kernel

/-- `LinksAndMerging`: a flit with credit and without, those that arrive in and out of turn, hit or not, link fields, two atomics for one output and
the answer of a merged one. -/
theorem witness_LinksAndMerging :
    let l : Link := Link.start {}
    let f (n : Nat) : Flit := { seq := n, msg := westward }
    let a := linked [eastward 7 .read] l l [.send 7]
    let b := linked [eastward 7 .read] { l with credits := [] } l [.send 7]
    let r (g : Flit) := linked [westward] l (sender g) [.recv 0 1 .oak]
    let w := linked [] waitingLink l []
    let fields : LinkFields := { cv := true, ccl := 0, crd := 5, av := true, ack := 77, rq := true }
    let said := linked [] waitingLink { l with got := 77, owed := [(0, 5)], rq := true } []
    let head := bits (headAt (LinkFields.bytes { cv := false, ccl := 0, crd := 0, av := true, ack := 4095, rq := false }) 0) 63 0
    let odd := flitOf [head + 0xFE * 2 ^ 56 + 2 ^ 29 + 2 ^ 33, 0, 0, 0] [] 0 0
    let idle := flitOf [head + 2 ^ 33, 0, 0, 0] [] 0 0
    let two := linked [eastward 7 (.amo .add), { eastward 8 (.amo .add) with via := [3] }] l l []
    let parts : Txn := { id := 3, acc := { owner := .nobody }, req := eastward 7 (.amo .add), parts := [eastward 7 (.amo .add), eastward 8 (.amo .add)] }
    let back : State := { corner ready with net := [{ note .ack with src := 1 }], nextId := 20, txns := [parts] }
    (∀ s ∈ [a, b], s.agenda = .send 7 :: [] ∧ s.headOf 7 = some (eastward 7 .read) ∧ (eastward 7 .read).next = some (0, 1) ∧
      (eastward 7 .read).mesh = some .oak ∧ ((s.site 0).link 1 .oak).up = true ∧ ((s.site 0).link 1 .oak).retry.length < 512) ∧
      ((a.site 0).link 1 .oak).hasCredit (eastward 7 .read).op.cls = true ∧ ((b.site 0).link 1 .oak).hasCredit (eastward 7 .read).op.cls = false ∧
      (∀ g ∈ [f 0, f 2, { f 0 with hit := true }], (r g).agenda = .recv 0 1 .oak :: [] ∧ neighbour 0 1 = some 1 ∧ ((r g).site 0).link 1 .oak = l ∧
        ((r g).site 1).link (opposite 1) .oak = sender g ∧ (sender g).wire = g :: [] ∧ g.seq < 4096) ∧ l.up = true ∧ l.dropping = false ∧
      (f 0).seq = (l.got + 1) % 4096 ∧ (r (f 0)).net.find? (fun q => q.id == (f 0).msg.id) = some westward ∧
      ((f 2).seq + 4096 - (l.got + 1) % 4096) % 4096 < 2048 ∧ (f 2).seq ≠ (l.got + 1) % 4096 ∧
      (r { f 0 with hit := true }).holdFull 1 8 = false ∧ (r { f 0 with hit := true }).dropStalls 0 1 .oak = false ∧ w.holdFull 0 8 = false ∧
      ((w.site 0).meshesUp 1).any (w.dropStalls 0 1) = false ∧ crcOk idle = true ∧ bits (headAt idle 0) 63 56 = 0 ∧ flitReserved idle = true ∧
      l.canSay (linkFieldsOf idle) = true ∧ (linkFieldsOf idle).rq = false ∧ ((w.site 1).link (opposite 1) .oak).retry.length < 512 ∧ ((w.site 0).link 1 .oak).up = true ∧ ((w.site 0).link 1 .oak).retry ≠ [] ∧
      ((w.site 1).link (opposite 1) .oak).wire = [] ∧ ((said.site 1).link (opposite 1) .oak).wire = [] ∧
      ((said.site 1).link (opposite 1) .oak).canSay fields = true ∧
      ((w.site 1).link (opposite 1) .oak).retry = [] ∧ l.canSay (linkFieldsOf odd) = true ∧ l.hasCredit (bufferClass odd) = true ∧ crcOk odd = true ∧
      protocolOk odd = false ∧ bits (headAt odd 0) 63 56 ≠ 0 ∧ headAt odd 0 % 4096 = l.seq ∧ l.seq = (l.got + 1) % 4096 ∧ (linkFieldsOf odd).rq = false ∧
      two.headOf 7 = some (eastward 7 (.amo .add)) ∧ two.headOf 8 = some { eastward 8 (.amo .add) with via := [3] } ∧
      two.mergeable 0 (eastward 7 (.amo .add)) { eastward 8 (.amo .add) with via := [3] } = true ∧ (∀ q ∈ two.net, q.id < two.nextId) ∧
      back.arriving 7 = some { note .ack with src := 1 } ∧ back.txn 3 = some parts ∧ parts.relays = false ∧ parts.parts ≠ [] := by
  intros; and_intros <;> decide +revert +kernel

/-- `WindowsOfSites`: posted writes, requests that wait for the host, the host's link; configuration messages of each kind, and the window. -/
theorem witness_WindowsOfSites :
    let c (op : MsgOp) (off data : Nat) (st : SiteState) := configuring op off data st
    let arr (op : MsgOp) (off data : Nat) (st : SiteState) : Bool := ((c op off data st).arriving 7).any fun m => m.op == op && m.off == off && m.dst == 0
    let w (op : ReqOp) := relaying op
    let down := (corner ready).modSite 2 fun x => { x with gate := { x.gate with linkUp := false } }
    ((probing none).gate 2).probe = none ∧ ((probing none).gate 2).posted.getLast?.isSome = true ∧ ((probing none).gate 2).linkUp = true ∧
      ((probing (some 4)).gate 2).probe = some 4 ∧
      (atHost .read [] false).hostPending 2 3 (· == .read) = some (4, hostWait .read) ∧
      (∀ o ∈ [ReqOp.amo .add, .famo .add, .famo .swap, .famo .cas], (atHost o [] false).hostPending 2 3 hostAtomic = some (4, hostWait o) ∧
        ((atHost o [] false).gate 2).posted = [] ∧ Memory.wf (atHost o [] false).mem = true) ∧
      kindOf 2 = .gatehouse ∧ (down.gate 2).linkUp = false ∧ ((atHost .read [] false).gate 2).linkUp = true ∧
      arr .cfgRead 0x010 0 .ready = true ∧ ((c .cfgRead 0x010 0 .ready).cfgRead 0 0x010).isSome = true ∧ arr .cfgRead 0x0F8 0 .ready = true ∧
      (c .cfgRead 0x0F8 0 .ready).cfgRead 0 0x0F8 = none ∧ arr .cfgWrite 0x0F8 0 .ready = true ∧ (c .cfgWrite 0x0F8 0 .ready).cfgRead 0 0x0F8 = none ∧
      ((c .cfgWrite 0x0F8 0 .ready).site 0).state ≠ .failed ∧ arr .cfgWrite 0x0F8 0 .failed = true ∧ ((c .cfgWrite 0x0F8 0 .failed).site 0).state = .failed ∧
      siteKey 2 = true ∧ inCfgWindow 2 0x81010 = true ∧ 0x81010 % 8 = 0 ∧
      (let h := (w .read).modSite 2 fun x => { x with gate := { x.gate with linkUp := true } };
        (h.gate 2).linkUp = true ∧ (h.site 2).outOfService = false ∧ (h.gate 2).cfgTarget = 1) ∧
      arr .cfgWrite 0x018 0 .failed = true ∧ (c .cfgWrite 0x018 0 .failed).cfgRead 0 0x018 ≠ none ∧ ((c .cfgWrite 0x018 0 .failed).site 0).state = .failed ∧
      arr .cfgWrite 0x018 0 .ready = true ∧ (c .cfgWrite 0x018 0 .ready).cfgRead 0 0x018 ≠ none ∧ ((c .cfgWrite 0x018 0 .ready).site 0).state ≠ .failed ∧
      arr .cfgWrite 0x080 1 .ready = true ∧ ((c .cfgWrite 0x080 1 .ready).site 0).state ≠ .cold ∧ (c .cfgWrite 0x080 1 .ready).downStalls 0 = false ∧
      ((c .cfgWrite 0x080 1 .ready).arriving 7).any (fun m => (leWord m.data).getLsbD 0) = true ∧
      (∀ o ∈ [ReqOp.read, .write], ((w o).arriving 7).any (fun m => m.dst == 2 && m.unit == 16 && !m.host && inCfgWindow 2 m.off && m.len == 8 &&
          m.off % 8 == 0 && m.en % 256 == 255 && m.op == .req o) = true ∧ ((w o).site 2).state ≠ .failed ∧ ((w o).site 2).state ≠ .isolated ∧
        ((w o).gate 2).cfgTarget = 1) ∧ onGrid (1 % 256) (1 / 256) = true ∧ siteAt (1 % 256) (1 / 256) ≠ 2 := by
  intros; and_intros <;> decide +revert +kernel

/-- `BringUp`, states: each state a site leaves, a reference to lock on, a link to bring up, hellos. -/
theorem witness_BringUp_states :
    let hello (valid : Bool) := fromEast (.hello 0 0 1 valid) 0
    let alone := unlinked 0 .listen
    let dark := alone.modSite 1 fun x => { x with state := .cold }
    (∀ v ∈ [0, 2], siteKey v = true) ∧ ((rising 0 .cold none).site 0).state = .cold ∧ ((rising 0 .map none).site 0).state = .map ∧
      ((rising 2 .listen none).site 2).state = .listen ∧ kindOf 2 = .gatehouse ∧ (dark.site 0).state = .listen ∧ kindOf 0 ≠ .gatehouse ∧
      dark.noReference 0 = true ∧ dark.downStalls 0 = false ∧ ((corner ready).site 0).state ≠ .cold ∧ (corner ready).downStalls 0 = false ∧
      neighbour 0 1 = some 1 ∧ ((rising 0 .listen none).site 0).state = .listen ∧ ((rising 0 .listen none).site 0).meshUp 1 ≠ none ∧
      ((rising 0 .listen none).site 1).clocked = true ∧
      ((alone.site 0).link 1 .oak).up = false ∧ ((alone.site 0).link 1 .oak).dead = false ∧ ((alone.site 1).link (opposite 1) .oak).dead = false ∧
      (alone.site 0).wired = true ∧ (alone.site 1).wired = true ∧ ((alone.site 0).clocked || (alone.site 1).clocked) = true ∧
      (((corner ready).site 0).link 1 .oak).up = true ∧ (((corner ready).site 0).link 1 .oak).helloGot = false ∧
      (∀ b ∈ [true, false], (meeting 0 .listen none (hello b)).arriving 7 = some (hello b) ∧ (hello b).mesh = some .oak) ∧
      ((meeting 0 .listen none (hello true)).site 0).coord = none ∧ ((meeting 0 .listen none (hello true)).site 0).conflict = false ∧
      implied (hello true).edge 1 0 = some (0, 0) ∧
      (∀ p ∈ [(3, 1, 0), (0, 5, 5)], let g : Msg := { fromEast (.hello 0 p.2.2 p.2.1 true) 2 with src := 3, edge := p.1 }
        (meeting 2 .map none g).arriving 7 = some g ∧ (meeting 2 .map none g).holdFull 2 15 = false ∧ ((meeting 2 .map none g).site 2).state = .map) ∧
      implied 3 1 0 = some (xOf 2, yOf 2) ∧ implied 0 5 5 ≠ some (xOf 2, yOf 2) := by
  intros; and_intros <;> decide +revert +kernel

/-- `BringUp`, image and quote: a self-test, an image request answered and one passed on, blocks that are not the last and one that is, the quote. -/
theorem witness_BringUp_image :
    let test := rising 0 .test (some (0, 0))
    let ask (st : SiteState) := meeting 0 st (some (0, 0)) (fromEast (.imageRequest 3) 0)
    let block (last : Bool) := meeting 0 .map (some (0, 0)) (fromEast (.imageBlock 1 last) 0)
    let busy := (corner ready).modSite 0 fun x => { x with power := { x.power with busy := true } }
    (test.site 0).state = .test ∧ kindOf 0 = .pavilion ∧ (test.site 0).conflict = false ∧ test.holdFull 0 15 = false ∧
      (ask .ready).arriving 7 = some (fromEast (.imageRequest 3) 0) ∧ (ask .ready).answersImage 0 = true ∧ ((ask .ready).site 0).outOfService = false ∧
      (ask .failed).arriving 7 = some (fromEast (.imageRequest 3) 0) ∧ ((ask .failed).site 0).outOfService = true ∧
      (ask .map).arriving 7 = some (fromEast (.imageRequest 3) 0) ∧ (ask .map).answersImage 0 = false ∧ ((ask .map).site 0).outOfService = false ∧
      ((ask .map).site 0).upstream ≠ none ∧
      (let g : State := { (corner ready).modSite 2 (fun x => { x with imageReqs := [(3, 1, 1)] }) with agenda := [.placeImage 2] };
        g.agenda = .placeImage 2 :: [] ∧ siteKey 2 = true ∧ kindOf 2 = .gatehouse ∧ (g.site 2).state = .ready) ∧
      (let g := meeting 2 .map none (fromEast (.imageRequest 3) 2);
        let g := g.modSite 2 fun x => { x with upstream := none };
        g.arriving 7 = some (fromEast (.imageRequest 3) 2) ∧ g.answersImage 2 = false ∧ (g.site 2).outOfService = false ∧ (g.site 2).upstream = none) ∧
      (∀ l ∈ [true, false], (block l).arriving 7 = some (fromEast (.imageBlock 1 l) 0) ∧ ((block l).site 0).state = .map ∧ ((block l).site 0).coord ≠ none) ∧
      (fromEast (.imageBlock 1 true) 0).off = 0 ∧ (fromEast (.imageBlock 1 true) 0).dst = 0 ∧
      ((block true).rejects 0 (imageOf (Tab.put 1 [] ((block true).site 0).image))).isSome = true ∧ (block true).holdFull 0 15 = false ∧
      kindOf 0 ≠ .memory ∧ (busy.site 0).power.busy = true := by
  intros; and_intros <;> decide +revert +kernel

end Sys2Proof.Tests
end

section
/-! The bytes of a flit (R4, R401, R402): little-endian numbers, the check, the parts of a flit, and what a receiver reads of word 0. -/

namespace Sys2Proof.Machine

open Sys2Proof

/-! ## Little-endian bytes (R4) -/

@[simp] theorem leBytes_length (n w : Nat) : (leBytes n w).length = n := by simp [leBytes]

theorem leBytes_succ (n w : Nat) : leBytes (n + 1) w = BitVec.ofNat 8 w :: leBytes n (w / 256) := by
  have shift (i : Nat) : w / 2 ^ (8 * (i + 1)) = w / 256 / 2 ^ (8 * i) := by
    rw [Nat.div_div_eq_div_mul, Nat.mul_add, Nat.pow_add, Nat.mul_comm]
  simp [leBytes, List.range_succ_eq_map, shift]

/-- The bytes of a number read back as the number, as far as they hold it. -/
@[simp] theorem leNat_leBytes (n w : Nat) : leNat (leBytes n w) = w % 2 ^ (8 * n) := by
  induction n generalizing w with
  | zero => simp [leBytes, leNat, Nat.mod_one]
  | succ n ih =>
    rw [leBytes_succ, leNat, ih, BitVec.toNat_ofNat, Nat.mul_add, Nat.pow_add, Nat.mul_comm (2 ^ (8 * n)), Nat.mod_mul]

theorem flatMap_leBytes_length (n : Nat) (ws : List Nat) : (ws.flatMap (leBytes n)).length = n * ws.length := by
  induction ws with
  | nil => simp
  | cons w ws ih => simp [ih, Nat.mul_add, Nat.add_comm]

/-- Of numbers written one after another, n bytes each, the bytes from n * i are those of number i, whatever follows. -/
theorem take_drop_flatMap_leBytes {n i w : Nat} {ws : List Nat} (rest : List Byte) (h : ws[i]? = some w) :
    ((ws.flatMap (leBytes n) ++ rest).drop (n * i)).take n = leBytes n w := by
  induction ws generalizing i with
  | nil => simp at h
  | cons v ws ih =>
    cases i with
    | zero => simp_all
    | succ i =>
      have skip : (leBytes n v ++ (ws.flatMap (leBytes n) ++ rest)).drop (n * (i + 1)) = (ws.flatMap (leBytes n) ++ rest).drop (n * i) := by
        rw [Nat.mul_succ, Nat.add_comm, ← List.drop_drop, List.drop_left' (leBytes_length n v)]
      rw [List.flatMap_cons, List.append_assoc, skip]
      exact ih h

/-! ## The check (R401) -/

/-- A byte leaves the check's register within 32 bits. -/
theorem crcByte_lt {c : Nat} (b : Byte) (h : c < 2 ^ 32) : crcByte c b < 2 ^ 32 := by
  have start : c ^^^ b.toNat < 2 ^ 32 := Nat.xor_lt_two_pow h (by omega)
  unfold crcByte
  refine List.foldlRecOn (motive := (· < 2 ^ 32)) (List.range 8) _ start fun c hc _ _ => ?_
  split
  · exact Nat.xor_lt_two_pow (by omega) (by decide)
  · omega

theorem crc32c_lt (l : List Byte) : crc32c l < 2 ^ 32 := by
  have fold : l.foldl crcByte 0xFFFFFFFF < 2 ^ 32 :=
    List.foldlRecOn (motive := (· < 2 ^ 32)) l crcByte (by decide) fun _ hc b _ => crcByte_lt b hc
  exact Nat.xor_lt_two_pow fold (by decide)

/-- Any 252 bytes pass under their own check. -/
theorem crcOk_append_crc32c {l : List Byte} (h : l.length = 252) : crcOk (l ++ leBytes 4 (crc32c l)) = true := by
  have fits : crc32c l % 2 ^ 32 = crc32c l := Nat.mod_eq_of_lt (crc32c_lt l)
  rw [crcOk, ← h, List.drop_left, List.take_left, leNat_leBytes]
  simpa [h] using fits

/-! ## The parts of a flit (R401) -/

@[simp] theorem padBytes_length (n : Nat) (l : List Byte) : (padBytes n l).length = n := by simp [padBytes]

theorem padBytes_take {n : Nat} {l : List Byte} (h : l.length ≤ n) : (padBytes n l).take l.length = l := by
  simp [padBytes, List.take_take, h]

theorem crcOk_flitOf {head : List Nat} (data : List Byte) (en hi : Nat) (h : head.length = 4) : crcOk (flitOf head data en hi) = true :=
  crcOk_append_crc32c (by simp [h])

theorem headAt_flitOf {head : List Nat} {i w : Nat} (data : List Byte) (en hi : Nat) (h : head[i]? = some w) :
    headAt (flitOf head data en hi) i = w % 2 ^ 64 := by
  simp only [headAt, flitOf, List.append_assoc, take_drop_flatMap_leBytes _ h, leNat_leBytes]

/-- What a receiver checks and finds in its places, for any head, data and enables (R401). -/
theorem flitOf_parts {head : List Nat} {data : List Byte} (en hi : Nat) (hh : head.length = 4) (hd : data.length ≤ 128) :
    let b := flitOf head data en hi
    b.length = 256 ∧ crcOk b = true ∧ (∀ i w, head[i]? = some w → headAt b i = w % 2 ^ 64) ∧ (b.drop 32).take data.length = data ∧
      leNat ((b.drop 160).take 16) = en % 2 ^ 128 ∧ leNat ((b.drop 176).take 16) = hi % 2 ^ 128 ∧ (b.drop 192).take 60 = List.replicate 60 0 := by
  have hl : (head.flatMap (leBytes 8)).length = 32 := by rw [flatMap_leBytes_length, hh]
  refine ⟨?_, crcOk_flitOf data en hi hh, fun i w h => headAt_flitOf data en hi h, ?_, ?_, ?_, ?_⟩
  · simp [flitOf, hl]
  · simp [flitOf, hl, List.take_append, padBytes_take hd, hd]
  · simp [flitOf, hl, List.drop_append, List.drop_of_length_le]
  · simp [flitOf, hl, List.drop_append, List.drop_of_length_le]
  · simp [flitOf, hl, List.drop_append, List.drop_of_length_le, -List.reduceReplicate]

/-! ## Word 0 of a head (R402) -/

theorem bitAt_eq_mul (b : Bool) (i : Nat) : bitAt b i = b.toNat * 2 ^ i := by cases b <;> simp [bitAt]

theorem bitOn_eq_of_mod {w i : Nat} {b : Bool} (h : w / 2 ^ i % 2 = b.toNat) : bitOn w i = b := by cases b <;> simp_all [bitOn]

/-- Every field of word 0 reads back, when each number fits its field. -/
theorem headWord0_reads {op len cls seq : Nat} (full : Bool) {f : LinkFields} (hop : op < 256) (hlen : len < 16) (hcls : cls < 8)
    (hseq : seq < 4096) (hccl : f.ccl < 8) (hcrd : f.crd < 256) (hack : f.ack < 4096) :
    let w := headWord0 op len full cls seq f
    w < 2 ^ 64 ∧ bits w 63 56 = op ∧ bits w 51 48 = len ∧ bits w 47 40 = f.crd ∧ bits w 39 37 = f.ccl ∧ bitOn w 36 = f.cv ∧
      bitOn w 32 = full ∧ bits w 31 29 = cls ∧ bitOn w 25 = f.rq ∧ bitOn w 24 = f.av ∧ bits w 23 12 = f.ack ∧ w % 4096 = seq := by
  have hcv := f.cv.toNat_lt
  have hfull := full.toNat_lt
  have hrq := f.rq.toNat_lt
  have hav := f.av.toNat_lt
  simp only [headWord0, bitAt_eq_mul, bits]
  refine ⟨?_, ?_, ?_, ?_, ?_, bitOn_eq_of_mod ?_, bitOn_eq_of_mod ?_, ?_, bitOn_eq_of_mod ?_, bitOn_eq_of_mod ?_, ?_, ?_⟩ <;> omega

/-! ## What a receiver reads (R402) -/

/-- An idle flit passes its check, brings its link fields and has op 0. -/
theorem LinkFields.bytes_reads {f : LinkFields} (hccl : f.ccl < 8) (hcrd : f.crd < 256) (hack : f.ack < 4096) :
    crcOk (LinkFields.bytes f) = true ∧ linkFieldsOf (LinkFields.bytes f) = f ∧ bits (headAt (LinkFields.bytes f) 0) 63 56 = 0 := by
  obtain ⟨hw, hop, -, rcrd, rccl, rcv, -, -, rrq, rav, rack, -⟩ :=
    headWord0_reads (op := 0) (len := 0) (cls := 0) (seq := 0) false (by decide) (by decide) (by decide) (by decide) hccl hcrd hack
  have word : headAt (LinkFields.bytes f) 0 = headWord0 0 0 false 0 0 f := by
    rw [LinkFields.bytes, headAt_flitOf _ _ _ (by rfl), Nat.mod_eq_of_lt hw]
  refine ⟨crcOk_flitOf _ _ _ rfl, ?_, by rw [word, hop]⟩
  simp only [linkFieldsOf, word, rcrd, rccl, rcv, rrq, rav, rack]

/-- A flit whose message is of a class that three bits hold brings its link fields, sequence number, class, op and length. -/
theorem Flit.bytes_reads {f : Flit} (hseq : f.seq < 4096) (hack : f.ack < 4096) (hcrd : ∀ c n, f.crd = some (c, n) → c < 8 ∧ n < 256)
    (hop : f.msg.code < 256) (hlen : f.msg.lenField < 16) (hcls : f.msg.op.cls < 8) :
    linkFieldsOf f.bytes = f.fields ∧ headAt f.bytes 0 % 4096 = f.seq ∧ bits (headAt f.bytes 0) 31 29 = f.msg.op.cls ∧
      bits (headAt f.bytes 0) 63 56 = f.msg.code ∧ bits (headAt f.bytes 0) 51 48 = f.msg.lenField := by
  have credit : f.fields.ccl < 8 ∧ f.fields.crd < 256 := by
    cases h : f.crd with
    | none => simp [Flit.fields, h]
    | some p => simpa [Flit.fields, h] using hcrd p.1 p.2 h
  obtain ⟨hw, rop, rlen, rcrd, rccl, rcv, -, rcls, rrq, rav, rack, rseq⟩ :=
    headWord0_reads f.msg.wireF hop hlen hcls hseq credit.1 credit.2 hack
  have word : headAt f.bytes 0 = headWord0 f.msg.code f.msg.lenField f.msg.wireF f.msg.op.cls f.seq f.fields := by
    rw [Flit.bytes, headAt_flitOf _ _ _ (by rfl), Nat.mod_eq_of_lt hw]
  rw [word]
  refine ⟨?_, rseq, rcls, rop, rlen⟩
  simp only [linkFieldsOf, word, rcrd, rccl, rcv, rrq, rav, rack]

/-- The class field of a head has three bits. -/
theorem classField_lt (w : Nat) : bits w 31 29 < 8 := Nat.mod_lt _ (by decide)

/-- A drain marker of a class that the class field does not hold; its op and length are in their ranges. -/
def wideMarker : Flit := { seq := 0, msg := { id := 0, op := .drainMarker 8 false, src := 0, dst := 0 } }

/-- Refutes O57: a drain marker of class 8 meets every hypothesis of the last clause, and the class field does not read back as 8. The model sends
drain markers of classes 0 to 4 only (R205); with the class below 8 what the statement says holds: `flitOf_parts`, `LinkFields.bytes_reads` and
`Flit.bytes_reads`. -/
theorem not_flitBytes : ¬ Obligations.FlitBytes := by
  intro h
  obtain ⟨-, -, reads⟩ := h
  obtain ⟨-, -, cls, -⟩ := reads wideMarker (by decide) (by decide) (by simp [wideMarker]) (by decide) (by decide)
  have narrow : wideMarker.msg.op.cls < 8 := cls ▸ classField_lt _
  exact absurd narrow (by decide)

end Sys2Proof.Machine
end

section
/-! The register file, the issue of integer instructions, the fixed words and the state at reset (R38-R43, R66, R264, R274, R415). -/

namespace Sys2Proof.Machine

open Sys2Proof Sys2Proof.Spec

/-! ## Fixed words and reset -/

/-- Settles O3: each word of the spec goes through the decoder's table. -/
theorem specWordsDecode : Obligations.SpecWordsDecode := by
  unfold Obligations.SpecWordsDecode
  and_intros <;> decide

/-- Settles O7: at reset every table is empty, so that every record is the default one. -/
theorem resetState : Obligations.ResetState :=
  ⟨fun _ => ⟨rfl, rfl, rfl⟩, fun _ => rfl, rfl, rfl⟩

/-- Settles O8: an empty memory is canonical, and an empty table has rising keys. -/
theorem resetSound : Obligations.ResetSound :=
  ⟨Memory.wf_reset, rising_nil, rising_nil, rising_nil, rising_nil⟩

/-! ## The register file (R37-R42) -/

@[simp] theorem Strand.reg_zero (x : Strand) : x.reg 0 = 0 := rfl

theorem Strand.reg_setReg (x : Strand) (d r : Nat) (w : Word) : (x.setReg d w).reg r = if r = d ∧ d ≠ 0 then w else x.reg r := by
  by_cases hd : d = 0
  · simp [Strand.setReg, hd]
  · by_cases hr : r = d
    · simp [Strand.setReg, Strand.reg, hd, hr]
    · simp [Strand.setReg, Strand.reg, hd, hr, Tab.get_put]

theorem toNat_eq_zero_iff {n : Nat} (d : BitVec n) : d.toNat = 0 ↔ d = 0 := by
  rw [← BitVec.toNat_inj]; simp

/-- The write of the statements is the model's write by number. -/
theorem put_eq_setReg (x : Strand) (d : BitVec 8) (w : Word) : put x d w = x.setReg d.toNat w := by
  simp only [put, Strand.setReg, toNat_eq_zero_iff]

theorem Strand.holds_iff (x : Strand) (r : Nat) : x.holds r = true ↔ r < 8 + 16 * x.granules := by simp [Strand.holds]

/-- Settles O11: a read is a look-up in the written table, and the window ends at 16 registers a granule. -/
theorem registerFile : Obligations.RegisterFile := by
  refine ⟨Strand.reg_zero, fun x d w r => ?_, fun x r => ?_⟩
  · rw [put_eq_setReg, Strand.reg_setReg]
    simp only [ne_eq, toNat_eq_zero_iff]
  · rw [Strand.holds_iff]
    constructor
    · intro h
      by_cases h8 : r < 8
      · exact .inl h8
      · exact .inr ⟨r - 8, by omega, by omega⟩
    · rintro (h | ⟨j, rfl, h⟩) <;> omega

/-! ## The issue of an integer instruction (R42, R43, R274) -/

/-- An integer instruction is a computation over the registers that it names (R274). -/
theorem exec_integer {i : Instr} {d : BitVec 8} (h : intDest i = some d) :
    ∃ n f, ∀ s, exec i s = .next (s.compute (intNames i) d n f) := by
  cases i <;> simp only [intDest, Option.some.injEq, reduceCtorEq] at h <;> exact h ▸ ⟨_, _, fun _ => rfl⟩

theorem compute_unheld {s : State} {names : List (BitVec 8)} (d : BitVec 8) (n : Nat) (f : State → Word) {r : BitVec 8} (hr : r ∈ names)
    (h : s.me.holds r.toNat = false) : s.compute names d n f = s.raiseFault s.cur .unheldWindow :=
  State.issue_unheld _ (List.mem_map_of_mem hr) h

theorem me_park (s : State) (r : Park) (c : Cont) : (s.park s.cur r c).me = { s.me with st := .parked, why := some r, cont := c } := by
  simp [State.me, State.strand_park]

/-- Settles O14: issue looks for an unheld register first, then for a pending one. -/
theorem unheldThenPending : Obligations.UnheldThenPending := by
  intro i d s hd
  obtain ⟨n, f, hi⟩ := exec_integer hd
  refine ⟨fun ⟨r, hr, h⟩ => ?_, fun held ⟨r, hr, h⟩ => ?_⟩
  · rw [hi, compute_unheld d n f hr h]
  · have park := State.issue_pending (s := s) (fun s => s.finish d.toNat (f s) n) (names := (intNames i).map (·.toNat))
      (by simpa using held) (List.mem_map_of_mem hr) h
    refine ⟨_, (hi s).trans (congrArg _ park), ?_⟩
    simp [me_park]

end Sys2Proof.Machine
end

section
/-! What `exec` does with the instructions and events of this family: each is its own meaning, so that no proof unfolds the dispatch of all of them. -/

namespace Sys2Proof.Machine

open Sys2Proof

theorem exec_eq_execHalt (s : State) : exec .halt s = execHalt s := rfl
theorem exec_eq_execRel (a k b) (s : State) : exec (.rel a k b) s = execRel a k b s := rfl
theorem exec_eq_execRelAll (s : State) : exec .relAll s = execRelAll s := rfl
theorem exec_eq_execAcqW (a k b) (s : State) : exec (.acqW a k b) s = execAcqW a k b s := rfl
theorem exec_eq_execAcqF (d a k b) (s : State) : exec (.acqF d a k b) s = execAcqF d a k b s := rfl
theorem exec_eq_execLset (a n) (s : State) : exec (.lset a n) s = execLset a n s := rfl
theorem exec_eq_execNest (im) (s : State) : exec (.nest im) s = execNest im s := rfl
theorem exec_eq_execNestClaim (k) (s : State) : exec (.nestClaim k) s = execNestClaim k s := rfl
theorem exec_eq_execNqSend (a b) (s : State) : exec (.nqSend a b) s = execNqSend a b s := rfl
theorem exec_eq_execNqRecv (d a) (s : State) : exec (.nqRecv d a) s = execNqRecv d a s := rfl
theorem exec_eq_execReqNqWord (m) (s : State) : exec (.reqNqWord m) s = execReqNqWord m s := rfl
theorem exec_eq_execRspDeferral (m) (s : State) : exec (.rspDeferral m) s = execRspDeferral m s := rfl
theorem exec_eq_execRspQueueRefusal (m) (s : State) : exec (.rspQueueRefusal m) s = execRspQueueRefusal m s := rfl
theorem exec_eq_execRspHostRetry (m) (s : State) : exec (.rspHostRetry m) s = execRspHostRetry m s := rfl
theorem exec_eq_execReqFeWithdraw (m) (s : State) : exec (.reqFeWithdraw m) s = execReqFeWithdraw m s := rfl
theorem exec_eq_execGatehouseRetryAnswer (g t) (s : State) : exec (.gatehouseRetryAnswer g t) s = execGatehouseRetryAnswer g t s := rfl
theorem exec_eq_execGetc (d n) (s : State) : exec (.getc d n) s = execGetc d n s := rfl
theorem exec_eq_execSetc (a n) (s : State) : exec (.setc a n) s = execSetc a n s := rfl
theorem exec_eq_execRegisterWrite (t) (s : State) : exec (.registerWrite t) s = execRegisterWrite t s := rfl
theorem exec_eq_execWatchdogWrite (k) (s : State) : exec (.watchdogWrite k) s = execWatchdogWrite k s := rfl
theorem exec_eq_execSlicePinWrite (k) (s : State) : exec (.slicePinWrite k) s = execSlicePinWrite k s := rfl
theorem exec_eq_execPermitWrite (c p w) (s : State) : exec (.permitWrite c p w) s = execPermitWrite c p w s := rfl
theorem exec_eq_execPermitRefill (c) (s : State) : exec (.permitRefill c) s = execPermitRefill c s := rfl
theorem exec_eq_execTick (rx ry) (s : State) : exec (.tick rx ry) s = execTick rx ry s := rfl
theorem exec_eq_execWatchdogExpiry (v) (s : State) : exec (.watchdogExpiry v) s = execWatchdogExpiry v s := rfl
theorem exec_eq_execCpost (a b) (s : State) : exec (.cpost a b) s = execCpost a b s := rfl
theorem exec_eq_execCcancel (a) (s : State) : exec (.ccancel a) s = execCcancel a s := rfl
theorem exec_eq_execCopyTake (c) (s : State) : exec (.copyTake c) s = execCopyTake c s := rfl
theorem exec_eq_execCopyComplete (c im) (s : State) : exec (.copyComplete c im) s = execCopyComplete c im s := rfl
theorem exec_eq_execCopyFaultDelivery (c im) (s : State) : exec (.copyFaultDelivery c im) s = execCopyFaultDelivery c im s := rfl
theorem exec_eq_execCopyBeat (c im) (s : State) : exec (.copyBeat c im) s = execCopyBeat c im s := rfl
theorem exec_eq_execListenTimeout (v) (s : State) : exec (.listenTimeout v) s = execListenTimeout v s := rfl
theorem exec_eq_execCfgIsolate (v) (s : State) : exec (.cfgIsolate v) s = execCfgIsolate v s := rfl
theorem exec_eq_execModuleReset (v) (s : State) : exec (.moduleReset v) s = execModuleReset v s := rfl
theorem exec_eq_execReferenceLock (v d) (s : State) : exec (.referenceLock v d) s = execReferenceLock v d s := rfl
theorem exec_eq_execGatehouseReferenceStable (v) (s : State) : exec (.gatehouseReferenceStable v) s = execGatehouseReferenceStable v s := rfl
theorem exec_eq_execLinkInitComplete (v d x) (s : State) : exec (.linkInitComplete v d x) s = execLinkInitComplete v d x s := rfl
theorem exec_eq_execHelloResend (v d x) (s : State) : exec (.helloResend v d x) s = execHelloResend v d x s := rfl
theorem exec_eq_execReqHello (m) (s : State) : exec (.reqHello m) s = execReqHello m s := rfl
theorem exec_eq_execSelfTestDone (v ok) (s : State) : exec (.selfTestDone v ok) s = execSelfTestDone v ok s := rfl
theorem exec_eq_execReqImageRequest (m) (s : State) : exec (.reqImageRequest m) s = execReqImageRequest m s := rfl
theorem exec_eq_execReqImageBlock (m) (s : State) : exec (.reqImageBlock m) s = execReqImageBlock m s := rfl
theorem exec_eq_execAtGo (v) (s : State) : exec (.atGo v) s = execAtGo v s := rfl
theorem exec_eq_execQuoteDone (v) (s : State) : exec (.quoteDone v) s = execQuoteDone v s := rfl
theorem exec_eq_execPowerGood (v) (s : State) : exec (.powerGood v) s = execPowerGood v s := rfl
theorem exec_eq_execMapImageTimeout (v) (s : State) : exec (.mapImageTimeout v) s = execMapImageTimeout v s := rfl

end Sys2Proof.Machine
end

section
/-! Faults and segments: what a fault record, a trap entry and an abort leave (R59, R373, R374), and the segment check (R78, R304). -/

namespace Sys2Proof.Machine

open Sys2Proof Sys2Proof.Spec

/-! ## A change applied for each element -/

/-- What holds of a state stays through the changes for a whole list, when each keeps it. -/
theorem each_invariant {α : Type} {f : State → α → State} {P : State → Prop} (hP : ∀ s a, P s → P (f s a)) (l : List α) {s : State} (hs : P s) :
    P (each l f s) := by
  induction l generalizing s with
  | nil => exact hs
  | cons a l ih => exact ih (hP s a hs)

/-- What the change for one element brings about stays through the changes for a list with it. -/
theorem each_reaches {α : Type} {f : State → α → State} {P Q : State → Prop} (hP : ∀ s a, P s → P (f s a)) (hQ : ∀ s a, Q s → Q (f s a)) {a : α}
    (ha : ∀ s, P s → Q (f s a)) {l : List α} (hl : a ∈ l) {s : State} (hs : P s) : Q (each l f s) := by
  induction l generalizing s with
  | nil => cases hl
  | cons b l ih =>
    rcases List.mem_cons.1 hl with rfl | hl
    · exact each_invariant hQ l (ha s hs)
    · exact ih hl (hP s b hs)

/-! ## The fault record (R59, R372) -/

theorem State.strand_faultRecord (s : State) (k j : Nat) (f : Trouble) : (s.faultRecord k f).strand j =
    if j = k then
      { s.strand k with
        faultCode := BitVec.ofNat 64 (f.kind * 2 ^ 16 + f.code.num), faultPc := f.pc
        faultAddr := f.addr.getD ((Config.freeWord s.freeIx).setWidth 60) }
    else s.strand j := by
  unfold State.faultRecord
  cases f.addr <;> simp [State.free]
  rfl

@[simp] theorem State.faultRecord_sites (s : State) (k : Nat) (f : Trouble) : (s.faultRecord k f).sites = s.sites := by
  unfold State.faultRecord
  cases f.addr <;> rfl

/-- Counting an event changes nothing but counts: the trap registers stay. -/
theorem State.core_faultRecord (s : State) (k c : Nat) (f : Trouble) :
    ((s.faultRecord k f).core c).trapBase = (s.core c).trapBase ∧ ((s.faultRecord k f).core c).trapUnset = (s.core c).trapUnset := by
  unfold State.faultRecord State.count
  by_cases hc : c = coreOfK k <;> cases f.addr <;> simp [State.free, Core.tallied, Core.trapUnset, hc] <;> exact ⟨rfl, rfl⟩

theorem State.takeFault_of_ne {f : Trouble} (s : State) (k : Nat) (h : f.code ≠ .pageFault) : s.takeFault k f =
    (s.faultRecord k f).faultAct k { code := f.code.num, addr := ((s.faultRecord k f).strand k).faultAddr, pc := f.pc, kind := f.kind } := by
  simp [State.takeFault, h]

/-! ## Supervisor mode: the trap entry (R374) -/

/-- What the fault trap leaves of its strand, with the trap registers set and nothing relaxed outstanding. -/
theorem State.strand_faultTrap {s : State} {k : Nat} (f : Late) (hu : (s.core (coreOfK k)).trapUnset = false) (ht : (s.strand k).tracker = []) :
    let x := (s.faultTrap k f).strand k
    x.pc = ((s.core (coreOfK k)).trapBase >>> 2) <<< 2 + 0x1000 ∧ x.trapPc = f.pc ∧ x.trapMode = (s.strand k).sup ∧ x.sup = true ∧ x.st = .ready ∧
      x.faultCode = (s.strand k).faultCode ∧ x.faultPc = (s.strand k).faultPc ∧ x.faultAddr = (s.strand k).faultAddr := by
  simp [State.faultTrap, State.trapEntry, hu, ht]

/-! ## User mode: the abort of a gang (R373) -/

/-- A strand that has stopped, or the empty slot as it is (R144). -/
def Strand.halted (x : Strand) : Strand := if x.st = .free then x else { x with st := .stopped, why := none, cont := .reissue }

theorem Strand.halted_of_ne {x : Strand} (h : x.st ≠ .free) : x.halted = { x with st := .stopped, why := none, cont := .reissue } := if_neg h

@[simp] theorem State.strand_stop (s : State) (k j : Nat) : (s.stop k).strand j = if j = k then (s.strand k).halted else s.strand j := by
  simp [State.stop, Strand.halted]

@[simp] theorem State.strand_abortStrand (s : State) (k j : Nat) : (s.abortStrand k).strand j = if j = k then (s.strand k).halted else s.strand j :=
  State.strand_stop ..

theorem Tab.get_map {α : Type} {f : α → α} {d : α} (hf : f d = d) (j : Nat) (t : List (Nat × α)) :
    Tab.get d j (t.map fun q => (q.1, f q.2)) = f (Tab.get d j t) := by
  rw [Tab.get, Tab.find_map, Tab.get]
  cases Tab.find j t <;> simp [hf]

/-- What waits elsewhere for a strand stands in the waits and watches of the sites (log 45). -/
theorem State.site_forget (s : State) (k v : Nat) : ∃ ws us, (s.forget k).site v = { s.site v with waits := ws, watches := us } :=
  ⟨_, _, Tab.get_map (f := fun v : Site =>
    { v with
      waits := v.waits.filter fun r => !((s.txns.filter fun (t : Txn) => t.acc.owner.isOf k).map (·.id)).contains r.txn
      watches := v.watches.filter fun w => w.k != k }) rfl v s.sites⟩

/-- The abort of one strand changes neither the claim table nor the event holds. -/
theorem State.site_abortStrand (s : State) (k v : Nat) :
    ((s.abortStrand k).site v).gangs = (s.site v).gangs ∧ ((s.abortStrand k).site v).evHolds = (s.site v).evHolds := by
  obtain ⟨ws, us, forgot⟩ := s.site_forget k v
  have hg : ((s.forget k).site v).gangs = (s.site v).gangs := by rw [forgot]
  have he : ((s.forget k).site v).evHolds = (s.site v).evHolds := by rw [forgot]
  rw [← hg, ← he]
  simp only [State.abortStrand, State.stop, State.dropWaiter, State.orphan, State.reown, State.site_modCore, State.site_modStrand, State.site_modSite]
  split_ifs with h
  · subst h; exact ⟨rfl, rfl⟩
  · exact ⟨rfl, rfl⟩

/-- The entry of a gang that aborts, the event holds of its site, and a strand of it that is not FREE (R174, R373). -/
theorem State.abortGang_effect {s : State} {v e k : Nat} (hk : k ∈ s.gangStrands v e) (hs : (s.strand k).st ≠ .free) :
    let t := s.abortGang v e
    (t.gang v e).st = .aborting ∧ (t.site v).evHolds = (s.site v).evHolds ∧ (t.strand k).st = .stopped ∧
      (t.strand k).faultCode = (s.strand k).faultCode ∧ (t.strand k).faultPc = (s.strand k).faultPc := by
  have st (s : State) (j : Nat) (h : (s.strand k).st ≠ .free) : ((s.abortStrand j).strand k).st ≠ .free := by
    by_cases hj : k = j
    · subst hj; simp [Strand.halted_of_ne h]
    · simpa [hj] using h
  have stopped (s : State) (j : Nat) (h : (s.strand k).st = .stopped) : ((s.abortStrand j).strand k).st = .stopped := by
    by_cases hj : k = j
    · subst hj; simp [Strand.halted_of_ne, h]
    · simpa [hj] using h
  have record (s : State) (j : Nat) : ((s.abortStrand j).strand k).faultCode = (s.strand k).faultCode ∧
      ((s.abortStrand j).strand k).faultPc = (s.strand k).faultPc := by
    by_cases hj : k = j
    · subst hj; simp only [State.strand_abortStrand, if_true, Strand.halted]; split_ifs <;> exact ⟨rfl, rfl⟩
    · simp [hj]
  have gangs := each_keeps (fun s => (s.site v).gangs) (fun s j => (s.site_abortStrand j v).1)
  have holds := each_keeps (fun s => (s.site v).evHolds) (fun s j => (s.site_abortStrand j v).2)
  have code := each_keeps (fun s => (s.strand k).faultCode) (fun s j => (record s j).1)
  have pc := each_keeps (fun s => (s.strand k).faultPc) (fun s j => (record s j).2)
  refine ⟨?_, ?_, ?_, ?_, ?_⟩
  · simp only [State.gang, State.abortGang, gangs]
    simp [State.modGang]
  · simp only [State.abortGang, holds]
    simp [State.modGang]
  · exact each_reaches (P := fun s => (s.strand k).st ≠ .free) st stopped
      (fun s h => by simp [Strand.halted_of_ne h]) hk hs
  · simp only [State.abortGang, code]; rfl
  · simp only [State.abortGang, pc]; rfl

/-- A strand that is not FREE stands in the table. -/
theorem State.mem_strands {s : State} {k : Nat} (h : (s.strand k).st ≠ .free) : (k, s.strand k) ∈ s.strands := by
  have aux (l : List (Nat × Strand)) (h : (Tab.get {} k l).st ≠ .free) : (k, Tab.get {} k l) ∈ l := by
    induction l with
    | nil => simp [Tab.get, Tab.find] at h
    | cons p l ih =>
      obtain ⟨j, x⟩ := p
      by_cases hj : j = k
      · subst hj; simp [Tab.get, Tab.find]
      · simp only [Tab.get, Tab.find, if_neg hj] at h ih ⊢
        exact List.mem_cons_of_mem _ (ih h)
  exact aux _ h

theorem State.mem_gangStrands {s : State} {k : Nat} (h : (s.strand k).st ≠ .free) (hk : slotOf k < 13) :
    k ∈ s.gangStrands (siteOfK k) (s.strand k).entry :=
  List.mem_map.2 ⟨_, List.mem_filter.2 ⟨State.mem_strands h, by simp [h, hk]⟩, rfl⟩

/-- An event that is raised is held (R165). -/
theorem State.holdFull_raise (s : State) (v u sev code : Nat) (n : Option Nat) (a : Addr) : (s.raise v u sev code n a).holdFull v u = true := by
  have found (l : List (Nat × EventRec)) (r : EventRec) : (Tab.find u (l ++ [(u, r)])).isSome = true := by
    induction l with
    | nil => simp [Tab.find]
    | cons p l ih =>
      obtain ⟨j, x⟩ := p
      by_cases hj : j = u <;> simp [Tab.find, hj, ih]
  simp only [State.holdFull, State.raise, State.site_setSite, if_true]
  exact found _ _

/-- What a fault in user mode comes to while the core's event hold is empty (R373). -/
theorem State.faultAct_user {s : State} {k : Nat} (f : Late) (hu : (s.strand k).sup = false) (hf : (s.strand k).st ≠ .free) (hk : slotOf k < 13)
    (hh : s.holdFull (siteOfK k) (16 + coreNo k) = false) :
    let t := s.faultAct k f
    (t.gang (siteOfK k) (s.strand k).entry).st = .aborting ∧ t.holdFull (siteOfK k) (16 + coreNo k) = true ∧ (t.strand k).st = .stopped ∧
      (t.strand k).faultCode = (s.strand k).faultCode ∧ (t.strand k).faultPc = (s.strand k).faultPc := by
  have raised := s.holdFull_raise (siteOfK k) (16 + coreNo k) sevNotice f.code (some (s.number k)) (s.strand k).faultAddr
  have mem : k ∈ (s.raise (siteOfK k) (16 + coreNo k) sevNotice f.code (some (s.number k)) (s.strand k).faultAddr).gangStrands (siteOfK k) (s.strand k).entry :=
    State.mem_gangStrands hf hk
  obtain ⟨hg, he, hst, hc, hp⟩ := State.abortGang_effect mem hf
  simp only [State.faultAct, hu, hh, Bool.false_eq_true, if_false]
  refine ⟨hg, ?_, hst, hc, hp⟩
  simpa only [State.holdFull, he] using raised

/-- Settles O18: the record of the fault, then the trap entry or the abort. -/
theorem faultsTaken : Obligations.FaultsTaken := by
  refine ⟨fun s f hf => ?_, fun s b => ⟨?_, (Config.freeWord s.freeIx).setWidth 60, rfl⟩, by decide⟩
  · have record := s.strand_faultRecord s.cur s.cur f
    rw [if_pos rfl] at record
    refine ⟨fun hs hu ht => ?_, fun hs hst hk hh => ?_⟩
    · have hs' : ((s.faultRecord s.cur f).strand s.cur).sup = true := by rw [record]; exact hs
      obtain ⟨hb, ht'⟩ := s.core_faultRecord s.cur (coreOfK s.cur) f
      have trap := (s.faultRecord s.cur f).strand_faultTrap (k := s.cur)
        { code := f.code.num, addr := ((s.faultRecord s.cur f).strand s.cur).faultAddr, pc := f.pc, kind := f.kind } (ht'.trans hu) (by rw [record]; exact ht)
      simp only [s.takeFault_of_ne s.cur hf, State.faultAct, hs', if_true]
      obtain ⟨hpc, htp, htm, hsup, hst, hc, hp, ha⟩ := trap
      refine ⟨by rw [hpc, hb], htp, by rw [htm, hs'], hsup, hst, by rw [hc, record], by rw [hp, record], fun a e => ?_⟩
      rw [ha, record, e]; rfl
    · have act := State.faultAct_user (s := s.faultRecord s.cur f) (k := s.cur)
        { code := f.code.num, addr := ((s.faultRecord s.cur f).strand s.cur).faultAddr, pc := f.pc, kind := f.kind }
        (by rw [record]; exact hs) (by rw [record]; exact hst) hk (by simpa [State.holdFull, State.site] using hh)
      obtain ⟨hg, he, hst, hc, hp⟩ := act
      simp only [s.takeFault_of_ne s.cur hf]
      refine ⟨?_, he, hst, by rw [hc, record], by rw [hp, record]⟩
      rw [← hg, record]; rfl
  · simp [exec_eq_execHalt, execHalt, State.faultAt]

/-! ## The segment check (R78) -/

theorem bitOn_eq_getLsbD {n : Nat} (r : BitVec n) (i : Nat) : bitOn r.toNat i = r.getLsbD i := by
  simp [bitOn, BitVec.getLsbD, Nat.testBit_eq_decide_div_mod_eq]

theorem bitOn_eq_testBit (n i : Nat) : bitOn n i = n.testBit i := by
  simp [bitOn, Nat.testBit_eq_decide_div_mod_eq]

theorem subRights_iff (need : Nat) (r : BitVec 6) : subRights need r.toNat = true ↔ ∀ i, i < 6 → need.testBit i = true → r.getLsbD i = true := by
  simp only [subRights, List.all_eq_true, List.mem_range, Bool.or_eq_true, Bool.not_eq_true', bitOn_eq_testBit, BitVec.testBit_toNat]
  refine forall₂_congr fun i _ => ?_
  cases need.testBit i <;> simp

/-- The address at an offset is base plus offset, which stays within the kind (R78). -/
theorem Seg.form_toNat {g : Seg} {off : Nat} {a : Addr} (h : g.form off = some a) : a.toNat = g.base.toNat + off := by
  have hb := g.base.isLt
  have within (n : Nat) (hn : n ≤ 60) (hlt : g.base.toNat % 2 ^ n + off < 2 ^ n) : g.base.toNat + off < 2 ^ 60 := by
    have split : 2 ^ 60 = 2 ^ n * 2 ^ (60 - n) := by rw [← Nat.pow_add]; congr 1; omega
    have quot : g.base.toNat / 2 ^ n < 2 ^ (60 - n) := Nat.div_lt_of_lt_mul (split ▸ hb)
    calc g.base.toNat + off = 2 ^ n * (g.base.toNat / 2 ^ n) + (g.base.toNat % 2 ^ n + off) := by rw [← Nat.add_assoc, Nat.div_add_mod]
      _ < 2 ^ n * (g.base.toNat / 2 ^ n) + 2 ^ n := by omega
      _ = 2 ^ n * (g.base.toNat / 2 ^ n + 1) := by ring
      _ ≤ 2 ^ n * 2 ^ (60 - n) := Nat.mul_le_mul_left _ quot
      _ = 2 ^ 60 := split.symm
  have width : offsetBits (kindBits g.base.toNat) ≤ 60 := by unfold offsetBits; split_ifs <;> omega
  simp only [Seg.form] at h
  split_ifs at h with hk
  push Not at hk
  obtain rfl := Option.some.inj h
  rw [BitVec.toNat_ofNat, Nat.mod_eq_of_lt (within _ width hk.2)]

/-- What the segment check asks for, condition by condition (R78). -/
theorem Seg.check_ok_iff (g : Seg) (sup : Bool) (off size need align : Nat) (a : Addr) (hs : 0 < size) :
    g.check sup off size need align = .ok a ↔
      (bitOn g.rights.toNat 5 = true → sup = true) ∧ subRights need g.rights.toNat = true ∧ off + size ≤ g.limit.toNat ∧
        kindBits g.base.toNat < 4 ∧ g.form off = some a ∧ a.toNat % align = 0 := by
  constructor
  · intro h
    obtain ⟨hp, hr, -, hl, hk, hf, ha⟩ := Seg.check_ok h
    exact ⟨fun h5 => by simpa [h5] using hp, hr, hl, hk, hf, ha⟩
  · rintro ⟨hp, hr, hl, hk, hf, ha⟩
    have hp' : (bitOn g.rights.toNat 5 && !sup) = false := by
      cases hb : bitOn g.rights.toNat 5
      · rfl
      · simp [hp hb]
    have hl' : ¬(off ≥ g.limit.toNat ∨ off + size > g.limit.toNat) := by omega
    simp [Seg.check, hp', hr, hl', Nat.not_le.2 hk, hf, ha]

/-- The test of `segset` in user mode (R47). -/
theorem Seg.inside_iff (n p : Seg) : n.inside p = true ↔
    p.base.toNat ≤ n.base.toNat ∧ n.base.toNat + n.limit.toNat ≤ p.base.toNat + p.limit.toNat ∧
      n.base.extractLsb' 57 3 = p.base.extractLsb' 57 3 ∧ (∀ i, i < 6 → n.rights.getLsbD i = true → p.rights.getLsbD i = true) ∧
      n.rights.getLsbD 5 = false := by
  have kind (b : Addr) : (b.extractLsb' 57 3).toNat = kindBits b.toNat := by
    simp [kindBits, Nat.shiftRight_eq_div_pow]
  have kinds : kindBits n.base.toNat = kindBits p.base.toNat ↔ n.base.extractLsb' 57 3 = p.base.extractLsb' 57 3 := by
    rw [← BitVec.toNat_inj, kind, kind]
  simp only [Seg.inside, Bool.and_eq_true, decide_eq_true_eq, beq_iff_eq, kinds, subRights_iff, Bool.not_eq_true', bitOn_eq_getLsbD, and_assoc]
  rfl

/-- Settles O19: the conditions of the check, and the two ways that `segset` goes on. -/
theorem segmentChecks : Obligations.SegmentChecks := by
  refine ⟨fun g sup off size need align a hs _ => ?_, fun d a st sp r s hr => ?_⟩
  · rw [Seg.check_ok_iff _ _ _ _ _ _ _ hs, bitOn_eq_getLsbD, subRights_iff]
    have form : g.form off = some a ↔ ∃ b, g.form off = some b ∧ b.toNat = g.base.toNat + off ∧ b = a :=
      ⟨fun h => ⟨a, h, Seg.form_toNat h, rfl⟩, fun ⟨_, h, _, e⟩ => e ▸ h⟩
    rw [form]
  · have ready : ∀ x ∈ [d.toNat, a.toNat], s.me.holds x = true ∧ s.me.pend.contains x = false := by simpa [Ready] using hr
    have body : exec (.segset d a st sp r) s = _ := congrArg Host.Outcome.next (State.issue_ready _ ready)
    simp only [← Seg.inside_iff { base := (s.val d).setWidth 60, limit := (s.val a).setWidth 48, rights := r }]
    refine ⟨fun h => body.trans ?_, fun hu hi => body.trans ?_⟩
    · rcases h with h | h <;> simp [h]
    · simp [hu, hi]

end Sys2Proof.Machine
end

section
/-! The issuing strand: parking for a unit's answer (R371), and what an operation of a home leaves of the claims (R131). -/

namespace Sys2Proof.Machine

open Sys2Proof Sys2Proof.Spec

/-! ## The issuing strand -/

@[simp] theorem State.me_modStrand (s : State) (f : Strand → Strand) : (s.modStrand s.cur f).me = f s.me := by simp [State.me]
@[simp] theorem State.me_modCore (s : State) (c : Nat) (f : Core → Core) : (s.modCore c f).me = s.me := rfl
@[simp] theorem State.me_modSite (s : State) (v : Nat) (f : Site → Site) : (s.modSite v f).me = s.me := rfl
@[simp] theorem State.strand_modGang (s : State) (v e j : Nat) (f : Gang → Gang) : (s.modGang v e f).strand j = s.strand j := rfl
@[simp] theorem State.core_modGang (s : State) (v e j : Nat) (f : Gang → Gang) : (s.modGang v e f).core j = s.core j := rfl
@[simp] theorem State.gang_modStrand (s : State) (k v e : Nat) (f : Strand → Strand) : (s.modStrand k f).gang v e = s.gang v e := rfl
@[simp] theorem State.gang_modCore (s : State) (c v e : Nat) (f : Core → Core) : (s.modCore c f).gang v e = s.gang v e := rfl
@[simp] theorem State.site_park (s : State) (k v : Nat) (r : Park) (c : Cont) : (s.park k r c).site v = s.site v := rfl
@[simp] theorem State.me_modGang (s : State) (v e : Nat) (f : Gang → Gang) : (s.modGang v e f).me = s.me := rfl

theorem State.gang_modGang (s : State) (v e w j : Nat) (f : Gang → Gang) :
    (s.modGang v e f).gang w j = if w = v ∧ j = e then f (s.gang v e) else s.gang w j := by
  by_cases hw : w = v
  · subst hw; simp [State.gang, State.modGang, Tab.get_put]
  · simp [State.gang, State.modGang, hw]

@[simp] theorem State.gang_modGang_self (s : State) (v e : Nat) (f : Gang → Gang) : (s.modGang v e f).gang v e = f (s.gang v e) := by
  simp [State.gang_modGang]

theorem State.site_modGang (s : State) (v e w : Nat) (f : Gang → Gang) : ∃ gs, (s.modGang v e f).site w = { s.site w with gangs := gs } := by
  by_cases hw : w = v
  · subst hw; exact ⟨_, by simp [State.modGang]; rfl⟩
  · exact ⟨(s.site w).gangs, by simp [State.modGang, hw]⟩

/-- The names of a ready instruction, as the numbers that issue looks at. -/
theorem numbers_ready {s : State} {names : List (BitVec 8)} (h : Ready s names) :
    ∀ r ∈ names.map (·.toNat), s.me.holds r = true ∧ s.me.pend.contains r = false := by
  simpa [Ready] using h

theorem State.issue_one {s : State} {a : BitVec 8} {body : State → State} (h : Ready s [a]) : s.issue [a.toNat] body = body s :=
  State.issue_ready body (numbers_ready h)

theorem State.issue_two {s : State} {d a : BitVec 8} {body : State → State} (h : Ready s [d, a]) : s.issue [d.toNat, a.toNat] body = body s :=
  State.issue_ready body (numbers_ready h)

theorem pass_eq_went (s : State) : s.pass 4 = went s (s.me.pc + 4) := by
  rfl

theorem finish_eq_wrote (s : State) (d : BitVec 8) (w : Word) (n : Nat) : s.finish d.toNat w n = wrote s d w n := by
  simp only [State.finish, wrote, put_eq_setReg]

/-- A computation with its registers ready completes in its turn (R274). -/
theorem compute_gives {i : Instr} {names : List (BitVec 8)} {d : BitVec 8} {n : Nat} {v : State → Word}
    (h : ∀ s, exec i s = .next (s.compute names d n v)) : Gives i names d n v := by
  intro s hr
  rw [h, State.compute, State.issue_ready _ (numbers_ready hr), finish_eq_wrote]

/-! ## Replies formed in the own pavilion -/

@[simp] theorem State.localReply_mem (s : State) (v : Nat) (a : Acc) (op : MsgOp) (d : List Byte) (l : Option Line) :
    (s.localReply v a op d l).mem = s.mem := rfl
@[simp] theorem State.localReply_full (s : State) (v : Nat) (a : Acc) (op : MsgOp) (d : List Byte) (l : Option Line) :
    (s.localReply v a op d l).full = s.full := rfl
@[simp] theorem State.localReply_strands (s : State) (v : Nat) (a : Acc) (op : MsgOp) (d : List Byte) (l : Option Line) :
    (s.localReply v a op d l).strands = s.strands := rfl
@[simp] theorem State.localReply_cores (s : State) (v : Nat) (a : Acc) (op : MsgOp) (d : List Byte) (l : Option Line) :
    (s.localReply v a op d l).cores = s.cores := rfl
@[simp] theorem State.localReply_sites (s : State) (v : Nat) (a : Acc) (op : MsgOp) (d : List Byte) (l : Option Line) :
    (s.localReply v a op d l).sites = s.sites := rfl
@[simp] theorem State.localReply_cur (s : State) (v : Nat) (a : Acc) (op : MsgOp) (d : List Byte) (l : Option Line) :
    (s.localReply v a op d l).cur = s.cur := rfl

/-! ## Asking a unit of the own pavilion (R187, R286, R371) -/

@[simp] theorem State.askUnit_mem (s : State) (c : Cont) (op : MsgOp) (d : List Byte) : (s.askUnit c op d).mem = s.mem := rfl
@[simp] theorem State.askUnit_sites (s : State) (c : Cont) (op : MsgOp) (d : List Byte) : (s.askUnit c op d).sites = s.sites := rfl
@[simp] theorem State.askUnit_strand (s : State) (c : Cont) (op : MsgOp) (d : List Byte) (j : Nat) : (s.askUnit c op d).strand j =
    if j = s.cur then { s.me with st := .parked, why := some .access, cont := c } else s.strand j := State.strand_park ..

theorem State.me_askUnit (s : State) (c : Cont) (op : MsgOp) (d : List Byte) :
    (s.askUnit c op d).me = { s.me with st := .parked, why := some .access, cont := c } := (s.askUnit_strand c op d s.cur).trans (if_pos rfl)

theorem park_parks (s : State) (r : Park) (c : Cont) : Parks s (s.park s.cur r c) r c := by simp [Parks, me_park]

theorem askUnit_parks (s : State) (c : Cont) (op : MsgOp) (d : List Byte) : Parks s (s.askUnit c op d) .access c := by
  simp [Parks, State.me_askUnit]

/-- The unit's answer is on its way, and its transaction is the strand's. -/
theorem askUnit_ownReply (s : State) (c : Cont) (op : MsgOp) (d : List Byte) : OwnReply s (s.askUnit c op d) op d := by
  refine ⟨_, List.mem_append_right _ (List.mem_singleton.2 rfl), rfl, rfl, rfl, rfl, ?_⟩
  exact ⟨_, List.mem_append_right _ (List.mem_singleton.2 rfl), rfl, rfl⟩

/-! ## What leaves the claims as they are -/

/-- Strands, cores, claim tables and waiting requests are as they were. -/
structure SameClaims (s t : State) : Prop where
  cur : t.cur = s.cur
  strands : t.strands = s.strands
  cores : t.cores = s.cores
  gangs : ∀ v, (t.site v).gangs = (s.site v).gangs
  waiters : ∀ v, (t.site v).waiters = (s.site v).waiters

theorem SameClaims.refl (s : State) : SameClaims s s := ⟨rfl, rfl, rfl, fun _ => rfl, fun _ => rfl⟩

theorem SameClaims.trans {s t u : State} (h : SameClaims s t) (g : SameClaims t u) : SameClaims s u :=
  ⟨g.cur.trans h.cur, g.strands.trans h.strands, g.cores.trans h.cores, fun v => (g.gangs v).trans (h.gangs v), fun v => (g.waiters v).trans (h.waiters v)⟩

theorem SameClaims.of_sites {s t : State} (hc : t.cur = s.cur) (hs : t.strands = s.strands) (hq : t.cores = s.cores) (hv : t.sites = s.sites) :
    SameClaims s t :=
  ⟨hc, hs, hq, fun v => by rw [State.site, hv, State.site], fun v => by rw [State.site, hv, State.site]⟩

/-- A change of a site that leaves its claim table and its waiting requests. -/
theorem SameClaims.modSite (s : State) (v : Nat) {f : Site → Site} (hg : ∀ x, (f x).gangs = x.gangs) (hw : ∀ x, (f x).waiters = x.waiters) :
    SameClaims s (s.modSite v f) := by
  refine ⟨rfl, rfl, rfl, fun u => ?_, fun u => ?_⟩ <;> rw [State.site_modSite] <;> split_ifs with h
  · rw [h, hg]
  · rfl
  · rw [h, hw]
  · rfl

theorem SameClaims.each {α : Type} {f : State → α → State} (hf : ∀ s a, SameClaims s (f s a)) (l : List α) (s : State) : SameClaims s (each l f s) := by
  induction l generalizing s with
  | nil => exact .refl s
  | cons a l ih => exact (hf s a).trans (ih _)

theorem SameClaims.strand {s t : State} (h : SameClaims s t) (k : Nat) : t.strand k = s.strand k := by rw [State.strand, h.strands, State.strand]

theorem SameClaims.gang {s t : State} (h : SameClaims s t) (v e : Nat) : t.gang v e = s.gang v e := by rw [State.gang, h.gangs, State.gang]

theorem SameClaims.post (s : State) (m : Msg) : SameClaims s (s.post m) := .of_sites rfl rfl rfl rfl
theorem SameClaims.reply (s : State) (m : Msg) (op : MsgOp) (d : List Byte) (f : Bool) : SameClaims s (s.reply m op d f) := .post ..
theorem SameClaims.raise (s : State) (v u sev code : Nat) (n : Option Nat) (a : Addr) : SameClaims s (s.raise v u sev code n a) :=
  .modSite s v (f := fun t => { t with evHolds := _, evSeq := _ }) (fun _ => rfl) (fun _ => rfl)

theorem SameClaims.fire (s : State) (v u g key : Nat) : SameClaims s (s.fire v u g key) := .each (fun s _ => .post s _) _ s

theorem SameClaims.store (s : State) (v u off en : Nat) (d : List Byte) (key : Nat) : SameClaims s (s.store v u off en d key) :=
  .trans (t := { s with mem := Memory.writeN s.mem (homeKey v u off) en d }) (.of_sites rfl rfl rfl rfl) (.each (fun s _ => .fire s _ _ _ _) _ _)

theorem SameClaims.answerRec (s : State) (v : Nat) (r : WaitRec) (op : MsgOp) (d : List Byte) : SameClaims s (s.answerRec v r op d) := by
  have gone := SameClaims.modSite s v (f := fun t => { t with waits := t.waits.filter fun q => q.order != r.order }) (fun _ => rfl) (fun _ => rfl)
  unfold State.answerRec
  dsimp only
  split
  · exact gone.trans (.reply ..)
  · exact gone

theorem SameClaims.drain (s : State) (v u g : Nat) : SameClaims s (s.drain v u g) := .of_sites rfl rfl rfl rfl

theorem SameClaims.fill (s : State) (v u g : Nat) : SameClaims s (s.fill v u g) := .of_sites rfl rfl rfl rfl

theorem SameClaims.freshen (s : State) (gs : List Nat) : SameClaims s (s.freshen gs) := .of_sites rfl rfl rfl rfl

theorem SameClaims.serveLoad (s : State) (v u g : Nat) (r : WaitRec) : SameClaims s (s.serveLoad v u g r) := by
  have answered := SameClaims.answerRec s v r .data (s.fetchBytes v u r.off 8)
  unfold State.serveLoad
  dsimp only
  split_ifs
  · exact answered.trans ((SameClaims.drain ..).trans (.fire ..))
  · exact answered

theorem SameClaims.inspect (s : State) (v u : Nat) (f : Nat × Nat) : SameClaims s (s.inspect v u f).2 := by
  unfold State.inspect
  dsimp only
  by_cases h : f.2 = 0 ∨ f.2 = 2
  · rw [if_pos h]; exact (SameClaims.raise ..).trans (.of_sites rfl rfl rfl rfl)
  · rw [if_neg h]; exact .raise ..

/-- What a home's reading of granules has corrected or lost leaves the claims. -/
theorem SameClaims.readOver {s t : State} {v u n : Nat} {gs : List Nat} (h : (∃ i, s.readOver v u gs n = .mended t i) ∨ s.readOver v u gs n = .lost t) :
    SameClaims s t := by
  unfold State.readOver at h
  split at h
  · simp at h
  · next g i _ =>
    have inspected := SameClaims.inspect s v u (g, Tab.get 0 g s.flaws)
    dsimp only at h
    split_ifs at h
    · simp at h
    · obtain ⟨_, h⟩ | h := h
      · cases h; exact inspected
      · cases h
    · obtain ⟨_, h⟩ | h := h
      · cases h
      · cases h; exact inspected

theorem SameClaims.leaveUnserved (s : State) (v u g : Nat) : SameClaims s (s.leaveUnserved v u g) := .modSite s v (fun _ => rfl) (fun _ => rfl)

/-- The record of a wait list that moves to another granule leaves the claims. -/
theorem SameClaims.waits (s : State) (v : Nat) (f : Site → List WaitRec) : SameClaims s (s.modSite v fun x => { x with waits := f x }) :=
  .modSite s v (fun _ => rfl) (fun _ => rfl)

/-- Serving wait lists leaves the claims (R131). -/
theorem SameClaims.serve (n : Nat) (gs : List Nat) (v u : Nat) (s : State) : SameClaims s (State.serve n gs v u s) := by
  induction n generalizing gs s with
  | zero => exact .refl s
  | succ n ih =>
    cases gs with
    | nil => exact .refl s
    | cons g gs =>
      unfold State.serve
      split
      · exact ih gs s
      · next r _ _ =>
        dsimp only
        split
        case h_1 | h_2 =>
          split
          · exact ih gs s
          · split
            · exact (SameClaims.leaveUnserved ..).trans (ih ..)
            · next h => exact (readOver (.inr h)).trans ((answerRec ..).trans (ih ..))
            · next h => exact (readOver (.inl ⟨_, h⟩)).trans ((serveLoad ..).trans (ih ..))
            · exact (serveLoad ..).trans (ih ..)
        · split
          · exact ih gs s
          · exact (SameClaims.freshen ..).trans
              ((store ..).trans ((SameClaims.fill ..).trans ((answerRec ..).trans (ih ..))))
        · split
          · split
            · exact (SameClaims.leaveUnserved ..).trans (ih ..)
            · next h => exact (readOver (.inr h)).trans ((answerRec ..).trans (ih ..))
            · next h => exact (readOver (.inl ⟨_, h⟩)).trans ((SameClaims.waits ..).trans (ih ..))
            · split
              · exact (answerRec ..).trans ((SameClaims.each (fun t h => (drain t v u h).trans (.fire ..)) _ _).trans (ih ..))
              · exact (answerRec ..).trans (ih ..)
          · split
            · exact ih gs s
            · exact (SameClaims.waits ..).trans (ih ..)
        · exact ih gs s

end Sys2Proof.Machine
end

section
/-! Releases and the claim queries (R41, R170, R185, R187). -/

namespace Sys2Proof.Machine

open Sys2Proof Sys2Proof.Spec

/-! ## What is held of a pool (R185) -/

/-- The units of a store or matrix pool that a gang's entry shows (R176). -/
def Gang.units (g : Gang) (p : Nat) : Nat :=
  if p < 20 then (Tab.get [] (p - 16) g.stores).length else if g.cores.contains (p - 20) then Tab.get 0 (g.crewOn (p - 20)) g.mats else 0

/-- A gang's entry after n units of a store or matrix pool have been given up (R170). -/
def Gang.without (g : Gang) (p n : Nat) : Gang :=
  if p < 20 then
    let l := Tab.get [] (p - 16) g.stores
    { g with stores := Tab.put (p - 16) (l.take (l.length - n)) g.stores }
  else { g with mats := Tab.put (g.crewOn (p - 20)) (g.units p - n) g.mats }

theorem Gang.units_without_self (g : Gang) (p n : Nat) : (g.without p n).units p = g.units p - n := by
  by_cases hp : p < 20
  · simp [Gang.without, Gang.units, hp]
  · by_cases hc : g.cores.contains (p - 20) = true
    · simp only [Gang.without, Gang.units, hp, hc, Gang.crewOn, if_false, if_true, Tab.get_put_self]
    · simp only [Gang.without, Gang.units, hp, hc, if_false, Nat.zero_sub, Bool.false_eq_true]

theorem Gang.units_without_le (g : Gang) (p n q : Nat) : (g.without p n).units q ≤ g.units q := by
  by_cases hp : p < 20 <;> by_cases hq : q < 20
  · simp only [Gang.without, Gang.units, hp, hq, if_true, Tab.get_put]
    split_ifs with h
    · rw [h, List.length_take]; omega
    · exact le_rfl
  · simp [Gang.without, Gang.units, hp, hq, Gang.crewOn]
  · simp [Gang.without, Gang.units, hp, hq]
  · simp only [Gang.without, Gang.units, hp, hq, if_false, Tab.get_put, Gang.crewOn]
    split_ifs with _ h
    · rw [h]; omega
    · omega
    · exact le_rfl
    · exact le_rfl

theorem State.heldBy_eq (s : State) (v e : Nat) {p : Nat} (hp : ¬p < 16) : s.heldBy v e p = (s.gang v e).units p := by
  simp [State.heldBy, Gang.units, hp]

theorem State.heldOf_eq (s : State) (k p : Nat) :
    s.heldOf k p = if p < 16 then (s.strand k).granules else (s.gang (siteOfK k) (s.strand k).entry).units p := by
  unfold State.heldOf
  split_ifs with hp
  · rfl
  · exact s.heldBy_eq _ _ hp

theorem State.heldOf_congr {s t : State} {k : Nat} (hg : (t.strand k).granules = (s.strand k).granules) (he : (t.strand k).entry = (s.strand k).entry)
    (h : t.gang (siteOfK k) (s.strand k).entry = s.gang (siteOfK k) (s.strand k).entry) (p : Nat) : t.heldOf k p = s.heldOf k p := by
  rw [State.heldOf_eq, State.heldOf_eq, hg, he, h]

theorem State.heldOf_modStrand (s : State) (k p : Nat) (f : Strand → Strand) (hg : ∀ x, (f x).granules = x.granules) (he : ∀ x, (f x).entry = x.entry) :
    (s.modStrand k f).heldOf k p = s.heldOf k p := by
  refine State.heldOf_congr ?_ ?_ ?_ p
  · rw [State.strand_modStrand, if_pos rfl, hg]
  · rw [State.strand_modStrand, if_pos rfl, he]
  · rfl

theorem SameClaims.heldOf {s t : State} (h : SameClaims s t) (k p : Nat) : t.heldOf k p = s.heldOf k p :=
  State.heldOf_congr (by rw [h.strand]) (by rw [h.strand]) (h.gang ..) p

/-! ## Giving up units (R170) -/

section GiveUp

variable (s : State) (k p n : Nat)

@[simp] theorem State.giveUp_mem : (s.giveUp k p n).mem = s.mem := by unfold State.giveUp; split_ifs <;> rfl
@[simp] theorem State.giveUp_cur : (s.giveUp k p n).cur = s.cur := by unfold State.giveUp; split_ifs <;> rfl

theorem State.strand_giveUp : (s.giveUp k p n).strand k = { s.strand k with granules := if p < 16 then (s.strand k).granules - n else (s.strand k).granules } := by
  unfold State.giveUp
  split_ifs <;> simp

theorem State.gang_giveUp : (s.giveUp k p n).gang (siteOfK k) (s.strand k).entry =
    if p < 16 then s.gang (siteOfK k) (s.strand k).entry else (s.gang (siteOfK k) (s.strand k).entry).without p n := by
  unfold State.giveUp
  split_ifs with h16 h20
  · rfl
  · simp [Gang.without, h20]
  · simp [Gang.without, h20, State.heldOf_eq, h16]

theorem State.waiters_giveUp (v : Nat) : ((s.giveUp k p n).site v).waiters = (s.site v).waiters := by
  have gangs (e : Nat) (f : Gang → Gang) : ((s.modGang (siteOfK k) e f).site v).waiters = (s.site v).waiters := by
    obtain ⟨gs, h⟩ := s.site_modGang (siteOfK k) e v f
    rw [h]
  unfold State.giveUp
  split_ifs
  · rfl
  · exact gangs ..
  · exact gangs ..

theorem State.heldOf_giveUp_self : (s.giveUp k p n).heldOf k p = s.heldOf k p - n := by
  rw [State.heldOf_eq, State.heldOf_eq, State.strand_giveUp, State.gang_giveUp]
  split_ifs
  · rfl
  · exact Gang.units_without_self ..

theorem State.heldOf_giveUp_le (q : Nat) : (s.giveUp k p n).heldOf k q ≤ s.heldOf k q := by
  rw [State.heldOf_eq, State.heldOf_eq, State.strand_giveUp, State.gang_giveUp]
  split_ifs
  · exact Nat.sub_le ..
  · exact le_rfl
  · exact le_rfl
  · exact Gang.units_without_le ..

end GiveUp

/-- The holdings of strand k named in a list, given up. -/
def State.giveUpAll (s : State) (k : Nat) (l : List (Nat × Nat)) : State := each l (fun s q => s.giveUp k q.1 q.2) s

section GiveUpAll

variable (s : State) (k : Nat) (l : List (Nat × Nat))

@[simp] theorem State.giveUpAll_mem : (s.giveUpAll k l).mem = s.mem := each_keeps State.mem (fun _ _ => State.giveUp_mem ..) l s
@[simp] theorem State.giveUpAll_cur : (s.giveUpAll k l).cur = s.cur := each_keeps State.cur (fun _ _ => State.giveUp_cur ..) l s

theorem State.waiters_giveUpAll (v : Nat) : ((s.giveUpAll k l).site v).waiters = (s.site v).waiters :=
  each_keeps (fun s => (s.site v).waiters) (fun _ _ => State.waiters_giveUp ..) l s

theorem State.strand_giveUpAll : ∃ g, (s.giveUpAll k l).strand k = { s.strand k with granules := g } :=
  each_invariant (P := fun t => ∃ g, t.strand k = { s.strand k with granules := g })
    (fun t q ⟨g, h⟩ => ⟨_, by rw [State.strand_giveUp, h]⟩) l ⟨_, rfl⟩

/-- A pool of which all is named is held no more. -/
theorem State.heldOf_giveUpAll {p n : Nat} (hl : (p, n) ∈ l) (hn : s.heldOf k p ≤ n) : (s.giveUpAll k l).heldOf k p = 0 := by
  refine each_reaches (P := fun t => t.heldOf k p ≤ n) (Q := fun t => t.heldOf k p = 0) (a := (p, n)) (fun t q h => ?_) (fun t q h => ?_)
    (fun t h => ?_) hl hn
  · exact (t.heldOf_giveUp_le k q.1 q.2 p).trans h
  · have le := t.heldOf_giveUp_le k q.1 q.2 p
    omega
  · exact (t.heldOf_giveUp_self k p n).trans (Nat.sub_eq_zero_of_le h)

end GiveUpAll

/-! ## The scan with nobody waiting (R186) -/

theorem State.scanOne_nobody {s : State} {v : Nat} (h : (s.site v).waiters = []) (p : Nat) : s.scanOne v p = s := by
  simp [State.scanOne, h, State.scanPool]

/-- The report of a release changes only what is offered again (R152, R154). -/
theorem SameClaims.report (s : State) (v : Nat) : SameClaims s (s.report v) := by
  refine (SameClaims.modSite s v (f := fun t => { t with resuming := t.resuming.map fun r => (r.1, false) }) (fun _ => rfl) (fun _ => rfl)).trans
    (.each (fun t r => ?_) _ _)
  split_ifs
  · exact .modSite _ _ (fun _ => rfl) (fun _ => rfl)
  · exact .refl t

theorem State.report_mem (s : State) (v : Nat) : (s.report v).mem = s.mem :=
  each_keeps State.mem (fun t r => by split_ifs <;> rfl) _ _

theorem State.scanAll_nobody {s : State} {v : Nat} (h : (s.site v).waiters = []) : s.scanAll v = s.report v :=
  congrArg (State.report · v) (each_invariant (P := (· = s)) (fun _ p e => e ▸ State.scanOne_nobody h p) _ rfl)

/-! ## `rel` and `rel.all` once their waits are over (R185) -/

/-- The least accumulator that the release of some holdings gives up (R185). -/
def State.releaseFrom (s : State) (l : List (Nat × Nat)) : Nat := ((l.filter fun q => decide (20 ≤ q.1)).map fun q => s.heldOf s.cur q.1 - q.2).headD 4

theorem State.releaseFrom_allPools (s : State) : s.releaseFrom (s.allPools s.cur) = 0 := by
  have core : coreNo s.cur < 16 := Nat.mod_lt _ (by decide)
  simp [State.releaseFrom, State.allPools, Nat.not_le.2 (show coreNo s.cur < 20 by omega), List.range, List.range.loop]

theorem State.release_eq (s : State) (l : List (Nat × Nat)) : s.release l =
    if s.me.tracker.isEmpty && s.me.pend.isEmpty && !s.accBusy s.cur (s.releaseFrom l) then
      ((s.giveUpAll s.cur l).scanAll (siteOfK s.cur)).modStrand s.cur fun x => { x with pc := x.pc + 4, cont := .reissue }
    else s.park s.cur .access (.release (s.releaseFrom l) l) := rfl

section Release

variable {s : State} {l : List (Nat × Nat)}

theorem State.release_waits (h : s.me.tracker ≠ []) : s.release l = s.park s.cur .access (.release (s.releaseFrom l) l) := by
  simp [State.release_eq, h]

/-- What a release leaves: the holdings named are given up, pc moves on, and nothing else that the statement speaks of differs. -/
theorem State.release_done (ht : s.me.tracker = []) (hp : s.me.pend = []) (hb : s.accBusy s.cur (s.releaseFrom l) = false)
    (hw : (s.site (siteOfK s.cur)).waiters = []) :
    (s.release l).mem = s.mem ∧ (s.release l).me = { (s.giveUpAll s.cur l).strand s.cur with pc := s.me.pc + 4, cont := .reissue } ∧
      (∀ p, (s.release l).heldOf s.cur p = (s.giveUpAll s.cur l).heldOf s.cur p) ∧
      (∀ e, (s.release l).gang (siteOfK s.cur) e = (s.giveUpAll s.cur l).gang (siteOfK s.cur) e) := by
  have same := SameClaims.report (s.giveUpAll s.cur l) (siteOfK s.cur)
  have done : s.release l = ((s.giveUpAll s.cur l).report (siteOfK s.cur)).modStrand s.cur fun x => { x with pc := x.pc + 4, cont := .reissue } := by
    rw [← State.scanAll_nobody ((s.waiters_giveUpAll ..).trans hw), State.release_eq, ht, hp, hb]; rfl
  have cur : (((s.giveUpAll s.cur l).report (siteOfK s.cur))).cur = s.cur := same.cur.trans (s.giveUpAll_cur ..)
  obtain ⟨g, hg⟩ := s.strand_giveUpAll s.cur l
  rw [done]
  refine ⟨?_, ?_, fun p => ?_, fun e => ?_⟩
  · rw [State.modStrand_mem, State.report_mem, State.giveUpAll_mem]
  · rw [State.me, State.modStrand_cur, cur, State.strand_modStrand, if_pos rfl, same.strand, hg]; rfl
  · rw [State.heldOf_modStrand, same.heldOf] <;> exact fun _ => rfl
  · rw [State.gang_modStrand, same.gang]

end Release

/-- `rel` as it is issued first: its checks, then the release of n units of its pool. -/
theorem exec_rel_first {s : State} {a : BitVec 8} (kd b : BitVec 2) (hn : s.relNamed = none) (hr : Ready s [a]) :
    let p := poolOf s.cur kd.toNat b.toNat
    exec (.rel a kd b) s = .next
      (if s.heldOf s.cur p < (s.val a).toNat then s.raiseFault s.cur .claimProtocol
      else if (s.val a).toNat = 0 then s.pass 4 else s.release [(p, (s.val a).toNat)]) := by
  simp only [exec_eq_execRel, execRel, hn, State.issue_one hr]

theorem State.relNamed_release {s : State} {lo : Nat} {l : List (Nat × Nat)} (h : s.me.cont = .release lo l) : s.relNamed = some l := by
  simp [State.relNamed, h]

/-- `rel` of n units of one pool. -/
theorem State.release_one {s : State} {p n : Nat} (ht : s.me.tracker = []) (hp : s.me.pend = [])
    (hb : s.accBusy s.cur (if 20 ≤ p then s.heldOf s.cur p - n else 4) = false) (hw : (s.site (siteOfK s.cur)).waiters = []) :
    (s.release [(p, n)]).heldOf s.cur p = s.heldOf s.cur p - n ∧ (s.release [(p, n)]).me.pc = s.me.pc + 4 ∧ (s.release [(p, n)]).me.regs = s.me.regs ∧
      (s.release [(p, n)]).mem = s.mem := by
  have lo : s.releaseFrom [(p, n)] = if 20 ≤ p then s.heldOf s.cur p - n else 4 := by
    unfold State.releaseFrom
    split_ifs with h <;> simp [h]
  obtain ⟨hm, hme, hh, -⟩ := State.release_done (l := [(p, n)]) ht hp (lo ▸ hb) hw
  obtain ⟨g, hg⟩ := s.strand_giveUpAll s.cur [(p, n)]
  refine ⟨(hh p).trans (s.heldOf_giveUp_self ..), by rw [hme], ?_, hm⟩
  rw [hme, hg]; rfl

/-- `rel.all`: all that the strand, its crew and its gang hold of their pools goes. -/
theorem State.release_all {s : State} (ht : s.me.tracker = []) (hp : s.me.pend = []) (hb : s.accBusy s.cur 0 = false)
    (hw : (s.site (siteOfK s.cur)).waiters = []) :
    let t := s.release (s.allPools s.cur)
    t.me = { s.me with granules := 0, pc := s.me.pc + 4, cont := .reissue } ∧ t.mem = s.mem ∧ t.heldOf s.cur (coreNo s.cur) = 0 ∧
      t.heldOf s.cur (20 + coreNo s.cur) = 0 ∧
      ∀ b, b < 4 → t.heldOf s.cur (16 + b) = 0 ∧ Tab.get [] b (t.gang (siteOfK s.cur) s.me.entry).stores = [] := by
  have core : coreNo s.cur < 16 := Nat.mod_lt _ (by decide)
  have lo := s.releaseFrom_allPools
  obtain ⟨hm, hme, hh, hgang⟩ := State.release_done (l := s.allPools s.cur) ht hp (lo ▸ hb) hw
  obtain ⟨g, hg⟩ := s.strand_giveUpAll s.cur (s.allPools s.cur)
  have named {p : Nat} (h : p ∈ [coreNo s.cur, 20 + coreNo s.cur] ++ (List.range 4).map (16 + ·)) :
      (s.giveUpAll s.cur (s.allPools s.cur)).heldOf s.cur p = 0 :=
    s.heldOf_giveUpAll s.cur _ (List.mem_map_of_mem (f := fun p => (p, s.heldOf s.cur p)) h) le_rfl
  have store {b : Nat} (hb : b < 4) : 16 + b ∈ [coreNo s.cur, 20 + coreNo s.cur] ++ (List.range 4).map (16 + ·) :=
    List.mem_append_right _ (List.mem_map_of_mem (List.mem_range.2 hb))
  have granules : ((s.giveUpAll s.cur (s.allPools s.cur)).strand s.cur).granules = 0 := by
    have h := named (p := coreNo s.cur) (by simp)
    rwa [State.heldOf_eq, if_pos core] at h
  have stores (b : Nat) (hb : b < 4) : Tab.get [] b ((s.giveUpAll s.cur (s.allPools s.cur)).gang (siteOfK s.cur) s.me.entry).stores = [] := by
    have h := named (store hb)
    rw [State.heldOf_eq, if_neg (by omega), hg, Gang.units, if_pos (by omega), Nat.add_sub_cancel_left] at h
    exact List.eq_nil_of_length_eq_zero h
  refine ⟨?_, hm, (hh _).trans (named (by simp)), (hh _).trans (named (by simp)), fun b hb => ⟨(hh _).trans (named (store hb)), ?_⟩⟩
  · rw [hg] at granules
    rw [hme, hg, show g = 0 from granules]; rfl
  · rw [hgang]; exact stores b hb

/-- Settles O31: the waits of a release, what it gives up, and the answers of the claim unit. -/
theorem releases : Obligations.Releases := by
  refine ⟨fun a kd b s hn => ⟨fun hr h => ?_, fun hr h => ?_, fun hr h0 hle ht hp hb hw => ?_, fun ht hp hb hw => ?_, fun ht => ⟨fun hr h0 hle => ?_, ?_⟩⟩,
    fun a kd b s lo p n hc hle ht hp hb hw => ?_, fun d a kd b s hr q hq => ?_⟩
  · rw [exec_rel_first kd b hn hr, if_pos h]
  · rw [exec_rel_first kd b hn hr, if_neg (by omega), if_pos h, pass_eq_went]
  · exact ⟨_, by rw [exec_rel_first kd b hn hr, if_neg (by omega), if_neg (by omega)], State.release_one ht hp hb hw⟩
  · exact ⟨_, by rw [exec_eq_execRelAll, execRelAll, hn, Option.getD_none], State.release_all ht hp hb hw⟩
  · exact ⟨_, _, by rw [exec_rel_first kd b hn hr, if_neg (by omega), if_neg (by omega), State.release_waits ht], park_parks ..⟩
  · exact ⟨_, by rw [exec_eq_execRelAll, execRelAll, hn, Option.getD_none, State.release_waits ht, s.releaseFrom_allPools], park_parks ..⟩
  · exact ⟨_, by simp only [exec_eq_execRel, execRel, State.relNamed_release hc], State.release_one ht hp hb hw⟩
  · have asks (f : State → Nat) : s.claimQuery d a f = s.askUnit (.load .w64 d.toNat 4) .data (leBytes 8 (f s)) :=
      State.issue_two hr
    have answer (f : State → Nat) : Parks s (s.claimQuery d a f) .access (.load .w64 d.toNat 4) ∧ OwnReply s (s.claimQuery d a f) .data (leBytes 8 (f s)) :=
      asks f ▸ ⟨askUnit_parks .., askUnit_ownReply ..⟩
    simp only [List.mem_cons, List.not_mem_nil, or_false] at hq
    rcases hq with rfl | rfl | rfl | rfl <;> exact ⟨_, rfl, answer _⟩

end Sys2Proof.Machine
end

section
/-! Acquires: what is counted of a pool, the grant, and the completion of a parked operation (R41, R42, R170, R176, R182-R184). -/

namespace Sys2Proof.Machine

open Sys2Proof Sys2Proof.Spec

/-! ## The completion of a parked operation (R125, R144) -/

/-- A parked strand whose gang does not halt, or of a slot that no gang stops, goes on once its operation is complete. -/
theorem State.strand_completed {s : State} {k : Nat} (n : Nat) (hs : (s.strand k).st = .parked)
    (hg : ((s.gang (siteOfK k) (s.strand k).entry).halting && decide (slotOf k < 13)) = false) (j : Nat) : (s.completed k n).strand j =
      if j = k then { s.strand k with pc := (s.strand k).pc + BitVec.ofNat 60 n, st := .ready, why := none, cont := .reissue } else s.strand j := by
  have adv : (s.advance k n).strand k = { s.strand k with pc := (s.strand k).pc + BitVec.ofNat 60 n } := (s.strand_modStrand ..).trans (if_pos rfl)
  have gang : (s.advance k n).gang (siteOfK k) (s.strand k).entry = s.gang (siteOfK k) (s.strand k).entry := rfl
  rw [State.completed, if_pos hs, State.strand_wake, adv]
  simp only [gang, hg, hs, Bool.false_and, Bool.false_eq_true, if_false, and_true]
  split_ifs with hj
  · rfl
  · exact (s.strand_modStrand ..).trans (if_neg hj)

theorem State.completed_goesOn {s : State} {k : Nat} (n : Nat) (hs : (s.strand k).st = .parked)
    (hg : (s.gang (siteOfK k) (s.strand k).entry).halting = false) : GoesOn s (s.completed k n) k n :=
  (State.strand_completed n hs (by rw [hg]; rfl) k).trans (if_pos rfl)

theorem State.wake_keeps {β : Type} (g : State → β) (hg : ∀ (s : State) k x, g (s.setStrand k x) = g s) (s : State) (k : Nat) : g (s.wake k) = g s := by
  obtain h | ⟨x, h⟩ := s.wake_cases k <;> rw [h]
  exact hg ..

/-- A completion changes its strand alone. -/
theorem State.completed_keeps {β : Type} (g : State → β) (hg : ∀ (s : State) k x, g (s.setStrand k x) = g s) (s : State) (k n : Nat) :
    g (s.completed k n) = g s := by
  unfold State.completed
  split_ifs
  · rw [State.wake_keeps g hg, State.advance, State.modStrand, hg]
  · rfl

@[simp] theorem State.completed_mem (s : State) (k n : Nat) : (s.completed k n).mem = s.mem := s.completed_keeps State.mem (fun _ _ _ => rfl) k n
@[simp] theorem State.completed_cur (s : State) (k n : Nat) : (s.completed k n).cur = s.cur := s.completed_keeps State.cur (fun _ _ _ => rfl) k n
@[simp] theorem State.completed_cores (s : State) (k n : Nat) : (s.completed k n).cores = s.cores := s.completed_keeps State.cores (fun _ _ _ => rfl) k n
@[simp] theorem State.completed_sites (s : State) (k n : Nat) : (s.completed k n).sites = s.sites := s.completed_keeps State.sites (fun _ _ _ => rfl) k n
@[simp] theorem State.completed_net (s : State) (k n : Nat) : (s.completed k n).net = s.net := s.completed_keeps State.net (fun _ _ _ => rfl) k n
@[simp] theorem State.site_completed (s : State) (k n v : Nat) : (s.completed k n).site v = s.site v := by simp [State.site]
@[simp] theorem State.gang_completed (s : State) (k n v e : Nat) : (s.completed k n).gang v e = s.gang v e := by simp [State.gang]

/-! ## Totals over a table -/

theorem Tab.get_of_mem {α : Type} {t : List (Nat × α)} (hr : Rising t) {k : Nat} {x : α} (h : (k, x) ∈ t) (d : α) : Tab.get d k t = x := by
  induction t with
  | nil => cases h
  | cons q t ih =>
    obtain ⟨j, y⟩ := q
    simp only [Rising, List.map_cons, List.pairwise_cons] at hr
    obtain ⟨above, hr⟩ := hr
    rcases List.mem_cons.1 h with h | h
    · cases h; simp [Tab.get, Tab.find]
    · have ne : j ≠ k := (above k (List.mem_map_of_mem h)).ne
      simpa [Tab.get, Tab.find, ne] using ih hr h

/-- The sum of a weight over the records of a table. -/
def Tab.total {α : Type} (w : Nat → α → Nat) (t : List (Nat × α)) : Nat := (t.map fun q => w q.1 q.2).sum

/-- A record written changes the total by the weights of the old record and the new one. -/
theorem Tab.total_put {α : Type} {w : Nat → α → Nat} {d : α} {k : Nat} (hd : w k d = 0) (x : α) {t : List (Nat × α)} (hr : Rising t) :
    Tab.total w (Tab.put k x t) + w k (Tab.get d k t) = Tab.total w t + w k x := by
  induction t with
  | nil => simp [Tab.total, Tab.put, Tab.get, Tab.find, hd]
  | cons q t ih =>
    obtain ⟨j, y⟩ := q
    have hr' := hr
    simp only [Rising, List.map_cons, List.pairwise_cons] at hr
    obtain ⟨above, hr⟩ := hr
    simp only [Tab.put]
    split_ifs with hlt heq
    · have absent : Tab.find k ((j, y) :: t) = none := by
        refine Tab.find_below fun a ha => ?_
        rcases List.mem_cons.1 ha with rfl | ha
        · exact hlt
        · exact hlt.trans (above a ha)
      simp only [Tab.get, absent, Option.getD_none, hd, Tab.total, List.map_cons, List.sum_cons]
      omega
    · subst heq
      simp only [Tab.get, Tab.find, if_true, Option.getD_some, Tab.total, List.map_cons, List.sum_cons]
      omega
    · have ih := ih hr
      have skip : Tab.get d k ((j, y) :: t) = Tab.get d k t := by simp [Tab.get, Tab.find, Ne.symm heq]
      simp only [Tab.total, List.map_cons, List.sum_cons, skip] at ih ⊢
      omega

theorem sum_map_filter {α : Type} (p : α → Bool) (f : α → Nat) (l : List α) :
    ((l.filter p).map f).sum = (l.map fun a => if p a then f a else 0).sum := by
  induction l with
  | nil => rfl
  | cons a l ih => cases h : p a <;> simp [h, ih]

/-! ## What is counted of a register pool (R176) -/

/-- The granules that a slot counts for the crew of entry e on core c. -/
def crewWeight (c e k : Nat) (x : Strand) : Nat :=
  if coreOfK k == c && x.entry == e && x.st != .free && decide (slotOf k < 13) then x.granules else 0

theorem State.crewGranules_eq {s : State} (hr : Rising s.strands) (c e : Nat) : s.crewGranules c e = Tab.total (crewWeight c e) s.strands := by
  rw [State.crewGranules, State.crewStrands, List.map_map, sum_map_filter, Tab.total]
  congr 1
  refine List.map_congr_left fun q hq => ?_
  simp only [crewWeight, Function.comp, State.strand, Tab.get_of_mem hr (show (q.1, q.2) ∈ s.strands from hq)]

/-- A strand that keeps its granules and its entry and is not FREE afterwards counts for its crew what it counted, or more if it was FREE. -/
theorem State.crewGranules_setStrand {s : State} (hr : Rising s.strands) {k : Nat} {x : Strand} (hg : x.granules = (s.strand k).granules)
    (he : x.entry = (s.strand k).entry) (hx : x.st ≠ .free) (c e : Nat) :
    s.crewGranules c e ≤ (s.setStrand k x).crewGranules c e ∧
      ((s.strand k).st ≠ .free → (s.setStrand k x).crewGranules c e = s.crewGranules c e) := by
  have total := Tab.total_put (w := crewWeight c e) (d := {}) (k := k) (by simp [crewWeight]) x hr
  rw [State.crewGranules_eq hr, State.crewGranules_eq (hr.put k x), State.setStrand_strands]
  change _ + crewWeight c e k (s.strand k) = _ at total
  have weight : crewWeight c e k (s.strand k) ≤ crewWeight c e k x ∧
      ((s.strand k).st ≠ .free → crewWeight c e k x = crewWeight c e k (s.strand k)) := by
    simp only [crewWeight, hg, he, bne_iff_ne.2 hx, Bool.and_true]
    constructor
    · split_ifs with h1 h2
      · exact le_rfl
      · simp_all
      · exact Nat.zero_le _
      · exact le_rfl
    · intro h
      simp [bne_iff_ne.2 h]
  obtain ⟨le, eq⟩ := weight
  exact ⟨by omega, fun h => by have := eq h; omega⟩

/-! ## The same claims, the same answers of the claim unit (R176, R177) -/

theorem State.heldBy_le {s t : State} {v : Nat} (hg : (t.site v).gangs = (s.site v).gangs) (hc : ∀ c e, s.crewGranules c e ≤ t.crewGranules c e) (e p : Nat) :
    s.heldBy v e p ≤ t.heldBy v e p := by
  unfold State.heldBy State.gang
  rw [hg]
  split_ifs
  · exact hc ..
  all_goals exact le_rfl

theorem State.freeUnits_anti {s t : State} {v : Nat} (hg : (t.site v).gangs = (s.site v).gangs) (hc : ∀ c e, s.crewGranules c e ≤ t.crewGranules c e) (p : Nat) :
    t.freeUnits v p ≤ s.freeUnits v p := by
  unfold State.freeUnits State.entries
  rw [hg]
  exact Nat.sub_le_sub_left (List.sum_le_sum fun e _ => State.heldBy_le hg hc e p) _

section SameHeld

variable {s t : State} {v : Nat} (hg : (t.site v).gangs = (s.site v).gangs) (hc : ∀ c e, t.crewGranules c e = s.crewGranules c e)
include hg hc

theorem State.heldBy_congr (e p : Nat) : t.heldBy v e p = s.heldBy v e p := by
  unfold State.heldBy State.gang
  rw [hg, hc]

theorem State.freeUnits_congr (p : Nat) : t.freeUnits v p = s.freeUnits v p := by
  simp only [State.freeUnits, State.entries, hg, State.heldBy_congr hg hc]

theorem State.safeGrant_congr (e p n : Nat) : t.safeGrant v e p n = s.safeGrant v e p n := by
  unfold State.safeGrant State.need State.gang State.entries
  simp only [State.heldBy_congr hg hc, State.freeUnits_congr hg hc]
  rw [hg]

end SameHeld

end Sys2Proof.Machine
end

section
/-! Acquires: the grant of each pool's units and the two instructions (R41, R42, R170, R182-R184). -/

namespace Sys2Proof.Machine

open Sys2Proof Sys2Proof.Spec

/-! ## The granules that a store grant takes (R170) -/

theorem State.mem_entries {s : State} {v e : Nat} {g : Gang} (h : (e, g) ∈ (s.site v).gangs) (hf : g.st ≠ .free) : e ∈ s.entries v :=
  List.mem_map.2 ⟨(e, g), List.mem_filter.2 ⟨h, by simpa using hf⟩, rfl⟩

/-- A granule that is held stands in the list of an entry that is not FREE (R170). -/
theorem State.mem_stores_of_held {s : State} {v b n : Nat} (hr : Rising (s.site v).gangs) (h : (s.site v).storeHeld b n = true) :
    n ∈ (s.entries v).flatMap fun e => Tab.get [] b (s.gang v e).stores := by
  obtain ⟨⟨e, g⟩, hm, hg⟩ := List.any_eq_true.1 h
  simp only [Bool.and_eq_true, bne_iff_ne, List.contains_iff_mem] at hg
  have gang : s.gang v e = g := Tab.get_of_mem hr hm {}
  exact List.mem_flatMap.2 ⟨e, State.mem_entries hm hg.1, gang ▸ hg.2⟩

/-- As many granules of a bower are not held as the claim unit counts as free, or more. -/
theorem State.freeUnits_le_unheld {s : State} {v p : Nat} (hr : Rising (s.site v).gangs) (h16 : ¬p < 16) (h20 : p < 20) :
    s.freeUnits v p ≤ ((List.range 256).filter fun g => !(s.site v).storeHeld (p - 16) g).length := by
  have held : ((List.range 256).filter fun g => (s.site v).storeHeld (p - 16) g).length ≤ ((s.entries v).map fun e => s.heldBy v e p).sum := by
    have sub : (List.range 256).filter (fun g => (s.site v).storeHeld (p - 16) g) ⊆ (s.entries v).flatMap fun e => Tab.get [] (p - 16) (s.gang v e).stores :=
      fun n hn => State.mem_stores_of_held hr (List.mem_filter.1 hn).2
    have le := ((List.nodup_range.filter _).subperm sub).length_le
    rw [List.length_flatMap] at le
    simpa [State.heldBy, h16, h20] using le
  have all := List.length_eq_length_filter_add (l := List.range 256) fun g => (s.site v).storeHeld (p - 16) g
  rw [List.length_range] at all
  simp only [State.freeUnits, poolTotal, h16, h20, if_false, if_true]
  omega

/-- A store grant finds the granules that it takes. -/
theorem State.pickStore_length {s : State} {v p n : Nat} (hr : Rising (s.site v).gangs) (h16 : ¬p < 16) (h20 : p < 20) (hn : n ≤ s.freeUnits v p) :
    (s.pickStore v (p - 16) n).length = n := by
  have room := hn.trans (State.freeUnits_le_unheld hr h16 h20)
  unfold State.pickStore
  dsimp only
  generalize hfr : (List.range 256).filter (fun g => !(s.site v).storeHeld (p - 16) g) = fr at room ⊢
  have nodup : fr.Nodup := hfr ▸ List.nodup_range.filter _
  have parted := List.filter_append_perm (fun g => !(s.site v).marked (p - 16) g) fr
  simp only [Bool.not_not] at parted
  generalize fr.filter (fun g => !(s.site v).marked (p - 16) g) ++ fr.filter (fun g => (s.site v).marked (p - 16) g) = order at parted ⊢
  have taken : (order.take n).Nodup := (parted.nodup_iff.2 nodup).sublist (List.take_sublist ..)
  have same : (fr.filter (order.take n).contains).Perm (order.take n) := by
    refine (List.perm_ext_iff_of_nodup (nodup.filter _) taken).2 fun g => ?_
    rw [List.mem_filter, List.contains_iff_mem]
    exact ⟨And.right, fun h => ⟨parted.subset (List.mem_of_mem_take h), h⟩⟩
  rw [same.length_eq, List.length_take, parted.length_eq, Nat.min_eq_left room]

/-! ## The grant (R170, R42) -/

/-- A gang's entry with more of a store or matrix pool: the granules gs, or n units. -/
def Gang.adding (g : Gang) (p n : Nat) (gs : List Nat) : Gang :=
  if p < 20 then { g with stores := Tab.put (p - 16) (Tab.get [] (p - 16) g.stores ++ gs) g.stores }
  else { g with mats := Tab.put (g.crewOn (p - 20)) (g.units p + n) g.mats }

theorem Gang.adding_fields (g : Gang) (p n : Nat) (gs : List Nat) : (g.adding p n gs).st = g.st ∧ (g.adding p n gs).halting = g.halting := by
  unfold Gang.adding
  split_ifs <;> exact ⟨rfl, rfl⟩

theorem Gang.units_adding {g : Gang} {p n : Nat} {gs : List Nat} (hs : p < 20 → gs.length = n) (hm : 20 ≤ p → p - 20 ∈ g.cores) :
    (g.adding p n gs).units p = g.units p + n := by
  by_cases hp : p < 20
  · simp [Gang.adding, Gang.units, hp, hs hp]
  · have hc := List.contains_iff_mem.2 (hm (Nat.le_of_not_lt hp))
    simp only [Gang.adding, Gang.units, hp, hc, Gang.crewOn, if_false, if_true, Tab.get_put_self]

theorem SameClaims.zeroGranule (s : State) (v b g : Nat) : SameClaims s (s.zeroGranule v b g) := .of_sites rfl rfl rfl rfl

/-- What a store grant does beyond the claim table touches no claim: zeroing and the wait lists (R131, R170). -/
theorem SameClaims.zeroAndServe (s t : State) (v b : Nat) (gs : List Nat) :
    SameClaims s ((Machine.each gs (fun s g => s.zeroGranule v b g) s).serveChanged t v b) :=
  (SameClaims.each (fun s g => .zeroGranule s v b g) gs s).trans (.serve ..)

/-- The strand of the grant: its granules, and the registers of the new granules read zero (R42). -/
def Strand.granted (x : Strand) (p n : Nat) : Strand :=
  if p < 16 then { x with granules := x.granules + n, regs := x.regs.filter fun r => decide (r.1 < granuleReg x.granules) } else x

section Grant

variable (s : State) (k p n : Nat)

theorem State.grant_store (h16 : ¬p < 16) (h20 : p < 20) :
    SameClaims (s.modGang (siteOfK k) (s.strand k).entry fun g => g.adding p n (s.pickStore (siteOfK k) (p - 16) n)) (s.grant k p n) := by
  simp only [State.grant, h16, h20, Gang.adding, if_false, if_true]
  exact .zeroAndServe ..

theorem State.grant_matrix (h20 : ¬p < 20) (gs : List Nat) : ∃ f, s.grant k p n =
    (s.modGang (siteOfK k) (s.strand k).entry fun g => g.adding p n gs).modCore (siteOfK k * 16 + (p - 20)) f := by
  have h16 : ¬p < 16 := by omega
  have eq : (s.modGang (siteOfK k) (s.strand k).entry fun g =>
      { g with mats := Tab.put ((s.gang (siteOfK k) (s.strand k).entry).crewOn (p - 20)) (s.heldOf k p + n) g.mats }) =
      s.modGang (siteOfK k) (s.strand k).entry fun g => g.adding p n gs := by
    rw [State.heldOf_eq, if_neg h16, State.modGang, State.modGang, State.modSite, State.modSite]
    simp only [Gang.adding, h20, if_false]
    rfl
  simp only [State.grant, h16, h20, if_false]
  rw [eq]
  exact ⟨_, rfl⟩

theorem State.grant_cur : (s.grant k p n).cur = s.cur := by
  by_cases h16 : p < 16
  · simp [State.grant, h16]
  · by_cases h20 : p < 20
    · exact (s.grant_store k p n h16 h20).cur
    · obtain ⟨f, h⟩ := s.grant_matrix k p n h20 []
      rw [h]; rfl

theorem State.grant_mem (h : p < 16 ∨ 20 ≤ p) : (s.grant k p n).mem = s.mem := by
  rcases h with h16 | h20
  · simp [State.grant, h16]
  · obtain ⟨f, h⟩ := s.grant_matrix k p n (by omega) []
    rw [h]; rfl

theorem State.grant_strand : (s.grant k p n).strand k = (s.strand k).granted p n := by
  by_cases h16 : p < 16
  · simp [State.grant, Strand.granted, h16]
  · simp only [Strand.granted, h16, if_false]
    by_cases h20 : p < 20
    · exact (s.grant_store k p n h16 h20).strand k
    · obtain ⟨f, h⟩ := s.grant_matrix k p n h20 []
      rw [h]; rfl

theorem State.grant_waiters (v : Nat) : ((s.grant k p n).site v).waiters = (s.site v).waiters := by
  have gangs (f : Gang → Gang) : ((s.modGang (siteOfK k) (s.strand k).entry f).site v).waiters = (s.site v).waiters := by
    obtain ⟨gs, h⟩ := s.site_modGang (siteOfK k) (s.strand k).entry v f
    rw [h]
  by_cases h16 : p < 16
  · simp [State.grant, h16]
  · by_cases h20 : p < 20
    · exact ((s.grant_store k p n h16 h20).waiters v).trans (gangs _)
    · obtain ⟨f, h⟩ := s.grant_matrix k p n h20 []
      rw [h, State.site_modCore]; exact gangs _

theorem State.grant_gang : (s.grant k p n).gang (siteOfK k) (s.strand k).entry =
    if p < 16 then s.gang (siteOfK k) (s.strand k).entry
    else (s.gang (siteOfK k) (s.strand k).entry).adding p n (s.pickStore (siteOfK k) (p - 16) n) := by
  split_ifs with h16
  · simp only [State.grant, h16, if_true]; rfl
  · by_cases h20 : p < 20
    · exact ((s.grant_store k p n h16 h20).gang ..).trans (State.gang_modGang_self ..)
    · obtain ⟨f, h⟩ := s.grant_matrix k p n h20 (s.pickStore (siteOfK k) (p - 16) n)
      rw [h, State.gang_modCore]
      exact State.gang_modGang_self ..

theorem State.grant_halting : ((s.grant k p n).gang (siteOfK k) (s.strand k).entry).halting = (s.gang (siteOfK k) (s.strand k).entry).halting := by
  rw [State.grant_gang]
  split_ifs
  · rfl
  · exact (Gang.adding_fields ..).2

/-- A grant adds n units to what is held. -/
theorem State.heldOf_grant {s : State} {k p n : Nat} (hr : Rising (s.site (siteOfK k)).gangs) (hn : n ≤ s.freeUnits (siteOfK k) p)
    (hc : 20 ≤ p → p - 20 ∈ (s.gang (siteOfK k) (s.strand k).entry).cores) : (s.grant k p n).heldOf k p = s.heldOf k p + n := by
  rw [State.heldOf_eq, State.heldOf_eq, State.grant_strand]
  by_cases h16 : p < 16
  · simp [Strand.granted, h16]
  · have entry : ((s.strand k).granted p n).entry = (s.strand k).entry := by simp [Strand.granted, h16]
    rw [if_neg h16, if_neg h16, entry, State.grant_gang, if_neg h16]
    exact Gang.units_adding (fun h20 => State.pickStore_length hr h16 h20 hn) hc

end Grant

theorem Strand.granted_fields (x : Strand) (p n : Nat) :
    (x.granted p n).st = x.st ∧ (x.granted p n).pc = x.pc ∧ (x.granted p n).entry = x.entry ∧ (x.granted p n).why = x.why ∧ (x.granted p n).cont = x.cont := by
  unfold Strand.granted
  split_ifs <;> exact ⟨rfl, rfl, rfl, rfl, rfl⟩

/-- Registers of granules that come to the window read zero, and the rest as before (R42). -/
theorem Strand.reg_granted (x : Strand) (p n r : Nat) :
    (x.granted p n).reg r = if p < 16 ∧ 8 + 16 * x.granules ≤ r then 0 else x.reg r := by
  by_cases hp : p < 16
  · have kept : Tab.find r (x.granted p n).regs = if r < 8 + 16 * x.granules then Tab.find r x.regs else none := by
      rw [Strand.granted, if_pos hp]
      exact (Tab.find_filter (fun a => decide (a < granuleReg x.granules)) r x.regs).trans (if_congr decide_eq_true_iff rfl rfl)
    by_cases hr : r < 8 + 16 * x.granules
    · simp [Strand.reg, Tab.get, kept, hr, hp, Nat.not_le.2 hr]
    · simp [Strand.reg, Tab.get, kept, hr, hp, Nat.le_of_not_lt hr]
  · simp [Strand.granted, hp]

end Sys2Proof.Machine
end

section
/-! The two instructions that acquire: `acq.w` waits for its grant, `acq.f` takes it or its refusal as an answer (R183, R184, R186). -/

namespace Sys2Proof.Machine

open Sys2Proof Sys2Proof.Spec

/-! ## A single waiter in the scan (R186) -/

section OneWaiter

variable {s : State} {k p n : Nat} (hg : (s.gang (siteOfK k) (s.strand k).entry).st = .running)
include hg

theorem State.scanPool_short (h : s.freeUnits (siteOfK k) p < n) : State.scanPool (siteOfK k) p [{ pool := p, k, n }] s = s := by
  simp [State.scanPool, hg, h]

theorem State.scanPool_grants (hn : n ≤ s.freeUnits (siteOfK k) p) (hs : s.safeGrant (siteOfK k) (s.strand k).entry p n = true)
    (hd : (s.strand k).drain = false) :
    State.scanPool (siteOfK k) p [{ pool := p, k, n }] s = ((s.grant k p n).dropWaiter k).completed k 4 := by
  simp [State.scanPool, hg, Nat.not_lt.2 hn, hs, hd]

end OneWaiter

/-! ## A request for claims in its list (R183) -/

/-- The strand as it waits for n units of pool p. -/
def Strand.asking (x : Strand) (p n : Nat) : Strand := { x with st := .parked, why := some .claim, cont := .claim p n }

/-- The state with the issuing strand's request behind the waiting ones. -/
def State.asked (s : State) (p n : Nat) : State :=
  ((s.park s.cur .claim (.claim p n)).count (coreOfK s.cur) 0x010 1).modSite (siteOfK s.cur)
    fun t => { t with waiters := t.waiters ++ [{ pool := p, k := s.cur, n }] }

section Asked

variable (s : State) (p n : Nat)

@[simp] theorem State.asked_mem : (s.asked p n).mem = s.mem := rfl
@[simp] theorem State.asked_cur : (s.asked p n).cur = s.cur := rfl

theorem State.strand_asked : (s.asked p n).strand s.cur = s.me.asking p n := (s.strand_park s.cur s.cur .claim (.claim p n)).trans (if_pos rfl)

theorem State.waiters_asked (hw : (s.site (siteOfK s.cur)).waiters = []) :
    ((s.asked p n).site (siteOfK s.cur)).waiters = [{ pool := p, k := s.cur, n }] := by
  simp [State.asked, hw]

theorem State.gangs_asked (v : Nat) : ((s.asked p n).site v).gangs = (s.site v).gangs := by
  rw [State.asked, State.site_modSite]
  split_ifs with h
  · rw [h]; rfl
  · rfl

theorem State.gang_asked (v e : Nat) : (s.asked p n).gang v e = s.gang v e := by rw [State.gang, State.gangs_asked, State.gang]

theorem State.crewGranules_asked (hr : Rising s.strands) (c e : Nat) : s.crewGranules c e ≤ (s.asked p n).crewGranules c e ∧
    (s.me.st ≠ .free → (s.asked p n).crewGranules c e = s.crewGranules c e) :=
  State.crewGranules_setStrand hr (x := s.me.asking p n) (k := s.cur) rfl rfl nofun c e

theorem State.heldOf_asked : (s.asked p n).heldOf s.cur p = s.heldOf s.cur p :=
  State.heldOf_congr (by rw [State.strand_asked]; rfl) (by rw [State.strand_asked]; rfl) (State.gang_asked ..) p

end Asked

theorem exec_acqW_ready {s : State} {a : BitVec 8} (kd b : BitVec 2) (hr : Ready s [a]) :
    let p := poolOf s.cur kd.toNat b.toNat
    let n := (s.val a).toNat
    exec (.acqW a kd b) s = .next
      (if s.remaining s.cur p < n then s.raiseFault s.cur .overclaim
      else if n = 0 then s.pass 4
      else if s.myGang.st = .stopping then ((s.park s.cur .claim .reissue).count (coreOfK s.cur) 0x010 1).stop s.cur
      else (s.asked p n).scanOne (siteOfK s.cur) p) := by
  rw [exec_eq_execAcqW, execAcqW, State.issue_one hr]
  rfl

/-- `acq.w` of units that remain, in a gang that runs: the request is made and the list scanned (R183). -/
theorem exec_acqW_asks {s : State} {a : BitVec 8} (kd b : BitVec 2) (hr : Ready s [a]) :
    let p := poolOf s.cur kd.toNat b.toNat
    let n := (s.val a).toNat
    0 < n → n ≤ s.remaining s.cur p → s.myGang.st = .running → (s.site (siteOfK s.cur)).waiters = [] →
      exec (.acqW a kd b) s = .next (State.scanPool (siteOfK s.cur) p [{ pool := p, k := s.cur, n }] (s.asked p n)) := by
  intro p n h0 hn hg hw
  have running : ¬s.myGang.st = .stopping := by rw [hg]; nofun
  have scan : (s.asked p n).scanOne (siteOfK s.cur) p = State.scanPool (siteOfK s.cur) p [{ pool := p, k := s.cur, n }] (s.asked p n) := by
    simp [State.scanOne, State.waiters_asked s p n hw]
  rw [exec_acqW_ready kd b hr, ← scan, if_neg (Nat.not_lt.2 hn), if_neg h0.ne', if_neg running]

/-- What the grant of a request leaves (R170, R183). -/
theorem State.asked_granted {s : State} {p n : Nat} (hr : Rising (s.site (siteOfK s.cur)).gangs) (hw : (s.site (siteOfK s.cur)).waiters = [])
    (hc : 20 ≤ p → p - 20 ∈ s.myGang.cores) (hh : s.myGang.halting = false) (hn : n ≤ (s.asked p n).freeUnits (siteOfK s.cur) p) :
    let t := (((s.asked p n).grant s.cur p n).dropWaiter s.cur).completed s.cur 4
    t.heldOf s.cur p = s.heldOf s.cur p + n ∧ t.me.pc = s.me.pc + 4 ∧ t.me.st = .ready ∧ (t.site (siteOfK s.cur)).waiters = [] ∧
      (p < 16 ∨ 20 ≤ p → t.mem = s.mem) ∧ (p < 16 → t.me.granules = s.me.granules + n) ∧
      ∀ r, t.me.reg r = if p < 16 ∧ 8 + 16 * s.me.granules ≤ r then 0 else s.me.reg r := by
  intro t
  have entry : ((s.asked p n).strand s.cur).entry = s.me.entry := by rw [State.strand_asked]; rfl
  have gang : (s.asked p n).gang (siteOfK s.cur) ((s.asked p n).strand s.cur).entry = s.myGang := by rw [entry, State.gang_asked]; rfl
  have strand : (((s.asked p n).grant s.cur p n).dropWaiter s.cur).strand s.cur = (s.me.asking p n).granted p n := by
    rw [State.dropWaiter, State.strand_modSite, State.grant_strand, State.strand_asked]
  obtain ⟨hst, hpc, hent, -, -⟩ := (s.me.asking p n).granted_fields p n
  have dropped (v e : Nat) : (((s.asked p n).grant s.cur p n).dropWaiter s.cur).gang v e = ((s.asked p n).grant s.cur p n).gang v e := by
    simp only [State.gang, State.dropWaiter, State.site_modSite]
    split_ifs with h
    · rw [h]
    · rfl
  have halting : ((((s.asked p n).grant s.cur p n).dropWaiter s.cur).gang (siteOfK s.cur) ((s.me.asking p n).granted p n).entry).halting = false := by
    have h := (s.asked p n).grant_halting s.cur p n
    rw [gang, hh] at h
    rw [dropped, hent, ← h, State.strand_asked]
  have goes : t.strand s.cur = { (s.me.asking p n).granted p n with pc := s.me.pc + 4, st := .ready, why := none, cont := .reissue } := by
    have on := State.completed_goesOn (s := ((s.asked p n).grant s.cur p n).dropWaiter s.cur) (k := s.cur) 4 (by rw [strand, hst]; rfl)
      (by rw [strand]; exact halting)
    rw [GoesOn, strand, hpc] at on
    exact on
  have me : t.me = t.strand s.cur := by
    rw [State.me, State.completed_cur, State.dropWaiter_cur, State.grant_cur, State.asked_cur]
  have granules : ((s.me.asking p n).granted p n).granules = if p < 16 then s.me.granules + n else s.me.granules := by
    unfold Strand.granted
    split_ifs <;> rfl
  rw [me, goes]
  refine ⟨?_, rfl, rfl, ?_, fun h => ?_, fun h => granules.trans (if_pos h), fun r => (s.me.asking p n).reg_granted p n r⟩
  · rw [← s.heldOf_asked p n, ← State.heldOf_grant ((s.gangs_asked p n _).symm ▸ hr) hn (fun h => gang ▸ hc h)]
    refine State.heldOf_congr ?_ ?_ ?_ p
    · rw [goes, State.grant_strand, State.strand_asked]
    · rw [goes, State.grant_strand, State.strand_asked]
    · rw [State.gang_completed, dropped]
  · simp [t, State.dropWaiter, State.grant_waiters, s.waiters_asked p n hw]
  · rw [State.completed_mem, State.dropWaiter_mem, State.grant_mem _ _ _ _ h, State.asked_mem]

/-! ## `acq.f` (R184) -/

theorem exec_acqF_ready {s : State} {d a : BitVec 8} (kd b : BitVec 2) (hr : Ready s [d, a]) :
    let p := poolOf s.cur kd.toNat b.toNat
    let n := (s.val a).toNat
    let r := s.acqStatus s.cur p n
    exec (.acqF d a kd b) s = .next
      (if s.remaining s.cur p < n then s.raiseFault s.cur .overclaim
      else if n = 0 then s.finish d.toNat 0 4
      else (if r = 0 then s.grant s.cur p n else s.count (coreOfK s.cur) (0x010 + r) 1).askUnit (.load .w64 d.toNat 4) .data (leBytes 8 r)) := by
  rw [exec_eq_execAcqF, execAcqF, State.issue_two hr]

/-- `acq.f` of units that remain: the grant or the count, and the answer with its status. -/
theorem exec_acqF_answers {s : State} {d a : BitVec 8} (kd b : BitVec 2) (hr : Ready s [d, a]) {r : Nat} :
    let p := poolOf s.cur kd.toNat b.toNat
    let n := (s.val a).toNat
    0 < n → n ≤ s.remaining s.cur p → s.acqStatus s.cur p n = r → exec (.acqF d a kd b) s = .next
      ((if r = 0 then s.grant s.cur p n else s.count (coreOfK s.cur) (0x010 + r) 1).askUnit (.load .w64 d.toNat 4) .data (leBytes 8 r)) := by
  intro p n h0 hn h
  rw [exec_acqF_ready kd b hr, if_neg (Nat.not_lt.2 hn), if_neg h0.ne', h]

/-- The status of an `acq.f` that nobody stands before, in a gang that runs (R184). -/
theorem State.acqStatus_alone {s : State} (hg : s.myGang.st = .running) (hw : (s.site (siteOfK s.cur)).waiters = []) (p n : Nat) :
    s.acqStatus s.cur p n = if s.freeUnits (siteOfK s.cur) p < n then 1 else if s.safeGrant (siteOfK s.cur) s.me.entry p n then 0 else 2 := by
  have running : ¬(s.gang (siteOfK s.cur) (s.strand s.cur).entry).st = .stopping := by
    have hg : (s.gang (siteOfK s.cur) (s.strand s.cur).entry).st = .running := hg
    rw [hg]; nofun
  simp only [State.acqStatus, running, if_false, hw, List.filter_nil, State.behind]
  rfl

/-- What the answer of the claim unit to `acq.f` leaves, after a grant or a count that kept the strand's place. -/
theorem askUnit_answers {s t : State} (hcur : t.cur = s.cur) (hpc : t.me.pc = s.me.pc) (d : Nat) (r : Nat) :
    let u := t.askUnit (.load .w64 d 4) .data (leBytes 8 r)
    u.me.st = .parked ∧ u.me.why = some .access ∧ u.me.cont = .load .w64 d 4 ∧ u.me.pc = s.me.pc ∧ OwnReply s u .data (leBytes 8 r) ∧
      ∀ p, u.heldOf s.cur p = t.heldOf s.cur p := by
  intro u
  have reply := askUnit_ownReply t (.load .w64 d 4) .data (leBytes 8 r)
  rw [OwnReply, hcur] at reply
  have me : u.me = { t.me with st := .parked, why := some .access, cont := .load .w64 d 4 } := State.me_askUnit ..
  have strand : u.strand s.cur = { t.me with st := .parked, why := some .access, cont := .load .w64 d 4 } :=
    (State.askUnit_strand ..).trans (if_pos hcur.symm)
  rw [me]
  refine ⟨rfl, rfl, rfl, hpc, reply, State.heldOf_congr ?_ ?_ rfl⟩ <;> rw [strand, State.me, hcur]

/-- A matrix pool that a selector names is that of the strand's core (R181). -/
theorem poolOf_matrix {k kd b : Nat} (hb : b < 4) (h : 20 ≤ poolOf k kd b) : poolOf k kd b - 20 = coreNo k := by
  have core : coreNo k < 16 := Nat.mod_lt _ (by decide)
  unfold poolOf at h ⊢
  split_ifs at h ⊢ <;> omega

/-- Settles O30: the limit and the empty request first; then the request in its list, and the answer of the claim unit. -/
theorem acquires : Obligations.Acquires := by
  intro d a kd b s sound rising k v p n
  have strands : Rising s.strands := sound.2.1
  refine ⟨fun hr h => ?_, fun hr h => ?_, fun hr h => ?_, fun hr h => ?_, fun h0 hn hg hw hc => ?_⟩
  · rw [exec_acqW_ready kd b hr, if_pos h]
  · rw [exec_acqF_ready kd b hr, if_pos h]
  · rw [exec_acqW_ready kd b hr, if_neg (by omega), if_pos h, pass_eq_went]
  · rw [exec_acqF_ready kd b hr, if_neg (by omega), if_pos h, finish_eq_wrote]
  have hc' (h : 20 ≤ p) : p - 20 ∈ s.myGang.cores := poolOf_matrix b.isLt h ▸ hc h
  have entry : ((s.asked p n).strand k).entry = s.me.entry := by rw [State.strand_asked]; rfl
  have gang : ((s.asked p n).gang v ((s.asked p n).strand k).entry).st = .running := by rw [entry, State.gang_asked]; exact hg
  refine ⟨fun hr hf hd hh hu hs => ?_, fun hr hd hu => ?_, fun hr => ?_⟩
  · have crew (c e : Nat) := (s.crewGranules_asked p n strands c e).2 hf
    have free : n ≤ (s.asked p n).freeUnits v p := (State.freeUnits_congr (s.gangs_asked p n v) crew p).symm ▸ hu
    have safe : (s.asked p n).safeGrant v ((s.asked p n).strand k).entry p n = true := by
      rw [entry, State.safeGrant_congr (s.gangs_asked p n v) crew]; exact hs
    have drain : ((s.asked p n).strand k).drain = false := by rw [State.strand_asked]; exact hd
    exact ⟨_, (exec_acqW_asks kd b hr h0 hn hg hw).trans (congrArg _ (State.scanPool_grants gang free safe drain)),
      State.asked_granted rising hw hc' hh free⟩
  · have short : (s.asked p n).freeUnits v p < n :=
      (State.freeUnits_anti (s.gangs_asked p n v) (fun c e => (s.crewGranules_asked p n strands c e).1) p).trans_lt hu
    refine ⟨_, (exec_acqW_asks kd b hr h0 hn hg hw).trans (congrArg _ (State.scanPool_short gang short)), ?_, s.waiters_asked p n hw⟩
    rw [Parks, State.me, State.asked_cur, State.strand_asked]
    exact ⟨rfl, rfl, rfl, rfl, rfl, rfl, rfl⟩
  · have status := State.acqStatus_alone hg hw p n
    have counted (r : Nat) := askUnit_answers (s := s) (t := s.count (coreOfK s.cur) (0x010 + r) 1) rfl rfl d.toNat r
    have held (r : Nat) (q : Nat) : (s.count (coreOfK s.cur) (0x010 + r) 1).heldOf k q = s.heldOf k q := State.heldOf_congr rfl rfl rfl q
    by_cases hu : s.freeUnits v p < n
    · rw [if_pos hu] at status
      have answer := exec_acqF_answers kd b hr h0 hn status
      obtain ⟨hst, hy, hct, hpc, hrep, hh⟩ := counted 1
      exact ⟨_, answer, hst, hy, hct, hpc, fun _ => ⟨(hh p).trans (held 1 p), hrep⟩, fun h => absurd hu (Nat.not_lt.2 h), fun h => absurd hu (Nat.not_lt.2 h)⟩
    · rw [if_neg hu] at status
      by_cases hs : s.safeGrant v s.me.entry p n = true
      · rw [if_pos hs] at status
        have answer := exec_acqF_answers kd b hr h0 hn status
        have me : (s.grant k p n).me = s.me.granted p n := by rw [State.me, State.grant_cur, State.grant_strand]; rfl
        obtain ⟨hst, hy, hct, hpc, hrep, hh⟩ :=
          askUnit_answers (s := s) (t := s.grant k p n) (State.grant_cur ..) (by rw [me]; exact (s.me.granted_fields p n).2.1) d.toNat 0
        exact ⟨_, answer, hst, hy, hct, hpc, fun h => absurd h hu, fun _ h => absurd hs (by simp [h]),
          fun _ _ => ⟨(hh p).trans (State.heldOf_grant rising (Nat.not_lt.1 hu) hc'), hrep⟩⟩
      · rw [if_neg hs] at status
        have answer := exec_acqF_answers kd b hr h0 hn status
        obtain ⟨hst, hy, hct, hpc, hrep, hh⟩ := counted 2
        exact ⟨_, answer, hst, hy, hct, hpc, fun h => absurd h hu, fun _ _ => ⟨(hh p).trans (held 2 p), hrep⟩, fun _ h => absurd h hs⟩

end Sys2Proof.Machine
end

section
/-! Identity and loop registers, and the loop nests (R48, R51, R223, R224, R286-R288). -/

namespace Sys2Proof.Machine

open Sys2Proof Sys2Proof.Spec

/-! ## Identity and loop registers (R48, R51) -/

theorem idget_gives {d i : BitVec 8} {w : State → Word} (h : ∀ s, BitVec.ofNat 64 (s.identity s.cur i.toNat) = w s) : Gives (.idget d i) [d] d 4 w :=
  funext h ▸ compute_gives fun _ => rfl

/-- The selectors of the gang's shape (R48). -/
theorem State.identity_shape (s : State) (k : Nat) {i : Nat} (h8 : 8 ≤ i) (h16 : i < 16) : s.identity k i = (Tab.get 0 i (s.strand k).shape).toNat := by
  interval_cases i <;> rfl

theorem idget_identities (d : BitVec 8) :
    Gives (.idget d 0) [d] d 4 (fun s => BitVec.ofNat 64 ((s.virt (siteOfK s.cur)).2 * 256 + (s.virt (siteOfK s.cur)).1)) ∧
    Gives (.idget d 1) [d] d 4 (fun s => BitVec.ofNat 64 (s.cur / 16 % 16)) ∧ Gives (.idget d 2) [d] d 4 (fun s => BitVec.ofNat 64 (s.cur % 16)) ∧
    Gives (.idget d 3) [d] d 4 (fun s => BitVec.ofNat 64 ((s.virt (siteOfK s.cur)).2 * 2 ^ 16 + (s.virt (siteOfK s.cur)).1 * 2 ^ 8 + s.cur % 256)) ∧
    Gives (.idget d 4) [d] d 4 (fun s => BitVec.ofNat 64 s.me.crew) ∧ Gives (.idget d 5) [d] d 4 (fun s => s.me.gang.setWidth 64) ∧
    Gives (.idget d 6) [d] d 4 (fun s => s.me.launch.setWidth 64) ∧
    (∀ i : BitVec 8, 8 ≤ i.toNat → i.toNat < 16 → Gives (.idget d i) [d] d 4 (fun s => (Tab.get 0 i.toNat s.me.shape).setWidth 64)) ∧
    Gives (.idget d 0x10) [d] d 4 (fun s => s.me.i0.setWidth 64) ∧ Gives (.idget d 0x11) [d] d 4 (fun s => s.me.i1.setWidth 64) ∧
    Gives (.idget d 0x12) [d] d 4 (fun s => s.me.i2.setWidth 64) ∧ Gives (.idget d 0x13) [d] d 4 (fun s => s.me.i3.setWidth 64) := by
  refine ⟨idget_gives fun _ => rfl, idget_gives fun _ => rfl, idget_gives fun _ => rfl, idget_gives fun _ => rfl, idget_gives fun _ => rfl,
    idget_gives fun s => BitVec.ofNat_toNat .., idget_gives fun s => BitVec.ofNat_toNat .., fun i h8 h16 => idget_gives fun s => ?_,
    idget_gives fun s => BitVec.ofNat_toNat .., idget_gives fun s => BitVec.ofNat_toNat .., idget_gives fun s => BitVec.ofNat_toNat ..,
    idget_gives fun s => BitVec.ofNat_toNat ..⟩
  rw [State.identity_shape _ _ h8 h16]
  exact BitVec.ofNat_toNat ..

/-- A loop register of the crew reads as it was set, and the others as before (R51). -/
theorem exec_lset {s : State} {a : BitVec 8} (n m : BitVec 3) (hr : Ready s [a]) : ∃ t, exec (.lset a n) s = .next t ∧ Passes s t 4 ∧ t.mem = s.mem ∧
    t.sites = s.sites ∧ t.loop s.cur m.toNat = if m = n then (s.val a).setWidth 32 else s.loop s.cur m.toNat := by
  have eq : exec (.lset a n) s = .next ((s.modCore (coreOfK s.cur) fun c =>
      { c with loops := Tab.put (s.me.entry * 8 + n.toNat) ((s.val a).setWidth 32) c.loops }).pass 4) := by
    rw [exec_eq_execLset, execLset, State.issue_one hr]
  refine ⟨_, eq, ?_, rfl, rfl, ?_⟩
  · unfold Passes State.pass
    exact State.me_modStrand ..
  · simp only [State.loop, State.pass, State.strand_modStrand, State.core_modStrand, State.core_modCore, State.modCore_cur, if_true, Tab.get_put]
    refine if_congr ?_ rfl rfl
    rw [State.strand_modCore, State.me, Nat.add_left_cancel_iff, BitVec.toNat_inj]

/-! ## The crew's chunk (R224) -/

theorem State.fetcher_modFetcher (s : State) (c e : Nat) (f : Fetcher → Fetcher) : (s.modFetcher c e f).fetcher c e = f (s.fetcher c e) := by
  simp [State.fetcher, State.modFetcher]

@[simp] theorem State.fetcher_modStrand (s : State) (k c e : Nat) (f : Strand → Strand) : (s.modStrand k f).fetcher c e = s.fetcher c e := rfl
@[simp] theorem State.fetcher_modGang (s : State) (v j c e : Nat) (f : Gang → Gang) : (s.modGang v j f).fetcher c e = s.fetcher c e := rfl
@[simp] theorem State.fetcher_wake (s : State) (k c e : Nat) : (s.wake k).fetcher c e = s.fetcher c e :=
  s.wake_keeps (fun s => s.fetcher c e) (fun _ _ _ => rfl) k

/-- Counting an event changes no chunk. -/
@[simp] theorem State.fetcher_count (s : State) (d n m c e : Nat) : (s.count d n m).fetcher c e = s.fetcher c e := by
  simp only [State.fetcher, State.count, State.core_modCore]
  split_ifs with h
  · rw [h]; rfl
  · rfl

@[simp] theorem State.fetcher_park (s : State) (k c e : Nat) (r : Park) (w : Cont) : (s.park k r w).fetcher c e = s.fetcher c e := by simp [State.park]
@[simp] theorem State.fetcher_askUnit (s : State) (w : Cont) (op : MsgOp) (d : List Byte) (c e : Nat) : (s.askUnit w op d).fetcher c e = s.fetcher c e :=
  s.fetcher_park ..

@[simp] theorem State.modFetcher_mem (s : State) (c e : Nat) (f : Fetcher → Fetcher) : (s.modFetcher c e f).mem = s.mem := rfl
@[simp] theorem State.modFetcher_cur (s : State) (c e : Nat) (f : Fetcher → Fetcher) : (s.modFetcher c e f).cur = s.cur := rfl
@[simp] theorem State.modFetcher_sites (s : State) (c e : Nat) (f : Fetcher → Fetcher) : (s.modFetcher c e f).sites = s.sites := rfl
@[simp] theorem State.strand_modFetcher (s : State) (c e k : Nat) (f : Fetcher → Fetcher) : (s.modFetcher c e f).strand k = s.strand k := rfl
@[simp] theorem State.gang_modFetcher (s : State) (c e v j : Nat) (f : Fetcher → Fetcher) : (s.modFetcher c e f).gang v j = s.gang v j := rfl
@[simp] theorem State.me_modFetcher (s : State) (c e : Nat) (f : Fetcher → Fetcher) : (s.modFetcher c e f).me = s.me := rfl

theorem siteOfC_coreOfK (k : Nat) : siteOfC (coreOfK k) = siteOfK k := Nat.div_div_eq_div_mul k 16 16

/-! ## `nest` (R223, R286) -/

/-- The product of the extents that a `nest` gives. -/
def nestTotal (x : List Nat) : Nat := x.getD 0 0 * x.getD 1 0 * x.getD 2 0 * x.getD 3 0

/-- The generation that a first `nest` opens (R223). -/
def opened (x : List Nat) (gen : Nat) : Nest :=
  { isOpen := true, e0 := x.getD 0 0, e1 := x.getD 1 0, e2 := x.getD 2 0, e3 := x.getD 3 0, c := max 1 (x.getD 4 0), total := nestTotal x,
    left := nestTotal x, gen := gen + 1 }

/-- A crew is in no generation. -/
def State.leaveNest (e : Nat) (s : State) (c : Nat) : State := s.modFetcher c e fun f => { f with joined := false }

theorem State.nestOp_large (s : State) (c e : Nat) {x : List Nat} (h : 2 ^ 64 ≤ nestTotal x) : s.nestOp c e x = none := by
  unfold State.nestOp
  exact if_pos h

/-- A first `nest` opens a generation, and its crew joins it; strands and memory stay. -/
theorem State.nestOp_opens {s : State} {c e : Nat} {x : List Nat} (h : nestTotal x < 2 ^ 64) (hc : (s.gang (siteOfC c) e).nest.isOpen = false) :
    ∃ t, s.nestOp c e x = some t ∧ t.mem = s.mem ∧ t.cur = s.cur ∧ t.strands = s.strands ∧
      (t.gang (siteOfC c) e).nest = opened x (s.gang (siteOfC c) e).nest.gen ∧ (t.fetcher c e).joined = true ∧ (t.fetcher c e).f = 0 ∧ (t.fetcher c e).h = 0 := by
  have opens : s.nestOp c e x = some ((State.modGang (each ((s.gang (siteOfC c) e).cores.map (siteOfC c * 16 + ·)) (State.leaveNest e) s) (siteOfC c) e
      fun g => { g with nest := opened x (s.gang (siteOfC c) e).nest.gen }).joinNest c e) := by
    unfold State.nestOp
    refine (if_neg (Nat.not_le.2 h)).trans (if_pos ?_)
    rw [hc]; rfl
  refine ⟨_, opens, ?_, ?_, ?_, ?_, ?_⟩
  · exact each_keeps State.mem (f := State.leaveNest e) (fun _ _ => rfl) _ s
  · exact each_keeps State.cur (f := State.leaveNest e) (fun _ _ => rfl) _ s
  · exact each_keeps State.strands (f := State.leaveNest e) (fun _ _ => rfl) _ s
  · rw [State.joinNest, State.gang_modFetcher, State.gang_modGang_self]
  · rw [State.joinNest, State.fetcher_modFetcher]; exact ⟨rfl, rfl, rfl⟩

end Sys2Proof.Machine
end

section
/-! `nest`, `next` and the claim of a chunk (R223, R224, R286-R288). -/

namespace Sys2Proof.Machine

open Sys2Proof Sys2Proof.Spec

/-! ## Asking a unit after a change of its own -/

theorem parks_askUnit {s t : State} (hm : t.mem = s.mem) (hme : t.me = s.me) (c : Cont) (op : MsgOp) (d : List Byte) :
    Parks s (t.askUnit c op d) .access c := by
  have parks := askUnit_parks t c op d
  rwa [Parks, hm, hme] at parks

theorem ownReply_askUnit {s t : State} (hc : t.cur = s.cur) (c : Cont) (op : MsgOp) (d : List Byte) : OwnReply s (t.askUnit c op d) op d := by
  have reply := askUnit_ownReply t c op d
  rwa [OwnReply, hc] at reply

theorem State.me_of_strands {s t : State} (hc : t.cur = s.cur) (hs : t.strands = s.strands) : t.me = s.me := by
  rw [State.me, State.strand, hc, hs, State.me, State.strand]

@[simp] theorem State.gang_askUnit (s : State) (c : Cont) (op : MsgOp) (d : List Byte) (v e : Nat) : (s.askUnit c op d).gang v e = s.gang v e := rfl

/-! ## `nest` -/

/-- A first `nest` opens a generation of the counter and joins the crew (R286). -/
theorem exec_nest_opens {s : State} (b : BitVec 2) :
    let e := (List.range 5).map fun j => (s.loop s.cur (b.toNat + j)).toNat
    nestTotal e < 2 ^ 64 → s.myGang.nest.isOpen = false → ∃ t, exec (.nest b) s = .next t ∧ Parks s t .access (.done 4) ∧ OwnReply s t .ack [] ∧
      (∃ gen, t.myGang.nest = opened e gen) ∧
      (t.fetcher (coreOfK s.cur) s.me.entry).joined = true ∧ (t.fetcher (coreOfK s.cur) s.me.entry).f = (t.fetcher (coreOfK s.cur) s.me.entry).h := by
  intro e small closed
  have closed : (s.gang (siteOfC (coreOfK s.cur)) s.me.entry).nest.isOpen = false := by rw [siteOfC_coreOfK]; exact closed
  obtain ⟨u, opens, hm, hc, hs, hn, hj, hf, hh⟩ := State.nestOp_opens small closed
  have me := State.me_of_strands hc hs
  refine ⟨u.askUnit (.done 4) .ack [], ?_, parks_askUnit hm me .., ownReply_askUnit hc .., ⟨_, Eq.trans ?_ hn⟩, ?_, ?_⟩
  · simp only [exec_eq_execNest, execNest]
    rw [opens]
  · rw [State.myGang, State.me_askUnit, me, State.gang_askUnit, siteOfC_coreOfK, ← hc]; rfl
  · rw [State.fetcher_askUnit]; exact hj
  · rw [State.fetcher_askUnit, hf, hh]

/-- A product of 2^64 or more is the nest-shape fault, and the counter stays (R286). -/
theorem exec_nest_large {s : State} (b : BitVec 2) (h : 2 ^ 64 ≤ nestTotal ((List.range 5).map fun j => (s.loop s.cur (b.toNat + j)).toNat)) :
    ∃ t, exec (.nest b) s = .next t ∧ Parks s t .access (.done 4) ∧ OwnReply s t (.error 0x0013) [] ∧ t.myGang = s.myGang := by
  refine ⟨s.askUnit (.done 4) (.error Code.nestShape.num) [], ?_, askUnit_parks .., askUnit_ownReply .., ?_⟩
  · simp only [exec_eq_execNest, execNest]
    rw [State.nestOp_large _ _ _ h]
  · rw [State.myGang, State.me_askUnit, State.gang_askUnit]; rfl

/-! ## `next` (R224, R287) -/

theorem exec_next {s : State} (i : BitVec 16) :
    let f := s.fetcher (coreOfK s.cur) s.me.entry
    exec (.next i) s =
      if !(f.joined && s.myGang.nest.isOpen) then .next (s.pass 4)
      else if f.f ≠ f.h then .next (s.handOut s.cur (s.target i.toInt))
      else .next ((s.modFetcher (coreOfK s.cur) s.me.entry fun x => { x with claiming := true, waiters := x.waiters ++ [s.cur] }).park s.cur .access
        (.next (s.target i.toInt))) := rfl

/-- A strand as it is handed the flat index f of a nest: its place in each extent, and the body (R224). -/
def Strand.handed (x : Strand) (n : Nest) (f : Nat) (body : Addr) : Strand :=
  { x with i0 := BitVec.ofNat 32 (f % n.e0), i1 := BitVec.ofNat 32 (f / n.e0 % n.e1), i2 := BitVec.ofNat 32 (f / (n.e0 * n.e1) % n.e2),
           i3 := BitVec.ofNat 32 (f / (n.e0 * n.e1 * n.e2)), pc := body }

section HandOut

variable (s : State) (k : Nat) (body : Addr)

theorem State.handOut_eq : s.handOut k body = ((s.modFetcher (coreOfK k) (s.strand k).entry fun x => { x with f := x.f + 1 }).modStrand k fun x =>
    x.handed (s.gang (siteOfK k) (s.strand k).entry).nest (s.fetcher (coreOfK k) (s.strand k).entry).f body) := rfl

theorem State.strand_handOut : (s.handOut k body).strand k =
    (s.strand k).handed (s.gang (siteOfK k) (s.strand k).entry).nest (s.fetcher (coreOfK k) (s.strand k).entry).f body := by
  rw [State.handOut_eq, State.strand_modStrand, if_pos rfl]; rfl

theorem State.fetcher_handOut : (s.handOut k body).fetcher (coreOfK k) (s.strand k).entry =
    { s.fetcher (coreOfK k) (s.strand k).entry with f := (s.fetcher (coreOfK k) (s.strand k).entry).f + 1 } := by
  rw [State.handOut_eq, State.fetcher_modStrand, State.fetcher_modFetcher]

@[simp] theorem State.gang_handOut (v e : Nat) : (s.handOut k body).gang v e = s.gang v e := rfl

end HandOut

/-! ## The claim of a chunk (R224) -/

theorem State.serveNext_nil {s : State} {c e : Nat} (n : Nat) (hw : (s.fetcher c e).waiters = []) :
    s.serveNext (n + 1) c e = s.modFetcher c e fun x => { x with claiming := false } := by
  rw [State.serveNext]
  dsimp only
  rw [hw]

theorem State.serveNext_cons {s : State} {c e k : Nat} {rest : List Nat} {body : Addr} (n : Nat) (hw : (s.fetcher c e).waiters = k :: rest)
    (hne : (s.fetcher c e).f ≠ (s.fetcher c e).h) (hk : (s.strand k).cont = .next body) :
    s.serveNext (n + 1) c e = (((s.modFetcher c e fun x => { x with waiters := rest }).handOut k body).wake k).serveNext n c e := by
  rw [State.serveNext]
  dsimp only
  rw [hw]
  dsimp only
  rw [if_neg hne, hk]

/-- The one waiting strand of a crew whose chunk is not empty gets the chunk's first index and goes on. -/
theorem State.serveNext_one {s : State} {k : Nat} {body : Addr} {f : Fetcher} (n : Nat)
    (hf : s.fetcher (coreOfK k) (s.strand k).entry = f) (hw : f.waiters = [k]) (hne : f.f ≠ f.h) (hst : (s.strand k).st = .parked)
    (hcont : (s.strand k).cont = .next body) (hg : (s.gang (siteOfK k) (s.strand k).entry).halting = false) :
    let t := s.serveNext (n + 2) (coreOfK k) (s.strand k).entry
    t.strand k = { (s.strand k).handed (s.gang (siteOfK k) (s.strand k).entry).nest f.f body with st := .ready, why := none, cont := .reissue } ∧
      t.fetcher (coreOfK k) (s.strand k).entry = { f with f := f.f + 1, waiters := [], claiming := false } ∧
      ∀ v e, t.gang v e = s.gang v e := by
  let u := s.modFetcher (coreOfK k) (s.strand k).entry fun x => { x with waiters := [] }
  have uf : u.fetcher (coreOfK k) (s.strand k).entry = { f with waiters := [] } := (s.fetcher_modFetcher ..).trans (by rw [hf])
  have handed : (u.handOut k body).strand k = (s.strand k).handed (s.gang (siteOfK k) (s.strand k).entry).nest f.f body := by
    rw [State.strand_handOut]
    change (s.strand k).handed (s.gang (siteOfK k) (s.strand k).entry).nest (u.fetcher (coreOfK k) (s.strand k).entry).f body = _
    rw [uf]
  have chunk : ((u.handOut k body).wake k).fetcher (coreOfK k) (s.strand k).entry = { f with f := f.f + 1, waiters := [] } := by
    rw [State.fetcher_wake]
    exact (u.fetcher_handOut k body).trans (by rw [show (u.strand k).entry = (s.strand k).entry from rfl, uf])
  have served : s.serveNext (n + 2) (coreOfK k) (s.strand k).entry =
      ((u.handOut k body).wake k).modFetcher (coreOfK k) (s.strand k).entry fun x => { x with claiming := false } := by
    rw [State.serveNext_cons (n + 1) (by rw [hf, hw]) (by rw [hf]; exact hne) hcont]
    exact State.serveNext_nil n (by rw [chunk])
  have gang : (u.handOut k body).gang (siteOfK k) (s.strand k).entry = s.gang (siteOfK k) (s.strand k).entry := rfl
  rw [served]
  refine ⟨?_, ?_, fun v e => ?_⟩
  · rw [State.strand_modFetcher, State.strand_wake, handed]
    simp only [Strand.handed, hst, gang, hg, Bool.false_and, and_self, if_true, Bool.false_eq_true, if_false]
  · rw [State.fetcher_modFetcher, chunk]
  · rw [State.gang_modFetcher]
    exact State.wake_keeps (fun s => s.gang v e) (fun _ _ _ => rfl) _ k

/-- What a crew that is alone in the generation is given of what remains (R224). -/
def shareAlone (n : Nest) : Nat := min n.left (max n.c ((n.left + 1) / 2))

/-- The claim unit gives a crew that is alone its share, and the chunk's first index goes to the waiting strand. -/
theorem State.nestClaim_alone {s : State} {k : Nat} {body : Addr} :
    let v := siteOfK k
    let e := (s.strand k).entry
    let f := s.fetcher (coreOfK k) e
    let n := (s.gang v e).nest
    f.claiming = true → f.waiters = [k] → f.joined = true → (s.strand k).st = .parked → (s.strand k).cont = .next body → (s.gang v e).halting = false →
    (s.liveCores v e).filter (fun d => (s.fetcher d e).joined) = [coreOfK k] → 0 < n.left →
    ∃ t, s.nestClaim k = some t ∧ (t.gang v e).nest.left = n.left - shareAlone n ∧
      t.strand k = { (s.strand k).handed { n with left := n.left - shareAlone n } (n.total - n.left) body with st := .ready, why := none, cont := .reissue } ∧
      (t.fetcher (coreOfK k) e).f = n.total - n.left + 1 ∧ (t.fetcher (coreOfK k) e).h = n.total - n.left + shareAlone n := by
  intro v e f n hclaim hw hj hst hcont hg alone left
  have share : shareAlone n ≠ 0 := by unfold shareAlone; omega
  let u := (s.modGang v e fun g => { g with nest := { n with left := n.left - shareAlone n } }).modFetcher (coreOfK k) e
    fun x => { x with f := n.total - n.left, h := n.total - n.left + shareAlone n }
  have given : (if f.joined then min n.left (max n.c ((n.left + 2 * [coreOfK k].length - 1) / (2 * [coreOfK k].length))) else 0) = shareAlone n := by
    rw [if_pos hj]; rfl
  have claims : s.nestClaim k = some (u.serveNext 17 (coreOfK k) e) := by
    unfold State.nestClaim
    dsimp only
    rw [if_pos (by simpa [f] using ⟨hclaim, by rw [hw]; rfl⟩), alone, given, if_neg share]
  have gangU : u.gang v e = { s.gang v e with nest := { n with left := n.left - shareAlone n } } :=
    (State.gang_modFetcher ..).trans (State.gang_modGang_self ..)
  have fetcherU : u.fetcher (coreOfK k) e = { f with f := n.total - n.left, h := n.total - n.left + shareAlone n } := State.fetcher_modFetcher ..
  obtain ⟨strand, fetcher, gang⟩ := State.serveNext_one (s := u) (k := k) (body := body) 15 fetcherU hw (by simpa using share) hst hcont
    (by rw [show u.gang (siteOfK k) (u.strand k).entry = _ from gangU]; exact hg)
  refine ⟨_, claims, ?_, strand.trans ?_, ?_, ?_⟩
  · exact congrArg (·.nest.left) ((gang v e).trans gangU)
  · rw [show u.gang (siteOfK k) (u.strand k).entry = _ from gangU]; rfl
  · exact congrArg Fetcher.f fetcher
  · exact congrArg Fetcher.h fetcher

/-- Settles O34: identity and loop registers, the generation that `nest` opens, and the indices that `next` and the claim unit hand out. -/
theorem loopsAndIdentity : Obligations.LoopsAndIdentity := by
  refine ⟨⟨fun d => ?_, fun a n m s hr => exec_lset n m hr⟩, fun b s => ⟨fun small closed => ?_, fun large => exec_nest_large b large⟩,
    fun i s => ⟨fun h => ?_, fun hj ho hne => ?_, fun hj ho he => ?_⟩, fun s k body hclaim hw hj hst hcont hg alone left => ?_⟩
  · obtain ⟨h0, h1, h2, h3, h4, h5, h6, h7, h8, h9, h10, h11⟩ := idget_identities d
    exact ⟨h0, h1, h2, h3, h4, h5, h6, h7, h8, h9, h10, h11, fun n => compute_gives fun _ => rfl⟩
  · obtain ⟨t, eq, parks, reply, ⟨gen, nest⟩, joined, chunk⟩ := exec_nest_opens b small closed
    exact ⟨t, eq, parks, reply, by rw [nest]; rfl, by rw [nest]; rfl, by rw [nest]; rfl, by rw [nest]; rfl, joined, chunk⟩
  · rw [exec_next, if_pos (by rcases h with h | h <;> simp [h]), pass_eq_went]
  · refine ⟨_, (exec_next i).trans ((if_neg (by simp [hj, ho])).trans (if_pos hne)), rfl, rfl, ?_, s.fetcher_handOut s.cur _⟩
    exact s.strand_handOut s.cur _
  · refine ⟨_, (exec_next i).trans ((if_neg (by simp [hj, ho])).trans (if_neg (not_not.2 he))), park_parks .., ?_⟩
    rw [State.fetcher_park, State.fetcher_modFetcher]
  · obtain ⟨t, eq, hleft, strand, hf, hh⟩ := State.nestClaim_alone hclaim hw hj hst hcont hg alone left
    refine ⟨t, by simp only [exec_eq_execNestClaim, execNestClaim, eq, due], hleft, by rw [strand], by rw [strand]; rfl, by rw [strand]; rfl, hf, hh⟩

end Sys2Proof.Machine
end

section
/-! Network queues, deferrals, refusals, withdrawals and retry answers (R50, R128, R132, R162, R370). -/

namespace Sys2Proof.Machine

open Sys2Proof Sys2Proof.Spec

/-! ## Numbers and answers -/

theorem toNat_extractLsb'_eq_bits {n : Nat} (w : BitVec n) (lo len : Nat) : (w.extractLsb' lo (len + 1)).toNat = bits w.toNat (lo + len) lo := by
  simp [bits, Nat.shiftRight_eq_div_pow]

/-- A message at its destination bears its number. -/
theorem State.arriving_id {s : State} {n : Nat} {m : Msg} (h : s.arriving n = some m) : m.id = n := by
  have head : s.headOf n = some m := by
    unfold State.arriving at h
    split at h
    · cases h
    · split at h
      · cases h
      · cases h; assumption
  unfold State.headOf at head
  split at head
  · cases head
  · next q hq =>
    have id : q.id = n := by simpa using List.find?_some hq
    split at head
    · cases head
    · split at head
      · split at head
        · cases head; exact id
        · cases head
      · cases head

/-- A reply is on its way to the request's source (R204). -/
theorem answered_reply (s : State) (m : Msg) (op : MsgOp) (d : List Byte) (f : Bool) : Answered (s.reply m op d f) m op d f :=
  ⟨_, List.mem_append_right _ (List.mem_singleton.2 rfl), rfl, rfl, rfl, rfl, rfl, rfl, rfl⟩

theorem State.txn_mem {s : State} {n : Nat} {x : Txn} (h : s.txn n = some x) : x ∈ s.txns ∧ x.id = n :=
  ⟨List.mem_of_find?_eq_some h, by simpa using List.find?_some h⟩

/-! ## `nq.send` and `nq.recv` (R370) -/

/-- The word that `nq.send` sends. -/
def State.queueMsg (s : State) (w : Nat) (data : Word) (p : Nat) (x : Option Mesh) : Msg :=
  { id := 0, op := .nqWord (bits w 7 4) (bits w 1 0), mesh := x, src := siteOfK s.cur, dst := p, key := s.number s.cur, data := leBytes 8 data.toNat,
    txn := s.nextId }

theorem exec_nqSend_sends {s : State} {a b : BitVec 8} {p : Nat} {x : Option Mesh} (h15 : slotOf s.cur = 15) (hr : Ready s [a, b])
    (ht : s.target? (siteOfK s.cur) (s.val a).toNat 0 = some (p, x)) :
    ∃ t, exec (.nqSend a b) s = .next t ∧ Parks s t .access (.done 4) ∧ ∃ q ∈ t.net,
      q.op = .nqWord ((s.val a).extractLsb' 4 4).toNat ((s.val a).extractLsb' 0 2).toNat ∧ q.dst = p ∧ q.data = leBytes 8 (s.val b).toNat := by
  let u := s.park s.cur .access (.done 4)
  have val : u.val b = s.val b := by rw [State.val, me_park]; rfl
  let q := u.queueMsg (s.val a).toNat (u.val b) p x
  have sends : exec (.nqSend a b) s = .next (State.sendOut
      { u with nextId := u.nextId + 1, txns := u.txns ++ [{ id := u.nextId, acc := s.unitAcc, req := q }] } q) := by
    simp only [exec_eq_execNqSend, execNqSend, if_neg (not_not.2 h15)]
    rw [State.issue_two hr]
    simp only [ht]
    rfl
  refine ⟨_, sends, park_parks s .access (.done 4), _, List.mem_append_right _ (List.mem_singleton.2 rfl), ?_, rfl, ?_⟩
  · rw [toNat_extractLsb'_eq_bits _ 4 3, toNat_extractLsb'_eq_bits _ 0 1]; rfl
  · rw [← val]; rfl

theorem queueSet_one {w : Word} (h : w.getLsbD 2 = false) : queueSet w.toNat = [w.toNat % 4] := by
  rw [queueSet, bitOn_eq_getLsbD, h]; rfl

theorem exec_nqRecv_one {s : State} {d a : BitVec 8} (h15 : slotOf s.cur = 15) (hr : Ready s [d, a]) (h2 : (s.val a).getLsbD 2 = false) :
    let r := (s.val a).toNat % 4
    let q := Tab.get {} r (s.core (coreOfK s.cur)).nq
    exec (.nqRecv d a) s = .next (if q.full then
        (s.modCore (coreOfK s.cur) fun x => { x with nq := Tab.put r { value := q.value, full := false } x.nq }).finish d.toNat q.value 4
      else s.park s.cur .queueIdle (.queue d.toNat (2 ^ r))) := by
  intro r q
  simp only [exec_eq_execNqRecv, execNqRecv, if_neg (not_not.2 h15)]
  rw [State.issue_two hr]
  simp only [queueSet_one h2]
  cases hq : q.full
  · rw [List.find?_cons_of_neg (by rw [hq]; nofun)]
    simp [r]
  · rw [show List.find? (fun j => (Tab.get {} j (s.core (coreOfK s.cur)).nq).full) [(s.val a).toNat % 4] = some r from List.find?_cons_of_pos hq]
    rfl

/-! ## A word that arrives (R370) -/

/-- A queue register of a core with a word. -/
def State.fillQueue (s : State) (c q : Nat) (w : Word) (b : Bool) : State :=
  s.modCore c fun x => { x with nq := Tab.put q { value := w, full := b } x.nq }

theorem State.nq_fillQueue (s : State) (c q : Nat) (w : Word) (b : Bool) : Tab.get {} q ((s.fillQueue c q w b).core c).nq = { value := w, full := b } := by
  simp [State.fillQueue]

section QueueWord

variable {s : State} {c q : Nat} (w : Word)

theorem State.queueWord_full (h : (Tab.get {} q (s.core c).nq).full = true) : s.queueWord c q w = none := by
  unfold State.queueWord
  exact if_pos h

/-- Nobody waits: the register fills. -/
theorem State.queueWord_idle (h : (Tab.get {} q (s.core c).nq).full = false) (hs : (s.strand (slotKey c 15)).st ≠ .parked) :
    s.queueWord c q w = some (s.fillQueue c q w true) := by
  have rest : (s.fillQueue c q w true).rouse (slotKey c 15) .queueIdle = s.fillQueue c q w true := if_neg fun h => hs h.1
  unfold State.queueWord
  dsimp only
  rw [if_neg (by rw [h]; nofun)]
  split
  · next hst _ => exact absurd hst hs
  · exact congrArg some rest

/-- The net strand waits for the register: it gets the word at once. -/
theorem State.queueWord_waited {d l : Nat} (h : (Tab.get {} q (s.core c).nq).full = false) (hs : (s.strand (slotKey c 15)).st = .parked)
    (hc : (s.strand (slotKey c 15)).cont = .queue d l) (hl : l.testBit q = true) :
    s.queueWord c q w = some (((s.fillQueue c q w false).modStrand (slotKey c 15) fun y => y.setReg d w).completed (slotKey c 15) 4) := by
  unfold State.queueWord
  dsimp only
  rw [if_neg (by rw [h]; nofun), hs, hc]
  exact if_pos ((bitOn_eq_testBit ..).trans hl)

end QueueWord

theorem Strand.setReg_fields (x : Strand) (d : Nat) (w : Word) :
    (x.setReg d w).st = x.st ∧ (x.setReg d w).pc = x.pc ∧ (x.setReg d w).entry = x.entry ∧ (x.setReg d w).cont = x.cont := by
  unfold Strand.setReg
  split_ifs <;> exact ⟨rfl, rfl, rfl, rfl⟩

theorem slotOf_slotKey (c : Nat) : slotOf (slotKey c 15) = 15 := by simp [slotOf, slotKey]

/-- A word for a core of a site in service: what the queue makes of it, and the answer (R370). -/
theorem State.nqArrive_word {s : State} {n c r : Nat} {m : Msg} (ha : s.arriving n = some m) (hop : m.op = .nqWord c r)
    (hf : ((s.consume n).site m.dst).state ≠ .failed) (hi : ((s.consume n).site m.dst).state ≠ .isolated) :
    (∀ t, (s.consume n).queueWord (m.dst * 16 + c) r (leWord m.data) = some t → exec (.reqNqWord n) s = .next (t.reply m .ack [] false)) ∧
      ((s.consume n).queueWord (m.dst * 16 + c) r (leWord m.data) = none → exec (.reqNqWord n) s = .next ((s.consume n).reply m .refusal [] false)) := by
  have out : ¬(((s.consume n).site m.dst).state = .failed ∨ ((s.consume n).site m.dst).state = .isolated) := not_or.2 ⟨hf, hi⟩
  refine ⟨fun t h => ?_, fun h => ?_⟩ <;>
  · simp only [exec_eq_execReqNqWord, execReqNqWord, State.nqArrive, ha, hop]
    rw [if_neg out, h]
    rfl

theorem State.site_modLink (s : State) (v d w : Nat) (x : Mesh) (f : Link → Link) : ∃ l, (s.modLink v d x f).site w = { s.site w with links := l } := by
  by_cases hw : w = v
  · subst hw; exact ⟨Tab.put (linkKey d x) (f ((s.site w).link d x)) (s.site w).links, (State.site_modSite ..).trans (if_pos rfl)⟩
  · exact ⟨(s.site w).links, (State.site_modSite ..).trans (if_neg hw)⟩

theorem State.site_unbuffer (s : State) (m : Msg) (v : Nat) : ∃ l, (s.unbuffer m).site v = { s.site v with links := l } := by
  unfold State.unbuffer
  split
  · exact State.site_modLink ..
  · exact ⟨(s.site v).links, rfl⟩

/-- A message taken gives back its credit, and changes nothing else of a site (R405). -/
theorem State.site_consume_links (s : State) (n v : Nat) : ∃ l, (s.consume n).site v = { s.site v with links := l } := by
  unfold State.consume
  split
  · exact ⟨(s.site v).links, rfl⟩
  · exact s.site_unbuffer _ v

/-! ## Requests that are sent again (R128, R370) -/

/-- A transaction held back keeps its request and its access, and waits to be sent. -/
theorem State.holdBack_kept {s : State} {x : Txn} {n : Nat} (h : s.txn n = some x) :
    ∃ y ∈ (s.holdBack n).txns, y.id = n ∧ y.resend = true ∧ y.req = x.req ∧ y.acc = x.acc := by
  obtain ⟨hm, hid⟩ := State.txn_mem h
  exact ⟨{ x with resend := true }, List.mem_map.2 ⟨x, hm, if_pos hid⟩, hid, rfl, rfl, rfl⟩

/-- A message that can leave its source is on its way after it has been sent again. -/
theorem State.sendAgain_leaves {s : State} {m : Msg} (hc : CanLeave s m) : (s.sendAgain m).mem = s.mem ∧ (s.sendAgain m).txns = s.txns ∧
    ∃ q ∈ (s.sendAgain m).net, q.op = m.op ∧ q.src = m.src ∧ q.dst = m.dst ∧ q.txn = m.txn ∧ q.data = m.data := by
  have sent (x : Option Mesh) : let t := s.sendOut { m with mesh := x }
      t.mem = s.mem ∧ t.txns = s.txns ∧ ∃ q ∈ t.net, q.op = m.op ∧ q.src = m.src ∧ q.dst = m.dst ∧ q.txn = m.txn ∧ q.data = m.data :=
    ⟨rfl, rfl, _, List.mem_append_right _ (List.mem_singleton.2 rfl), rfl, rfl, rfl, rfl, rfl⟩
  unfold State.sendAgain
  by_cases hs : m.mesh.isNone ∨ m.op.cls = 3
  · rw [if_pos hs]; exact sent m.mesh
  · rw [if_neg hs]
    rcases hc with hn | ⟨k, hk, hu⟩
    · exact absurd (.inl (by rw [hn]; rfl)) hs
    · simp only [hk, if_neg hu]; exact sent _

theorem State.resendTxn_sends {s : State} {n : Nat} {u : Txn} {p : MsgOp → Bool} (h : s.txn n = some u) (hr : u.resend = true) (hp : p u.req.op = true)
    (hc : CanLeave s u.req) : ∃ t, s.resendTxn n p = some t ∧ t.mem = s.mem ∧ SentAgain t u := by
  obtain ⟨-, hid⟩ := State.txn_mem h
  let v : State := { s with txns := s.txns.map fun (w : Txn) => if w.id = n then { w with resend := false } else w }
  obtain ⟨hm, ht, hq⟩ := State.sendAgain_leaves (s := v) hc
  refine ⟨v.sendAgain u.req, ?_, hm, hq, fun y hy hyid => ?_⟩
  · simp [State.resendTxn, h, hr, hp, v]
  · rw [ht] at hy
    obtain ⟨w, -, rfl⟩ := List.mem_map.1 hy
    by_cases hw : w.id = n
    · rw [if_pos hw]
    · rw [if_neg hw, hid] at hyid
      exact absurd hyid hw

/-! ## Deferrals, refusals and retry answers (R128, R162, R370) -/

theorem State.replied_some {s : State} {n : Nat} {m : Msg} {x : Txn} {p : MsgOp → Bool} (ha : s.arriving n = some m) (hx : s.txn m.txn = some x)
    (hp : p m.op = true) : s.replied n p = some (m, x) := by
  simp [State.replied, ha, hx, hp]

theorem State.txn_consume (s : State) (n j : Nat) : (s.consume n).txn j = s.txn j := by simp [State.txn]

end Sys2Proof.Machine
end

section
/-! The statement about network queues and resends. -/

namespace Sys2Proof.Machine

open Sys2Proof Sys2Proof.Spec

/-- The queue words of the strands (R50, R370). -/
theorem queueInstructions (a b d : BitVec 8) (s : State) :
    (slotOf s.cur ≠ 15 → exec (.nqSend a b) s = .next (s.raiseFault s.cur .privilege) ∧ exec (.nqRecv d a) s = .next (s.raiseFault s.cur .privilege)) ∧
    (slotOf s.cur = 15 → Ready s [d, a] → (s.val a).getLsbD 2 = false →
      let r := (s.val a).toNat % 4
      let q := Tab.get {} r (s.core (coreOfK s.cur)).nq
      (q.full = true → ∃ t, exec (.nqRecv d a) s = .next t ∧ t.mem = s.mem ∧ t.me = { put s.me d q.value with pc := s.me.pc + 4 } ∧
        (Tab.get {} r (t.core (coreOfK s.cur)).nq).full = false) ∧
      (q.full = false → ∃ t, exec (.nqRecv d a) s = .next t ∧ Parks s t .queueIdle (.queue d.toNat (2 ^ r)))) := by
  refine ⟨fun h => ⟨?_, ?_⟩, fun h15 hr h2 => ⟨fun hq => ⟨_, (exec_nqRecv_one h15 hr h2).trans (congrArg _ (if_pos hq)), rfl, ?_, ?_⟩,
    fun hq => ⟨_, (exec_nqRecv_one h15 hr h2).trans (congrArg _ (if_neg (by rw [hq]; nofun))), park_parks ..⟩⟩⟩
  · simp only [exec_eq_execNqSend, execNqSend, if_pos h]
  · simp only [exec_eq_execNqRecv, execNqRecv, if_pos h]
  · rw [finish_eq_wrote, wrote]
    exact State.me_modStrand ..
  · rw [State.finish, State.core_modStrand, State.core_modCore, if_pos rfl, Tab.get_put_self]

/-- What becomes of a queue word at its core (R370). -/
theorem queueWordArrives {s : State} {n c r : Nat} {m : Msg} (ha : s.arriving n = some m) (hop : m.op = .nqWord c r)
    (hf : (s.site m.dst).state ≠ .failed) (hi : (s.site m.dst).state ≠ .isolated) :
    let e := m.dst * 16 + c
    let k := slotKey e 15
    ((Tab.get {} r (s.core e).nq).full = true → ∃ t, exec (.reqNqWord n) s = .next t ∧ t.cores = s.cores ∧ Answered t m .refusal [] false) ∧
    ((Tab.get {} r (s.core e).nq).full = false → (s.strand k).st ≠ .parked → ∃ t, exec (.reqNqWord n) s = .next t ∧ t.mem = s.mem ∧
      Tab.get {} r (t.core e).nq = { value := leWord m.data, full := true } ∧ Answered t m .ack [] false) ∧
    (∀ (d : BitVec 8) l, (Tab.get {} r (s.core e).nq).full = false → (s.strand k).st = .parked → (s.strand k).cont = .queue d.toNat l → l.testBit r = true →
      ∃ t, exec (.reqNqWord n) s = .next t ∧ t.mem = s.mem ∧ (Tab.get {} r (t.core e).nq).full = false ∧ Answered t m .ack [] false ∧
        t.strand k = { put (s.strand k) d (leWord m.data) with pc := (s.strand k).pc + 4, st := .ready, why := none, cont := .reissue }) := by
  intro e k
  obtain ⟨links, site⟩ := s.site_consume_links n m.dst
  obtain ⟨taken, refused⟩ := State.nqArrive_word ha hop (by rw [site]; exact hf) (by rw [site]; exact hi)
  refine ⟨fun hq => ?_, fun hq hst => ?_, fun d l hq hst hc hl => ?_⟩
  · exact ⟨_, refused (State.queueWord_full _ (by rwa [State.core_consume])), s.consume_cores n, answered_reply ..⟩
  · refine ⟨_, taken _ (State.queueWord_idle _ (by rwa [State.core_consume]) (by rwa [State.strand_consume])), s.consume_mem n, ?_, answered_reply ..⟩
    exact State.nq_fillQueue ..
  · have word := State.queueWord_waited (s := s.consume n) (leWord m.data) (by rwa [State.core_consume]) (by rwa [State.strand_consume])
      (by rwa [State.strand_consume]) hl
    let u := ((s.consume n).fillQueue e r (leWord m.data) false).modStrand k fun y => y.setReg d.toNat (leWord m.data)
    have uk : u.strand k = (s.strand k).setReg d.toNat (leWord m.data) := by
      rw [State.strand_modStrand, if_pos rfl, State.fillQueue, State.strand_modCore, State.strand_consume]
    obtain ⟨ust, upc, -, -⟩ := (s.strand k).setReg_fields d.toNat (leWord m.data)
    refine ⟨_, taken _ word, ?_, ?_, answered_reply .., ?_⟩
    · rw [State.reply_mem, State.completed_mem]; exact s.consume_mem n
    · have cores : ((u.completed k 4).core e).nq = (u.core e).nq := by rw [State.core, State.completed_cores, State.core]
      have nq := congrArg Queue.full (State.nq_fillQueue (s.consume n) e r (leWord m.data) false)
      exact (congrArg (fun l => (Tab.get {} r l).full) cores).trans nq
    · have goes := State.strand_completed (s := u) (k := k) 4 (by rw [uk, ust]; exact hst)
        (by rw [show slotOf k = 15 from slotOf_slotKey e]; exact Bool.and_false _) k
      rw [if_pos rfl, uk, upc] at goes
      rw [put_eq_setReg]
      exact goes

/-- Deferrals, refusals and retry answers as they come back (R128, R162, R370). -/
theorem answersHeldBack {s : State} {n : Nat} {m : Msg} {x : Txn} (ha : s.arriving n = some m) (hx : s.txn m.txn = some x) :
    let kept := fun (t : State) => t.mem = s.mem ∧ t.strands = s.strands ∧ t.net = (s.consume n).net ∧
      ∃ y ∈ t.txns, y.id = m.txn ∧ y.resend = true ∧ y.req = x.req ∧ y.acc = x.acc
    (m.op = .deferral → x.acc.owner.gone = false → x.withdrawn = false → ∃ t, exec (.rspDeferral n) s = .next t ∧ kept t) ∧
    (m.op = .refusal → ∃ t, exec (.rspQueueRefusal n) s = .next t ∧ kept t) ∧
    (∀ k, m.op = .hostRetry → x.acc.owner = .strand k → (s.strand k).st = .parked → (s.gang (siteOfK k) (s.strand k).entry).halting = false →
      ∃ t, exec (.rspHostRetry n) s = .next t ∧ GoesOn s t k 0 ∧ t.mem = s.mem) := by
  intro kept
  have held (u : State) (hm : u.mem = s.mem) (hs : u.strands = s.strands) (hn : u.net = (s.consume n).net) (ht : u.txns = s.txns) :
      kept (u.holdBack m.txn) := by
    obtain ⟨y, hy, eq⟩ := State.holdBack_kept hx
    exact ⟨hm, hs, hn, y, by rw [State.holdBack, ht]; exact hy, eq⟩
  refine ⟨fun hop hg hw => ?_, fun hop => ?_, fun k hop ho hst hh => ?_⟩
  · have rep := State.replied_some (p := (· == .deferral)) ha hx (by rw [hop]; rfl)
    refine ⟨((s.consume n).count (coreOfK x.acc.k) 0x00F 1).holdBack m.txn, ?_, held _ (s.consume_mem n) (s.consume_strands n) rfl (s.consume_txns n)⟩
    simp only [exec_eq_execRspDeferral, execRspDeferral, State.rspDeferral, rep]
    cases ho : x.acc.owner <;> simp [ho, hw, Owner.gone, due] at hg ⊢
  · refine ⟨(s.consume n).holdBack m.txn, ?_, held _ (s.consume_mem n) (s.consume_strands n) rfl (s.consume_txns n)⟩
    simp [exec_eq_execRspQueueRefusal, execRspQueueRefusal, State.queueRefusal, ha, hop, due]
  · have rep := State.replied_some (p := (· == .hostRetry)) ha hx (by rw [hop]; rfl)
    have strand : (s.settled m).strand k = s.strand k := s.strand_consume m.id k
    have gang : (s.settled m).gang (siteOfK k) (s.strand k).entry = s.gang (siteOfK k) (s.strand k).entry := by
      obtain ⟨l, site⟩ := s.site_consume_links m.id (siteOfK k)
      exact congrArg (fun v : Site => Tab.get {} (s.strand k).entry v.gangs) site
    refine ⟨(s.settled m).wake k, by simp only [exec_eq_execRspHostRetry, execRspHostRetry, State.rspHostRetry, rep, ho, due], ?_, ?_⟩
    · rw [GoesOn, State.strand_wake, strand, if_pos ⟨rfl, hst⟩, gang, hh]
      simp
    · exact (State.wake_keeps State.mem (fun _ _ _ => rfl) _ k).trans (s.consume_mem m.id)

/-- Settles O47: queue words at both ends, what is held back and sent again, withdrawals and retry answers. -/
theorem queuesAndResends : Obligations.QueuesAndResends := by
  refine ⟨fun a b d s => ?_, fun s n c r m ha hop hf hi => queueWordArrives ha hop hf hi, fun s n m x ha hx => answersHeldBack ha hx,
    fun s n u h hr hc => ⟨fun op hop => ?_, fun c r hop => ?_⟩, fun s n x m ha hop hf hi hk => ?_, fun s g n w k m q hp hq ho hx => ?_⟩
  · obtain ⟨privilege, receives⟩ := queueInstructions a b d s
    exact ⟨privilege, fun p x h15 hr ht => exec_nqSend_sends h15 hr ht, receives⟩
  · obtain ⟨t, eq, sent⟩ := State.resendTxn_sends (p := fun o => match o with | .req _ => true | _ => false) h hr (by rw [hop]) hc
    exact ⟨t, congrArg (due _) eq, sent⟩
  · obtain ⟨t, eq, sent⟩ := State.resendTxn_sends (p := fun o => match o with | .nqWord .. => true | _ => false) h hr (by rw [hop]) hc
    exact ⟨t, congrArg (due _) eq, sent⟩
  · obtain ⟨l, site⟩ := s.site_consume_links n m.dst
    have serves : ¬(((s.consume n).site m.dst).state = .failed ∨ ((s.consume n).site m.dst).state = .isolated) := by
      rw [site]; exact not_or.2 ⟨hf, hi⟩
    refine ⟨((s.consume n).modSite m.dst fun v => { v with waits := v.waits.filter fun r => r.txn != x }).reply m .ack [] false, ?_,
      s.consume_mem n, s.consume_full n, answered_reply .., ?_⟩
    · simp only [exec_eq_execReqFeWithdraw, execReqFeWithdraw, State.feWithdrawn, ha, hop]
      rw [if_neg serves, if_neg (not_not.2 hk)]
      rfl
    · have waits : (((s.consume n).modSite m.dst fun v => { v with waits := v.waits.filter fun r => r.txn != x }).site m.dst).waits =
          ((s.consume n).site m.dst).waits.filter fun r => r.txn != x := by rw [State.site_modSite, if_pos rfl]
      rw [site] at waits
      exact waits
  · refine ⟨(s.hostAnswered g m).reply m .hostRetry [] false, ?_, rfl, answered_reply ..⟩
    simp [exec_eq_execGatehouseRetryAnswer, execGatehouseRetryAnswer, State.hostRetryAnswer, hp, hq, ho, hx, due]

end Sys2Proof.Machine
end

section
/-! Control registers: the checks of `getc` and `setc`, and the writes that a parked `setc` waits for (R56, R57, R62, R65, R68, R87, R226, R228, R371). -/

namespace Sys2Proof.Machine

open Sys2Proof Sys2Proof.Spec

/-! ## The checks of number and mode (R56, R57, R371) -/

section Checks

variable {s : State} {n : Nat} {w : RegWrite}

theorem State.regCheck_unknown (h : regKind n = none) (b : Bool) : s.regCheck n b = some .illegal := by
  simp [State.regCheck, h]

theorem State.regCheck_read (h : regKind n = some w) (ok : s.me.sup = true ∨ n < 0x0800) : s.regCheck n false = none := by
  rcases ok with ok | ok
  · simp [State.regCheck, h, ok]
  · simp [State.regCheck, h, Nat.not_le.2 ok]

theorem State.regCheck_read_privilege (h : regKind n ≠ none) (hs : s.me.sup = false) (hn : 0x0800 ≤ n) : s.regCheck n false = some .privilege := by
  obtain ⟨w, h⟩ := Option.ne_none_iff_exists'.1 h
  simp [State.regCheck, h, hs, hn]

theorem State.regCheck_write_privilege (h : regKind n = some .sup) (hs : s.me.sup = false) : s.regCheck n true = some .privilege := by
  simp [State.regCheck, h, hs]

/-- A strand writes its own registers, and supervisor mode what it may write. -/
theorem State.regCheck_write (h : regKind n = some .strand ∧ n < 0x0800 ∨ regKind n = some .sup ∧ s.me.sup = true) : s.regCheck n true = none := by
  rcases h with ⟨h, hn⟩ | ⟨h, hs⟩
  · simp [State.regCheck, h, Nat.not_le.2 hn]
  · simp [State.regCheck, h, hs]

end Checks

/-! ## `getc` and `setc` (R371) -/

section Instructions

variable {s : State} {d a : BitVec 8} {n : BitVec 16}

theorem exec_getc_faults {c : Code} (d : BitVec 8) (h : s.regCheck n.toNat false = some c) : exec (.getc d n) s = .next (s.raiseFault s.cur c) := by
  simp only [exec_eq_execGetc, execGetc, h]

theorem exec_setc_faults {c : Code} (a : BitVec 8) (h : s.regCheck n.toNat true = some c) : exec (.setc a n) s = .next (s.raiseFault s.cur c) := by
  simp only [exec_eq_execSetc, execSetc, h]

theorem exec_getc_ready (hr : Ready s [d]) (h : s.regCheck n.toNat false = none) : exec (.getc d n) s = .next
    (if inTurn n.toNat then s.finish d.toNat (s.regRead s.cur n.toNat) 8 else s.askUnit (.getc n.toNat d.toNat) .data []) := by
  simp only [exec_eq_execGetc, execGetc, h]
  rw [State.issue_one hr]

theorem exec_setc_ready (hr : Ready s [a]) (h : s.regCheck n.toNat true = none) : exec (.setc a n) s = .next
    (if inTurn n.toNat then (s.regWrite s.cur n.toNat (s.val a)).pass 8 else s.park s.cur .access (.setc n.toNat (s.val a))) := by
  simp only [exec_eq_execSetc, execSetc, h]
  rw [State.issue_one hr]

end Instructions

/-- A register of the strand's own is read in its turn (R371). -/
theorem getc_gives {n : BitVec 16} {w : RegWrite} {v : State → Word} (d : BitVec 8) (hk : regKind n.toNat = some w) (hn : n.toNat < 0x0300)
    (hv : ∀ s, s.regRead s.cur n.toNat = v s) : Gives (.getc d n) [d] d 8 v := by
  intro s hr
  have turn : inTurn n.toNat = true := decide_eq_true (.inl hn)
  rw [exec_getc_ready hr (State.regCheck_read hk (.inr (by omega))), if_pos turn, hv, finish_eq_wrote]

/-- A change of the issuing strand in its turn, which moves pc on as well. -/
theorem me_modStrand_pass (s : State) (f : Strand → Strand) (n : Nat) :
    ((s.modStrand s.cur f).pass n).me = { f s.me with pc := (f s.me).pc + BitVec.ofNat 60 n } := by
  rw [State.pass, State.me_modStrand, State.me_modStrand]

/-! ## A `setc` whose register is the pavilion's (R371) -/

theorem State.pendingSetc_waits {s : State} {k n : Nat} {w : Word} {p : Nat → Bool} (h : WaitsFor s k (.setc n w)) (hp : p n = true) :
    s.pendingSetc k p = some (n, w) := by
  obtain ⟨hst, hc, -⟩ := h
  simp [State.pendingSetc, hst, hc, hp]

/-- A parked strand goes on after a change that left its record and its gang's halting. -/
theorem goesOn_completed {s t : State} {k : Nat} {c : Cont} (h : WaitsFor s k c) (n : Nat) (hs : t.strand k = s.strand k)
    (hg : t.gang (siteOfK k) (s.strand k).entry = s.gang (siteOfK k) (s.strand k).entry) : GoesOn s (t.completed k n) k n := by
  obtain ⟨hst, -, hh⟩ := h
  have on := State.completed_goesOn (s := t) (k := k) n (hs ▸ hst) (by rw [hs, hg]; exact hh)
  rwa [GoesOn, hs] at on

end Sys2Proof.Machine
end

section
/-! The steps that a `setc` of a pavilion's register waits for: plain registers, the watchdog, the pinned region (R67, R68, R87, R193, R228, R371). -/

namespace Sys2Proof.Machine

open Sys2Proof Sys2Proof.Spec

/-! ## Registers without a step of their own -/

theorem registerWrite_pending {s : State} {k n : Nat} {w : Word} (h : WaitsFor s k (.setc n w)) (hn : n ≠ 0x0304 ∧ n ≠ 0x0900 ∧ n ≠ 0x0912) :
    exec (.registerWrite (.pending k)) s = .next ((s.regWrite k n w).completed k 8) := by
  obtain ⟨h1, h2, h3⟩ := hn
  have p := State.pendingSetc_waits (p := fun n => n != 0x0304 && n != 0x0900 && n != 0x0912) h (by simp [h1, h2, h3])
  simp only [exec_eq_execRegisterWrite, execRegisterWrite, State.registerWrite, p]
  rfl

/-- A register of the site takes its value, and the strand goes on. -/
theorem goesOn_modSite {s : State} {k : Nat} {c : Cont} (h : WaitsFor s k c) (n : Nat) {f : Site → Site} (hg : ∀ x, (f x).gangs = x.gangs)
    (hw : ∀ x, (f x).waiters = x.waiters) :
    GoesOn s ((s.modSite (siteOfK k) f).completed k n) k n ∧ ((s.modSite (siteOfK k) f).completed k n).mem = s.mem ∧
      ((s.modSite (siteOfK k) f).completed k n).site (siteOfK k) = f (s.site (siteOfK k)) := by
  have same := SameClaims.modSite s (siteOfK k) hg hw
  refine ⟨goesOn_completed h n (same.strand k) (same.gang ..), State.completed_mem .., ?_⟩
  rw [State.site_completed, State.site_modSite, if_pos rfl]

/-! ## The watchdog (R68, R228) -/

/-- What an expiry leaves: X is set, the count starts again, and a notice event is raised unless X was set already. -/
theorem State.watchdogExpiry_effect {s : State} {v : Nat} (hd : (s.site v).wdDue = true) (hx : (s.site v).wdX = true ∨ s.holdFull v 15 = false) :
    ∃ t, s.watchdogExpiry v = some t ∧ t.mem = s.mem ∧ SameClaims s t ∧ (t.site v).wdX = true ∧ (t.site v).wdCount = 0 ∧
      ((s.site v).wdX = false → t.holdFull v 15 = true) := by
  have same := SameClaims.modSite s v (f := fun t => { t with wdX := true, wdCount := 0 }) (fun _ => rfl) (fun _ => rfl)
  have step : s.watchdogExpiry v = some (if (s.site v).wdX then s.modSite v fun t => { t with wdX := true, wdCount := 0 }
      else (s.modSite v fun t => { t with wdX := true, wdCount := 0 }).raise v 15 sevNotice 0x0108 none 0) := by
    unfold State.watchdogExpiry
    refine if_neg ?_
    rcases hx with hx | hx <;> simp [hd, hx]
  refine ⟨_, step, ?_⟩
  by_cases hX : (s.site v).wdX = true
  · rw [if_pos hX]
    exact ⟨rfl, same, by simp, by simp, fun h => absurd hX (by simp [h])⟩
  · rw [if_neg hX]
    exact ⟨rfl, same.trans (.raise ..), by simp [State.raise], by simp [State.raise], fun _ => State.holdFull_raise ..⟩

/-- A write of the watchdog stands; one that meets an expiry leaves X set (R73, R228). -/
theorem exec_watchdogWrite {s : State} {k : Nat} {w : Word} (h : WaitsFor s k (.setc 0x0304 w)) :
    let v := siteOfK k
    ((s.site v).wdDue = true → (s.site v).wdX = true ∨ s.holdFull v 15 = false) →
      ∃ t, exec (.watchdogWrite k) s = .next t ∧ GoesOn s t k 8 ∧ t.mem = s.mem ∧ (t.site v).wdEn = w.getLsbD 63 ∧
        (t.site v).wdX = ((s.site v).wdDue || ((s.site v).wdX && !w.getLsbD 62)) ∧ (t.site v).wdPeriod = w.toNat % 2 ^ 32 ∧ (t.site v).wdCount = 0 := by
  intro v hx
  have p := State.pendingSetc_waits (p := (· == 0x0304)) h rfl
  cases hd : (s.site v).wdDue
  · have step : exec (.watchdogWrite k) s = .next ((s.modSite v fun t => t.watchdogSet w).completed k 8) := by
      simp only [exec_eq_execWatchdogWrite, execWatchdogWrite, State.watchdogWrite, p]
      rw [if_neg (by rw [hd]; nofun)]; rfl
    obtain ⟨on, mem, site⟩ := goesOn_modSite h 8 (f := fun t => t.watchdogSet w) (fun _ => rfl) (fun _ => rfl)
    refine ⟨_, step, on, mem, ?_⟩
    rw [site]
    exact ⟨bitOn_eq_getLsbD .., by rw [Bool.false_or, ← bitOn_eq_getLsbD]; rfl, rfl, rfl⟩
  · obtain ⟨u, expiry, umem, same, -⟩ := State.watchdogExpiry_effect hd (hx hd)
    have step : exec (.watchdogWrite k) s = .next ((u.modSite v fun t => { t.watchdogSet w with wdX := true }).completed k 8) := by
      simp only [exec_eq_execWatchdogWrite, execWatchdogWrite, State.watchdogWrite, p]
      rw [if_pos hd, expiry]; rfl
    have all := same.trans (.modSite u v (f := fun t => { t.watchdogSet w with wdX := true }) (fun _ => rfl) (fun _ => rfl))
    refine ⟨_, step, goesOn_completed h 8 (all.strand k) (all.gang ..), (State.completed_mem ..).trans umem, ?_⟩
    rw [State.site_completed, State.site_modSite, if_pos rfl]
    exact ⟨bitOn_eq_getLsbD .., rfl, rfl, rfl⟩

/-! ## The pinned region (R87) -/

/-- A pavilion with a gang ignores a new size (R87). -/
theorem exec_slicePinWrite_ignored {s : State} {k : Nat} {w : Word} (h : WaitsFor s k (.setc 0x0900 w)) (he : s.entries (siteOfK k) ≠ []) :
    exec (.slicePinWrite k) s = .next (s.completed k 8) := by
  have p := State.pendingSetc_waits (p := (· == 0x0900)) h rfl
  simp only [exec_eq_execSlicePinWrite, execSlicePinWrite, State.slicePinWrite, p]
  rw [Option.map_some, if_pos (.inl (by simpa using he))]
  rfl

/-- With no record waiting, a change of the bits serves nobody. -/
theorem State.serveChanged_nobody {s : State} (t : State) {v : Nat} (h : (s.site v).waits = []) (u : Nat) : s.serveChanged t v u = s := by
  unfold State.serveChanged
  rw [h]
  rfl

/-- Bytes of a cleared range read zero, and the others as before. -/
theorem State.read_zeroBytes (s : State) (lo n a : Nat) :
    Memory.read (s.zeroBytes lo n).mem a = if lo ≤ a ∧ a < lo + n then 0 else Memory.read s.mem a := by
  refine (Memory.read_filter s.mem (fun b => !decide (lo ≤ b ∧ b < lo + n)) a).trans ?_
  by_cases h : lo ≤ a ∧ a < lo + n
  · rw [if_pos h, if_neg (by simpa using h)]; rfl
  · rw [if_neg h, if_pos (by simpa only [Bool.not_eq_true', decide_eq_false_iff_not] using h)]

/-- The flush of an empty slice only marks fills that are under way (R104). -/
theorem State.flushSlice_empty {s : State} {v : Nat} (h : (s.site v).slice = []) : s.flushSlice v (fun _ => true) true =
    (s.modSite v fun x => { x with slice := [] }).staleSlice v fun _ => true := by
  unfold State.flushSlice
  rw [h]
  have flushed : (s.modSite v fun x => { x with slice := flushed (fun _ => true) true x.slice }) = s.modSite v fun x => { x with slice := [] } := by
    rw [State.modSite, h]; rfl
  rw [flushed]
  rfl

/-- A state whose write-backs are those of another: the struck lines on their way out agree, and the transactions but for marks. -/
structure SameWriteBacks (s t : State) (v : Nat) : Prop where
  leaving : (t.site v).leaving = (s.site v).leaving
  txns : ∃ f : Txn → Txn, t.txns = s.txns.map f ∧ ∀ x, (f x).id = x.id ∧ (f x).acc = x.acc ∧ (f x).req = x.req

section SameWriteBacks

variable {s t : State} {v : Nat} (h : SameWriteBacks s t v)
include h

theorem SameWriteBacks.writeBacks (cs : List Nat) (sl : Bool) (p : Nat → Bool) : t.writeBacks v cs sl p = s.writeBacks v cs sl p := by
  obtain ⟨f, ht, hf⟩ := h.txns
  have id : Txn.id ∘ f = Txn.id := funext fun x => (hf x).1
  unfold State.writeBacks
  dsimp only
  rw [h.leaving, ht, List.filter_map, List.map_map, id]
  congr 3
  funext x
  simp only [Function.comp, (hf x).2.1, (hf x).2.2]

theorem SameWriteBacks.unwritten (l : List Nat) : t.unwritten v l = s.unwritten v l := by
  obtain ⟨f, ht, hf⟩ := h.txns
  unfold State.unwritten
  rw [h.leaving, ht, List.any_map]
  congr 2
  funext x
  simp only [Function.comp, (hf x).1]

end SameWriteBacks

theorem State.staleSlice_txns (s : State) (v : Nat) (p : Nat → Bool) :
    ∃ f : Txn → Txn, (s.staleSlice v p).txns = s.txns.map f ∧ ∀ x, (f x).id = x.id ∧ (f x).acc = x.acc ∧ (f x).req = x.req := by
  refine ⟨_, rfl, fun x => ?_⟩
  cases x.fill with
  | none => exact ⟨rfl, rfl, rfl⟩
  | some l => by_cases stale : siteOfK x.acc.k = v ∧ p l.line <;> simp [stale]

/-- The pavilion with another size of its pinned region: the slice is emptied, and the granules between the sizes are zero. -/
def State.repinned (s : State) (v old new : Nat) : State :=
  (((s.flushSlice v (fun _ => true) true).modSite v fun t => { t with slicePin := new }).zeroBytes (homeKey v 4 (min old new * 2 ^ 20))
    ((max old new - min old new) * 2 ^ 20))

section Repinned

variable {s : State} {v : Nat} (hs : (s.site v).slice = []) (old new : Nat)
include hs

theorem State.site_repinned (w : Nat) : (s.repinned v old new).site w =
    if w = v then { s.site v with slice := [], slicePin := new } else s.site w := by
  have sites : (s.repinned v old new).sites =
      ((s.modSite v fun x => { x with slice := [] }).modSite v fun t => { t with slicePin := new }).sites := by
    rw [State.repinned, State.flushSlice_empty hs]; rfl
  rw [State.site, sites, ← State.site, State.site_modSite, State.site_modSite, State.site_modSite]
  simp only [if_true]
  split_ifs <;> rfl

theorem State.strands_repinned : (s.repinned v old new).strands = s.strands := by rw [State.repinned, State.flushSlice_empty hs]; rfl

theorem State.sameWriteBacks_repinned : SameWriteBacks s (s.repinned v old new) v := by
  refine ⟨by rw [State.site_repinned hs, if_pos rfl], ?_⟩
  rw [State.repinned, State.flushSlice_empty hs]
  exact State.staleSlice_txns (s.modSite v fun x => { x with slice := [] }) v fun _ => true

theorem State.mem_repinned (a : Nat) : Memory.read (s.repinned v old new).mem a =
    if homeKey v 4 (min old new * 2 ^ 20) ≤ a ∧ a < homeKey v 4 (max old new * 2 ^ 20) then 0 else Memory.read s.mem a := by
  have top : homeKey v 4 (min old new * 2 ^ 20) + (max old new - min old new) * 2 ^ 20 = homeKey v 4 (max old new * 2 ^ 20) := by
    unfold homeKey; omega
  rw [State.repinned, State.read_zeroBytes, top, State.flushSlice_empty hs]
  rfl

end Repinned

/-- A fence that waits for nothing more completes (R106). -/
theorem State.testFence_ready {s : State} {k n : Nat} {l : List Nat} (hst : (s.strand k).st = .parked) (hc : (s.strand k).cont = .flush 0 n l)
    (hw : s.unwritten (siteOfK k) l = false) : s.testFence k = s.completed k n := by
  have ready : s.fenceReady k 0 l = true := by simp [State.fenceReady, hw, bitOn]
  unfold State.testFence
  rw [hc]
  exact if_pos (by rw [hst, ready]; rfl)

/-- A new size with nothing to write back: the granules between the two sizes are zero, and the strand goes on (R87, log 51). -/
theorem exec_slicePinWrite {s : State} {k : Nat} {w : Word} (h : WaitsFor s k (.setc 0x0900 w)) :
    let v := siteOfK k
    s.entries v = [] → (s.site v).slice = [] → (s.site v).waits = [] → s.unwritten v (s.writeBacks v [] true fun _ => true) = false →
    let old := (s.site v).slicePin
    let new := min 32 (w.toNat % 64)
    ∃ t, exec (.slicePinWrite k) s = .next t ∧ GoesOn s t k 8 ∧ (t.site v).slicePin = new ∧
      ∀ a, Memory.read t.mem a = if homeKey v 4 (min old new * 2 ^ 20) ≤ a ∧ a < homeKey v 4 (max old new * 2 ^ 20) then 0 else Memory.read s.mem a := by
  intro v he hs hwaits hwb old new
  obtain ⟨hst, hc, hh⟩ := id h
  have p := State.pendingSetc_waits (p := (· == 0x0900)) h rfl
  by_cases same : new = old
  · have step : exec (.slicePinWrite k) s = .next (s.completed k 8) := by
      simp only [exec_eq_execSlicePinWrite, execSlicePinWrite, State.slicePinWrite, p]
      rw [Option.map_some, if_pos (.inr same)]; rfl
    refine ⟨_, step, State.completed_goesOn 8 hst hh, by rw [State.site_completed]; exact same.symm, fun a => ?_⟩
    rw [State.completed_mem, same, max_self, min_self, if_neg (by omega)]
  · let u := s.repinned v old new
    let l := (s.flushSlice v (fun _ => true) true).writeBacks v [] true fun _ => true
    let x := u.modStrand k fun x => { x with cont := .flush 0 8 l }
    have flushed : SameWriteBacks s (s.flushSlice v (fun _ => true) true) v := by
      rw [State.flushSlice_empty hs]
      refine ⟨?_, State.staleSlice_txns (s.modSite v fun x => { x with slice := [] }) v fun _ => true⟩
      show ((s.modSite v fun x => { x with slice := [] }).site v).leaving = _
      rw [State.site_modSite, if_pos rfl]
    have serves : u.serveChanged ((s.flushSlice v (fun _ => true) true).modSite v fun t => { t with slicePin := new }) v 4 = u :=
      State.serveChanged_nobody _ (by rw [State.site_repinned hs, if_pos rfl]; exact hwaits) 4
    have step : exec (.slicePinWrite k) s = .next (x.testFence k) := by
      simp only [exec_eq_execSlicePinWrite, execSlicePinWrite, State.slicePinWrite, p]
      rw [Option.map_some, if_neg (not_or.2 ⟨by rw [he]; nofun, same⟩)]
      exact congrArg (fun y : State => due "SLICE_PIN_WRITE" (some ((y.modStrand k fun x => { x with cont := .flush 0 8 l }).testFence k))) serves
    have strand : x.strand k = { s.strand k with cont := .flush 0 8 l } := by
      rw [State.strand_modStrand, if_pos rfl, State.strand, State.strands_repinned hs]
      rfl
    have written : x.unwritten v l = false := by
      show u.unwritten v l = false
      rw [(State.sameWriteBacks_repinned hs old new).unwritten]
      show s.unwritten v ((s.flushSlice v (fun _ => true) true).writeBacks v [] true fun _ => true) = false
      rw [flushed.writeBacks]
      exact hwb
    have ready : x.testFence k = x.completed k 8 :=
      State.testFence_ready (by rw [strand]; exact hst) (by rw [strand]) written
    have site : x.site v = { s.site v with slice := [], slicePin := new } := (State.site_repinned hs old new v).trans (if_pos rfl)
    have gang : (x.gang v (s.strand k).entry).halting = false := by
      show (Tab.get {} _ (x.site v).gangs).halting = false
      rw [site]
      exact hh
    have on : GoesOn x (x.completed k 8) k 8 := State.completed_goesOn 8 (by rw [strand]; exact hst) (by rw [strand]; exact gang)
    rw [GoesOn, strand] at on
    refine ⟨_, step.trans (congrArg _ ready), on, by rw [State.site_completed, site], fun a => ?_⟩
    rw [State.completed_mem]
    exact State.mem_repinned hs old new a

end Sys2Proof.Machine
end

section
/-! Control registers: the window's word, permits, the expiry and the tick, and the obligation (R56, R62, R65, R167, R226, R228, R371). -/

namespace Sys2Proof.Machine

open Sys2Proof Sys2Proof.Spec

/-! ## A word of a pavilion's window (R167) -/

theorem exec_registerWrite_evTarget {s : State} {v : Nat} (w : Word) (hv : kindOf v = .pavilion) (hk : siteKey v = true)
    (hs : (s.site v).inService = true) :
    exec (.registerWrite (.window v 0xB800 w)) s = .next (s.modSite v fun t => { t with evTarget := (w.extractLsb' 0 4).toNat }) := by
  have window : hasWindow v = true := by rw [hasWindow, hk, hv]; rfl
  have config : inCfgWindow v 0xB800 = false := by rw [inCfgWindow, hv]; rfl
  have write : s.windowWrite v 0xB800 w = some (s.modSite v fun t => if !t.inService then t else { t with evTarget := bits w.toNat 3 0 }) :=
    if_pos hv
  have taken : (s.modSite v fun t => if !t.inService then t else { t with evTarget := bits w.toNat 3 0 }) =
      s.modSite v fun t => { t with evTarget := bits w.toNat 3 0 } :=
    congrArg (s.setSite v) (if_neg (by rw [hs]; nofun))
  rw [toNat_extractLsb'_eq_bits w 0 3]
  simp only [exec_eq_execRegisterWrite, execRegisterWrite, State.registerWrite]
  rw [if_neg (by rw [window]; decide), if_neg (by rw [config]; nofun), write, taken]
  rfl

/-! ## Permits (R62, R226) -/

theorem Core.permit_setPermit (x : Core) (p q : PClass) (y : Permit) : (x.setPermit p y).permit q = if q = p then y else x.permit q := by
  cases p <;> cases q <;> rfl

@[simp] theorem Core.permit_tallied (x : Core) (n m : Nat) (q : PClass) : (x.tallied n m).permit q = x.permit q := by cases q <;> rfl
@[simp] theorem Core.permit_endTally (x : Core) (q : PClass) : x.endTally.permit q = x.permit q := by cases q <;> rfl

/-- The first write of a permit register outside an instant (R62). -/
theorem Permit.write_first {p : Permit} (w : Word) (h : p.was = none) : p.write false w =
    { rate := (w.extractLsb' 32 16).toNat, cap := (w.extractLsb' 16 16).toNat, count := min p.count (w.extractLsb' 16 16).toNat, saved := none } := by
  rw [toNat_extractLsb'_eq_bits w 32 15, toNat_extractLsb'_eq_bits w 16 15, Permit.write, Permit.take, h]
  rfl

theorem exec_permitWrite {s : State} {c p : Nat} (w : Word) (hc : kindOf (siteOfC c) = .pavilion) (hi : s.instant = none) (hp : p < 4) :
    exec (.permitWrite c p w) s = .next (s.modCore c fun x => x.setPermit (permitClass p) ((x.permit (permitClass p)).write false w)) := by
  simp only [exec_eq_execPermitWrite, execPermitWrite]
  rw [if_pos ⟨.inl hc, hp⟩, hi]
  rfl

/-- A core after one of its cycles: the permits are refilled and the cycle is counted. -/
theorem State.core_coreCycle (s : State) (c : Nat) : ((s.coreCycle c).core c).cycle = (s.core c).cycle + 1 ∧
    ∀ q, ((s.coreCycle c).core c).permit q = ((s.core c).permit q).refill (s.core c).cycle := by
  unfold State.coreCycle
  simp only [State.core_modCore, State.count, if_true]
  constructor
  · split_ifs <;> rfl
  · intro q
    split_ifs
    · rw [Core.permit_tallied]; cases q <;> rfl
    · rw [Core.permit_endTally, Core.permit_tallied]; cases q <;> rfl

theorem exec_permitRefill {s u : State} {c : Nat} (hi : s.instant = none) (hs : (s.site (siteOfC c)).state = .ready)
    (hu : s.turn (s.dueStrand c) = .bubble u) (hr : (u.site (siteOfC c)).inService = true) (hc : (coreNos (siteOfC c)).contains (c % 16) = true) :
    exec (.permitRefill c) s = .next (u.coreCycle c) := by
  have service : (s.site (siteOfC c)).inService = true := by rw [Site.inService, hs]; rfl
  simp only [exec_eq_execPermitRefill, execPermitRefill, State.permitRefill, hu]
  rw [if_neg (by rw [hi, service, hc]; decide), State.endTurn, hr, hc]
  rfl

/-! ## The tick of a region (R65) -/

theorem State.time_tickSite (s : State) (v w : Nat) :
    ((s.tickSite v).site w).time = if w = v then (s.site w).time + 1 else (s.site w).time := by
  rw [State.tickSite, State.site, each_keeps State.sites (fun _ _ => State.count_sites ..), ← State.site, State.site_setSite]
  by_cases h : w = v
  · rw [if_pos h, if_pos h, h]
  · rw [if_neg h, if_neg h]

theorem State.tickSite_keeps {β : Type} (g : State → β) (hs : ∀ (s : State) v x, g (s.setSite v x) = g s) (hc : ∀ (s : State) c n m, g (s.count c n m) = g s)
    (s : State) (v : Nat) : g (s.tickSite v) = g s :=
  (each_keeps g (fun _ _ => hc ..) ..).trans (hs ..)

/-- Each site of a list without repetition takes one tick. -/
theorem State.time_tickSites {l : List Nat} (hl : l.Nodup) (s : State) (w : Nat) :
    ((each l State.tickSite s).site w).time = if w ∈ l then (s.site w).time + 1 else (s.site w).time := by
  induction l generalizing s with
  | nil => rfl
  | cons v l ih =>
    obtain ⟨fresh, rest⟩ := List.nodup_cons.1 hl
    rw [each_cons, ih rest, State.time_tickSite]
    by_cases h : w = v
    · rw [if_pos h, if_neg (h ▸ fresh), if_pos (List.mem_cons.2 (.inl h))]
    · simp only [List.mem_cons, h, if_false, false_or]

theorem nodup_regionSites (rx ry : Nat) : (regionSites rx ry).Nodup := by
  simp only [regionSites, siteAt, List.nodup_cons, List.mem_cons, List.not_mem_nil, or_false, not_or, List.nodup_nil, and_true, not_false_eq_true]
  omega

theorem exec_tick {s : State} {rx ry : Nat} (hx : rx < 10) (hy : ry < 10) (h : ∃ v ∈ regionSites rx ry, (s.site v).clocked = true) :
    exec (.tick rx ry) s = .next (each ((regionSites rx ry).filter fun v => (s.site v).clocked) State.tickSite s) := by
  obtain ⟨v, hv, hc⟩ := h
  have some_ : (regionSites rx ry).filter (fun v => (s.site v).clocked) ≠ [] := List.ne_nil_of_mem (List.mem_filter.2 ⟨hv, hc⟩)
  simp only [exec_eq_execTick, execTick, State.tick]
  rw [if_pos ⟨hx, hy, by simpa using some_⟩]
  rfl

/-! ## The obligation -/

/-- Settles O46, part by part: the checks and registers of the strand, the steps a parked `setc` waits for, the window's word, permits, the expiry and
the tick. -/
theorem controlRegisters : Obligations.ControlRegisters := by
  unfold Obligations.ControlRegisters
  refine ⟨fun d => ⟨?_, ?_, ?_, ?_, ?_⟩, fun d a n s => ⟨?_, ?_, ?_, ?_, ?_, ?_, ?_⟩, fun s k w => ⟨?_, ?_, exec_watchdogWrite, ?_, exec_slicePinWrite⟩,
    fun s v w hv hk hs => exec_registerWrite_evTarget w hv hk hs, fun s c w hc hi => ⟨?_, ?_⟩, ?_, ?_⟩
  iterate 5 exact getc_gives d rfl (by decide) fun _ => rfl
  · exact fun h => ⟨exec_getc_faults d (State.regCheck_unknown h _), exec_setc_faults a (State.regCheck_unknown h _)⟩
  · exact fun h hs hn => exec_getc_faults d (State.regCheck_read_privilege h hs hn)
  · exact fun h hs => exec_setc_faults a (State.regCheck_write_privilege h hs)
  · intro hr
    have step := exec_setc_ready (n := 3) hr (State.regCheck_write (.inl ⟨rfl, by decide⟩))
    exact ⟨_, step, rfl, me_modStrand_pass s (fun x => { x with rnd := (s.val a).setWidth 2 }) 8⟩
  · intro hr
    have step := exec_setc_ready (n := 4) hr (State.regCheck_write (.inl ⟨rfl, by decide⟩))
    exact ⟨_, step, rfl, me_modStrand_pass s (fun x => { x with seed := s.val a }) 8⟩
  · intro hr hs hn
    have kind : regKind n.toNat = some .sup := by rcases hn with hn | hn <;> rw [hn] <;> rfl
    have turn : inTurn n.toNat = false := by rcases hn with hn | hn <;> rw [hn] <;> rfl
    have step := exec_getc_ready hr (State.regCheck_read kind (.inl hs))
    rw [if_neg (by rw [turn]; nofun)] at step
    exact ⟨_, step, askUnit_parks .., askUnit_ownReply ..⟩
  · intro hr hs hn
    have kind : regKind n.toNat = some .sup := by rcases hn with hn | hn | hn | hn | hn <;> rw [hn] <;> rfl
    have turn : inTurn n.toNat = false := by rcases hn with hn | hn | hn | hn | hn <;> rw [hn] <;> rfl
    rw [exec_setc_ready hr (State.regCheck_write (.inr ⟨kind, hs⟩)), if_neg (by rw [turn]; nofun)]
  · intro h
    obtain ⟨on, mem, site⟩ := goesOn_modSite h 8 (f := fun t => { t with ptRoot := w &&& ptRootMask }) (fun _ => rfl) (fun _ => rfl)
    exact ⟨_, registerWrite_pending h (by decide), on, mem, congrArg Site.ptRoot site⟩
  · intro h
    obtain ⟨on, mem, site⟩ := goesOn_modSite h 8 (f := fun t => { t with psaveDeadline := min 16000 (max 1 (w.toNat % 2 ^ 16)) }) (fun _ => rfl) (fun _ => rfl)
    exact ⟨_, registerWrite_pending h (by decide), on, mem, congrArg Site.psaveDeadline site⟩
  · intro h he
    obtain ⟨hst, -, hh⟩ := id h
    exact ⟨_, exec_slicePinWrite_ignored h he, State.completed_goesOn 8 hst hh, State.completed_mem .., State.completed_sites ..⟩
  · intro p hp hw
    refine ⟨_, exec_permitWrite w hc hi hp, rfl, rfl, fun q => ?_⟩
    rw [State.core_modCore, if_pos rfl, Core.permit_setPermit, Permit.write_first w hw]
    split_ifs with h
    · rw [h]
    · rfl
  · intro hs u hu hr hn
    obtain ⟨cycle, permits⟩ := u.core_coreCycle c
    exact ⟨_, exec_permitRefill hi hs hu hr hn, rfl, rfl, rfl, cycle, fun q => by rw [permits]; rfl⟩
  · intro s v hen h0 hp hx hf
    have due : (s.site v).wdDue = true := by simp [Site.wdDue, hen, h0.ne', hp]
    obtain ⟨t, step, mem, -, x, count, full⟩ := State.watchdogExpiry_effect due (.inr hf)
    exact ⟨t, by simp only [exec_eq_execWatchdogExpiry, execWatchdogExpiry, step]; rfl, x, count, full hx, mem⟩
  · intro s rx ry hx hy h
    refine ⟨_, exec_tick hx hy h, each_keeps State.mem (State.tickSite_keeps State.mem (fun _ _ _ => rfl) fun _ _ _ _ => rfl) ..,
      each_keeps State.strands (State.tickSite_keeps State.strands (fun _ _ _ => rfl) fun _ _ _ _ => rfl) .., fun v hv => ?_⟩
    rw [State.time_tickSites ((nodup_regionSites rx ry).filter _)]
    exact if_congr (by rw [List.mem_filter, and_iff_right hv]) rfl rfl

end Sys2Proof.Machine
end

section
/-! Wake-ups, messages and events: what they leave alone, for the work of the copy sequencer (R126, R165, R355, R356). -/

namespace Sys2Proof.Machine

open Sys2Proof Sys2Proof.Spec

/-! ## Changes of one strand -/

/-- t differs from s in strand k at most. -/
structure Touches (s t : State) (k : Nat) : Prop where
  mem : t.mem = s.mem
  cores : t.cores = s.cores
  sites : t.sites = s.sites
  cur : t.cur = s.cur
  instant : t.instant = s.instant
  strand : ∀ j, j ≠ k → t.strand j = s.strand j

theorem Touches.refl (s : State) (k : Nat) : Touches s s k := ⟨rfl, rfl, rfl, rfl, rfl, fun _ _ => rfl⟩

theorem Touches.trans {s t u : State} {k : Nat} (h : Touches s t k) (g : Touches t u k) : Touches s u k :=
  ⟨g.mem.trans h.mem, g.cores.trans h.cores, g.sites.trans h.sites, g.cur.trans h.cur, g.instant.trans h.instant,
    fun j hj => (g.strand j hj).trans (h.strand j hj)⟩

theorem Touches.setStrand (s : State) (k : Nat) (x : Strand) : Touches s (s.setStrand k x) k :=
  ⟨rfl, rfl, rfl, rfl, rfl, fun j hj => (s.strand_setStrand k j x).trans (if_neg hj)⟩

theorem Touches.modStrand (s : State) (k : Nat) (f : Strand → Strand) : Touches s (s.modStrand k f) k := .setStrand ..

theorem Touches.trapEntry (s : State) (k : Nat) (a : Addr) (n : Nat) : Touches s (s.trapEntry k a n) k := by
  unfold State.trapEntry
  exact .modStrand ..

theorem Touches.wake (s : State) (k : Nat) : Touches s (s.wake k) k := by
  obtain h | ⟨x, h⟩ := s.wake_cases k <;> rw [h]
  · exact .refl ..
  · exact .setStrand ..

theorem Touches.completed (s : State) (k n : Nat) : Touches s (s.completed k n) k := by
  unfold State.completed
  split_ifs
  · exact .trans (.modStrand ..) (.wake ..)
  · exact .refl ..

theorem Touches.wakeRelease (s : State) (k : Nat) (c : Cont) : Touches s (s.wakeRelease k c) k := by
  unfold State.wakeRelease
  dsimp only
  split_ifs
  · exact .trans (.wake ..) (.modStrand ..)
  · exact .wake ..

theorem Touches.settle (s : State) (k : Nat) : Touches s (s.settle k) k := by
  have some_ {p : Prop} [Decidable p] {t : State} (h : Touches s t k) : Touches s (if p then t else s) k := by
    split_ifs
    · exact h
    · exact .refl ..
  unfold State.settle
  dsimp only
  refine some_ ?_
  cases (s.strand k).cont with
  | granules l => dsimp only; rw [← ite_not]; exact some_ (.wake ..)
  | regs l => dsimp only; rw [← ite_not]; exact some_ (.wake ..)
  | release lo l => exact some_ (.wakeRelease ..)
  | ending => dsimp only; rw [← ite_not]; exact some_ (.wake ..)
  | entry f => exact some_ (.trapEntry ..)
  | done n => exact some_ (some_ (.completed ..))
  | reissue =>
    dsimp only
    split_ifs
    · exact .wake ..
    · exact .refl ..
    · exact .wake ..
    · exact .refl ..
    · exact .refl ..
  | _ => exact .refl ..

/-! ## Wake-ups, messages and events -/

/-- t follows s by wake-ups, messages and events: memory, cores, counters and every strand that is not parked are as they were. -/
structure Settled (s t : State) : Prop where
  mem : t.mem = s.mem
  cores : t.cores = s.cores
  cur : t.cur = s.cur
  instant : t.instant = s.instant
  tc : ∀ v, (t.site v).tc = (s.site v).tc
  strand : ∀ k, (s.strand k).st ≠ .parked → t.strand k = s.strand k

theorem Settled.refl (s : State) : Settled s s := ⟨rfl, rfl, rfl, rfl, fun _ => rfl, fun _ _ => rfl⟩

theorem Settled.trans {s t u : State} (h : Settled s t) (g : Settled t u) : Settled s u :=
  ⟨g.mem.trans h.mem, g.cores.trans h.cores, g.cur.trans h.cur, g.instant.trans h.instant, fun v => (g.tc v).trans (h.tc v),
    fun k hk => (g.strand k (by rwa [h.strand k hk])).trans (h.strand k hk)⟩

theorem Settled.each {α : Type} {f : State → α → State} (hf : ∀ s a, Settled s (f s a)) (l : List α) (s : State) : Settled s (Machine.each l f s) :=
  each_invariant (P := Settled s) (fun t a h => h.trans (hf t a)) l (.refl s)

theorem Settled.core {s t : State} (h : Settled s t) (c : Nat) : t.core c = s.core c := by rw [State.core, h.cores, State.core]

theorem Settled.ite {p : Prop} [Decidable p] {s t u : State} (h : Settled s t) (g : Settled s u) : Settled s (if p then t else u) := by
  split_ifs
  · exact h
  · exact g

/-- A change of a parked strand. -/
theorem Settled.touch {s t : State} {k : Nat} (h : Touches s t k) (hk : (s.strand k).st = .parked) : Settled s t :=
  ⟨h.mem, h.cores, h.cur, h.instant, fun v => by rw [State.site, h.sites, State.site], fun j hj => h.strand j fun e => hj (e ▸ hk)⟩

theorem Settled.of_rest {s t : State} (hm : t.mem = s.mem) (hc : t.cores = s.cores) (hk : t.cur = s.cur) (hi : t.instant = s.instant)
    (hv : t.sites = s.sites) (hs : t.strands = s.strands) : Settled s t :=
  ⟨hm, hc, hk, hi, fun v => by rw [State.site, hv, State.site], fun k _ => by rw [State.strand, hs, State.strand]⟩

theorem Settled.modSite (s : State) (v : Nat) {f : Site → Site} (hf : ∀ x, (f x).tc = x.tc) : Settled s (s.modSite v f) := by
  refine ⟨rfl, rfl, rfl, rfl, fun u => ?_, fun _ _ => rfl⟩
  rw [State.site_modSite]
  split_ifs with h
  · rw [hf, h]
  · rfl

theorem Settled.modGate (s : State) (v : Nat) (f : Gate → Gate) : Settled s (s.modGate v f) := .modSite s v fun _ => rfl

theorem Settled.post (s : State) (m : Msg) : Settled s (s.post m) := .of_rest rfl rfl rfl rfl rfl rfl

theorem Settled.raise (s : State) (v u sev code : Nat) (n : Option Nat) (a : Addr) : Settled s (s.raise v u sev code n a) :=
  .modSite s v (f := fun t => { t with evHolds := _, evSeq := _ }) fun _ => rfl

theorem Settled.wake (s : State) (k : Nat) : Settled s (s.wake k) := by
  by_cases h : (s.strand k).st = .parked
  · exact .touch (.wake s k) h
  · rw [State.wake, if_neg h]; exact .refl s

theorem Settled.completed (s : State) (k n : Nat) : Settled s (s.completed k n) := by
  by_cases h : (s.strand k).st = .parked
  · exact .touch (.completed s k n) h
  · rw [State.completed, if_neg h]; exact .refl s

theorem Settled.settle (s : State) (k : Nat) : Settled s (s.settle k) := by
  by_cases h : (s.strand k).st = .parked
  · exact .touch (.settle s k) h
  · rw [State.settle, if_neg h]; exact .refl s

theorem Settled.wakeMailbox (s : State) (c n : Nat) : Settled s (s.wakeMailbox c n) := .each (fun _ _ => .ite (.wake ..) (.refl _)) _ s

theorem Settled.wakeRecord (s : State) (c : Nat) : Settled s (s.wakeRecord c) := .ite (.ite (.wake ..) (.refl _)) (.refl _)

theorem Settled.reown (s : State) (v : Nat) (f : Owner → Owner) : Settled s (s.reown v f) :=
  .trans (t := { s with txns := s.txns.map fun (t : Txn) => { t with acc := { t.acc with owner := f t.acc.owner } } }) (.of_rest rfl rfl rfl rfl rfl rfl)
    (.modSite _ v (f := fun x => { x with port := x.port.map fun (q : PortReq) => { q with acc := { q.acc with owner := f q.acc.owner } } }) fun _ => rfl)

/-! ## Releases that are over (R113, R114, R155, R163) -/

theorem Settled.gangSaved (s : State) (g : Gang) : Settled s (s.gangSaved g) := .each (fun s _ => .modGate s _ _) _ s

theorem Settled.completionAdd (s : State) (v : Nat) (g : Gang) : Settled s (s.completionAdd v g) := by
  unfold State.completionAdd
  extract_lets mark
  have marked (t : State) : Settled t (mark t) := .modGate ..
  clear_value mark
  refine .ite (.modGate ..) ?_
  split
  · exact .trans (.raise ..) (.modGate ..)
  · exact (marked s).trans (.of_rest rfl rfl rfl rfl rfl rfl)

theorem Settled.finishRelease (s : State) (v : Nat) (r : Release) : Settled s (s.finishRelease v r) := by
  have erased : Settled s (s.modSite v fun x => { x with releases := x.releases.erase r }) := .modSite s v fun _ => rfl
  unfold State.finishRelease
  dsimp only
  refine .ite (.refl s) ?_
  split
  · exact .ite (.refl s) (erased.trans (.trans (.gangSaved ..) (.completionAdd ..)))
  · exact erased.trans (.gangSaved ..)
  · exact .ite (.refl s) (erased.trans (.trans (.raise ..) (.modGate ..)))

theorem Settled.releasesDone (s : State) (v : Nat) : Settled s (s.releasesDone v) := .each (fun s r => .finishRelease s v r) _ s

/-! ## Accesses on their way (R137) -/

theorem Settled.toPort (s : State) (v : Nat) (a : Acc) : Settled s (s.toPort v a) :=
  .trans (t := s.fresh.2) (.of_rest rfl rfl rfl rfl rfl rfl) (.modSite s.fresh.2 v (f := fun t => { t with port := t.port ++ [_] }) fun _ => rfl)

theorem Settled.sendAccess (s : State) (a : Acc) : Settled s (s.sendAccess a) := by
  unfold State.sendAccess
  refine .ite (.toPort ..) ?_
  split
  · exact .of_rest rfl rfl rfl rfl rfl rfl
  · exact .of_rest rfl rfl rfl rfl rfl rfl

end Sys2Proof.Machine
end

section
/-! Copies: `cpost`, `cquery` and `ccancel` (R352, R356). -/

namespace Sys2Proof.Machine

open Sys2Proof Sys2Proof.Spec

/-! ## Counted events leave what a core holds -/

theorem State.core_count_keeps {β : Type} (g : Core → β) (hg : ∀ x n m, g (x.tallied n m) = g x) (s : State) (d n m c : Nat) :
    g ((s.count d n m).core c) = g (s.core c) := by
  rw [State.count, State.core_modCore]
  split_ifs with h
  · rw [hg, h]
  · rfl

theorem State.core_copyRest_keeps {β : Type} (g : Core → β) (hg : ∀ x n m, g (x.tallied n m) = g x) (s : State) (d c : Nat) :
    g ((s.copyRest d).core c) = g (s.core c) := by
  unfold State.copyRest
  split_ifs
  · exact s.core_count_keeps g hg ..
  · rfl

/-- The copy strand's rest is counted, and nothing else. -/
theorem State.copyRest_keeps {β : Type} (g : State → β) (hg : ∀ (s : State) c n m, g (s.count c n m) = g s) (s : State) (c : Nat) :
    g (s.copyRest c) = g s := by
  unfold State.copyRest
  split_ifs
  · exact hg ..
  · rfl

/-! ## `cpost` (R352) -/

/-- The block that the issuing strand posts from an offset (R352). -/
def State.postedMail (s : State) (o seq : Nat) : Mail :=
  { off := o, slot := slotOf s.cur, entry := s.me.entry, pc := s.me.pc, segs := s.me.segs, sup := s.me.sup, launch := s.me.launch, gang := s.me.gang, seq }

section Post

variable {s : State} {a b : BitVec 8} (hr : Ready s [a, b])
include hr

theorem exec_cpost_number (hn : 3 < (s.val b).toNat) : exec (.cpost a b) s = .next (s.raiseFault s.cur .copyParameter) := by
  simp only [exec_eq_execCpost, execCpost]
  rw [State.issue_two hr, if_pos hn]

theorem exec_cpost_alignment (hn : (s.val b).toNat ≤ 3) (ho : (s.val a).toNat % 128 ≠ 0) :
    exec (.cpost a b) s = .next (s.raiseFault s.cur .alignment) := by
  simp only [exec_eq_execCpost, execCpost]
  rw [State.issue_two hr, if_neg hn.not_gt, if_pos ho]

theorem exec_cpost_range (hn : (s.val b).toNat ≤ 3) (ho : (s.val a).toNat % 128 = 0) (hb : storeBytes ≤ (s.val a).toNat) :
    exec (.cpost a b) s = .next (s.raiseFault s.cur .addressRange) := by
  simp only [exec_eq_execCpost, execCpost]
  rw [State.issue_two hr, if_neg hn.not_gt, if_neg (not_not.2 ho), if_pos hb]

/-- With nothing relaxed outstanding, a well-formed post finds its mailbox full or puts its block there. -/
theorem exec_cpost (hn : (s.val b).toNat ≤ 3) (ho : (s.val a).toNat % 128 = 0) (hb : (s.val a).toNat < storeBytes) (ht : s.me.tracker = []) :
    exec (.cpost a b) s = .next (if (Tab.find (s.val b).toNat (s.core (coreOfK s.cur)).mail).isSome
      then s.park s.cur .mailbox (.mailbox (s.val b).toNat)
      else (s.modCore (coreOfK s.cur) fun y =>
        { y with
          mail := Tab.put (s.val b).toNat (s.postedMail (s.val a).toNat y.mailSeq) y.mail
          mailSeq := y.mailSeq + 1
          posts := (s.me.entry, (s.val a).toNat, y.mailSeq) :: y.posts.filter fun p => !(p.1 == s.me.entry && p.2.1 == (s.val a).toNat) }).pass 4) := by
  simp only [exec_eq_execCpost, execCpost]
  rw [State.issue_two hr, if_neg hn.not_gt, if_neg (not_not.2 ho), if_neg hb.not_ge, if_neg (by rw [ht]; nofun)]
  rfl

end Post

theorem passes_pass {s t : State} (n : Nat) (h : t.me = s.me) : Passes s (t.pass n) n := by
  rw [Passes, State.pass, State.me_modStrand, h]

@[simp] theorem State.core_pass (s : State) (n c : Nat) : (s.pass n).core c = s.core c := rfl
@[simp] theorem State.mem_pass (s : State) (n : Nat) : (s.pass n).mem = s.mem := rfl

theorem ready_ne_parked {s : State} (hs : s.me.st = .ready) : (s.strand s.cur).st ≠ .parked := by
  rw [← State.me, hs]
  nofun

/-! ## `ccancel` (R356) -/

/-- A block that is taken back: it stands nowhere on its core, and only parked strands have changed. -/
theorem State.unpost_effect (s : State) (c : Nat) (m : Mail) :
    let t := s.unpost c m
    t.mem = s.mem ∧ t.cur = s.cur ∧ (∀ k, (s.strand k).st ≠ .parked → t.strand k = s.strand k) ∧
      (t.core c).mail = (s.core c).mail.filter (fun q => q.2 != m) ∧
      (t.core c).offered = (s.core c).offered.filter fun q => !(q.1.isNone && q.2 == m) := by
  let f (x : Core) : Core := { x with mail := x.mail.filter (fun q => q.2 != m), offered := x.offered.filter fun q => !(q.1.isNone && q.2 == m) }
  let u := (s.modCore c f).copyRest c
  have settled : Settled u (s.unpost c m) := .settle ..
  have core : (s.modCore c f).core c = f (s.core c) := (s.core_modCore ..).trans (if_pos rfl)
  have strands : u.strands = s.strands := State.copyRest_keeps State.strands (fun _ _ _ _ => rfl) ..
  refine ⟨settled.mem.trans (State.copyRest_keeps State.mem (fun _ _ _ _ => rfl) ..), settled.cur.trans (State.copyRest_keeps State.cur (fun _ _ _ _ => rfl) ..),
    fun k hk => ?_, ?_, ?_⟩
  · have same : u.strand k = s.strand k := by rw [State.strand, strands, State.strand]
    exact (settled.strand k (by rwa [same])).trans same
  · rw [settled.core, State.core_copyRest_keeps Core.mail (fun _ _ _ => rfl), core]
  · rw [settled.core, State.core_copyRest_keeps Core.offered (fun _ _ _ => rfl), core]

theorem Tab.mem_of_find {α : Type} {t : List (Nat × α)} {k : Nat} {x : α} (h : Tab.find k t = some x) : (k, x) ∈ t := by
  induction t with
  | nil => cases h
  | cons q t ih =>
    obtain ⟨j, y⟩ := q
    by_cases hj : j = k
    · simp_all [Tab.find]
    · exact List.mem_cons_of_mem _ (ih (by simpa [Tab.find, hj] using h))

/-- In a table with rising keys, a record that was found under its key is gone with its value. -/
theorem Tab.find_filter_value {α : Type} [BEq α] [LawfulBEq α] {t : List (Nat × α)} (hr : Rising t) {k : Nat} {x : α} (hx : (k, x) ∈ t) :
    Tab.find k (t.filter fun q => q.2 != x) = none := by
  rcases h : Tab.find k (t.filter fun q => q.2 != x) with _ | y
  · rfl
  · have mem := Tab.mem_of_find h
    obtain ⟨hy, ne⟩ := List.mem_filter.1 mem
    have same : y = x := by
      rw [← Tab.get_of_mem hr hy x, Tab.get_of_mem hr hx]
    simp [same] at ne

/-- A mailbox that a copy was named in holds the block. -/
theorem State.copyNamed_mailbox {s : State} {o n : Nat} {m : Mail} (h : s.copyNamed o = .mailbox n m) : (n, m) ∈ (s.core (coreOfK s.cur)).mail := by
  unfold State.copyNamed at h
  dsimp only at h
  split at h
  · cases h
  · split at h
    · cases h; exact List.mem_of_find?_eq_some ‹_›
    · split at h
      · cases h
      · split at h <;> cases h

/-- The copies of a core after a source phase is abandoned: each is as it was, but for its reads. -/
theorem State.abandon_effect (s : State) (c n : Nat) :
    let t := s.abandon c n
    t.mem = s.mem ∧ t.cur = s.cur ∧ (∀ k, (s.strand k).st ≠ .parked → t.strand k = s.strand k) ∧
      (t.core c).copies = ((s.core c).modCopy n fun q => { q with todo := [], reads := 0, buf := [], phase := .finished }).copies := by
  let mine (o : Owner) : Bool := match o with | .copyRead d m _ => d == c && m == n | _ => false
  let drop (x : Core) : Core := { x with replays := x.replays.filter fun r => !(r.accs.any (fun a => mine a.owner) || r.issued.any mine) }
  let u := s.disown (siteOfC c) mine
  let v := (u.modCore c drop).wakeRecord c
  have disowned : Settled s u := .reown ..
  have woken : Settled (u.modCore c drop) v := .wakeRecord ..
  have core : ((u.modCore c drop).core c).copies = (s.core c).copies := by rw [State.core_modCore, if_pos rfl, disowned.core]
  refine ⟨woken.mem.trans disowned.mem, woken.cur.trans disowned.cur, fun k hk => ?_, ?_⟩
  · exact (woken.strand k (by show (u.strand k).st ≠ _; rwa [disowned.strand k hk])).trans (disowned.strand k hk)
  · show ((v.modCore c _).core c).copies = _
    rw [State.core_modCore, if_pos rfl, Core.modCopy, Core.modCopy, woken.core, core]

section Cancel

variable {s : State} {a : BitVec 8} (hr : Ready s [a]) (hs : s.me.st = .ready)
include hr

theorem exec_ccancel_none (h : s.copyNamed (s.val a).toNat = .none) : exec (.ccancel a) s = .next (went s (s.me.pc + 4)) := by
  simp only [exec_eq_execCcancel, execCcancel]
  rw [State.issue_one hr, h, ← pass_eq_went]

include hs

/-- A block in a mailbox is taken back, and the mailbox is empty (R356). -/
theorem exec_ccancel_mailbox {n : Nat} {m : Mail} (h : s.copyNamed (s.val a).toNat = .mailbox n m) :
    ∃ t, exec (.ccancel a) s = .next t ∧ Passes s t 4 ∧ t.mem = s.mem ∧ (∀ p ∈ (t.core (coreOfK s.cur)).mail, p.2 ≠ m) ∧
      (Rising (s.core (coreOfK s.cur)).mail → Tab.find n (t.core (coreOfK s.cur)).mail = none) := by
  let c := coreOfK s.cur
  have step : exec (.ccancel a) s = .next (((s.unpost c m).wakeMailbox c n).pass 4) := by
    simp only [exec_eq_execCcancel, execCcancel]
    rw [State.issue_one hr, h]
  obtain ⟨mem, cur, strand, mail, -⟩ := s.unpost_effect c m
  have woken := Settled.wakeMailbox (s.unpost c m) c n
  have me : ((s.unpost c m).wakeMailbox c n).me = s.me := by
    have np := ready_ne_parked hs
    rw [State.me, woken.cur, cur, woken.strand _ (by rwa [strand _ np]), strand _ np, State.me]
  have left : ((((s.unpost c m).wakeMailbox c n).pass 4).core c).mail = (s.core c).mail.filter fun q => q.2 != m := by
    rw [State.core_pass, woken.core, mail]
  refine ⟨_, step, passes_pass 4 me, (State.mem_pass ..).trans (woken.mem.trans mem), fun p hp => ?_, fun rising => ?_⟩
  · rw [left] at hp
    simpa using (List.mem_filter.1 hp).2
  · rw [left]
    exact Tab.find_filter_value rising (State.copyNamed_mailbox h)

/-- A block offered to the sequencer is taken back (R356). -/
theorem exec_ccancel_offered {m : Mail} (h : s.copyNamed (s.val a).toNat = .offered m) :
    ∃ t, exec (.ccancel a) s = .next t ∧ Passes s t 4 ∧ t.mem = s.mem ∧ ∀ p ∈ (t.core (coreOfK s.cur)).offered, ¬(p.1 = none ∧ p.2 = m) := by
  let c := coreOfK s.cur
  have step : exec (.ccancel a) s = .next ((s.unpost c m).pass 4) := by
    simp only [exec_eq_execCcancel, execCcancel]
    rw [State.issue_one hr, h]
  obtain ⟨mem, cur, strand, -, offered⟩ := s.unpost_effect c m
  have me : (s.unpost c m).me = s.me := by rw [State.me, cur, strand _ (ready_ne_parked hs), State.me]
  refine ⟨_, step, passes_pass 4 me, (State.mem_pass ..).trans mem, fun p hp => ?_⟩
  rw [State.core_pass, offered] at hp
  rintro ⟨h1, h2⟩
  have out := (List.mem_filter.1 hp).2
  simp [h1, h2] at out

/-- The strand waits until a copy under way has stopped (R356). -/
theorem exec_ccancel_flight {q : Copy} (h : s.copyNamed (s.val a).toNat = .flight q) :
    ∃ t, exec (.ccancel a) s = .next t ∧ Parks s t .access (.copyStop q.n) ∧
      ∀ p ∈ (t.core (coreOfK s.cur)).copies, p.n = q.n → p.cancel = true := by
  let c := coreOfK s.cur
  let u := s.modCore c fun x => x.modCopy q.n fun q => { q with cancel := true }
  let v := if q.phase = .source then u.abandon c q.n else u
  have step : exec (.ccancel a) s = .next (v.park v.cur .access (.copyStop q.n)) := by
    simp only [exec_eq_execCcancel, execCcancel]
    rw [State.issue_one hr, h]
  have marked : ∀ p ∈ (u.core c).copies, p.n = q.n → p.cancel = true := by
    intro p hp hn
    rw [State.core_modCore, if_pos rfl] at hp
    obtain ⟨p, -, rfl⟩ := List.mem_map.1 hp
    split_ifs with same
    · rfl
    · exact absurd (by simpa only [if_neg same] using hn) same
  have stands : v.mem = s.mem ∧ v.me = s.me ∧ ∀ p ∈ (v.core c).copies, p.n = q.n → p.cancel = true := by
    by_cases source : q.phase = .source
    · obtain ⟨mem, cur, strand, copies⟩ := u.abandon_effect c q.n
      rw [show v = u.abandon c q.n from if_pos source]
      refine ⟨mem, ?_, fun p hp hn => ?_⟩
      · exact (congrArg _ cur).trans (strand _ (ready_ne_parked hs))
      · rw [copies] at hp
        obtain ⟨y, hy, rfl⟩ := List.mem_map.1 hp
        split_ifs with same
        · exact marked y hy same
        · exact marked y hy (by simpa only [if_neg same] using hn)
    · rw [show v = u from if_neg source]
      exact ⟨rfl, rfl, marked⟩
  obtain ⟨mem, me, all⟩ := stands
  refine ⟨_, step, ?_, fun p hp => all p ?_⟩
  · obtain ⟨st, why, cont, pc, regs, granules, pmem⟩ := park_parks v .access (.copyStop q.n)
    exact ⟨st, why, cont, by rw [pc, me], by rw [regs, me], by rw [granules, me], pmem.trans mem⟩
  · rwa [State.park, State.core_count_keeps Core.copies (fun _ _ _ => rfl)] at hp

end Cancel

/-! ## `cquery` (R356) -/

theorem cquery_gives (d a : BitVec 8) : Gives (.cquery d a) [d, a] d 4 (fun s => match s.copyNamed (s.val a).toNat with
    | .none => 0
    | .mailbox _ _ => 1
    | .offered _ => 1
    | .flight q => BitVec.ofNat 64 (q.completed * 2 ^ 32 + (if (s.core (coreOfK s.cur)).copyWaits q.n then 3 else 2))) :=
  compute_gives fun _ => rfl

end Sys2Proof.Machine
end

section
/-! Copies: the take of a block, and the end of a copy (R353-R356). -/

namespace Sys2Proof.Machine

open Sys2Proof Sys2Proof.Spec

/-! ## The take of a block (R353) -/

theorem State.flawed_nil {s : State} (h : s.flaws = []) (gs : List Nat) : s.flawed gs = [] := by
  rw [State.flawed, h]
  exact List.filterMap_eq_nil_iff.2 fun _ _ => rfl

theorem State.stalled_nil {s : State} (h : s.flaws = []) (v u : Nat) (gs : List Nat) : s.stalled v u gs = false := by
  rw [State.stalled, State.flawed_nil h]
  rfl

/-- An engine reads its store when the mode or the granules held allow it and nothing is struck. -/
theorem State.storeGet_good {s : State} (hf : s.flaws = []) (v u off n : Nat) (sup : Bool)
    (hh : sup = true ∨ ∀ g, off / 16384 ≤ g → g ≤ (off + n - 1) / 16384 → (s.site v).storeHeld u g = true) :
    s.storeGet v u off n sup = (.ok (Memory.readN s.mem (homeKey v u off) n), s) := by
  have held : (sup || (List.range ((off + n - 1) / 16384 + 1 - off / 16384)).all fun i => (s.site v).storeHeld u (off / 16384 + i)) = true := by
    rcases hh with hh | hh
    · rw [hh]; rfl
    · refine Bool.or_eq_true_iff.2 (.inr (List.all_eq_true.2 fun i hi => hh _ (Nat.le_add_right ..) ?_))
      have := List.mem_range.1 hi
      omega
  unfold State.storeGet
  simp only [held, State.inspectAll, State.flawed_nil hf]
  rfl

theorem State.wakeMailbox_keeps {β : Type} (g : State → β) (hg : ∀ (s : State) k x, g (s.setStrand k x) = g s) (s : State) (c n : Nat) :
    g (s.wakeMailbox c n) = g s := by
  refine each_keeps g (fun t k => ?_) ..
  split_ifs
  · exact State.wake_keeps g hg ..
  · rfl

/-- The state once the sequencer has the block: the permit is spent and the block's place is empty. -/
def State.blockTaken (s : State) (c : Nat) (box : Option Nat) : State :=
  let s := (s.takePermit c .memory).modCore c fun x =>
    { x with nextCopy := x.nextCopy + 1,
             offered := if box.isNone then x.offered.drop 1 else x.offered
             mail := (match box with | some n => Tab.del n x.mail | none => x.mail)
             lastMail := box.getD x.lastMail }
  match box with
  | some n => s.wakeMailbox c n
  | none => s

theorem State.takePermit_memory (s : State) (c : Nat) : s.takePermit c .memory =
    s.modCore c fun x => x.setPermit .memory { x.permit .memory with count := (x.permit .memory).count - 1 } := rfl

theorem State.blockTaken_keeps {β : Type} (g : State → β) (hg : ∀ (s : State) k x, g (s.setStrand k x) = g s)
    (hc : ∀ (s : State) c f, g (s.modCore c f) = g s) (s : State) (c : Nat) (box : Option Nat) : g (s.blockTaken c box) = g s := by
  have taken (f : Core → Core) : g ((s.takePermit c .memory).modCore c f) = g s := by
    rw [hc, State.takePermit_memory, hc]
  cases box with
  | none => unfold State.blockTaken; exact taken _
  | some n => exact (State.wakeMailbox_keeps g hg ..).trans (taken _)

theorem State.mail_blockTaken (s : State) (c n : Nat) : Tab.find n ((s.blockTaken c (some n)).core c).mail = none := by
  unfold State.blockTaken
  dsimp only
  rw [State.core, State.wakeMailbox_keeps State.cores (fun _ _ _ => rfl), ← State.core, State.core_modCore, if_pos rfl]
  exact (Tab.find_del ..).trans (if_pos rfl)

/-- The copy that the block of a mailbox or an offer starts. -/
def Mail.copy (m : Mail) (c n : Nat) (trig : Option Nat) (l : List Byte) : Copy :=
  { n, block := copyBlockOf l, segs := m.segs, pc := m.pc, k := slotKey c m.slot, entry := m.entry, trig,
    sup := m.sup, launch := m.launch, gang := m.gang, seq := m.seq }

/-- A copy joins those of its core. -/
def State.addCopy (s : State) (c : Nat) (q : Copy) : State := s.modCore c fun x => { x with copies := x.copies ++ [q] }

theorem State.mem_addCopy (s : State) (c : Nat) (q : Copy) : q ∈ ((s.addCopy c q).core c).copies := by
  rw [State.addCopy, State.core_modCore, if_pos rfl]
  exact List.mem_append_right _ (List.mem_singleton_self q)

/-- A fault that comes to a copy without one stays with it. -/
theorem State.mem_copyFault {s : State} {c : Nat} {q : Copy} (f : Late) (hq : q ∈ (s.core c).copies) (hf : q.fault = none) :
    { q with fault := some f, todo := [] } ∈ ((s.copyFault c q.n f).core c).copies := by
  rw [State.copyFault, State.core_modCore, if_pos rfl]
  exact List.mem_map.2 ⟨q, hq, by rw [if_pos rfl]; simp only [hf]; rfl⟩

section Take

variable {s : State} {c : Nat} {g : Option Nat} {m : Mail} {box : Option Nat} (hm : (s.core c).nextMail = some (g, m, box))
  (hs : (s.core c).sequencing = true) (hn : (s.core c).copies.length < 64) (hp : s.hasPermit c .memory = true) (hf : s.flaws = [])
  (hh : m.sup = true ∨ ∀ g, m.off / 16384 ≤ g → g ≤ (m.off + 127) / 16384 → (s.site (siteOfC c)).storeHeld (c % 16 / 4) g = true)
include hm hs hn hp hf hh

/-- The sequencer takes the next block: one that R353 rejects makes a copy with a fault, another a copy whose first chunk is to be read. -/
theorem exec_copyTake {l : List Byte} {q : Copy} {u : State} (hl : Memory.readN s.mem (homeKey (siteOfC c) (c % 16 / 4) m.off) 128 = l)
    (hq : m.copy c (s.core c).nextCopy g l = q) (hu : s.blockTaken c box = u) :
    exec (.copyTake c) s = .next (if copyRejected l then (u.addCopy c q).copyTrouble c q .copyParameter none 0
      else u.addCopy c { q with todo := q.block.chunkElems 0 }) := by
  subst hl hq hu
  let l := Memory.readN s.mem (homeKey (siteOfC c) (c % 16 / 4) m.off) 128
  have can : (s.core c).canTake = true := by simp [Core.canTake, hn, hm]
  have get : (s.blockTaken c box).storeGet (siteOfC c) (c % 16 / 4) m.off 128 m.sup = (.ok l, s.blockTaken c box) := by
    rw [State.storeGet_good ((State.blockTaken_keeps State.flaws (fun _ _ _ => rfl) (fun _ _ _ => rfl) ..).trans hf),
      State.blockTaken_keeps State.mem (fun _ _ _ => rfl) (fun _ _ _ => rfl)]
    rw [State.site, State.blockTaken_keeps State.sites (fun _ _ _ => rfl) (fun _ _ _ => rfl), ← State.site]
    exact hh
  simp only [exec_eq_execCopyTake, execCopyTake, State.copyTake, hm]
  rw [if_neg (by rw [hs, can]; decide), if_neg (by rw [hp]; decide), if_neg (by rw [State.stalled_nil hf]; nofun)]
  exact congrArg (fun r : Except Code (List Byte) × State =>
    let b := match r.1 with | .ok l => copyBlockOf l | .error _ => copyBlockOf []
    let q : Copy := { m.copy c (s.core c).nextCopy g l with block := b }
    due "COPY_TAKE" (some (match r.1 with
      | .error e => (r.2.addCopy c q).copyTrouble c q e (some (r.2.homeAddr (siteOfC c) (c % 16 / 4) m.off)) 0
      | .ok l => if copyRejected l then (r.2.addCopy c q).copyTrouble c q .copyParameter none 0 else r.2.addCopy c { q with todo := b.chunkElems 0 }))) get

end Take

/-! ## The end of a copy (R354-R356) -/

theorem Core.copy_filter (l : List Copy) (n : Nat) : (l.filter fun q => q.n != n).find? (fun q => q.n == n) = none := by
  rw [List.find?_eq_none]
  intro q hq
  simpa using (List.mem_filter.1 hq).2

/-- A copy that is gone leaves its record, and only parked strands go on. -/
theorem State.copyGone_effect (s : State) (c n k : Nat) :
    let t := s.copyGone c n k
    t.mem = s.mem ∧ t.instant = s.instant ∧ (∀ v i, t.tc v i = s.tc v i) ∧ (∀ j, (s.strand j).st ≠ .parked → t.strand j = s.strand j) ∧
      (t.core c).copy n = none := by
  let f (x : Core) : Core := { x with copies := x.copies.filter fun q => q.n != n }
  let u := (s.modCore c f).copyRest c
  have settled : Settled u (s.copyGone c n k) :=
    .trans (.trans (.each (fun _ _ => .ite (.completed ..) (.refl _)) _ _) (.settle ..)) (.releasesDone ..)
  have strands : u.strands = s.strands := State.copyRest_keeps State.strands (fun _ _ _ _ => rfl) ..
  have sites : u.sites = s.sites := State.copyRest_keeps State.sites (fun _ _ _ _ => rfl) ..
  refine ⟨settled.mem.trans (State.copyRest_keeps State.mem (fun _ _ _ _ => rfl) ..),
    settled.instant.trans (State.copyRest_keeps State.instant (fun _ _ _ _ => rfl) ..), fun v i => ?_, fun j hj => ?_, ?_⟩
  · rw [State.tc, settled.tc, State.site, sites, ← State.site, State.tc]
  · have same : u.strand j = s.strand j := by rw [State.strand, strands, State.strand]
    exact (settled.strand j (by rwa [same])).trans same
  · rw [settled.core, Core.copy, State.core_copyRest_keeps Core.copies (fun _ _ _ => rfl), State.core_modCore, if_pos rfl]
    exact Core.copy_filter ..

/-- An add outside an instant changes its counter, and wakes strands (R215-R217). -/
theorem State.addTc_effect {s : State} (hi : s.instant = none) (v n : Nat) (a : Word) :
    (s.addTc v n a).mem = s.mem ∧ (s.addTc v n a).cores = s.cores ∧ (s.addTc v n a).tc v n = s.tc v n + a := by
  let u := (s.putTc [(v, n, s.tc v n + a)]).modSite v fun t => t.testTrigs [n]
  have add : s.addTc v n a = u.wakeTc [(v, n, s.tc v n + a)] := by
    rw [State.addTc, hi]
    simp only [State.applyTc, List.map_cons, List.map_nil, List.filter_cons, List.filter_nil, List.eraseDups_cons, List.eraseDups_nil, each_cons, each_nil,
      beq_self_eq_true, if_true]
    rfl
  have wakes {β : Type} (g : State → β) (hg : ∀ (s : State) k x, g (s.setStrand k x) = g s) : g (u.wakeTc [(v, n, s.tc v n + a)]) = g u :=
    each_keeps g (fun _ _ => each_keeps g (fun _ _ => State.completed_keeps g hg ..) ..) ..
  rw [add]
  refine ⟨wakes State.mem fun _ _ _ => rfl, wakes State.cores fun _ _ _ => rfl, ?_⟩
  rw [State.tc, State.site, wakes State.sites fun _ _ _ => rfl, ← State.site]
  have put : (s.putTc [(v, n, s.tc v n + a)]) = s.modSite v fun t => { t with tc := Tab.put n (s.tc v n + a) t.tc } := rfl
  rw [show u = (s.putTc [(v, n, s.tc v n + a)]).modSite v fun t => t.testTrigs [n] from rfl, put, State.site_modSite, if_pos rfl, State.site_modSite, if_pos rfl]
  exact (Tab.get_put ..).trans (if_pos rfl)

theorem exec_copyComplete {s : State} {c n : Nat} {q : Copy} (hq : (s.core c).copy n = some q) (hp : q.phase = .finished) (hf : q.fault = none)
    (hw : ∀ w ∈ q.writes, w.2 = 0) (hi : s.instant = none) :
    ∃ t, exec (.copyComplete c n) s = .next t ∧ t.mem = s.mem ∧ (t.core c).copy n = none ∧
      t.tc (siteOfC c) q.block.ctr = s.tc (siteOfC c) q.block.ctr + (if q.block.ce = true ∧ q.cancel = false then 1 else 0) := by
  let u := s.copyGone c n q.k
  let w := if q.block.ce && !q.cancel then u.addTc (siteOfC c) q.block.ctr 1 else u
  let t := match q.trig with
    | some o => w.modOp (siteOfC c) o fun p => { p with done := true }
    | none => w
  have written : q.writes.all (fun w => w.2 == 0) = true := List.all_eq_true.2 fun w h => beq_iff_eq.2 (hw w h)
  have step : exec (.copyComplete c n) s = .next t := by
    simp only [exec_eq_execCopyComplete, execCopyComplete, State.copyComplete, hq]
    rw [if_pos ⟨hp, by rw [hf]; rfl, written⟩]
    rfl
  obtain ⟨mem, instant, tc, -, gone⟩ := s.copyGone_effect c n q.k
  have counted : w.mem = s.mem ∧ w.cores = u.cores ∧
      w.tc (siteOfC c) q.block.ctr = s.tc (siteOfC c) q.block.ctr + (if q.block.ce = true ∧ q.cancel = false then 1 else 0) := by
    by_cases add : q.block.ce = true ∧ q.cancel = false
    · obtain ⟨amem, acores, atc⟩ := State.addTc_effect (instant.trans hi) (siteOfC c) q.block.ctr 1
      rw [show w = u.addTc (siteOfC c) q.block.ctr 1 from if_pos (by simp [add]), if_pos add]
      exact ⟨amem.trans mem, acores, by rw [atc, tc]⟩
    · rw [show w = u from if_neg (by simpa using add), if_neg add]
      exact ⟨mem, rfl, by rw [tc]; exact (BitVec.add_zero _).symm⟩
  have ended : t.mem = w.mem ∧ t.cores = w.cores ∧ t.tc (siteOfC c) q.block.ctr = w.tc (siteOfC c) q.block.ctr := by
    rcases htrig : q.trig with _ | o
    · simp only [t, htrig, and_self]
    · refine ⟨by simp only [t, htrig]; rfl, by simp only [t, htrig]; rfl, ?_⟩
      simp only [t, htrig]
      rw [State.tc, State.modOp, State.site_modSite, if_pos rfl, State.tc]
  obtain ⟨wmem, wcores, wtc⟩ := counted
  obtain ⟨tmem, tcores, ttc⟩ := ended
  exact ⟨t, step, tmem.trans wmem, by rw [State.core, tcores, wcores]; exact gone, ttc.trans wtc⟩

section FaultDelivery

variable {s : State} {c n : Nat} {q : Copy} {f : Late} (hq : (s.core c).copy n = some q) (hf : q.fault = some f) (hr : q.reads = 0)
  (hw : ∀ w ∈ q.writes, w.2 = 0) (hp : (s.core c).replays = []) (ht : q.trig = none)
include hq hf hr hw hp ht

theorem exec_copyFaultDelivery {u : State} {x : Strand} (hu : s.dropReplays c (fun r => r.holdsCopy n) = u) (hx : u.strand q.k = x) :
    exec (.copyFaultDelivery c n) s = .next
      (if x.st ≠ .free ∧ x.entry = q.entry ∧ x.gang = q.gang ∧ x.launch = q.launch then (u.lateFault q.k f).copyGone c n q.k else u.copyGone c n q.k) := by
  have held (rd : Bool) : (s.core c).copyHeld n rd = 0 := by rw [Core.copyHeld, hp]; rfl
  have sum : (q.writes.map (·.2)).sum = 0 := List.sum_eq_zero fun x hx => by
    obtain ⟨w, hw', rfl⟩ := List.mem_map.1 hx
    exact hw w hw'
  simp only [exec_eq_execCopyFaultDelivery, execCopyFaultDelivery, State.copyFaultDelivery, hq, hf]
  rw [if_pos ⟨hr.trans (held true).symm, sum.trans (held false).symm⟩, ht, hu, hx]
  rfl

/-- The fault of a copy whose poster has gone reaches nobody, and that of a strand that runs is noted with it (R355). -/
theorem copyFaultDelivery_effect :
    let y := s.strand q.k
    (y.st = .free → ∃ t, exec (.copyFaultDelivery c n) s = .next t ∧ t.mem = s.mem ∧ (t.core c).copy n = none) ∧
    (y.st = .ready → y.entry = q.entry → y.gang = q.gang → y.launch = q.launch → ∃ t, exec (.copyFaultDelivery c n) s = .next t ∧ t.mem = s.mem ∧
      (t.core c).copy n = none ∧ t.strand q.k = { y with late := y.late ++ [f] }) := by
  intro y
  let d (x : Core) : Core := { x with replays := x.replays.filter fun r => !r.holdsCopy n }
  let u := s.dropReplays c fun r => r.holdsCopy n
  have dropped : Settled (s.modCore c d) u := .wakeRecord ..
  have same (h : y.st ≠ .parked) : u.strand q.k = y := dropped.strand q.k h
  refine ⟨fun hy => ?_, fun hy he hg hl => ?_⟩
  · have step := exec_copyFaultDelivery hq hf hr hw hp ht (u := u) rfl (same (by rw [hy]; nofun))
    rw [if_neg fun h => h.1 hy] at step
    obtain ⟨mem, -, -, -, gone⟩ := u.copyGone_effect c n q.k
    exact ⟨_, step, mem.trans dropped.mem, gone⟩
  · have x := same (by rw [hy]; nofun)
    have step := exec_copyFaultDelivery hq hf hr hw hp ht (u := u) rfl x
    have noted : u.lateFault q.k f = u.modStrand q.k fun x => { x with late := x.late ++ [f] } := by
      simp only [State.lateFault, x, hy]
    rw [if_pos ⟨by rw [hy]; nofun, he, hg, hl⟩, noted] at step
    obtain ⟨mem, -, -, strand, gone⟩ := (u.modStrand q.k fun x => { x with late := x.late ++ [f] }).copyGone_effect c n q.k
    have strand' : (u.modStrand q.k fun x => { x with late := x.late ++ [f] }).strand q.k = { y with late := y.late ++ [f] } := by
      rw [State.strand_modStrand, if_pos rfl, x]
    exact ⟨_, step, mem.trans dropped.mem, gone, (strand q.k (by rw [strand']; exact hy ▸ nofun)).trans strand'⟩

end FaultDelivery

end Sys2Proof.Machine
end

section
/-! Copies: the beats of the sequencer, and the obligation (R353-R356). -/

namespace Sys2Proof.Machine

open Sys2Proof Sys2Proof.Spec

/-! ## Accesses that enter the memory port (R137) -/

theorem State.port_toPort (s : State) (v w : Nat) (a : Acc) :
    ((s.toPort v a).site w).port = if w = v then (s.site v).port ++ [{ id := s.nextId, acc := a }] else (s.site w).port := by
  show ((s.fresh.2.modSite v fun t => { t with port := t.port ++ [{ id := s.nextId, acc := a }] }).site w).port = _
  rw [State.site_modSite]
  split_ifs <;> rfl

/-- What stands in a memory port stays there when an access is sent. -/
theorem State.port_sendAccess {s : State} {v : Nat} {p : PortReq} (a : Acc) (h : p ∈ (s.site v).port) : p ∈ ((s.sendAccess a).site v).port := by
  unfold State.sendAccess
  dsimp only
  split_ifs
  · rw [State.port_toPort]
    split_ifs with hv
    · exact List.mem_append_left _ (hv ▸ h)
    · exact h
  · split
    · exact h
    · exact h

theorem State.sendAccess_inPort (s : State) {a : Acc} (h : kindBits a.addr.toNat = 0) : ∃ p ∈ ((s.sendAccess a).site (siteOfK a.k)).port, p.acc = a := by
  unfold State.sendAccess
  rw [if_pos h, State.port_toPort, if_pos rfl]
  exact ⟨_, List.mem_append_right _ (List.mem_singleton_self _), rfl⟩

/-- Each access of a list that needs a translation stands in its memory port once all are sent. -/
theorem each_sendAccess_inPort {l : List Acc} {a : Acc} (ha : a ∈ l) (h : kindBits a.addr.toNat = 0) (s : State) :
    ∃ p ∈ ((each l State.sendAccess s).site (siteOfK a.k)).port, p.acc = a :=
  each_reaches (P := fun _ => True) (Q := fun s => ∃ p ∈ (s.site (siteOfK a.k)).port, p.acc = a) (fun _ _ _ => trivial)
    (fun _ b ⟨p, hp, e⟩ => ⟨p, State.port_sendAccess b hp, e⟩) (fun s _ => s.sendAccess_inPort h) ha trivial

/-- The start of its granule lies in the same unit as an address. -/
theorem kindBits_granule {a : Addr} (h : kindBits a.toNat = 0) : kindBits (BitVec.ofNat 60 (16 * (a.toNat / 16))).toNat = 0 := by
  have := a.isLt
  unfold kindBits at *
  rw [BitVec.toNat_ofNat]
  omega

/-! ## A beat (R353, R354) -/

theorem State.copyCheck_modCore (s : State) (d : Nat) (f : Core → Core) (c : Nat) (q : Copy) (dst : Bool) (e : Nat) :
    (s.modCore d f).copyCheck c q dst e = s.copyCheck c q dst e := rfl

/-- The elements of a beat with their addresses: those that lie in the 128-byte block of the first. -/
def State.beatElems (s : State) (c : Nat) (q : Copy) (dst : Bool) (a : Addr) : List (Nat × Nat) :=
  q.todo.filterMap fun e => (s.copyAddr c q dst e).bind fun p => if p / 128 = a.toNat / 128 then some (e, p) else none

/-- What a beat leaves of the elements still to be issued. -/
def Copy.afterBeat (q : Copy) (es : List (Nat × Nat)) : List Nat := q.todo.filter fun e => !es.any fun p => p.1 == e

section BeatOf

variable {s : State} {c : Nat} {q : Copy} {e : Nat} {rest : List Nat} {a : Addr} (ht : q.todo = e :: rest)
include ht

theorem State.first_mem_beatElems {dst : Bool} (hc : s.copyCheck c q dst e = .ok a) : (e, a.toNat) ∈ s.beatElems c q dst a :=
  List.mem_filterMap.2 ⟨e, by rw [ht]; exact List.mem_cons_self, by rw [State.copyAddr, hc]; exact if_pos rfl⟩

theorem State.first_notMem_afterBeat {dst : Bool} (hc : s.copyCheck c q dst e = .ok a) : e ∉ q.afterBeat (s.beatElems c q dst a) := by
  intro h
  have out := (List.mem_filter.1 h).2
  have first := List.any_eq_true (p := fun p => p.1 == e).2 ⟨_, State.first_mem_beatElems ht hc, beq_self_eq_true e⟩
  rw [first] at out
  cases out

theorem State.copyBeatOf_source (hp : q.phase = .source) (hc : s.copyCheck c q false e = .ok a) : s.copyBeatOf c q =
    each (State.copyReads c q (s.beatElems c q false a)) State.sendAccess (s.modCore c fun x => x.modCopy q.n fun p =>
      { p with todo := q.afterBeat (s.beatElems c q false a), reads := p.reads + (State.copyReads c q (s.beatElems c q false a)).length }) := by
  have dst : (q.phase == .dest) = false := by rw [hp]; rfl
  unfold State.copyBeatOf
  simp only [dst]
  rw [ht]
  simp only [hc, ← ht]
  rfl

theorem State.copyBeatOf_dest (hp : q.phase = .dest) (hc : s.copyCheck c q true e = .ok a) : s.copyBeatOf c q =
    each (State.copyWrites c q (s.beatElems c q true a)) State.sendAccess (s.modCore c fun x => x.modCopy q.n fun p =>
      ({ p with todo := q.afterBeat (s.beatElems c q true a), writes := Tab.put p.chunk (Tab.get 0 p.chunk p.writes +
        (State.copyWrites c q (s.beatElems c q true a)).length) p.writes }).nextChunk) := by
  have dst : (q.phase == .dest) = true := by rw [hp]; rfl
  unfold State.copyBeatOf
  simp only [dst]
  rw [ht]
  simp only [hc, ← ht]
  rfl

theorem State.copyBeatOf_error {x : Code} (hc : s.copyCheck c q (q.phase == .dest) e = .error (x, some a)) :
    ∃ kind, s.copyBeatOf c q = s.copyFault c q.n { code := x.num, addr := a, pc := q.pc, kind } := by
  unfold State.copyBeatOf
  simp only [ht, hc]
  exact ⟨_, rfl⟩

end BeatOf

/-- The reads of a beat hold one of the granule of each of its elements. -/
theorem mem_copyReads (c : Nat) (q : Copy) {es : List (Nat × Nat)} {e : Nat × Nat} (he : e ∈ es) :
    { q.acc 0x10 (.copyRead c q.n q.chunk) with addr := BitVec.ofNat 60 (16 * (e.2 / 16)), op := .read, size := 16 } ∈ State.copyReads c q es :=
  List.mem_map.2 ⟨e.2 / 16, List.mem_eraseDups.2 (List.mem_map_of_mem he), rfl⟩

/-- And so do the writes of a beat that reduces nothing. -/
theorem mem_copyWrites (c : Nat) {q : Copy} (hq : q.block.rop = 0) {es : List (Nat × Nat)} {e : Nat × Nat} (he : e ∈ es) :
    { q.acc 0x11 (.copyWrite c q.n q.chunk) with
      addr := BitVec.ofNat 60 (16 * (e.2 / 16)), op := if q.block.sf then .writeFull else .write, size := 16,
      data := (copyGranule q es (e.2 / 16)).1, en := (copyGranule q es (e.2 / 16)).2 } ∈ State.copyWrites c q es := by
  unfold State.copyWrites
  rw [if_pos hq]
  exact List.mem_map.2 ⟨e.2 / 16, List.mem_eraseDups.2 (List.mem_map_of_mem he), rfl⟩

theorem State.nextBeat_mem {s : State} {c : Nat} {q : Copy} (h : s.nextBeat c = some q) : q ∈ (s.core c).copies := by
  unfold State.nextBeat at h
  rcases Option.or_eq_some_iff.1 h with h | ⟨-, h⟩
  · exact (List.mem_filter.1 (List.mem_of_find?_eq_some h)).1
  · exact (List.mem_filter.1 (List.mem_of_mem_head? h)).1

/-- The state of a beat: the permit is spent and the round robin moves on. -/
def State.beatBegun (s : State) (c n : Nat) : State := (s.takePermit c .memory).modCore c fun y => { y with lastBeat := n }

theorem State.copyCheck_beatBegun (s : State) (c n : Nat) (q : Copy) (dst : Bool) (e : Nat) :
    (s.beatBegun c n).copyCheck c q dst e = s.copyCheck c q dst e := by
  rw [State.beatBegun, State.takePermit_memory, State.copyCheck_modCore, State.copyCheck_modCore]

theorem State.copies_beatBegun (s : State) (c n : Nat) : ((s.beatBegun c n).core c).copies = (s.core c).copies := by
  rw [State.beatBegun, State.takePermit_memory, State.core_modCore, if_pos rfl, State.core_modCore, if_pos rfl]
  rfl

section Beat

variable {s : State} {c : Nat} {q : Copy} {e : Nat} {rest : List Nat} {a : Addr} (hq : s.nextBeat c = some q) (hs : (s.core c).sequencing = true)
  (hn : (s.core c).canTake = false) (hp : s.hasPermit c .memory = true)
include hq hs hn hp

theorem exec_copyBeat : exec (.copyBeat c q.n) s = .next (((s.beatBegun c q.n).copyBeatOf c q).count c 0x016 1) := by
  simp only [exec_eq_execCopyBeat, execCopyBeat, State.copyBeat, hq]
  rw [if_neg (by rw [hs, hn]; simp), if_neg (by rw [hp]; decide)]
  rfl

variable (ht : q.todo = e :: rest)
include ht

/-- A source beat issues its first element, whose read of the granule goes to the memory port (R353). -/
theorem copyBeat_reads (hc : s.copyCheck c q false e = .ok a) (hph : q.phase = .source) :
    ∃ t, exec (.copyBeat c q.n) s = .next t ∧ t.mem = s.mem ∧ (∀ p ∈ (t.core c).copies, p.n = q.n → e ∉ p.todo) ∧
      (kindBits a.toNat = 0 → ∃ p ∈ (t.site (siteOfK q.k)).port,
        p.acc.addr = BitVec.ofNat 60 (16 * (a.toNat / 16)) ∧ p.acc.op = .read ∧ p.acc.owner = .copyRead c q.n q.chunk) := by
  let u := s.beatBegun c q.n
  have check : u.copyCheck c q false e = .ok a := (s.copyCheck_beatBegun ..).trans hc
  let es := u.beatElems c q false a
  let ms := State.copyReads c q es
  let w := u.modCore c fun x => x.modCopy q.n fun p => { p with todo := q.afterBeat es, reads := p.reads + ms.length }
  have sent : Settled w (each ms State.sendAccess w) := .each (fun _ _ => .sendAccess ..) ..
  have step : exec (.copyBeat c q.n) s = .next ((each ms State.sendAccess w).count c 0x016 1) := by
    rw [exec_copyBeat hq hs hn hp, State.copyBeatOf_source ht hph check]
  refine ⟨_, step, sent.mem, fun p hp' hpn => ?_, fun h0 => ?_⟩
  · rw [State.core_count_keeps Core.copies (fun _ _ _ => rfl), sent.core, State.core_modCore, if_pos rfl] at hp'
    obtain ⟨y, -, rfl⟩ := List.mem_map.1 hp'
    split_ifs with same
    · exact State.first_notMem_afterBeat ht check
    · exact absurd (by simpa only [if_neg same] using hpn) same
  · obtain ⟨p, hp', hacc⟩ := each_sendAccess_inPort (mem_copyReads c q (State.first_mem_beatElems ht check)) (kindBits_granule h0) w
    exact ⟨p, hp', by rw [hacc], by rw [hacc], by rw [hacc]; rfl⟩

/-- A destination beat that reduces nothing writes the granule of its first element (R354). -/
theorem copyBeat_writes (hc : s.copyCheck c q true e = .ok a) (hph : q.phase = .dest) :
    ∃ t, exec (.copyBeat c q.n) s = .next t ∧ t.mem = s.mem ∧ (q.block.rop = 0 → kindBits a.toNat = 0 → ∃ p ∈ (t.site (siteOfK q.k)).port,
      p.acc.addr = BitVec.ofNat 60 (16 * (a.toNat / 16)) ∧ p.acc.op = (if q.block.sf then .writeFull else .write) ∧
        p.acc.owner = .copyWrite c q.n q.chunk) := by
  let u := s.beatBegun c q.n
  have check : u.copyCheck c q true e = .ok a := (s.copyCheck_beatBegun ..).trans hc
  let es := u.beatElems c q true a
  let ms := State.copyWrites c q es
  let w := u.modCore c fun x => x.modCopy q.n fun p =>
    ({ p with todo := q.afterBeat es, writes := Tab.put p.chunk (Tab.get 0 p.chunk p.writes + ms.length) p.writes }).nextChunk
  have sent : Settled w (each ms State.sendAccess w) := .each (fun _ _ => .sendAccess ..) ..
  have step : exec (.copyBeat c q.n) s = .next ((each ms State.sendAccess w).count c 0x016 1) := by
    rw [exec_copyBeat hq hs hn hp, State.copyBeatOf_dest ht hph check]
  refine ⟨_, step, sent.mem, fun hrop h0 => ?_⟩
  obtain ⟨p, hp', hacc⟩ := each_sendAccess_inPort (mem_copyWrites c hrop (State.first_mem_beatElems ht check)) (kindBits_granule h0) w
  exact ⟨p, hp', by rw [hacc], by rw [hacc], by rw [hacc]; rfl⟩

/-- A check that fails with an address ends the copy on its fault (R355). -/
theorem copyBeat_faults {x : Code} (hc : s.copyCheck c q (q.phase == .dest) e = .error (x, some a)) (hf : q.fault = none) :
    ∃ t, exec (.copyBeat c q.n) s = .next t ∧ t.mem = s.mem ∧
      ∃ p ∈ (t.core c).copies, p.n = q.n ∧ ∃ f, p.fault = some f ∧ f.code = x.num ∧ f.addr = a ∧ f.pc = q.pc := by
  let u := s.beatBegun c q.n
  obtain ⟨kind, fault⟩ := State.copyBeatOf_error (s := u) ht ((s.copyCheck_beatBegun ..).trans hc)
  have step := exec_copyBeat hq hs hn hp
  rw [fault] at step
  have held : q ∈ (u.core c).copies := by rw [State.copies_beatBegun]; exact State.nextBeat_mem hq
  have faulted := State.mem_copyFault (s := u) (c := c) { code := x.num, addr := a, pc := q.pc, kind } held hf
  rw [← State.core_count_keeps Core.copies (fun _ _ _ => rfl) _ c 0x016 1] at faulted
  exact ⟨_, step, rfl, _, faulted, rfl, _, rfl, rfl, rfl, rfl⟩

end Beat

/-! ## What a take leaves (R353) -/

theorem State.copyTrouble_none (s : State) (c : Nat) (q : Copy) (e : Code) (kind : Nat) : s.copyTrouble c q e none kind =
    s.free.2.copyFault c q.n { code := e.num, addr := s.free.1.setWidth 60, pc := q.pc, kind } := rfl

theorem State.mail_addCopy (s : State) (c : Nat) (q : Copy) : ((s.addCopy c q).core c).mail = (s.core c).mail := by
  rw [State.addCopy, State.core_modCore, if_pos rfl]
theorem State.mail_copyFault (s : State) (c n : Nat) (f : Late) : ((s.copyFault c n f).core c).mail = (s.core c).mail := by
  rw [State.copyFault, State.core_modCore, if_pos rfl]
  rfl
theorem State.copyFault_mem (s : State) (c n : Nat) (f : Late) : (s.copyFault c n f).mem = s.mem := rfl
theorem State.free_addCopy_mem (s : State) (c : Nat) (q : Copy) : (s.addCopy c q).free.2.mem = s.mem := rfl

section Take

variable {s : State} {c : Nat} {g : Option Nat} {m : Mail} {box : Option Nat} (hm : (s.core c).nextMail = some (g, m, box))
  (hs : (s.core c).sequencing = true) (hn : (s.core c).copies.length < 64) (hp : s.hasPermit c .memory = true) (hf : s.flaws = [])
  (hh : m.sup = true ∨ ∀ g, m.off / 16384 ≤ g → g ≤ (m.off + 127) / 16384 → (s.site (siteOfC c)).storeHeld (c % 16 / 4) g = true)
include hm hs hn hp hf hh

theorem copyTake_effect :
    let l := Memory.readN s.mem (homeKey (siteOfC c) (c % 16 / 4) m.off) 128
    ∃ t, exec (.copyTake c) s = .next t ∧ t.mem = s.mem ∧ (∀ n, box = some n → Tab.find n (t.core c).mail = none) ∧
      ∃ q ∈ (t.core c).copies, q.n = (s.core c).nextCopy ∧ q.block = copyBlockOf l ∧ q.k = slotKey c m.slot ∧ q.segs = m.segs ∧
        (copyRejected l = true → ∃ f, q.fault = some f ∧ f.code = 0x16) ∧
        (copyRejected l = false → q.fault = none ∧ q.phase = .source ∧ q.chunk = 0 ∧ q.todo = List.range (min q.block.chunk q.block.elems)) := by
  intro l
  let u := s.blockTaken c box
  let q := m.copy c (s.core c).nextCopy g l
  have step := exec_copyTake hm hs hn hp hf hh (l := l) (q := q) (u := u) rfl rfl rfl
  have mem : u.mem = s.mem := State.blockTaken_keeps State.mem (fun _ _ _ => rfl) (fun _ _ _ => rfl) ..
  have emptied (q : Copy) (n : Nat) (hb : box = some n) : Tab.find n ((u.addCopy c q).core c).mail = none := by
    rw [State.mail_addCopy, show u = s.blockTaken c (some n) by simp only [u, hb]]
    exact State.mail_blockTaken s c n
  by_cases rejected : copyRejected l = true
  · let f : Late := { code := Code.copyParameter.num, addr := (u.addCopy c q).free.1.setWidth 60, pc := q.pc, kind := 0 }
    rw [if_pos rejected, State.copyTrouble_none] at step
    have faulted := State.mem_copyFault (s := (u.addCopy c q).free.2) (c := c) f (State.mem_addCopy u c q) rfl
    refine ⟨_, step, ?_, fun n hb => ?_, _, faulted, rfl, rfl, rfl, rfl, fun _ => ⟨f, rfl, rfl⟩, fun h => absurd rejected (by rw [h]; nofun)⟩
    · rw [State.copyFault_mem, State.free_addCopy_mem, mem]
    · rw [State.mail_copyFault]
      exact emptied q n hb
  · rw [if_neg rejected] at step
    refine ⟨_, step, mem, emptied _, _, State.mem_addCopy .., rfl, rfl, rfl, rfl, fun h => absurd h rejected, fun _ => ⟨rfl, rfl, rfl, ?_⟩⟩
    simp [CopyBlock.chunkElems]

end Take

/-! ## The obligation -/

/-- Settles O51, instruction by instruction and step by step of the sequencer. -/
theorem copies : Obligations.Copies := by
  unfold Obligations.Copies
  refine ⟨fun a b s hr => ⟨exec_cpost_number hr, exec_cpost_alignment hr, exec_cpost_range hr, fun hn ho hb ht => ⟨fun m hm => ?_, fun hm => ?_⟩⟩,
    cquery_gives, fun a s hr hs => ⟨exec_ccancel_none hr, fun n m => exec_ccancel_mailbox hr hs, fun m => exec_ccancel_offered hr hs,
      fun q => exec_ccancel_flight hr hs⟩, fun s c g m box hm hs hn hp hf hh => ?_, fun s c q e rest a hq hs hn hp ht => ?_,
    fun s c n q hq hp hf hw hi => exec_copyComplete hq hp hf hw hi, fun s c n q f hq hf hr hw hp ht _ => copyFaultDelivery_effect hq hf hr hw hp ht⟩
  · have step := exec_cpost hr hn ho hb ht
    rw [if_pos (by rw [hm]; rfl)] at step
    exact ⟨_, step, park_parks ..⟩
  · have step := exec_cpost hr hn ho hb ht
    rw [if_neg (by rw [hm]; nofun)] at step
    refine ⟨_, s.postedMail (s.val a).toNat (s.core (coreOfK s.cur)).mailSeq, step, passes_pass 4 rfl, rfl, ?_, rfl, rfl, rfl, rfl⟩
    rw [State.core_pass, State.core_modCore, if_pos rfl]
    exact Tab.find_put_self ..
  · exact copyTake_effect hm hs hn hp hf hh
  · exact ⟨copyBeat_reads hq hs hn hp ht, copyBeat_writes hq hs hn hp ht, fun x => copyBeat_faults hq hs hn hp ht⟩

end Sys2Proof.Machine
end

section
/-! Bring-up: power, reset, isolation, the reference, links and hellos (R65, R66, R400, R408, R415-R417). -/

namespace Sys2Proof.Machine

open Sys2Proof Sys2Proof.Spec

/-- A change of a site depends on the site as it stands. -/
theorem State.modSite_congr {s : State} {v : Nat} {f g : Site → Site} (h : f (s.site v) = g (s.site v)) : s.modSite v f = s.modSite v g :=
  congrArg (s.setSite v) h

/-! ## States (R66, R415) -/

theorem State.move_entered {s : State} {v : Nat} {a : SiteState} (hk : siteKey v = true) (h : (s.site v).state = a) (b : SiteState) :
    s.move v a b = some (s.modSite v fun t => { t with prev := a, state := b }) := by
  rw [State.move, if_pos ⟨hk, h⟩]
  exact congrArg some (State.modSite_congr (by rw [← h]; rfl))

theorem State.site_enter (s : State) (v : Nat) (n : SiteState) : (s.enter v n).site v = (s.site v).enter n := (s.site_modSite ..).trans (if_pos rfl)

/-! ## What a link that goes down leaves alone (R408) -/

section Keeps

variable {β : Type} (g : State → β) (hs : ∀ (s : State) v x, g (s.setSite v x) = g s) (hn : ∀ (s : State) n i, g { s with net := n, nextId := i } = g s)
include hs hn

theorem State.unsent_keeps (s : State) (v u : Nat) (m : Msg) : g (s.unsent v u m) = g s := by
  unfold State.unsent
  dsimp only
  split
  · exact State.post_keeps g hn ..
  · split_ifs
    · exact State.post_keeps g hn ..
    · exact hs ..

theorem State.endDown_keeps (s : State) (v d : Nat) (x : Mesh) : g (s.endDown v d x) = g s := by
  unfold State.endDown
  dsimp only
  refine (each_keeps g (fun t f => ?_) _ _).trans ((hn ..).trans (hs ..))
  split
  · exact State.unsent_keeps g hs hn ..
  · split_ifs
    · exact State.unsent_keeps g hs hn ..
    · exact hs ..

theorem State.linkDown_keeps (s : State) (v d : Nat) (x : Mesh) : g (s.linkDown v d x) = g s := by
  unfold State.linkDown State.dropLink
  split
  · exact hs ..
  · exact (State.endDown_keeps g hs hn ..).trans ((State.endDown_keeps g hs hn ..).trans (hs ..))

theorem State.isolate_keeps (s : State) (v : Nat) : g (s.isolate v) = g s := by
  unfold State.isolate
  refine (hs ..).trans (each_keeps g (fun t d => each_keeps g (fun t x => ?_) _ _) _ _)
  split
  · exact State.linkDown_keeps g hs hn ..
  · rfl

omit hn in
theorem State.forgetRegion_keeps (s : State) (v : Nat) : g (s.forgetRegion v) = g s := by
  unfold State.forgetRegion
  split_ifs
  · rfl
  · exact each_keeps g (fun _ _ => each_keeps g (fun _ _ => hs ..) _ _) _ _

end Keeps

/-- An isolated site: its links are down, and memory is as it was (R416). -/
theorem State.isolate_effect (s : State) (v : Nat) : (s.isolate v).mem = s.mem ∧ ((s.isolate v).site v).state = .isolated := by
  refine ⟨State.isolate_keeps State.mem (fun _ _ _ => rfl) (fun _ _ _ => rfl) .., ?_⟩
  unfold State.isolate
  dsimp only
  rw [State.site_enter]
  rfl

theorem exec_listenTimeout_isolates {s : State} {v : Nat} (hk : siteKey v = true) (h : (s.site v).state = .listen) (hv : kindOf v ≠ .gatehouse)
    (hr : s.noReference v = true) (hd : s.downStalls v = false) : exec (.listenTimeout v) s = .next (s.isolate v) := by
  simp only [exec_eq_execListenTimeout, execListenTimeout, State.listenTimeout]
  rw [if_neg (by rw [hk, h]; simp), if_neg hv, if_pos ⟨hr, by rw [hd]; rfl⟩]
  rfl

theorem exec_listenTimeout_fails {s : State} {v : Nat} (hk : siteKey v = true) (h : (s.site v).state = .listen) (hv : kindOf v = .gatehouse) :
    exec (.listenTimeout v) s = .next (s.modSite v fun t => { t with prev := .listen, state := .failed }) := by
  have entered : s.enter v .failed = s.modSite v fun t => { t with prev := .listen, state := .failed } := State.modSite_congr (by rw [← h]; rfl)
  simp only [exec_eq_execListenTimeout, execListenTimeout, State.listenTimeout]
  rw [if_neg (by rw [hk, h]; simp), if_pos hv, entered]
  rfl

theorem exec_cfgIsolate {s : State} {v : Nat} (hk : siteKey v = true) (h : (s.site v).state ≠ .cold) (hd : s.downStalls v = false) :
    ∃ t, exec (.cfgIsolate v) s = .next t ∧ t.mem = s.mem ∧ (t.site v).state = .isolated := by
  have step : exec (.cfgIsolate v) s = .next (s.cfgIsolate v) := by
    simp only [exec_eq_execCfgIsolate, execCfgIsolate]
    rw [if_pos ⟨hk, h, by rw [hd]; rfl⟩]
    rfl
  refine ⟨_, step, ?_⟩
  unfold State.cfgIsolate
  by_cases already : (s.site v).state = .isolated
  · rw [if_pos (.inr already)]
    exact ⟨rfl, already⟩
  · rw [if_neg (not_or.2 ⟨h, already⟩)]
    exact s.isolate_effect v

/-- A site that forgets an offset it has not got stays as it is. -/
theorem State.forgetRegion_cold {s : State} {v : Nat} {p : SiteState} (h : s.site v = { prev := p }) : (s.forgetRegion v).site v = { prev := p } := by
  unfold State.forgetRegion
  split_ifs
  · exact h
  · refine each_invariant (P := fun t => t.site v = { prev := p }) (fun t d ht => each_invariant (P := fun t => t.site v = { prev := p }) (fun t w ht => ?_) _ ht) _ h
    rw [State.site_modSite, ht]
    split_ifs with hw
    · rw [← hw, ht]; rfl
    · rfl

/-- A reset site: its registers and its strands are as at power-up, and those of other sites as they were (R415, log 38). -/
theorem exec_moduleReset {s : State} {v : Nat} (hk : siteKey v = true) :
    ∃ t, exec (.moduleReset v) s = .next t ∧ t.mem = s.mem ∧ t.site v = { prev := (s.site v).state } ∧
      (∀ k, siteOfK k = v → t.strand k = {}) ∧ ∀ k, siteOfK k ≠ v → t.strand k = s.strand k := by
  have step : exec (.moduleReset v) s = .next (s.coldSite v) := by
    simp only [exec_eq_execModuleReset, execModuleReset]
    rw [if_pos hk]
    rfl
  have down {β : Type} (g : State → β) (hs : ∀ (s : State) v x, g (s.setSite v x) = g s) (hn : ∀ (s : State) n i, g { s with net := n, nextId := i } = g s)
      (t : State) (d : Nat) : g (match neighbour v d with
        | some w => each [Mesh.oak, .ash] (fun s x =>
            let l := (s.site w).link (opposite d) x
            (if l.up then s.endDown w (opposite d) x else s).modLink w (opposite d) x fun _ => { dead := l.dead }) t
        | none => t) = g t := by
    split
    · refine each_keeps g (fun t x => (hs ..).trans ?_) _ _
      split_ifs
      · exact State.endDown_keeps g hs hn ..
      · rfl
    · rfl
  have strands : (s.coldSite v).strands = s.strands.filter fun q => siteOfK q.1 != v := by
    refine (State.forgetRegion_keeps State.strands (fun _ _ _ => rfl) ..).trans (congrArg (List.filter _) ?_)
    exact each_keeps State.strands (down State.strands (fun _ _ _ => rfl) fun _ _ _ => rfl) _ _
  refine ⟨_, step, ?_, State.forgetRegion_cold (by rw [State.site_setSite, if_pos rfl]), fun k hkv => ?_, fun k hkv => ?_⟩
  · refine (State.forgetRegion_keeps State.mem (fun _ _ _ => rfl) ..).trans ?_
    exact each_keeps State.mem (down State.mem (fun _ _ _ => rfl) fun _ _ _ => rfl) _ _
  · rw [State.strand, strands, Tab.get, Tab.find_filter (fun k => siteOfK k != v), if_neg (by simp [hkv])]
    rfl
  · rw [State.strand, strands, Tab.get, Tab.find_filter (fun k => siteOfK k != v), if_pos (by simp [hkv])]
    rfl

/-! ## The reference (R65, R415) -/

theorem Site.leaveLock_cases (t : Site) : t.leaveLock = t ∨ t.state = .lock ∧ t.leaveLock = t.enter .test := by
  unfold Site.leaveLock
  split
  · split_ifs
    · exact .inr ⟨‹_›, rfl⟩
    · exact .inl rfl
  · exact .inl rfl

/-- Leaving LOCK changes the state of the site and the one before it. -/
theorem Site.leaveLock_keeps {β : Type} (g : Site → β) (hg : ∀ t n, g (Site.enter t n) = g t) (t : Site) : g t.leaveLock = g t := by
  rcases t.leaveLock_cases with h | ⟨-, h⟩ <;> rw [h]
  exact hg ..

theorem exec_referenceLock {s : State} {v d w : Nat} (hw : neighbour v d = some w) (hs : (s.site v).state = .listen) (hv : kindOf v ≠ .gatehouse)
    (hu : (s.site v).meshUp d ≠ none) (hc : (s.site w).clocked = true) :
    ∃ t, exec (.referenceLock v d) s = .next t ∧ t.mem = s.mem ∧ (t.site v).upstream = some d ∧ (t.site v).time = s.regionTime v ∧
      (t.site v).state = if (s.site v).met d then .test else .lock := by
  let locked : Site := { s.site v with upstream := some d, time := s.regionTime v, timeOffset := s.regionOffsets v }.enter .lock
  have step : exec (.referenceLock v d) s = .next (s.setSite v locked.leaveLock) := by
    simp only [exec_eq_execReferenceLock, execReferenceLock, State.referenceLock, hw]
    rw [if_pos ⟨hs, hv, Option.isSome_iff_ne_none.2 hu, hc⟩]
    rfl
  refine ⟨_, step, rfl, ?_, ?_, ?_⟩ <;> rw [State.site_setSite, if_pos rfl]
  · exact Site.leaveLock_keeps Site.upstream (fun _ _ => rfl) _
  · exact Site.leaveLock_keeps Site.time (fun _ _ => rfl) _
  · have left : locked.leaveLock = if (s.site v).met d then locked.enter .test else locked := rfl
    rw [left]
    split_ifs <;> rfl

theorem exec_gatehouseReferenceStable {s : State} {v : Nat} (hs : (s.site v).state = .listen) (hv : kindOf v = .gatehouse) :
    ∃ t, exec (.gatehouseReferenceStable v) s = .next t ∧ t.mem = s.mem ∧ (t.site v).state = .test ∧ (t.site v).coord = some (xOf v, yOf v) := by
  let stable : Site := ({ s.site v with coord := some (xOf v, yOf v), time := s.regionTime v, timeOffset := s.regionOffsets v }.enter .lock).enter .test
  have step : exec (.gatehouseReferenceStable v) s = .next (s.setSite v stable) := by
    simp only [exec_eq_execGatehouseReferenceStable, execGatehouseReferenceStable, State.gateStable]
    rw [if_pos ⟨hs, hv⟩]
    rfl
  exact ⟨_, step, rfl, by rw [State.site_setSite, if_pos rfl]; rfl, by rw [State.site_setSite, if_pos rfl]; rfl⟩

/-! ## Links and hellos (R400, R405, R417) -/

theorem State.link_modLink (s : State) (v d : Nat) (x : Mesh) (f : Link → Link) : ((s.modLink v d x f).site v).link d x = f ((s.site v).link d x) := by
  rw [State.modLink, State.site_modSite, if_pos rfl]
  exact (Tab.get_put ..).trans (if_pos rfl)

/-- A link brought up stays up when another end is. -/
theorem State.up_modLink_start {s : State} {v d : Nat} {x : Mesh} (h : ((s.site v).link d x).up = true) (w e : Nat) :
    (((s.modLink w e x Link.start).site v).link d x).up = true := by
  rw [State.modLink, State.site_modSite]
  split_ifs with hw
  · rw [Site.link, Tab.get_put]
    split_ifs
    · rfl
    · exact hw ▸ h
  · exact h

theorem State.sendHello_keeps {β : Type} (g : State → β) (hn : ∀ (s : State) n i, g { s with net := n, nextId := i } = g s) (s : State) (v d : Nat) (x : Mesh) :
    g (s.sendHello v d x) = g s := by
  unfold State.sendHello
  split
  · rfl
  · exact State.post_keeps g hn ..

theorem exec_linkInitComplete {s : State} {v d w : Nat} (hw : neighbour v d = some w) (x : Mesh) (hu : ((s.site v).link d x).up = false)
    (hd : ((s.site v).link d x).dead = false) (he : ((s.site w).link (opposite d) x).dead = false) (hv : (s.site v).wired = true)
    (hww : (s.site w).wired = true) (hc : ((s.site v).clocked || (s.site w).clocked) = true) :
    ∃ t, exec (.linkInitComplete v d x) s = .next t ∧ t.mem = s.mem ∧ ((t.site v).link d x).up = true ∧ ((t.site w).link (opposite d) x).up = true := by
  let u := (s.modLink v d x Link.start).modLink w (opposite d) x Link.start
  have step : exec (.linkInitComplete v d x) s = .next ((u.sendHello v d x).sendHello w (opposite d) x) := by
    simp only [exec_eq_execLinkInitComplete, execLinkInitComplete, State.linkInit, hw]
    rw [if_neg (by rw [hu, hd, he, hv, hww, hc]; decide)]
    rfl
  have sent {β : Type} (g : State → β) (hn : ∀ (s : State) n i, g { s with net := n, nextId := i } = g s) :
      g ((u.sendHello v d x).sendHello w (opposite d) x) = g u := (State.sendHello_keeps g hn ..).trans (State.sendHello_keeps g hn ..)
  refine ⟨_, step, sent State.mem fun _ _ _ => rfl, ?_, ?_⟩ <;> rw [State.site, sent State.sites fun _ _ _ => rfl, ← State.site]
  · exact State.up_modLink_start (by rw [State.link_modLink]; rfl) ..
  · rw [State.link_modLink]; rfl

theorem exec_helloResend {s : State} {v d w : Nat} (hw : neighbour v d = some w) (x : Mesh) (hu : ((s.site v).link d x).up = true)
    (hg : ((s.site v).link d x).helloGot = false) :
    ∃ t, exec (.helloResend v d x) s = .next t ∧ t.mem = s.mem ∧
      ∃ q ∈ t.net, q.src = v ∧ q.dst = w ∧ q.op = .hello (kindNo v) ((s.coord v).getD (0, 0)).2 ((s.coord v).getD (0, 0)).1 (s.coord v).isSome := by
  have step : exec (.helloResend v d x) s = .next (s.sendHello v d x) := by
    simp only [exec_eq_execHelloResend, execHelloResend]
    rw [if_pos ⟨hu, by rw [hg]; rfl⟩]
    rfl
  refine ⟨_, step, State.sendHello_keeps State.mem (fun _ _ _ => rfl) .., ?_⟩
  simp only [State.sendHello, hw]
  exact ⟨_, List.mem_append_right _ (List.mem_singleton_self _), rfl, rfl, rfl⟩

end Sys2Proof.Machine
end

section
/-! Bring-up: hellos that arrive, the self test, the image and the quote (R88, R415, R417-R419, R431, R432, R435). -/

namespace Sys2Proof.Machine

open Sys2Proof Sys2Proof.Spec

/-! ## A hello that arrives (R417) -/

/-- What a hello implies clashes with the coordinates that its receiver holds, or lies off the grid. -/
def State.helloClashes (s : State) (v d y x : Nat) (valid : Bool) : Bool :=
  valid && (match s.knownCoord v with | some c => decide (implied d x y ≠ some c) | none => (implied d x y).isNone)

/-- The receiver of a hello has noted it: the link and the peer. -/
def State.helloNoted (s : State) (n v d : Nat) (p : Mesh) (peer : Peer) : State :=
  ((s.consume n).modLink v d p fun l => { l with helloGot := true }).modSite v fun t => { t with peers := Tab.put d peer t.peers }

theorem State.site_helloNoted (s : State) (n v d : Nat) (p : Mesh) (peer : Peer) : ∃ l,
    (s.helloNoted n v d p peer).site v = { s.site v with links := l, peers := Tab.put d peer (s.site v).peers } ∧
      (((s.helloNoted n v d p peer).site v).link d p).helloGot = true := by
  obtain ⟨l, consumed⟩ := s.site_consume_links n v
  have noted : (s.helloNoted n v d p peer).site v = { s.site v with
      links := Tab.put (linkKey d p) { ((s.consume n).site v).link d p with helloGot := true } l, peers := Tab.put d peer (s.site v).peers } := by
    rw [State.helloNoted, State.site_modSite, if_pos rfl, State.modLink, State.site_modSite, if_pos rfl, consumed]
  refine ⟨_, noted, ?_⟩
  rw [noted, Site.link, Tab.get_put, if_pos rfl]

theorem State.mem_helloNoted (s : State) (n v d : Nat) (p : Mesh) (peer : Peer) : (s.helloNoted n v d p peer).mem = s.mem := State.consume_mem ..

section Hello

variable {s : State} {n kind y x : Nat} {valid : Bool} {m : Msg} {p : Mesh} (ha : s.arriving n = some m) (hop : m.op = .hello kind y x valid)
  (hp : m.mesh = some p)
include ha hop hp

theorem exec_reqHello {u : State} {clash : Bool} (hu : s.helloNoted n m.dst m.edge p { valid, kind, y, x } = u)
    (hc : s.helloClashes m.dst m.edge y x valid = clash) (hh : clash = true → s.holdFull m.dst 15 = false) :
    exec (.reqHello n) s = .next ((if clash then (if valid && (u.knownCoord m.dst).isNone && !(u.site m.dst).conflict
          then u.modSite m.dst fun t => { t with coord := implied m.edge x y, coordNow := u.instant.isSome } else u).coordConflict m.dst
        else if valid && (u.knownCoord m.dst).isNone && !(u.site m.dst).conflict
          then u.modSite m.dst fun t => { t with coord := implied m.edge x y, coordNow := u.instant.isSome } else u).modSite m.dst Site.leaveLock) := by
  subst hu hc
  simp only [exec_eq_execReqHello, execReqHello, State.helloArrives, ha, hop, hp]
  rw [if_neg]
  · rfl
  · intro h
    obtain ⟨clash, full⟩ := Bool.and_eq_true_iff.1 h
    rw [hh clash] at full
    cases full

end Hello

/-- A site whose links and peers are those that a hello left has met its sender. -/
theorem met_of_site {s t u : State} {n v d : Nat} {p : Mesh} {peer : Peer} {z : Site} (hu : s.helloNoted n v d p peer = u) (hm : t.mem = u.mem)
    (ht : t.site v = z.leaveLock) (hl : z.links = (u.site v).links) (hz : z.peers = (u.site v).peers) :
    t.mem = s.mem ∧ ((t.site v).link d p).helloGot = true ∧ Tab.find d (t.site v).peers = some peer := by
  subst hu
  obtain ⟨l, site, got⟩ := s.site_helloNoted n v d p peer
  refine ⟨hm.trans (s.mem_helloNoted ..), ?_, ?_⟩
  · rw [ht, Site.link, Site.leaveLock_keeps Site.links (fun _ _ => rfl), hl]
    exact got
  · rw [ht, Site.leaveLock_keeps Site.peers (fun _ _ => rfl), hz, site]
    exact Tab.find_put_self ..

section HelloCases

variable {s : State} {n kind y x : Nat} {valid : Bool} {m : Msg} {p : Mesh} (ha : s.arriving n = some m) (hop : m.op = .hello kind y x valid)
  (hp : m.mesh = some p)
include ha hop hp

/-- A hello without coordinates is noted, and the coordinates of the site stay. -/
theorem reqHello_plain (hc : s.helloClashes m.dst m.edge y x valid = false) (hk : valid = true → (s.knownCoord m.dst).isSome = true) :
    ∃ t, exec (.reqHello n) s = .next t ∧ (t.mem = s.mem ∧ ((t.site m.dst).link m.edge p).helloGot = true ∧
      Tab.find m.edge (t.site m.dst).peers = some { valid, kind, y, x }) ∧ (t.site m.dst).coord = (s.site m.dst).coord := by
  let u := s.helloNoted n m.dst m.edge p { valid, kind, y, x }
  obtain ⟨l, site, -⟩ := s.site_helloNoted n m.dst m.edge p { valid, kind, y, x }
  have known : u.knownCoord m.dst = s.knownCoord m.dst := by
    unfold State.knownCoord State.coord
    rw [show u.site m.dst = _ from site]
  have held : (valid && (u.knownCoord m.dst).isNone) = false := by
    rw [known]
    cases hval : valid with
    | false => rfl
    | true => obtain ⟨c, hk⟩ := Option.isSome_iff_exists.1 (hk hval); rw [hk]; rfl
  have step := exec_reqHello ha hop hp (u := u) rfl hc nofun
  rw [if_neg nofun, if_neg (by rw [held]; nofun)] at step
  have after : (u.modSite m.dst Site.leaveLock).site m.dst = (u.site m.dst).leaveLock := (State.site_modSite ..).trans (if_pos rfl)
  refine ⟨_, step, met_of_site rfl rfl after rfl rfl, ?_⟩
  rw [after, Site.leaveLock_keeps Site.coord (fun _ _ => rfl), show u.site m.dst = _ from site]

/-- The first hello with coordinates gives a site its own. -/
theorem reqHello_takes {c : Nat × Nat} (hval : valid = true) (hv : kindOf m.dst ≠ .gatehouse) (hn : (s.site m.dst).coord = none)
    (hf : (s.site m.dst).conflict = false) (hi : implied m.edge x y = some c) :
    ∃ t, exec (.reqHello n) s = .next t ∧ (t.mem = s.mem ∧ ((t.site m.dst).link m.edge p).helloGot = true ∧
      Tab.find m.edge (t.site m.dst).peers = some { valid, kind, y, x }) ∧ (t.site m.dst).coord = some c := by
  let u := s.helloNoted n m.dst m.edge p { valid, kind, y, x }
  obtain ⟨l, site, -⟩ := s.site_helloNoted n m.dst m.edge p { valid, kind, y, x }
  have fresh : s.knownCoord m.dst = none := (if_neg hv).trans hn
  have known : u.knownCoord m.dst = none := (if_neg hv).trans (by rw [State.coord, show u.site m.dst = _ from site]; exact hn)
  have clash : s.helloClashes m.dst m.edge y x valid = false := by rw [State.helloClashes, fresh, hi]; exact Bool.and_false _
  have step := exec_reqHello ha hop hp (u := u) rfl clash nofun
  rw [if_neg nofun, if_pos (by rw [known, show u.site m.dst = _ from site, hf, hval]; rfl)] at step
  let z : Site := { u.site m.dst with coord := implied m.edge x y, coordNow := u.instant.isSome }
  have after : ((u.modSite m.dst fun t => { t with coord := implied m.edge x y, coordNow := u.instant.isSome }).modSite m.dst Site.leaveLock).site m.dst =
      z.leaveLock := by
    rw [State.site_modSite, if_pos rfl, State.site_modSite, if_pos rfl]
  refine ⟨_, step, met_of_site rfl rfl after rfl rfl, ?_⟩
  rw [after, Site.leaveLock_keeps Site.coord (fun _ _ => rfl)]
  exact hi

/-- A gatehouse that hears of other coordinates than those of its straps raises the fatal event, and is FAILED at MAP. -/
theorem reqHello_conflicts (hval : valid = true) (hv : kindOf m.dst = .gatehouse) (hi : implied m.edge x y ≠ some (xOf m.dst, yOf m.dst))
    (hh : s.holdFull m.dst 15 = false) :
    ∃ t, exec (.reqHello n) s = .next t ∧ (t.mem = s.mem ∧ ((t.site m.dst).link m.edge p).helloGot = true ∧
      Tab.find m.edge (t.site m.dst).peers = some { valid, kind, y, x }) ∧ (t.site m.dst).conflict = true ∧ t.holdFull m.dst 15 = true ∧
        ((s.site m.dst).state = .map → (t.site m.dst).state = .failed) := by
  let u := s.helloNoted n m.dst m.edge p { valid, kind, y, x }
  obtain ⟨l, site, -⟩ := s.site_helloNoted n m.dst m.edge p { valid, kind, y, x }
  have clash : s.helloClashes m.dst m.edge y x valid = true := by
    rw [State.helloClashes, State.knownCoord, if_pos hv, hval]
    exact decide_eq_true hi
  have step := exec_reqHello ha hop hp (u := u) rfl clash fun _ => hh
  rw [if_pos rfl, if_neg (by rw [State.knownCoord, if_pos hv]; simp)] at step
  let w := (u.modSite m.dst fun t => { t with conflict := true, coord := if t.coordNow then none else t.coord }).raise m.dst 15 sevFatal 0x0111 none 0
  have raised : ∃ h e, w.site m.dst = { u.site m.dst with
      conflict := true, coord := if (u.site m.dst).coordNow then none else (u.site m.dst).coord, evHolds := h, evSeq := e } :=
    ⟨_, _, (State.site_setSite ..).trans ((if_pos rfl).trans (by rw [State.site_modSite, if_pos rfl]))⟩
  obtain ⟨h, e, raised⟩ := raised
  let z : Site := if (w.site m.dst).state = .map then (w.site m.dst).enter .failed else w.site m.dst
  have kept {β : Type} (g : Site → β) (hg : ∀ t n, g (Site.enter t n) = g t) : g z = g (w.site m.dst) := by
    show g (if _ then _ else _) = _
    split_ifs
    · exact hg ..
    · rfl
  have after : ((u.coordConflict m.dst).modSite m.dst Site.leaveLock).site m.dst = z.leaveLock := by
    rw [State.site_modSite, if_pos rfl]
    refine congrArg Site.leaveLock ?_
    show (if (w.site m.dst).state = .map then w.enter m.dst .failed else w).site m.dst = if _ then _ else _
    split_ifs
    · exact State.site_enter ..
    · rfl
  have mem : ((u.coordConflict m.dst).modSite m.dst Site.leaveLock).mem = u.mem := by
    show (if (w.site m.dst).state = .map then w.enter m.dst .failed else w).mem = _
    split_ifs <;> rfl
  refine ⟨_, step, met_of_site rfl mem after ?_ ?_, ?_, ?_, fun map => ?_⟩
  · rw [kept Site.links fun _ _ => rfl, raised]
  · rw [kept Site.peers fun _ _ => rfl, raised]
  · rw [after, Site.leaveLock_keeps Site.conflict (fun _ _ => rfl), kept Site.conflict fun _ _ => rfl, raised]
  · have full : w.holdFull m.dst 15 = true := State.holdFull_raise ..
    rw [State.holdFull, after, Site.leaveLock_keeps Site.evHolds (fun _ _ => rfl), kept Site.evHolds fun _ _ => rfl]
    exact full
  · have state : (w.site m.dst).state = .map := by rw [raised, show u.site m.dst = _ from site]; exact map
    have failed : z = (w.site m.dst).enter .failed := if_pos state
    rw [after]
    rcases z.leaveLock_cases with same | ⟨lock, -⟩
    · rw [same, failed]; rfl
    · rw [failed] at lock; cases lock

end HelloCases

end Sys2Proof.Machine
end

section
/-! Bring-up: the self test, the image and the quote, and the obligation (R88, R415, R418, R419, R431, R432, R435). -/

namespace Sys2Proof.Machine

open Sys2Proof Sys2Proof.Spec

/-! ## Image requests and blocks that are sent (R418, R419) -/

theorem State.askBlock_keeps {β : Type} (g : State → β) (hn : ∀ (s : State) n i, g { s with net := n, nextId := i } = g s) (s : State) (v n f : Nat) :
    g (s.askBlock v n f) = g s := by
  unfold State.askBlock
  split
  · exact State.post_keeps g hn ..
  · split
    · rfl
    · exact State.post_keeps g hn ..

/-- A request goes up the upstream edge that the site had before the step. -/
theorem askedFor_askBlock {s u : State} {v : Nat} (h : (u.site v).upstream = (s.site v).upstream) (n f : Nat) : AskedFor s (u.askBlock v n f) v n f := by
  refine ⟨fun hu => ?_, fun d w x hu _ hw => ?_⟩
  · simp only [State.askBlock, h, hu]
    exact ⟨_, List.mem_append_right _ (List.mem_singleton_self _), rfl, rfl, rfl, rfl⟩
  · simp only [State.askBlock, h, hu, hw]
    exact ⟨_, List.mem_append_right _ (List.mem_singleton_self _), rfl, rfl, rfl, rfl⟩

theorem State.answerImage_keeps {β : Type} (g : State → β) (hn : ∀ (s : State) n i, g { s with net := n, nextId := i } = g s) (s : State) (v : Nat)
    (r : Nat × Nat × Nat) : g (s.answerImage v r) = g s := by
  unfold State.answerImage
  dsimp only
  split <;> exact State.post_keeps g hn ..

theorem blockSent_answerImage (s : State) (v : Nat) (r : Nat × Nat × Nat) : BlockSent (s.answerImage v r) v r.1 r.2.1 r.2.2 := by
  unfold State.answerImage BlockSent
  dsimp only
  split <;> exact ⟨_, List.mem_append_right _ (List.mem_singleton_self _), rfl, rfl, by simp [*], rfl, rfl⟩

/-- A block that is on its way stays there while another is sent. -/
theorem BlockSent.answerImage {s : State} {v d b f : Nat} (h : BlockSent s v d b f) (w : Nat) (r : Nat × Nat × Nat) : BlockSent (s.answerImage w r) v d b f := by
  obtain ⟨q, hq, rest⟩ := h
  refine ⟨q, ?_, rest⟩
  unfold State.answerImage
  dsimp only
  split <;> exact List.mem_append_left _ hq

/-! ## The self test (R88, R415, R417, R431) -/

/-- A pavilion whose granules all read zero. -/
def State.zeroedPavilion (s : State) (v : Nat) : State :=
  (each (List.range 4) (fun s u => s.zeroBytes (homeKey v u 0) storeBytes) s).zeroBytes (homeKey v 4 0) (32 * 2 ^ 20)

theorem State.read_zeroBytes_inside (s : State) {lo n a : Nat} (h : lo ≤ a ∧ a < lo + n) : Memory.read (s.zeroBytes lo n).mem a = 0 := by
  rw [State.read_zeroBytes, if_pos h]

theorem State.read_zeroBytes_zero {s : State} {a : Nat} (h : Memory.read s.mem a = 0) (lo n : Nat) : Memory.read (s.zeroBytes lo n).mem a = 0 := by
  rw [State.read_zeroBytes, h]
  exact ite_self _

theorem State.read_zeroedPavilion (s : State) (v u o : Nat) (h : u < 4 ∧ o < 4194304 ∨ u = 4 ∧ o < 33554432) :
    Memory.read (s.zeroedPavilion v).mem (homeKey v u o) = 0 := by
  rcases h with ⟨hu, ho⟩ | ⟨rfl, ho⟩
  · refine State.read_zeroBytes_zero ?_ _ _
    exact each_reaches (P := fun _ => True) (Q := fun s => Memory.read s.mem (homeKey v u o) = 0) (fun _ _ _ => trivial)
      (fun _ _ h => State.read_zeroBytes_zero h _ _) (fun s _ => s.read_zeroBytes_inside (by unfold homeKey storeBytes; omega)) (List.mem_range.2 hu) trivial
  · exact State.read_zeroBytes_inside _ (by unfold homeKey; omega)

theorem State.zeroBytes_sites (s : State) (lo n : Nat) : (s.zeroBytes lo n).sites = s.sites := rfl

theorem State.site_zeroedPavilion (s : State) (v w : Nat) : (s.zeroedPavilion v).site w = s.site w := by
  rw [State.site, State.zeroedPavilion, State.zeroBytes_sites, each_keeps State.sites (fun _ _ => State.zeroBytes_sites ..), ← State.site]

theorem selfTestDone_passes {s : State} {v : Nat} (hs : (s.site v).state = .test) (hv : kindOf v = .pavilion) (hc : (s.site v).conflict = false) :
    ∃ t, exec (.selfTestDone v true) s = .next t ∧ (t.site v).state = .map ∧ AskedFor s t v 0 v ∧
      ∀ u o, (u < 4 ∧ o < 4194304 ∨ u = 4 ∧ o < 33554432) → Memory.read t.mem (homeKey v u o) = 0 := by
  let z := (s.zeroedPavilion v).enter v .map
  have site : z.site v = (s.site v).enter .map := by rw [State.site_enter, State.site_zeroedPavilion]
  have clear : ¬(s.site v).conflict = true := by rw [hc]; nofun
  have serves : (z.askBlock v 0 v).serveImages v = z.askBlock v 0 v := if_neg fun h => by rw [hv] at h; cases h.1
  have step : exec (.selfTestDone v true) s = .next (z.askBlock v 0 v) := by
    simp only [exec_eq_execSelfTestDone, execSelfTestDone, State.selfTest]
    rw [if_neg (by rw [hs]; simp), if_neg (by decide), if_pos hv, ← State.zeroedPavilion, if_neg (by rw [site]; exact clear), serves]
    rfl
  refine ⟨_, step, ?_, askedFor_askBlock (by rw [site]; rfl) .., fun u o h => ?_⟩
  · rw [State.site, State.askBlock_keeps State.sites (fun _ _ _ => rfl), ← State.site, site]; rfl
  · rw [State.askBlock_keeps State.mem fun _ _ _ => rfl]
    show Memory.read ((s.zeroedPavilion v).modSite v fun t => t.enter .map).mem _ = 0
    rw [State.modSite_mem]
    exact s.read_zeroedPavilion v u o h

theorem selfTestDone_fails {s : State} {v : Nat} (hs : (s.site v).state = .test) (hh : s.holdFull v 15 = false) :
    ∃ t, exec (.selfTestDone v false) s = .next t ∧ t.mem = s.mem ∧ (t.site v).state = .failed ∧ t.holdFull v 15 = true := by
  have step : exec (.selfTestDone v false) s = .next ((s.enter v .failed).raise v 15 sevFatal 0x0112 none 0) := by
    simp only [exec_eq_execSelfTestDone, execSelfTestDone, State.selfTest]
    rw [if_neg (by rw [hs, hh]; simp), if_pos (by decide)]
    rfl
  refine ⟨_, step, rfl, ?_, State.holdFull_raise ..⟩
  rw [State.raise, State.site_setSite, if_pos rfl, State.site_enter]
  rfl

/-! ## A request that arrives (R406, R416, R418) -/

section Request

variable {s : State} {n b : Nat} {m : Msg} (ha : s.arriving n = some m) (hop : m.op = .imageRequest b)
include ha hop

theorem reqImageRequest_refused (ho : (s.site m.dst).outOfService = true) :
    ∃ t, exec (.reqImageRequest n) s = .next t ∧ t.mem = s.mem ∧ Answered t m (.error 0x07) [] false := by
  have step : exec (.reqImageRequest n) s = .next (s.turnAway m) := by
    simp only [exec_eq_execReqImageRequest, execReqImageRequest, State.imageAsked, ha, hop]
    rw [if_pos ho]
    rfl
  exact ⟨_, step, State.consume_mem .., answered_reply ..⟩

theorem reqImageRequest_answered (hs : s.answersImage m.dst = true) (ho : (s.site m.dst).outOfService = false) :
    ∃ t, exec (.reqImageRequest n) s = .next t ∧ t.mem = s.mem ∧ BlockSent t m.dst m.edge b m.off := by
  have step : exec (.reqImageRequest n) s = .next ((s.consume n).answerImage m.dst (m.edge, b, m.off)) := by
    simp only [exec_eq_execReqImageRequest, execReqImageRequest, State.imageAsked, ha, hop]
    rw [if_neg (by rw [ho]; nofun), if_pos hs]
    rfl
  exact ⟨_, step, (State.answerImage_keeps State.mem (fun _ _ _ => rfl) ..).trans (State.consume_mem ..), blockSent_answerImage ..⟩

/-- A site that cannot answer notes the request, and passes it on up its upstream edge. -/
theorem reqImageRequest_relayed (hs : s.answersImage m.dst = false) (ho : (s.site m.dst).outOfService = false) :
    ∃ t, exec (.reqImageRequest n) s = .next t ∧ t.mem = s.mem ∧ (t.site m.dst).imageReqs = (s.site m.dst).imageReqs ++ [(m.edge, b, m.off)] ∧
      ((s.site m.dst).upstream ≠ none → AskedFor s t m.dst b m.off) ∧
      ((s.site m.dst).upstream = none → t.net = s.net.filter fun q => q.id != n) := by
  let u := (s.consume n).modSite m.dst fun t => { t with imageReqs := t.imageReqs ++ [(m.edge, b, m.off)] }
  have step : exec (.reqImageRequest n) s = .next (if (s.site m.dst).upstream.isSome then u.askBlock m.dst b m.off else u) := by
    simp only [exec_eq_execReqImageRequest, execReqImageRequest, State.imageAsked, ha, hop]
    rw [if_neg (by rw [ho]; nofun), if_neg (by rw [hs]; nofun)]
    rfl
  obtain ⟨l, consumed⟩ := s.site_consume_links n m.dst
  have site : u.site m.dst = { s.site m.dst with links := l, imageReqs := (s.site m.dst).imageReqs ++ [(m.edge, b, m.off)] } := by
    rw [State.site_modSite, if_pos rfl, consumed]
  have mem : u.mem = s.mem := State.consume_mem ..
  rcases hu : (s.site m.dst).upstream with _ | d
  · rw [hu, if_neg nofun] at step
    exact ⟨u, step, mem, by rw [site], fun h => absurd rfl h, fun _ => State.consume_net ..⟩
  · rw [hu, Option.isSome_some, if_pos rfl] at step
    refine ⟨_, step, (State.askBlock_keeps State.mem (fun _ _ _ => rfl) ..).trans mem, ?_, fun _ => askedFor_askBlock (by rw [site]) .., nofun⟩
    rw [State.site, State.askBlock_keeps State.sites (fun _ _ _ => rfl), ← State.site, site]

end Request

/-! ## The gatehouse's copy (R418) -/

/-- A gatehouse that can answer serves every request it has held. -/
theorem State.serveImages_served {s : State} {g : Nat} (hg : kindOf g = .gatehouse) (ha : s.answersImage g = true) :
    ((s.serveImages g).site g).imageReqs = [] ∧ ∀ r ∈ (s.site g).imageReqs, BlockSent (s.serveImages g) g r.1 r.2.1 r.2.2 := by
  have served : s.serveImages g = each (s.site g).imageReqs (fun s r => s.answerImage g r) (s.modSite g fun t => { t with imageReqs := [] }) :=
    if_pos ⟨hg, ha⟩
  rw [served]
  refine ⟨?_, fun r hr => ?_⟩
  · rw [State.site, each_keeps State.sites (fun t r => State.answerImage_keeps State.sites (fun _ _ _ => rfl) t g r), ← State.site, State.site_modSite, if_pos rfl]
  · exact each_reaches (P := fun _ => True) (Q := fun t => BlockSent t g r.1 r.2.1 r.2.2) (fun _ _ _ => trivial) (fun _ q h => BlockSent.answerImage h g q)
      (fun t _ => blockSent_answerImage t g r) hr trivial

theorem State.serveImages_keeps {β : Type} (g : State → β) (hn : ∀ (s : State) n i, g { s with net := n, nextId := i } = g s)
    (hs : ∀ (s : State) v, g (s.modSite v fun t => { t with imageReqs := [] }) = g s) (s : State) (v : Nat) : g (s.serveImages v) = g s := by
  unfold State.serveImages
  split_ifs
  · exact (each_keeps g (fun t r => State.answerImage_keeps g hn t v r) _ _).trans (hs ..)
  · rfl

theorem step_placeImage {s : State} {g : Nat} {rest : List Sched} (hag : s.agenda = .placeImage g :: rest) (hk : siteKey g = true)
    (hg : kindOf g = .gatehouse) (hc : (s.site g).state ≠ .cold) :
    ∃ t, step s = .next t ∧ t.mem = s.mem ∧ (t.gate g).imageHere = true ∧
      (((s.site g).state = .ready ∨ (s.site g).state = .map ∧ s.keeperVerifies g = true) → (t.site g).imageReqs = [] ∧
        ∀ r ∈ (s.site g).imageReqs, BlockSent t g r.1 r.2.1 r.2.2) := by
  let s0 : State := { s with batch := s.nextId, agenda := rest }
  let u := s0.modGate g fun x => { x with imageHere := true }
  have stepped : step s = .next (u.serveImages g) := by
    simp only [step, runStep, hag, runSched]
    exact congrArg (due "IMAGE_PLACEMENT") (if_pos ⟨hk, hg, hc⟩)
  have site : u.site g = { s.site g with gate := { (s.site g).gate with imageHere := true } } := (State.site_modSite ..).trans (if_pos rfl)
  refine ⟨_, stepped, State.serveImages_keeps State.mem (fun _ _ _ => rfl) (fun _ _ => rfl) .., ?_, fun ready => ?_⟩
  · have gate : (u.serveImages g).gate g = u.gate g := State.serveImages_keeps (fun t => t.gate g) (fun _ _ _ => rfl) (fun t v => by
      show ((t.modSite v _).site g).gate = _
      rw [State.site_modSite]
      split_ifs with h
      · rw [h]; rfl
      · rfl) ..
    rw [gate, State.gate, site]
  · have verifies : u.keeperVerifies g = s.keeperVerifies g := by rw [State.keeperVerifies, State.gate, site]; rfl
    have answers : u.answersImage g = true := by
      unfold State.answersImage
      rw [verifies, site, hg]
      rcases ready with h | ⟨h, hv⟩
      · simp [h]
      · simp [h, hv]
    obtain ⟨emptied, sent⟩ := State.serveImages_served hg answers
    exact ⟨emptied, fun r hr => sent r (by rw [site]; exact hr)⟩

/-! ## A block that arrives (R419, R432) -/

theorem State.link_unbuffer_up (s : State) (m : Msg) (v d : Nat) (x : Mesh) : (((s.unbuffer m).site v).link d x).up = ((s.site v).link d x).up := by
  unfold State.unbuffer
  split
  · rw [State.modLink, State.site_modSite]
    split_ifs with hv
    · rw [Site.link, Tab.get_put]
      split_ifs with hl
      · simp only [hv, Site.link, hl]
      · rw [hv]; rfl
    · rfl
  · rfl

/-- Credits that go back leave links up or down. -/
theorem State.link_consume_up (s : State) (n v d : Nat) (x : Mesh) : (((s.consume n).site v).link d x).up = ((s.site v).link d x).up := by
  unfold State.consume
  split
  · rfl
  · exact s.link_unbuffer_up ..

theorem Site.peerSeen_congr {t u : Site} (hl : ∀ d x, (t.link d x).up = (u.link d x).up) (hp : t.peers = u.peers) (d : Nat) : t.peerSeen d = u.peerSeen d := by
  unfold Site.peerSeen Site.meshUp
  rw [hl, hl, hp]

theorem State.rejects_congr {s u : State} {v : Nat} (hc : (u.site v).coord = (s.site v).coord) (hp : ∀ d, (u.site v).peerSeen d = (s.site v).peerSeen d)
    (img : List Byte) : u.rejects v img = s.rejects v img := by
  unfold State.rejects
  simp only [hc, hp]

/-- The state of a site that has kept a block of its own section. -/
def State.blockKept (s : State) (n v b : Nat) (d : List Byte) : State := (s.consume n).modSite v fun t => { t with image := Tab.put b d t.image }

theorem State.site_blockKept (s : State) (n v b : Nat) (d : List Byte) : ∃ l, (s.blockKept n v b d).site v =
    { s.site v with links := l, image := Tab.put b d (s.site v).image } ∧ ∀ e x, (((s.blockKept n v b d).site v).link e x).up = ((s.site v).link e x).up := by
  obtain ⟨l, consumed⟩ := s.site_consume_links n v
  have kept : (s.blockKept n v b d).site v = { (s.consume n).site v with image := Tab.put b d ((s.consume n).site v).image } :=
    (State.site_modSite ..).trans (if_pos rfl)
  exact ⟨l, by rw [kept, consumed], fun e x => by rw [kept]; exact s.link_consume_up n v e x⟩

section Service

variable {β : Type} (g : State → β) (hk : ∀ (s : State) k x, g (s.setStrand k x) = g s) (hc : ∀ (s : State) c x, g (s.setCore c x) = g s)
include hk

theorem State.keeperStrand_keeps (s : State) (c n : Nat) (e : Addr) (l : List (Nat × Word × Word)) : g (s.keeperStrand c n e l) = g s := by
  unfold State.keeperStrand
  dsimp only
  split_ifs
  · exact (hk ..).trans (hk ..)
  · exact hk ..

include hc

theorem State.startKeeper_keeps (s : State) (v : Nat) (l : List (Nat × Addr × List (Nat × Word × Word))) : g (s.startKeeper v l) = g s := by
  unfold State.startKeeper
  exact (each_keeps g (fun _ _ => State.keeperStrand_keeps g hk ..) _ _).trans (hc ..)

end Service

/-- An image that is applied makes the site READY with its section; memory is as it was (R419). -/
theorem State.applyImage_effect (s : State) (v : Nat) (img : List Byte) :
    (s.applyImage v img).mem = s.mem ∧ ((s.applyImage v img).site v).state = .ready ∧ ((s.applyImage v img).site v).section_ = img := by
  unfold State.applyImage
  extract_lets c t u w code
  have taken : u.mem = s.mem ∧ (u.site v).state = .ready ∧ (u.site v).section_ = img := by
    have site : u.site v = (t.site v).enter .ready := State.site_enter ..
    refine ⟨rfl, by rw [site]; rfl, ?_⟩
    rw [site]
    show (t.site v).section_ = img
    rw [State.site_modSite, if_pos rfl]
  clear_value u
  split_ifs
  · exact taken
  · rw [State.site, State.startKeeper_keeps State.mem (fun _ _ _ => rfl) (fun _ _ _ => rfl),
      State.startKeeper_keeps State.sites (fun _ _ _ => rfl) (fun _ _ _ => rfl)]
    exact taken
  · have kept {β : Type} (g : State → β) (hk : ∀ (s : State) k x, g (s.setStrand k x) = g s) (hc : ∀ (s : State) c x, g (s.setCore c x) = g s)
        (hb : ∀ (s : State) b f, g (s.modBower b f) = g s) :
        g (each (coresOf v) (fun s q =>
          let s := s.setCore q { maxm := Tab.get 0 (q % 16) c.maxm, walkEntry := (code 13).1 }
          each [13, 14, 15] (fun s n => s.serviceStrand q n (code n).1 (code n).2) s) w) = g u :=
      (each_keeps g (fun _ _ => (each_keeps g (fun _ _ => hk ..) _ _).trans (hc ..)) _ _).trans (each_keeps g (fun _ _ => hb ..) _ _)
    rw [State.site, kept State.mem (fun _ _ _ => rfl) (fun _ _ _ => rfl) fun _ _ _ => rfl,
      kept State.sites (fun _ _ _ => rfl) (fun _ _ _ => rfl) fun _ _ _ => rfl]
    exact taken

section Block

variable {s : State} {n b : Nat} {last : Bool} {m : Msg} (ha : s.arriving n = some m) (hop : m.op = .imageBlock b last) (ho : m.off = m.dst)
  (hs : (s.site m.dst).state = .map)
include ha hop ho hs

theorem exec_reqImageBlock {u : State} (hu : s.blockKept n m.dst b m.data = u) : exec (.reqImageBlock n) s =
    due "REQ_IMAGE_BLOCK" (if last then u.checkImage m.dst else some (u.askBlock m.dst (b + 1) m.dst)) := by
  subst hu
  simp only [exec_eq_execReqImageBlock, execReqImageBlock, State.imageArrives, ha, hop]
  rw [if_neg (not_not.2 ho), if_neg (not_not.2 hs)]
  rfl

theorem reqImageBlock_asks (hl : last = false) : ∃ t, exec (.reqImageBlock n) s = .next t ∧ t.mem = s.mem ∧
    Tab.find b (t.site m.dst).image = some m.data ∧ AskedFor s t m.dst (b + 1) m.dst := by
  obtain ⟨l, site, -⟩ := s.site_blockKept n m.dst b m.data
  have step := exec_reqImageBlock ha hop ho hs rfl
  rw [if_neg (by rw [hl]; nofun)] at step
  refine ⟨_, step, (State.askBlock_keeps State.mem (fun _ _ _ => rfl) ..).trans (State.consume_mem ..), ?_, askedFor_askBlock (by rw [site]) ..⟩
  rw [State.site, State.askBlock_keeps State.sites (fun _ _ _ => rfl), ← State.site, site]
  exact Tab.find_put_self ..

/-- After its last block a site whose section is accepted is READY, and another FAILED. -/
theorem reqImageBlock_checks (hl : last = true) (hc : (s.site m.dst).coord ≠ none) (hv : kindOf m.dst = .gatehouse → s.keeperVerifies m.dst = true) :
    let img := imageOf (Tab.put b m.data (s.site m.dst).image)
    (s.rejects m.dst img = none → ∃ t, exec (.reqImageBlock n) s = .next t ∧ t.mem = s.mem ∧ (t.site m.dst).state = .ready ∧ (t.site m.dst).section_ = img) ∧
    (∀ c, s.rejects m.dst img = some c → s.holdFull m.dst 15 = false →
      ∃ t, exec (.reqImageBlock n) s = .next t ∧ t.mem = s.mem ∧ (t.site m.dst).state = .failed ∧ t.holdFull m.dst 15 = true) := by
  intro img
  let u := s.blockKept n m.dst b m.data
  obtain ⟨l, site, up⟩ := s.site_blockKept n m.dst b m.data
  have mem : u.mem = s.mem := State.consume_mem ..
  have verifies : u.keeperVerifies m.dst = s.keeperVerifies m.dst := by
    rw [State.keeperVerifies, State.gate, show u.site m.dst = _ from site]; rfl
  have rejects : u.rejects m.dst img = s.rejects m.dst img :=
    State.rejects_congr (by rw [show u.site m.dst = _ from site]) (Site.peerSeen_congr up (by rw [site])) img
  have image : imageOf (u.site m.dst).image = img := by rw [show u.site m.dst = _ from site]
  have full : u.holdFull m.dst 15 = s.holdFull m.dst 15 := by rw [State.holdFull, show u.site m.dst = _ from site]; rfl
  have held : ¬(u.site m.dst).coord.isNone = true := by
    rw [show u.site m.dst = _ from site]
    show ¬(s.site m.dst).coord.isNone = true
    rwa [Option.isNone_iff_eq_none]
  have keeper : ¬(kindOf m.dst = .gatehouse ∧ (!u.keeperVerifies m.dst) = true) := by
    rintro ⟨gate, no⟩
    rw [verifies, hv gate] at no
    cases no
  have step := exec_reqImageBlock ha hop ho hs (u := u) rfl
  rw [if_pos hl, State.checkImage] at step
  rw [if_neg held, if_neg keeper, image, rejects] at step
  refine ⟨fun accepted => ?_, fun c rejected hh => ?_⟩
  · rw [accepted] at step
    obtain ⟨amem, state, section_⟩ := u.applyImage_effect m.dst img
    exact ⟨_, step, amem.trans mem, state, section_⟩
  · rw [rejected] at step
    simp only [full, hh] at step
    refine ⟨_, step, mem, ?_, State.holdFull_raise ..⟩
    rw [State.raise, State.site_setSite, if_pos rfl, State.site_enter]
    rfl

end Block

/-! ## The quote (R435) -/

theorem exec_atGo {s : State} {v : Nat} (hv : kindOf v ≠ .memory) : exec (.atGo v) s = .next (s.modSite v fun t =>
    if t.power.busy then t else { t with power := { t.power with busy := true, done := false } }) := by
  simp only [exec_eq_execAtGo, execAtGo]
  rw [if_neg hv]
  rfl

theorem quoteDone_effect {s : State} {v : Nat} (hb : (s.site v).power.busy = true) :
    ∃ t, exec (.quoteDone v) s = .next t ∧ t.mem = s.mem ∧ t.strands = s.strands ∧ (t.site v).power.busy = false ∧ (t.site v).power.done = true ∧
      (t.site v).power.quote.take (s.quoteBody v).length = s.quoteBody v := by
  let u := s.freeScalar.2
  let sign := ecdsaSign (dieKey v (u.sectionOf v).helper) (s.freeScalar.1 % (p256N - 1) + 1) (u.quoteBody v)
  have step : exec (.quoteDone v) s = .next (u.modSite v fun t => { t with power := { t.power with quote := u.quoteBody v ++ sign, busy := false, done := true } }) := by
    simp only [exec_eq_execQuoteDone, execQuoteDone, State.quoteDone]
    rw [if_pos hb]
    rfl
  refine ⟨_, step, rfl, rfl, ?_, ?_, ?_⟩ <;> rw [State.site_modSite, if_pos rfl]
  exact List.take_left' rfl

/-! ## The obligation -/

/-- Settles O60, part by part: the states of a site, links and hellos, the self test, image requests and blocks, and the quote. -/
theorem bringUp : Obligations.BringUp := by
  unfold Obligations.BringUp
  refine ⟨⟨fun s v hk => ⟨fun h => ?_, exec_moduleReset hk, fun h => ?_, fun h => exec_listenTimeout_fails hk h, fun h hv hr hd =>
      ⟨_, exec_listenTimeout_isolates hk h hv hr hd, s.isolate_effect v⟩, exec_cfgIsolate hk, exec_gatehouseReferenceStable⟩,
    fun s v d w hw => ⟨exec_referenceLock hw, exec_linkInitComplete hw, exec_helloResend hw⟩,
    fun s n kind y x valid m p ha hop hp => ⟨?_, ?_, ?_, ?_⟩⟩,
    fun s v hs hv => ⟨selfTestDone_passes hs hv, selfTestDone_fails hs⟩,
    fun s n b m ha hop => ⟨reqImageRequest_refused ha hop, reqImageRequest_answered ha hop, reqImageRequest_relayed ha hop⟩,
    fun s g rest => step_placeImage,
    fun s n b last m ha hop ho hs => ⟨reqImageBlock_asks ha hop ho hs, reqImageBlock_checks ha hop ho hs⟩,
    fun s v => ⟨exec_atGo, quoteDone_effect⟩⟩
  · simp only [exec_eq_execPowerGood, execPowerGood, State.move_entered hk h]
    rfl
  · simp only [exec_eq_execMapImageTimeout, execMapImageTimeout, State.move_entered hk h]
    rfl
  · exact fun c => reqHello_takes ha hop hp
  · intro hval hv hi
    refine reqHello_plain ha hop hp ?_ fun _ => ?_
    · rw [State.helloClashes, State.knownCoord, if_pos hv, hi]
      exact (congrArg _ (decide_eq_false (not_not.2 rfl))).trans (Bool.and_false _)
    · rw [State.knownCoord, if_pos hv]; rfl
  · exact reqHello_conflicts ha hop hp
  · intro hval
    exact reqHello_plain ha hop hp (by rw [State.helloClashes, hval]; rfl) fun h => absurd h (by rw [hval]; nofun)

end Sys2Proof.Machine
end

section
/-! What keeps a state sound (R85, R88): the rules by which the proofs about operations are put together, for operations that answer a state, a state if
they are due, or an outcome. -/

namespace Sys2Proof.Machine

/-! ## The states that answers hold -/

/-- The state after a lookup in the L1D. -/
def L1dAnswer.after : L1dAnswer → State
  | .miss s | .hit s _ | .bad s => s

/-- The state in which a turn leaves the core, or in which its instruction is issued. -/
def Turn.after : Turn → State
  | .bubble s | .copied s | .issue _ s => s

/-- The state after a reading that has met a struck granule. -/
def Inspected.after : Inspected → Option State
  | .mended s _ | .lost s => some s
  | .clean | .stalls => none

/-- The state after a check of a tile's bytes that has come to an end. -/
def Tile.after : Tile → Option State
  | .go s | .bad _ _ s => some s
  | .wait => none

end Sys2Proof.Machine

namespace Sys2Proof

open Sys2Proof.Machine

/-! ## The shapes of an operation -/

/-- Every state that an operation answers, when it is due, is sound. -/
structure Sounds (o : Option State) : Prop where
  sound : ∀ {t}, o = some t → Sound t

/-- Every next state of an outcome is sound. -/
structure EndsSound (o : Out) : Prop where
  sound : ∀ {t}, o = .next t → Sound t

/-- A state that differs in nothing that `Sound` speaks of: messages, transactions, numbers, bits, errors and the schedule. -/
theorem Sound.record {s : State} (h : Sound s) {full : List Nat} {flaws : List (Nat × Nat)} {net : List Msg} {txns : List Txn}
    {contexts : List Context} {nextId batch freeIx cur : Nat} {agenda : List Sched} {instant : Option (List TcChange)} :
    Sound { mem := s.mem, full, flaws, strands := s.strands, cores := s.cores, bowers := s.bowers, sites := s.sites, net, txns, contexts,
            nextId, batch, freeIx, agenda, cur, instant } := h

section Shapes

variable {c : Prop} [Decidable c] {s t : State} {o p : Option State} {a b : Out} {α : Type}

theorem Sound.ite (hs : Sound s) (ht : Sound t) : Sound (if c then s else t) := by split_ifs <;> assumption

theorem Sound.foldl {f : State → α → State} (hf : ∀ s a, Sound s → Sound (f s a)) (l : List α) (h : Sound s) : Sound (l.foldl f s) := Sound.each hf l h

/-- The state that an answer holds, when the answer is known. -/
theorem Sound.along {f : α → State} {x y : α} (h : Sound (f x)) (e : x = y) : Sound (f y) := e ▸ h

theorem Sounds.none : Sounds none := ⟨nofun⟩
theorem Sounds.some (h : Sound s) : Sounds (some s) := ⟨fun e => Option.some.inj e ▸ h⟩
theorem Sounds.ite (ho : Sounds o) (hp : Sounds p) : Sounds (if c then o else p) := by split_ifs <;> assumption
theorem Sounds.map {f : α → State} (hf : ∀ a, Sound (f a)) (x : Option α) : Sounds (x.map f) := by
  cases x with
  | none => exact .none
  | some a => exact .some (hf a)
theorem Sounds.mapState {f : State → State} (hf : ∀ s, Sound s → Sound (f s)) (ho : Sounds o) : Sounds (o.map f) := by
  cases o with
  | none => exact .none
  | some a => exact .some (hf a (ho.sound rfl))
theorem Sounds.bind {f : α → Option State} (hf : ∀ a, Sounds (f a)) (x : Option α) : Sounds (x.bind f) := by
  cases x with
  | none => exact .none
  | some a => exact hf a

theorem EndsSound.next (h : Sound s) : EndsSound (.next s) := ⟨fun e => Host.Outcome.next.inj e ▸ h⟩
theorem EndsSound.due (n : String) (ho : Sounds o) : EndsSound (due n o) := by
  cases o with
  | none => exact ⟨nofun⟩
  | some s => exact .next (ho.sound rfl)
theorem EndsSound.ite (ha : EndsSound a) (hb : EndsSound b) : EndsSound (if c then a else b) := by split_ifs <;> assumption

end Shapes

end Sys2Proof
end

section
/-! The operations of the state, of caches, counters, halts and homes keep it sound (R85-R91, R99, R127-R134, R215-R220). -/

namespace Sys2Proof

open Sys2Proof.Machine

theorem Sound.turnAway {s : State} (h : Sound s) (m : Msg) : Sound (s.turnAway m) := (h.consume _).reply ..

theorem Sound.restartWalk {s : State} (h : Sound s) (k : Nat) : Sound (s.restartWalk k) := h.modStrand ..

theorem Sound.sendAgain {s : State} (h : Sound s) (m : Msg) : Sound (s.sendAgain m) := .ite (h.sendOut _) (.ite (.ite (h.post _) h) (h.sendOut _))

theorem Sound.requestLine {s : State} (h : Sound s) (v key : Nat) (a : Machine.Acc) (r : Route) (l : Line) :
    Sound (s.requestLine v key a r l) := h.record.record.sendOut _

theorem Sound.staleL1d {s : State} (h : Sound s) (c : Nat) (p : Nat → Bool) : Sound (s.staleL1d c p) := h.record

theorem Sound.staleSlice {s : State} (h : Sound s) (v : Nat) (p : Nat → Bool) : Sound (s.staleSlice v p) := h.record

theorem Sound.writeHome {s : State} (h : Sound s) (v low : Nat) (id : Option Nat) (l : Line) : Sound (s.writeHome v low id l) := by
  unfold State.writeHome
  dsimp only
  split
  · exact h.requestAs ..
  · exact (h.txnNo _).record.post _

theorem Sound.writeSlice {s : State} (h : Sound s) (c : Nat) (id : Option Nat) (l : Line) : Sound (s.writeSlice c id l) := by
  unfold State.writeSlice
  dsimp only
  split
  · exact h.modSite ..
  · exact .ite (((h.modSite ..).modSite ..).writeHome ..) (((h.modSite ..).modSite ..).writeHome ..)
  · exact (h.staleSlice ..).writeHome ..

theorem Sound.lineOut {s : State} (h : Sound s) (v u : Nat) (id : Option Nat) (l : Line) :
    Sound (s.lineOut v u id l) := .ite (h.writeHome ..) (h.writeSlice ..)

theorem Sound.lineEvent {s : State} (h : Sound s) (v u : Nat) (l : Line) :
    Sound (s.lineEvent v u l) := .ite (h.raise ..) (.ite (h.raise ..) (.ite (h.raise ..) (h.raise ..)))

theorem Sound.lineStruck {s : State} (h : Sound s) (v u : Nat) (id : Option Nat) (l : Line) :
    Sound (s.lineStruck v u id l) := .ite (h.lineEvent ..) ((h.lineEvent ..).lineOut ..)

theorem Sound.lineLeaves {s : State} (h : Sound s) (v u : Nat) (l : Line) :
    Sound (s.lineLeaves v u l) := .ite h (.ite (h.record.modSite ..) (.ite (h.lineOut ..) (h.lineStruck ..)))

theorem Sound.goLeaving (v n : Nat) {s : State} (h : Sound s) : Sound (State.goLeaving v n s) := by
  induction n generalizing s with
  | zero => exact h
  | succ n ih =>
    unfold State.goLeaving
    split
    · exact h
    · exact ih (.ite ((h.modSite ..).lineOut ..) ((h.modSite ..).lineStruck ..))

theorem Sound.nextLeaving {s : State} (h : Sound s) (v : Nat) : Sound (s.nextLeaving v) := Sound.goLeaving _ _ h

theorem Sound.fillL1d {s : State} (h : Sound s) (c : Nat) (l : Line) : Sound (s.fillL1d c l) := by
  unfold State.fillL1d
  dsimp only
  split
  · exact h.setCore ..
  · split
    · exact (h.setCore ..).lineLeaves ..
    · exact h.setCore ..

theorem Sound.fillSlice {s : State} (h : Sound s) (v : Nat) (l : Line) : Sound (s.fillSlice v l) := by
  unfold State.fillSlice
  dsimp only
  split
  · exact h
  · split
    · exact h.setSite ..
    · split
      · exact (h.setSite ..).lineLeaves ..
      · exact h.setSite ..

theorem Sound.flushL1d {s : State} (h : Sound s) (c : Nat) (p : Nat → Bool) (drop : Bool) :
    Sound (s.flushL1d c p drop) := .ite (((h.modCore ..).each (fun _ _ hs => hs.lineLeaves ..) _).staleL1d ..) ((h.modCore ..).each (fun _ _ hs => hs.lineLeaves ..) _)

theorem Sound.flushSlice {s : State} (h : Sound s) (v : Nat) (p : Nat → Bool) (drop : Bool) :
    Sound (s.flushSlice v p drop) := .ite (((h.modSite ..).each (fun _ _ hs => hs.lineLeaves ..) _).staleSlice ..) ((h.modSite ..).each (fun _ _ hs => hs.lineLeaves ..) _)

theorem Sound.completed {s : State} (h : Sound s) (k n : Nat) : Sound (s.completed k n) := .ite ((h.advance ..).wake _) h

theorem Sound.testWatched {s : State} (h : Sound s) (v : Nat) (ns : List Nat) : Sound (s.testWatched v ns) := .ite h (h.modSite ..)

theorem Sound.putTc {s : State} (h : Sound s) (l : List (Nat × Nat × Word)) : Sound (s.putTc l) := h.each (fun _ _ hs => hs.modSite ..) _

theorem Sound.wakeTc {s : State} (h : Sound s) (l : List (Nat × Nat × Word)) :
    Sound (s.wakeTc l) := h.each (fun _ _ hs => hs.each (fun _ _ hs1 => hs1.completed ..) _) _

theorem Sound.applyTc {s : State} (h : Sound s) (l : List (Nat × Nat × Word)) :
    Sound (s.applyTc l) := ((h.putTc _).each (fun _ _ hs => hs.modSite ..) _).wakeTc _

theorem Sound.setTc {s : State} (h : Sound s) (v n : Nat) (w : Word) : Sound (s.setTc v n w) := by
  unfold State.setTc
  split
  · exact h.record
  · exact h.applyTc _

theorem Sound.addTc {s : State} (h : Sound s) (v n : Nat) (a : Word) : Sound (s.addTc v n a) := by
  unfold State.addTc
  split
  · exact h.record
  · exact h.applyTc _

/-- A change of every core, key by key, keeps the table's keys. -/
theorem Sound.mapCores {s : State} (h : Sound s) (f : Core → Core) : Sound { s with cores := s.cores.map fun (c, x) => (c, f x) } :=
  ⟨h.1, h.2.1, h.2.2.1.map fun q => f q.2, h.2.2.2⟩

/-- A change of every site, key by key, keeps the table's keys. -/
theorem Sound.mapSites {s : State} (h : Sound s) (f : Site → Site) : Sound { s with sites := s.sites.map fun (v, x) => (v, f x) } :=
  ⟨h.1, h.2.1, h.2.2.1, h.2.2.2.1, h.2.2.2.2.map fun q => f q.2⟩

theorem Sound.endInstant {s : State} (h : Sound s) : Sound s.endInstant := by
  unfold State.endInstant
  split
  · exact h
  · exact Sound.mapCores (((Sound.putTc h.record _).mapSites _).mapCores _ |>.wakeTc _) _

theorem Sound.endFe {s : State} (h : Sound s) (k : Nat) : Sound (s.endFe k) := (h.modCore ..).wake _

theorem Sound.modTxn {s : State} (h : Sound s) (n : Nat) (f : Txn → Txn) : Sound (s.modTxn n f) := h.record

theorem Sound.withdrawFe {s : State} (h : Sound s) (k : Nat) : Sound (s.withdrawFe k) := by
  unfold State.withdrawFe
  split
  · exact h
  · exact .ite h (.ite ((h.dropTxn _).endFe _) ((h.modTxn ..).record.record.sendAgain _))

theorem Sound.halt {s : State} (h : Sound s) (k : Nat) : Sound (s.halt k) := h.modStrand ..

theorem Sound.deadlineStrand {s : State} (h : Sound s) (k : Nat) : Sound (s.deadlineStrand k) := by
  unfold State.deadlineStrand
  dsimp only
  split
  · exact .ite (h.withdrawFe _) (.ite (h.halt _) (.ite ((h.dropWaiter _).stop _) (.ite (h.stop _) h)))
  · exact h

theorem Sound.testHalt {s : State} (h : Sound s) (k : Nat) : Sound (s.testHalt k) := .ite (h.deadlineStrand _) h

theorem Sound.inspect {s : State} (h : Sound s) (v u : Nat) (f : Nat × Nat) : Sound (s.inspect v u f).2 := .ite (h.raise ..).record (h.raise ..)

theorem Sound.readOver {s : State} (h : Sound s) (v u : Nat) (gs : List Nat) (n : Nat) : Sounds (s.readOver v u gs n).after := by
  unfold State.readOver
  split
  · exact .none
  · next g i _ =>
    have hi := h.inspect v u (g, Tab.get 0 g s.flaws)
    split
    · exact .none
    · dsimp only
      split
      · exact .some hi
      · exact .some hi

theorem Sound.inspectFold (v u : Nat) (fs : List (Nat × Nat)) {q : Bool × State} (h : Sound q.2) :
    Sound (fs.foldl (fun q f => if q.1 then q.2.inspect v u f else q) q).2 := by
  induction fs generalizing q with
  | nil => exact h
  | cons f fs ih =>
    refine ih (q := if q.1 then q.2.inspect v u f else q) ?_
    split
    · exact h.inspect ..
    · exact h

theorem Sound.inspectAll {s : State} (h : Sound s) (v u : Nat) (gs : List Nat) : Sound (s.inspectAll v u gs).2 := Sound.inspectFold v u _ h

theorem Sound.freshen {s : State} (h : Sound s) (gs : List Nat) : Sound (s.freshen gs) := h.record

theorem Sound.engineStore {s : State} (h : Sound s) (v u off : Nat) (d : List Byte) (key : Nat) :
    Sound (s.engineStore v u off d key) := ((h.foldl (fun _ _ hs => hs.inspect ..) _).freshen _).store ..

theorem Sound.fill {s : State} (h : Sound s) (v u g : Nat) : Sound (s.fill v u g) := h.record

theorem Sound.drain {s : State} (h : Sound s) (v u g : Nat) : Sound (s.drain v u g) := h.record

theorem Sound.answerRec {s : State} (h : Sound s) (v : Nat) (r : WaitRec) (op : MsgOp) (d : List Byte) : Sound (s.answerRec v r op d) := by
  unfold State.answerRec
  dsimp only
  split
  · exact (h.modSite ..).reply ..
  · exact h.modSite ..

theorem Sound.leaveUnserved {s : State} (h : Sound s) (v u g : Nat) : Sound (s.leaveUnserved v u g) := h.modSite ..

theorem Sound.serveLoad {s : State} (h : Sound s) (v u g : Nat) (r : WaitRec) :
    Sound (s.serveLoad v u g r) := .ite (((h.answerRec ..).drain ..).fire ..) (h.answerRec ..)

theorem Sound.serve (n : Nat) (gs : List Nat) (v u : Nat) {s : State} (h : Sound s) : Sound (State.serve n gs v u s) := by
  induction n generalizing gs s with
  | zero => exact h
  | succ n ih =>
    cases gs with
    | nil => exact h
    | cons g gs =>
      have load (r : WaitRec) : Sound (match s.readOver v u (granuleKeys v u r.off 8) 0 with
          | .stalls => State.serve n gs v u (s.leaveUnserved v u g)
          | .lost t => State.serve n (g :: gs) v u (t.answerRec v r (.error Code.uncorrectable.num) [])
          | .mended t _ => State.serve n (g :: gs) v u (t.serveLoad v u g r)
          | .clean => State.serve n (g :: gs) v u (s.serveLoad v u g r)) := by
        split
        · exact ih _ (h.leaveUnserved ..)
        · next e => exact ih _ (((h.readOver ..).sound (congrArg Inspected.after e)).answerRec ..)
        · next e => exact ih _ (((h.readOver ..).sound (congrArg Inspected.after e)).serveLoad ..)
        · exact ih _ (h.serveLoad ..)
      unfold State.serve
      split
      · exact ih _ h
      · dsimp only
        split
        · exact .ite (ih _ h) (load _)
        · exact .ite (ih _ h) (load _)
        · exact .ite (ih _ h) (ih _ ((((h.freshen _).store ..).fill ..).answerRec ..))
        · split
          · split
            · exact ih _ (h.leaveUnserved ..)
            · next e => exact ih _ (((h.readOver ..).sound (congrArg Inspected.after e)).answerRec ..)
            · next e => exact ih _ (((h.readOver ..).sound (congrArg Inspected.after e)).modSite ..)
            · exact .ite (ih _ ((h.answerRec ..).each (fun _ _ hs => (hs.drain ..).fire ..) _)) (ih _ (h.answerRec ..))
          · exact .ite (ih _ h) (ih _ (h.modSite ..))
        · exact ih _ h

theorem Sound.serveLists {s : State} (h : Sound s) (v u : Nat) (gs : List Nat) : Sound (s.serveLists v u gs) := Sound.serve _ gs v u h

theorem Sound.serveChanged {s : State} (h : Sound s) (before : State) (v u : Nat) : Sound (s.serveChanged before v u) := h.serveLists ..

theorem Sound.serveRest {s : State} (h : Sound s) (v u : Nat) : Sound (s.serveRest v u) := .ite h ((h.modSite ..).serveLists ..)

theorem Sound.enlist {s : State} (h : Sound s) (m : Msg) (g : Nat) (op : ReqOp) : Sound (s.enlist m g op) := by
  unfold State.enlist
  dsimp only
  split
  · refine Sound.testHalt ?_ _
    split
    · exact .ite ((Sound.ite ((h.repark ..).count ..) h).setSite ..) (((Sound.ite ((h.repark ..).count ..) h).setSite ..).reply ..)
    · exact .ite (h.setSite ..) ((h.setSite ..).reply ..)
  · exact .ite (h.setSite ..) ((h.setSite ..).reply ..)

theorem Sound.inspectedTo {s : State} (h : Sound s) (n i : Nat) : Sound (s.inspectedTo n i) := h.record

/-- A home's request is sound when the operation that it performs is (R99). -/
theorem Sound.atHome {s : State} {act : State → Msg → State} (h : Sound s) (m : Msg) (fe : Bool) (n : Nat) (gs : List Nat)
    (ha : ∀ s m, Sound s → Sound (act s m)) : Sounds (s.atHome m fe n gs act) := by
  unfold State.atHome
  split
  · exact .some ((h.consume _).reply ..)
  · split
    · exact .none
    · split
      · exact .none
      · next e => exact .some ((((h.readOver ..).sound (congrArg Inspected.after e)).consume _).reply ..)
      · next e =>
        have ht := (h.readOver ..).sound (congrArg Inspected.after e)
        split
        · exact .some (ha _ _ (ht.consume _))
        · exact .some (ht.inspectedTo ..)
      · exact .ite .none (.some (ha _ _ (h.consume _)))

theorem Sound.raiseTag {s : State} (h : Sound s) (m : Msg) : Sound (s.raiseTag m) := by
  unfold State.raiseTag
  split
  · exact h
  · exact .ite (h.addTc ..) (h.raise ..)

theorem Sound.performRead {s : State} (h : Sound s) (m : Msg) : Sound (s.performRead m) := h.reply ..

theorem Sound.repair {s : State} (h : Sound s) (m : Msg) : Sound (s.repair m) := h.freshen _

theorem Sound.performWrite {s : State} (h : Sound s) (m : Msg) : Sound (s.performWrite m) := (((h.repair _).store ..).raiseTag _).reply ..

theorem Sound.performWriteFull {s : State} (h : Sound s) (m : Msg) :
    Sound (s.performWriteFull m) := (((((h.freshen _).store ..).each (fun _ _ hs => hs.fill ..) _).raiseTag _).reply ..).serveLists ..

theorem Sound.performLdf {s : State} (h : Sound s) (m : Msg) : Sound (s.performLdf m) := .ite (h.reply ..) (h.enlist ..)

theorem Sound.performLdfc {s : State} (h : Sound s) (m : Msg) :
    Sound (s.performLdfc m) := .ite ((((h.reply ..).drain ..).fire ..).serveLists ..) (h.enlist ..)

theorem Sound.performLdfn {s : State} (h : Sound s) (m : Msg) : Sound (s.performLdfn m) := h.reply ..

theorem Sound.performStef {s : State} (h : Sound s) (m : Msg) :
    Sound (s.performStef m) := .ite (h.enlist ..) (((((h.freshen _).store ..).fill ..).reply ..).serveLists ..)

theorem Sound.performClre {s : State} (h : Sound s) (m : Msg) : Sound (s.performClre m) := (((h.drain ..).fire ..).reply ..).serveLists ..

theorem Sound.performSetf {s : State} (h : Sound s) (m : Msg) : Sound (s.performSetf m) := (((h.fill ..).fire ..).reply ..).serveLists ..

theorem Sound.performVldf {s : State} (h : Sound s) (m : Msg) (c : Bool) : Sound (s.performVldf m c) := by
  unfold State.performVldf
  split
  · exact h.enlist ..
  · exact .ite (((h.reply ..).each (fun _ _ hs => (hs.drain ..).fire ..) _).serveLists ..) (h.reply ..)

theorem Sound.performNibble {s : State} (h : Sound s) (m : Msg) : Sound (s.performNibble m) := ((h.repair _).store ..).reply ..

theorem Sound.performAmo {s : State} (h : Sound s) (m : Msg) (op : AmoOp) : Sound (s.performAmo m op) := ((h.store ..).raiseTag _).reply ..

theorem Sound.performFamo {s : State} (h : Sound s) (m : Msg) (op : FamoOp) : Sound (s.performFamo m op) := (h.store ..).reply ..

end Sys2Proof
end

section
/-! Accesses, translation and the turn keep the state sound (R79-R84, R98, R102, R122-R124, R135-R142, R193-R200, R290-R297). -/

namespace Sys2Proof

open Sys2Proof.Machine

theorem Sound.mendL1d {s : State} (h : Sound s) (c n : Nat) : Sound (s.mendL1d c n) := by
  unfold State.mendL1d
  split
  · exact h
  · exact .ite h ((h.modCore ..).lineEvent ..)

theorem Sound.lookL1d {s : State} (h : Sound s) (c : Nat) (a : Machine.Acc) : Sound (s.lookL1d c a).after := by
  unfold State.lookL1d
  dsimp only
  split
  · exact h.mendL1d ..
  · split
    · exact h.mendL1d ..
    · split
      · split
        · exact ((h.mendL1d ..).setCore ..).count ..
        · exact h.mendL1d ..
      · split
        · exact h.mendL1d ..
        · exact ((h.mendL1d ..).setCore ..).count ..

theorem Sound.wakeRelease {s : State} (h : Sound s) (k : Nat) (c : Machine.Cont) :
    Sound (s.wakeRelease k c) := .ite ((h.wake _).modStrand ..) (h.wake _)

theorem Sound.settle {s : State} (h : Sound s) (k : Nat) : Sound (s.settle k) := by
  unfold State.settle
  dsimp only
  split
  · split
    · exact .ite h (h.wake _)
    · exact .ite h (h.wake _)
    · exact .ite (h.wakeRelease ..) h
    · exact .ite h (h.wake _)
    · exact .ite (h.trapEntry ..) h
    · exact .ite (.ite (h.completed ..) h) h
    · exact .ite (.ite (h.wake _) h) (.ite (.ite (h.wake _) h) h)
    · exact h
  · exact h

theorem Sound.relaxedDone {s : State} (h : Sound s) (k t : Nat) (d : Option (List Byte)) : Sound (s.relaxedDone k t d) := (h.modStrand ..).settle _

theorem Sound.takeLate {s : State} (h : Sound s) (k : Nat) : Sound (s.takeLate k) := by
  unfold State.takeLate
  split
  · exact h
  · exact (h.modStrand ..).takeFault ..

theorem Sound.lateFault {s : State} (h : Sound s) (k : Nat) (f : Late) : Sound (s.lateFault k f) := by
  unfold State.lateFault
  dsimp only
  split
  · split
    · exact (h.modStrand ..).withdrawFe _
    · split
      · exact h.modStrand ..
      · exact .ite (((h.modStrand ..).dropWaiter _).wake _) (h.modStrand ..)
  · exact .ite ((h.modStrand ..).takeLate _) (h.modStrand ..)
  · exact h.modStrand ..

theorem Sound.dropPort {s : State} (h : Sound s) (v n : Nat) : Sound (s.dropPort v n) := h.modSite ..

theorem Sound.failMiss {s : State} (h : Sound s) (v n code : Nat) :
    Sound (s.failMiss v n code) := h.each (fun _ _ hs => (hs.dropPort ..).localReply ..) _

theorem Sound.popMiss {s : State} (h : Sound s) (c : Nat) : Sound (s.popMiss c) := h.modCore ..

theorem Sound.missFault {s : State} (h : Sound s) (c code : Nat) : Sound (s.missFault c code) := by
  unfold State.missFault
  split
  · exact h
  · exact (h.popMiss _).failMiss ..

theorem Sound.endWalk {s : State} (h : Sound s) (k code : Nat) : Sound (s.endWalk k code) := ((h.missFault ..).restartWalk _).settle _

theorem Sound.faultAt {s : State} (h : Sound s) (c : Code) (a : Option Addr) (kind : Nat) :
    Sound (s.faultAt c a kind) := .ite (h.endWalk ..) (h.takeFault ..)

theorem Sound.reach {s : State} (h : Sound s) (r : Reach) (kind : Nat) {waits : State → Addr → Option State} {body : State → Addr → State}
    (hw : ∀ a, Sounds (waits s a)) (hb : ∀ t a, Sound t → Sound (body t a)) : Sound (s.reach r kind waits body) := by
  unfold State.reach
  dsimp only
  split
  · exact h.held _
  · split
    · exact (h.takePermit ..).faultAt ..
    · split
      · exact h.park ..
      · split
        · next e => exact (hw _).sound e
        · exact hb _ _ (h.takePermit ..)

theorem Sound.eventWait {s : State} (h : Sound s) (q : Machine.Acc) : Sounds (s.eventWait q) := .ite (.some (h.park ..)) (.none)

theorem Sound.plain {s : State} (h : Sound s) (r : Reach) (q : Machine.Acc) (c : Machine.Cont) : Sound (s.plain r q c) := by
  unfold State.plain
  refine Sound.reach h _ _ (fun _ => h.eventWait _) (fun t a hs => ?_)
  dsimp only
  split
  · exact hs.faultAt ..
  · split
    · split
      · next e2 => exact ((hs.lookL1d ..).along e2).modStrand ..
      · next e2 => exact ((hs.lookL1d ..).along e2).faultAt ..
      · next e2 => exact (((hs.lookL1d ..).along e2).park ..).sendAccess _
    · exact (hs.park ..).sendAccess _

theorem Sound.relaxedAccess {s : State} (h : Sound s) (r : Reach) (q : Machine.Acc) (dest : Option Nat) :
    Sound (s.relaxedAccess r q dest) := by
  unfold State.relaxedAccess
  dsimp only
  refine Sound.reach h _ _ (fun a => ?_) (fun t a hs => ?_)
  · split
    · next e => exact .some ((h.eventWait _).sound e)
    · exact .ite (.some (h.park ..)) (.none)
  · split
    · split
      · next e1 => exact ((hs.lookL1d ..).along e1).modStrand ..
      · next e1 => exact ((hs.lookL1d ..).along e1).faultAt ..
      · next e1 => exact ((((hs.lookL1d ..).along e1).fresh.modStrand ..).modStrand ..).sendAccess _
    · exact ((hs.fresh.modStrand ..).modStrand ..).sendAccess _

theorem Sound.orLeaf {s : State} (h : Sound s) (v : Nat) (e : TlbEntry) (w : Bool) : Sound (s.orLeaf v e w) := by
  unfold State.orLeaf
  split
  · exact h.store ..

theorem Sound.orEntry {s : State} (h : Sound s) (v : Nat) (e : TlbEntry) (w : Bool) :
    Sound (s.orEntry v e w) := .ite (h.modSite ..) ((h.orLeaf ..).modSite ..)

theorem Sound.sendMiss {s : State} (h : Sound s) (v : Nat) (p : PortReq) :
    Sounds (s.sendMiss v p) := .ite (.some (h.modSite ..)) (.ite (.ite (.none) (.some (h.modSite ..))) (.some ((((h.setCore ..).modSite ..).count ..).rouse ..)))

theorem Sound.dropPrefetch {s : State} (h : Sound s) (v : Nat) (p : PortReq) : Sound (s.dropPrefetch v p) := (h.dropPort ..).count ..

theorem Sound.mendSlice {s : State} (h : Sound s) (v n : Nat) : Sound (s.mendSlice v n) := by
  unfold State.mendSlice
  split
  · exact h
  · exact .ite h ((h.modSite ..).lineEvent ..)

theorem Sound.readStruck {s : State} (h : Sound s) (v c n : Nat) : Sound (s.readStruck v c n).2 := by
  unfold State.readStruck
  split
  · exact h.mendL1d ..
  · exact h.mendSlice ..

theorem Sound.cachedAccess {s : State} (h : Sound s) (v : Nat) (a : Machine.Acc) (site off : Nat) (mark unread : Bool) :
    Sound (s.cachedAccess v a site off mark unread) := by
  unfold State.cachedAccess
  dsimp only
  split
  · exact (h.readStruck ..).localReply ..
  · split
    · exact .ite (((h.readStruck ..).modCore ..).localReply ..) ((h.readStruck ..).localReply ..)
    · split
      · exact (((Sound.ite (h.readStruck ..) (((h.readStruck ..).modCore ..).count ..)).modSite ..).count ..).localReply ..
      · split
        · exact ((Sound.ite (h.readStruck ..) (((h.readStruck ..).modCore ..).count ..)).count ..).requestLine ..
        · exact ((Sound.ite (h.readStruck ..) (((h.readStruck ..).modCore ..).count ..)).count ..).localReply ..

theorem Sound.bypass {s : State} (h : Sound s) (c : Nat) (a : Machine.Acc) : Sound (s.bypass c a) := (h.flushL1d ..).flushSlice ..

theorem Sound.translated {s : State} (h : Sound s) (v : Nat) (a : Machine.Acc) (e : TlbEntry) : Sound (s.translated v a e) := by
  unfold State.translated
  dsimp only
  split
  · exact h.cachedAccess ..
  · split
    · exact (Sound.ite (h.bypass ..) h).request ..
    · exact (Sound.ite (h.bypass ..) h).localReply ..

theorem Sound.portTranslate {s : State} (h : Sound s) (v n : Nat) : Sounds (s.portTranslate v n) := by
  unfold State.portTranslate
  split
  · exact .none
  · dsimp only
    split
    · exact .none
    · split
      · exact .ite (.some (h.dropPrefetch ..)) (h.sendMiss ..)
      · split
        · exact .some (h.dropPrefetch ..)
        · split
          · exact .none
          · split
            · exact .none
            · split
              · exact .some ((h.dropPort ..).localReply ..)
              · split
                · exact .some ((h.dropPort ..).localReply ..)
                · split
                  · exact .some ((h.dropPort ..).localReply ..)
                  · split
                    · exact .some (((h.dropPort ..).orEntry ..).translated ..)
                    · next e9 => exact .some (((((h.readOver ..).sound (congrArg Inspected.after e9)).dropPort ..).orEntry ..).translated ..)
                    · next e9 => exact .some ((((h.readOver ..).sound (congrArg Inspected.after e9)).dropPort ..).localReply ..)
                    · exact .none

theorem Sound.fqAppend {s : State} (h : Sound s) (v va : Nat) (w1 : Word) : Sound (s.fqAppend v va w1) := by
  unfold State.fqAppend
  dsimp only
  split
  · split
    · exact (h.setSite ..).sendOut _
    · exact h.setSite ..
  · exact h.setSite ..

theorem Sound.monitorFired {s : State} (h : Sound s) (k : Nat) : Sound (s.monitorFired k) := by
  unfold State.monitorFired
  dsimp only
  split
  · split
    · exact (h.modStrand ..).completed ..
    · exact (h.modStrand ..).wake _
  · exact h.modStrand ..

theorem Sound.missInstall {s : State} (h : Sound s) (c : Nat) : Sound (s.missInstall c) := by
  unfold State.missInstall
  split
  · exact h
  · exact .ite ((h.popMiss _).modSite ..) (.ite ((h.popMiss _).each (fun _ _ hs => (hs.dropPort ..).localReply ..) _) (((h.popMiss _).modSite ..).modSite ..))

theorem Sound.pageRecord {s : State} (h : Sound s) (v : Nat) (a : Machine.Acc) (replay : Option Nat) :
    Sound (s.pageRecord v a replay) := .ite ((h.fqAppend ..).count ..) ((((h.fqAppend ..).count ..).modStrand ..).count ..)

theorem Sound.armDropped {s : State} (h : Sound s) (o : Owner) : Sound (s.armDropped o) := by
  unfold State.armDropped
  split
  · exact h.modStrand ..
  · exact h

theorem Sound.missAbsent {s : State} (h : Sound s) (c : Nat) : Sounds (s.missAbsent c) := by
  unfold State.missAbsent
  split
  · exact .some h
  · dsimp only
    split
    · exact .some (h.popMiss _)
    · split
      · exact .some (.ite ((h.popMiss _).dropPort ..) (((((h.popMiss _).dropPort ..).armDropped _).monitorFired _).settle _))
      · split
        · exact .some ((h.popMiss _).dropPort ..)
        · split
          · exact .none
          · split
            · split
              · exact .none
              · split
                · exact .some (((((h.popMiss _).each (fun _ _ hs => hs.dropPort ..) _).modCore ..).pageRecord ..).modStrand ..)
                · exact .some ((((((h.popMiss _).each (fun _ _ hs => hs.dropPort ..) _).modCore ..).pageRecord ..).repark ..).testHalt _)
                · exact .some ((((((h.popMiss _).each (fun _ _ hs => hs.dropPort ..) _).modCore ..).pageRecord ..).repark ..).testHalt _)
                · exact .some ((((h.popMiss _).each (fun _ _ hs => hs.dropPort ..) _).modCore ..).pageRecord ..)
            · exact .some (.ite (((h.popMiss _).dropPort ..).pageRecord ..) ((((((h.popMiss _).dropPort ..).pageRecord ..).repark ..).modStrand ..).testHalt _))

theorem Sound.releaseReplay {s : State} (h : Sound s) (c ix : Nat) : Sound (s.releaseReplay c ix) := by
  unfold State.releaseReplay
  split
  · exact h
  · exact (h.modCore ..).each (fun _ _ hs => hs.sendAccess _) _

theorem Sound.wakeWord {s : State} (h : Sound s) (v : Nat) (w : Word) : Sound (s.wakeWord v w) := by
  unfold State.wakeWord
  dsimp only
  exact .ite h (.ite (h.releaseReplay ..) (.ite (.ite (((((h.modStrand ..).disown ..).modCore ..).dropReplays ..).wake _) ((h.modStrand ..).wake _)) h))

theorem Sound.readClean {s : State} (h : Sound s) (c a : Nat) : Sound (s.readClean c a) := by
  unfold State.readClean
  split
  · exact .ite (h.modCore ..) h
  · exact h

theorem Sound.fetchLine {s : State} (h : Sound s) (k : Nat) (a : Addr) : Sound (s.fetchLine k a) := (h.park ..).sendAccess _

theorem Sound.fetchParity {s : State} (h : Sound s) (k : Nat) (p a : Addr) (l : Line) :
    Sound (s.fetchParity k p a l) := .ite ((h.modCore ..).takeFault ..) (.ite (h.park ..) (((h.modCore ..).raise ..).fetchLine ..))

theorem Sound.fetchInstr {s : State} (h : Sound s) (k : Nat) : Sound (s.fetchInstr k).after := by
  unfold State.fetchInstr
  dsimp only
  split
  · exact h.takeFault ..
  · exact h.fetchLine ..
  · exact h.fetchParity ..
  · split
    · split
      · exact h.takeFault ..
      · exact (h.readClean ..).fetchLine ..
      · exact (h.readClean ..).fetchParity ..
      · split
        · split
          · exact (h.readClean ..).readClean ..
          · exact ((h.readClean ..).readClean ..).raiseFault ..
        · exact ((h.readClean ..).readClean ..).raiseFault ..
    · split
      · split
        · exact h.readClean ..
        · exact (h.readClean ..).raiseFault ..
      · exact (h.readClean ..).raiseFault ..

theorem Sound.coreCycle {s : State} (h : Sound s) (c : Nat) : Sound (s.coreCycle c) := ((h.modCore ..).count ..).modCore ..

theorem Sound.issued {s : State} (h : Sound s) (k : Nat) (i : Instr) : Sound (s.issued k i) := .ite h (h.count ..)

end Sys2Proof
end

section
/-! Control, memory and ordering instructions keep the state sound (R104-R106, R129-R134, R221-R224, R282-R310). -/

namespace Sys2Proof

open Sys2Proof.Machine

theorem Sound.jump {s : State} (h : Sound s) (a : Addr) : Sound (s.jump a) := h.modStrand ..

theorem Sound.branch {s : State} (h : Sound s) (a : BitVec 8) (i : BitVec 16) (c : Word → Bool) :
    Sound (s.branch a i c) := h.issue _ _ (.ite (h.jump _) (h.pass _))

theorem Sound.jumpReg {s : State} (h : Sound s) (d a : Nat) : Sound (s.jumpReg d a) := .ite (h.faultAt ..) (h.modStrand ..)

theorem Sound.modFetcher {s : State} (h : Sound s) (c e : Nat) (f : Fetcher → Fetcher) : Sound (s.modFetcher c e f) := h.modCore ..

theorem Sound.closeNest {s : State} (h : Sound s) (v e : Nat) : Sound (s.closeNest v e) := .ite (h.modGang ..) h

theorem Sound.joinNest {s : State} (h : Sound s) (c e : Nat) : Sound (s.joinNest c e) := h.modFetcher ..

theorem Sound.nestOp {s : State} (h : Sound s) (c e : Nat) (x : List Nat) :
    Sounds (s.nestOp c e x) := .ite (.none) (.ite (.some (((h.each (fun _ _ hs => hs.modFetcher ..) _).modGang ..).joinNest ..)) (.ite (.some h) (.ite
        (.none) (.some (h.joinNest ..)))))

theorem Sound.askUnit {s : State} (h : Sound s) (c : Machine.Cont) (op : MsgOp) (d : List Byte) :
    Sound (s.askUnit c op d) := (h.park ..).localReply ..

theorem Sound.execNest {s : State} (h : Sound s) (i : BitVec 2) : EndsSound (execNest i s) := by
  unfold Machine.execNest
  dsimp only
  split
  · next e => exact .next (((h.nestOp ..).sound e).askUnit ..)
  · exact .next (h.askUnit ..)

theorem Sound.handOut {s : State} (h : Sound s) (k : Nat) (body : Addr) : Sound (s.handOut k body) := (h.modFetcher ..).modStrand ..

theorem Sound.serveNext (n c e : Nat) {s : State} (h : Sound s) : Sound (State.serveNext n c e s) := by
  induction n generalizing s with
  | zero => exact h
  | succ n ih =>
    unfold State.serveNext
    dsimp only
    split
    · exact h.modFetcher ..
    · exact .ite h (ih (((h.modFetcher ..).handOut ..).wake _))

theorem Sound.nestClaim {s : State} (h : Sound s) (k : Nat) :
    Sounds (s.nestClaim k) := .ite (.ite (.some (((h.modFetcher ..).each (fun _ _ hs => hs.completed ..) _).closeNest ..)) (.some
        (((h.modGang ..).modFetcher ..).serveNext ..))) (.none)

theorem Sound.trapN {s : State} (h : Sound s) (n : Nat) :
    Sound (s.trapN n) := .ite (.ite (.ite (h.park ..) ((h.raise ..).stop _)) (h.raiseFault ..)) (.ite (h.trapEntry ..) (h.park ..))

theorem Sound.loadAt {s : State} (h : Sound s) (ty : LoadTy) (d seg off adv : Nat) : Sound (s.loadAt ty d seg off adv) := h.plain ..

theorem Sound.storeAt {s : State} (h : Sound s) (n : Nat) (w : Word) (seg off adv : Nat) : Sound (s.storeAt n w seg off adv) := h.plain ..

theorem Sound.loadM {s : State} (h : Sound s) (ty : LoadTy) (d x : BitVec 8) (g : BitVec 3) (o : BitVec 5) :
    Sound (s.loadM ty d x g o) := h.issue _ _ (h.loadAt ..)

theorem Sound.storeM {s : State} (h : Sound s) (n : Nat) (d x : BitVec 8) (g : BitVec 3) (o : BitVec 5) :
    Sound (s.storeM n d x g o) := h.issue _ _ (h.storeAt ..)

theorem Sound.feM {s : State} (h : Sound s) (op : ReqOp) (need n kind : Nat) (d : List Byte) (x : BitVec 8) (g : BitVec 3) (o : BitVec 5)
    (c : Machine.Cont) :
    Sound (s.feM op need n kind d x g o c) := h.plain ..

theorem Sound.amoM {s : State} (h : Sound s) (op : AmoOp) (d x : BitVec 8) (g : BitVec 3) (o : BitVec 5) :
    Sound (s.amoM op d x g o) := h.issue _ _ (h.relaxedAccess ..)

theorem Sound.famoM {s : State} (h : Sound s) (op : FamoOp) (d x : BitVec 8) (g : BitVec 3) (o : BitVec 5) :
    Sound (s.famoM op d x g o) := h.issue _ _ (h.plain ..)

theorem Sound.prefetch {s : State} (h : Sound s) (k : Nat) (a : Addr) : Sound (s.prefetch k a) := .ite h (h.toPort ..)

theorem Sound.execPref {s : State} (h : Sound s) (x : BitVec 8) (g : BitVec 3) (o : BitVec 5) : EndsSound (execPref x g o s) := by
  unfold Machine.execPref
  refine EndsSound.next (Sound.issue h _ _ (Sound.withPermit h _ _ ?_))
  dsimp only
  refine Sound.pass ?_ _
  split
  · exact .ite ((h.takePermit ..).prefetch ..) ((h.takePermit ..).count ..)
  · exact (h.takePermit ..).count ..

theorem Sound.testFence {s : State} (h : Sound s) (k : Nat) : Sound (s.testFence k) := by
  unfold State.testFence
  split
  · exact .ite (h.completed ..) (h.testHalt _)
  · exact h

theorem Sound.awaitFlush {s : State} (h : Sound s) (mode n : Nat) (txns : List Nat) : Sound (s.awaitFlush mode n txns) := .ite (h.pass _) (h.park ..)

theorem Sound.relActions {s : State} (h : Sound s) (scope : Nat) :
    Sound (s.relActions scope) := .ite (.ite h (h.flushL1d ..)) ((Sound.ite h (h.flushL1d ..)).flushSlice ..)

theorem Sound.acqActions {s : State} (h : Sound s) (scope : Nat) :
    Sound (s.acqActions scope) := .ite (.ite h (h.flushL1d ..)) ((Sound.ite h (h.flushL1d ..)).flushSlice ..)

/-- A fence whose actions keep the state sound keeps it so (R106, R305). -/
theorem Sound.fence {s : State} (h : Sound s) (mode scope : Nat) {act : State → State} (ha : Sound (act s)) : Sound (s.fence mode scope act) :=
  .ite (ha.awaitFlush ..) (h.park ..)

theorem Sound.range {s : State} (h : Sound s) (d x : BitVec 8) (g : BitVec 3) (o : BitVec 5) (drop : Bool) :
    Sound (s.range d x g o drop) := by
  unfold State.range
  refine Sound.issue h _ _ ?_
  dsimp only
  split
  · exact h.pass _
  · split
    · exact h.faultAt ..
    · exact .ite (h.pass _) (((h.flushL1d ..).flushSlice ..).awaitFlush ..)

theorem Sound.wakeBarrier {s : State} (h : Sound s) (v e : Nat) : Sound (s.wakeBarrier v e) := h.each (fun _ _ hs => .ite (hs.completed ..) hs) _

theorem Sound.countFourth {s : State} (h : Sound s) (v e : Nat) : Sound (s.countFourth v e) := by
  unfold State.countFourth
  refine Sound.each (fun t a hs => ?_) _ h
  dsimp only
  split
  · split
    · exact (hs.modGang ..).modStrand ..
    · exact (hs.modGang ..).completed ..
  · exact hs

theorem Sound.phases (n v e : Nat) {s : State} (h : Sound s) : Sound (State.phases n v e s) := by
  induction n generalizing s with
  | zero => exact h
  | succ n ih =>
    unfold State.phases
    exact .ite (ih (((h.modGang ..).countFourth ..).wakeBarrier ..)) h

theorem Sound.testPhase {s : State} (h : Sound s) (v e : Nat) : Sound (s.testPhase v e) := Sound.phases _ v e h

theorem Sound.barrierArrival {s : State} (h : Sound s) (k : Nat) : Sounds (s.barrierArrival k) := by
  unfold State.barrierArrival
  dsimp only
  split
  · exact .ite (.some (((h.repark ..).modStrand ..).testHalt _)) (.ite (.some (.ite
        (((((h.modGang ..).modStrand ..).testPhase ..).repark ..).testHalt _) (((h.modGang ..).modStrand ..).testPhase ..))) (.some
            (((h.modGang ..).completed ..).testPhase ..)))
  · exact .none

theorem Sound.arrive {s : State} (h : Sound s) (sync : Bool) : Sound (s.arrive sync) := .ite (h.park ..) (h.park ..)

theorem Sound.barAnswer {s : State} (h : Sound s) (k : Nat) : Sound (s.barAnswer k) := .ite (h.completed ..) (((h.repark ..).modStrand ..).testHalt _)

theorem Sound.removeWatch {s : State} (h : Sound s) (k d u g : Nat) : Sound (s.removeWatch k d u g) := by
  unfold State.removeWatch
  dsimp only
  split
  · exact h.request ..
  · exact h

theorem Sound.sendRemoval {s : State} (h : Sound s) (k : Nat) : Sound (s.sendRemoval k) := by
  unfold State.sendRemoval
  split
  · exact h
  · exact h.removeWatch ..

theorem Sound.execMonArm {s : State} (h : Sound s) (x : BitVec 8) (g : BitVec 3) (o : BitVec 5) : EndsSound (execMonArm x g o s) := by
  unfold Machine.execMonArm
  refine EndsSound.next (Sound.issue h _ _ ?_)
  dsimp only
  split
  · exact h.faultAt ..
  · exact .ite (h.faultAt ..) (((h.sendRemoval _).fresh.modStrand ..).sendAccess _)

end Sys2Proof
end

section
/-! Claims, page-table walks and strands keep the state sound (R144, R155, R170-R187, R198, R335-R342). -/

namespace Sys2Proof

open Sys2Proof.Machine

theorem Sound.zeroBytes {s : State} (h : Sound s) (lo n : Nat) : Sound (s.zeroBytes lo n) := ⟨Memory.wf_filter h.1 _, h.2⟩

theorem Sound.zeroGranule {s : State} (h : Sound s) (v b g : Nat) : Sound (s.zeroGranule v b g) := h.zeroBytes ..

theorem Sound.grant {s : State} (h : Sound s) (k p n : Nat) :
    Sound (s.grant k p n) := .ite (h.setStrand ..) (.ite (((h.modGang ..).each (fun _ _ hs => hs.zeroGranule ..) _).serveChanged ..)
        ((h.modGang ..).modCore ..))

theorem Sound.begin {s : State} (h : Sound s) (k : Nat) (x : Strand) : Sound (s.begin k x) := (h.modCore ..).setStrand ..

theorem Sound.drainRow {s : State} (h : Sound s) (c : Nat) : Sound (s.drainRow c) := by
  unfold State.drainRow
  split
  · exact h
  · split
    · exact (h.modCore ..).begin ..
    · exact h

theorem Sound.scanPool (v p : Nat) (ws : List Waiter) {s : State} (h : Sound s) : Sound (State.scanPool v p ws s) := by
  induction ws generalizing s with
  | nil => exact h
  | cons w ws ih =>
    unfold State.scanPool
    have hg := (h.grant w.k p w.n).dropWaiter w.k
    exact .ite (ih h) (.ite h (.ite (ih (.ite (hg.drainRow _) (hg.completed ..))) (ih h)))

theorem Sound.scanOne {s : State} (h : Sound s) (v p : Nat) : Sound (s.scanOne v p) := Sound.scanPool v p _ h

theorem Sound.report {s : State} (h : Sound s) (v : Nat) : Sound (s.report v) := by
  unfold State.report
  split
  · exact (h.modSite ..).each (fun _ _ hs => .ite (hs.modGate ..) hs) _

theorem Sound.scanAll {s : State} (h : Sound s) (v : Nat) : Sound (s.scanAll v) := (h.each (fun _ _ hs => hs.scanOne ..) _).report _

theorem Sound.giveUp {s : State} (h : Sound s) (k p n : Nat) : Sound (s.giveUp k p n) := .ite (h.modStrand ..) (.ite (h.modGang ..) (h.modGang ..))

theorem Sound.release {s : State} (h : Sound s) (l : List (Nat × Nat)) :
    Sound (s.release l) := .ite (((h.each (fun _ _ hs => hs.giveUp ..) _).scanAll _).modStrand ..) (h.park ..)

theorem Sound.execRel {s : State} (h : Sound s) (a : BitVec 8) (kd b : BitVec 2) : EndsSound (execRel a kd b s) := by
  unfold Machine.execRel
  refine EndsSound.next ?_
  split
  · exact h.release _
  · exact h.issue _ _ (.ite (h.raiseFault ..) (.ite (h.pass _) (h.release _)))

theorem Sound.claimQuery {s : State} (h : Sound s) (d a : BitVec 8) (f : State → Nat) : Sound (s.claimQuery d a f) := h.issue _ _ (h.askUnit ..)

theorem Sound.releaseCaches {s : State} (h : Sound s) (v : Nat) (cores : List Nat) :
    Sound (s.releaseCaches v cores) := (h.each (fun _ _ hs => hs.flushL1d ..) _).flushSlice ..

theorem Sound.gangDone {s : State} (h : Sound s) (rim : Nat) (launch : BitVec 32) (aborted : Bool) :
    Sound (s.gangDone rim launch aborted) := h.modGate ..

theorem Sound.completionAdd {s : State} (h : Sound s) (v : Nat) (g : Gang) : Sound (s.completionAdd v g) := by
  unfold State.completionAdd
  dsimp only
  split
  · exact h.gangDone ..
  · split
    · exact (h.raise ..).gangDone ..
    · exact (h.modGate ..).fresh.record.sendOut _

theorem Sound.gangSaved {s : State} (h : Sound s) (g : Gang) : Sound (s.gangSaved g) := h.each (fun _ _ hs => hs.modGate ..) _

theorem Sound.finishRelease {s : State} (h : Sound s) (v : Nat) (r : Release) : Sound (s.finishRelease v r) := by
  unfold State.finishRelease
  split
  · exact h
  · dsimp only
    split
    · exact .ite h (((h.modSite ..).gangSaved _).completionAdd ..)
    · exact (h.modSite ..).gangSaved _
    · exact .ite h (((h.modSite ..).raise ..).gangDone ..)

theorem Sound.releasesDone {s : State} (h : Sound s) (v : Nat) : Sound (s.releasesDone v) := h.each (fun _ _ hs => hs.finishRelease ..) _

theorem Sound.releaseThen {s : State} (h : Sound s) (v : Nat) (cores : List Nat) (w : Released) :
    Sound (s.releaseThen v cores w) := ((h.releaseCaches ..).modSite ..).releasesDone _

theorem Sound.filterStrands {s : State} (h : Sound s) (p : Nat × Strand → Bool) {full : List Nat} {flaws : List (Nat × Nat)} {net : List Msg}
    {txns : List Txn} {contexts : List Context} {nextId batch freeIx cur : Nat} {agenda : List Sched} {instant : Option (List TcChange)} :
    Sound { mem := s.mem, full, flaws, strands := s.strands.filter p, cores := s.cores, bowers := s.bowers, sites := s.sites, net, txns, contexts,
            nextId, batch, freeIx, agenda, cur, instant } :=
  ⟨h.1, h.2.1.filter p, h.2.2⟩

theorem Sound.endGang {s : State} (h : Sound s) (v e : Nat) : Sound (s.endGang v e) :=
  (((((h.filterStrands _).modSite ..).each (fun _ _ hs => hs.modCore ..) _).releaseThen ..)).scanAll _

theorem Sound.endCrew {s : State} (h : Sound s) (c e : Nat) :
    Sound (s.endCrew c e) := .ite (((h.modGang ..).modFetcher ..).endGang ..) (((((h.modGang ..).modFetcher ..).closeNest ..).testPhase ..).scanAll _)

theorem Sound.abortComplete {s : State} (h : Sound s) (v e : Nat) : Sounds (s.abortComplete v e) := .ite (.some (h.endGang ..)) .none

theorem Sound.sysInspect {s : State} (h : Sound s) (gs : List Nat) : Sound (s.sysInspect gs) := h.foldl (fun _ _ hs => hs.inspect ..) _

theorem Sound.markLeaves {s : State} (h : Sound s) (v : Nat) (w : Bool) (es : List TlbEntry) :
    Sound (s.markLeaves v w es) := h.each (fun _ _ hs => hs.orLeaf ..) _

theorem Sound.sysSeen {s : State} (h : Sound s) (v : Nat) (sup : Bool) (a : Addr) (n : Nat) :
    Sound (s.sysSeen v sup a n) := (h.sysInspect _).markLeaves ..

theorem Sound.writeByte {s : State} (h : Sound s) (a : Nat) (b : Byte) : Sound { s with mem := Memory.write a b s.mem } :=
  ⟨Memory.wf_write h.1 a b, h.2⟩

theorem Sound.sysPut {s : State} (h : Sound s) (g : Option Nat) (k : Nat) (b : Byte) : Sound (s.sysPut g k b) := by
  unfold State.sysPut
  dsimp only
  split
  · exact h.store ..
  · split
    · exact (h.writeByte k b).modGate ..
    · exact h.writeByte k b

theorem Sound.sysWrite {s : State} (h : Sound s) (v : Nat) (a : Addr) (l : List Byte) :
    Sound (s.sysWrite v a l) := ((h.sysInspect _).freshen _).each (fun _ _ hs => hs.sysPut ..) _

theorem Sound.freeSlot {s : State} (h : Sound s) (k : Nat) : Sound (s.freeSlot k) := ⟨h.1, h.2.1.del k, h.2.2⟩

theorem Sound.helperEnded {s : State} (h : Sound s) (k : Nat) :
    Sound (s.helperEnded k) := .ite h (.ite ((h.modStrand ..).completed ..) (h.modStrand ..))

theorem Sound.endStrand {s : State} (h : Sound s) (k : Nat) :
    Sound (s.endStrand k) := .ite (((h.helperEnded _).freeSlot _).endCrew ..) (((h.helperEnded _).freeSlot _).scanAll _)

theorem Sound.endDrain {s : State} (h : Sound s) (k : Nat) : Sound (s.endDrain k) := (h.modStrand ..).scanAll _

theorem Sound.liveSeen {s : State} (h : Sound s) (v : Nat) (live : Addr) (e : Nat) :
    Sound (s.liveSeen v live e) := h.each (fun _ _ hs => hs.sysSeen ..) _

end Sys2Proof
end

section
/-! The launch units keep the state sound (R145-R164, R180, R191). -/

namespace Sys2Proof

open Sys2Proof.Machine

theorem Sound.startLaunch {s : State} (h : Sound s) (g : Nat) (m : Desc) (queue : Option Nat) (tag : BitVec 32) (prio : Nat) (node : Option
    (Nat × Nat)) :
    Sound (s.startLaunch g m queue tag prio node) := h.modGate ..

theorem Sound.submitDevice {s : State} (h : Sound s) (g : Nat) (m : Desc) (st : Nat) : Sound (s.submitDevice g m st).2 := by
  unfold State.submitDevice
  split
  · exact h
  · split
    · exact h
    · split
      · exact h
      · split
        · exact h
        · exact h.startLaunch ..

theorem Sound.launchSubmission {s : State} (h : Sound s) (n : Nat) : Sounds (s.launchSubmission n) := by
  unfold State.launchSubmission
  split
  · split
    · dsimp only
      exact .ite (.some ((h.consume _).reply ..)) (.some (((h.consume _).submitDevice ..).reply ..))
    · exact .none
  · exact .none

theorem Sound.launchPiece {s : State} (h : Sound s) (k d : Nat) (a : Addr) (buf : List Byte) :
    Sound (s.launchPiece k d a buf) := (h.modStrand ..).sendAccess _

theorem Sound.launchStatus {s : State} (h : Sound s) (k d r : Nat) : Sound (s.launchStatus k d r) := (h.modStrand ..).completed ..

theorem Sound.launchSend {s : State} (h : Sound s) (k d : Nat) (at_ : Addr) (buf : List Byte) : Sound (s.launchSend k d at_ buf) := by
  unfold State.launchSend
  dsimp only
  split
  · exact h.launchStatus ..
  · exact (h.fresh.record.modStrand ..).sendOut _

theorem Sound.launchGo {s : State} (h : Sound s) (k d : Nat) (a : Addr) :
    Sound (s.launchGo k d a) := .ite (h.takeFault ..) (.ite (h.takeFault ..) (h.launchPiece ..))

theorem Sound.modQueue {s : State} (h : Sound s) (g q : Nat) (f : HostQueue → HostQueue) : Sound (s.modQueue g q f) := h.modGate ..

theorem Sound.checkQueue {s : State} (h : Sound s) (g q : Nat) :
    Sounds (s.checkQueue g q) := .ite (.ite .none (.some ((h.modQueue ..).raise ..))) (.some h)

theorem Sound.writeQtail {s : State} (h : Sound s) (g q : Nat) (w : Word) : Sounds (s.writeQtail g q w) := (h.modQueue ..).checkQueue ..

theorem Sound.writeQctl {s : State} (h : Sound s) (g q : Nat) (w : Word) : Sounds (s.writeQctl g q w) := (h.modQueue ..).checkQueue ..

theorem Sound.writeCread {s : State} (h : Sound s) (g q : Nat) (w : Word) : Sound (s.writeCread g q w) := h.modQueue ..

theorem Sound.writeBytes {s : State} (h : Sound s) (a en : Nat) (l : List Byte) : Sound { s with mem := Memory.writeN s.mem a en l } :=
  ⟨Memory.wf_writeN h.1 a en l, h.2⟩

theorem Sound.writeRecord {s : State} (h : Sound s) (g q : Nat) : Sounds (s.writeRecord g q) := by
  unfold State.writeRecord
  dsimp only
  split
  · exact .none
  · exact .ite .none (.some (((h.writeBytes ..).modQueue ..).modGate ..))

theorem Sound.taken {s : State} (h : Sound s) (g q : Nat) : Sound (s.taken g q) := h.modQueue ..

theorem Sound.finishCommand {s : State} (h : Sound s) (g q op st tag : Nat) : Sound (s.finishCommand g q op st tag) := h.record.modGate ..

theorem Sound.cmdLaunch {s : State} (h : Sound s) (g q : Nat) : Sounds (s.cmdLaunch g q) := by
  unfold State.cmdLaunch
  split
  · exact .none
  · dsimp only
    split
    · exact .some ((h.taken ..).finishCommand ..)
    · split
      · exact .none
      · split
        · exact .some (((h.taken ..).sysInspect _).finishCommand ..)
        · exact .ite (.some (((h.taken ..).sysInspect _).finishCommand ..)) (.ite (.some (((h.taken ..).sysInspect _).finishCommand ..)) (.some
              ((((h.taken ..).sysInspect _).startLaunch ..).modQueue ..)))

theorem Sound.cmdReplay {s : State} (h : Sound s) (g q : Nat) :
    Sounds (s.cmdReplay g q) := .ite .none (.ite (.some ((h.taken ..).finishCommand ..)) (.some
        (((h.taken ..).record.record.modGate ..).modQueue ..)))

theorem Sound.cmdPreempt {s : State} (h : Sound s) (g q : Nat) :
    Sounds (s.cmdPreempt g q) := .ite .none (.ite (.some ((h.taken ..).finishCommand ..)) (.ite (.some ((h.taken ..).modGate ..)) (.some
        ((h.taken ..).modGate ..))))

theorem Sound.cmdDrain {s : State} (h : Sound s) (g q : Nat) : Sounds (s.cmdDrain g q) := .ite .none (.some ((h.taken ..).finishCommand ..))

theorem Sound.cmdReserved {s : State} (h : Sound s) (g q : Nat) : Sounds (s.cmdReserved g q) := .ite .none (.some ((h.taken ..).finishCommand ..))

theorem Sound.rejectReplay {s : State} (h : Sound s) (g : Nat) (r : ReplayCmd) (st : Nat) :
    Sound (s.rejectReplay g r st) := (h.modGate ..).modQueue ..

theorem Sound.replayStart {s : State} (h : Sound s) (g i : Nat) : Sounds (s.replayStart g i) := by
  unfold State.replayStart
  split
  · exact .none
  · dsimp only
    split
    · exact .none
    · split
      · exact .some ((h.sysInspect _).rejectReplay ..)
      · split
        · exact .some ((h.sysInspect _).rejectReplay ..)
        · split
          · exact .some ((h.sysInspect _).rejectReplay ..)
          · split
            · split
              · exact .some ((h.sysInspect _).rejectReplay ..)
              · split
                · exact .some ((h.sysInspect _).rejectReplay ..)
                · split
                  · exact .ite .none (.some (((h.sysInspect _).sysInspect _).rejectReplay ..))
                  · exact .ite .none (.some ((((((h.sysWrite ..).each
                        (fun _ _ hs => hs.sysWrite ..) _).sysInspect _).sysInspect _).modGate ..).modQueue ..))
            · exact .some ((h.sysInspect _).rejectReplay ..)

theorem Sound.nodeStart {s : State} (h : Sound s) (g i n : Nat) : Sounds (s.nodeStart g i n) := by
  unfold State.nodeStart
  split
  · exact .none
  · split
    · split
      · exact .none
      · dsimp only
        split
        · exact .none
        · split
          · exact .some (((h.sysInspect _).modGate ..).modGate ..)
          · exact .ite (.some (((h.sysInspect _).modGate ..).modGate ..)) (.ite (.some (((h.sysInspect _).modGate ..).modGate ..)) (.some
                (((h.sysInspect _).modGate ..).startLaunch ..)))
    · exact .none

theorem Sound.staleFetches {s : State} (h : Sound s) (c : Nat) : Sound (s.staleFetches c) := h.record

theorem Sound.prepareCore {s : State} (h : Sound s) (c e : Nat) : Sound (s.prepareCore c e) := ((h.flushL1d ..).staleFetches _).modCore ..

theorem Sound.acquireCaches {s : State} (h : Sound s) (v e : Nat) (cores : List Nat) :
    Sound (s.acquireCaches v e cores) := (h.each (fun _ _ hs => hs.prepareCore ..) _).flushSlice ..

theorem Sound.admitGang {s : State} (h : Sound s) (v e : Nat) (l : Launch) (rim : Nat) (cores : List Nat) :
    Sound (s.admitGang v e l rim cores) := by
  unfold State.admitGang
  dsimp only
  exact ((((h.each (fun _ _ hs => hs.modSite ..) _).modSite ..).acquireCaches ..).each (fun _ _ hs => hs.modCore ..) _).each
      (fun _ _ hs => hs.begin ..) _

theorem Sound.modLaunch {s : State} (h : Sound s) (g : Nat) (n : BitVec 32) (f : Launch → Launch) : Sound (s.modLaunch g n f) := h.modGate ..

theorem Sound.gangOffer {s : State} (h : Sound s) (g n v : Nat) : Sounds (s.gangOffer g n v) := by
  unfold State.gangOffer
  split
  · exact .none
  · dsimp only
    split
    · exact .none
    · split
      · exact .some (h.modLaunch ..)
      · split
        · exact .some ((h.admitGang ..).modLaunch ..)
        · exact .some (h.modLaunch ..)

theorem Sound.placeReservation {s : State} (h : Sound s) (g n : Nat) : Sounds (s.placeReservation g n) := by
  unfold State.placeReservation
  split
  · exact .none
  · exact .ite .none (.some (h.each (fun _ _ hs => hs.modSite ..) _))

theorem Sound.stopClaims {s : State} (h : Sound s) (v e : Nat) : Sound (s.stopClaims v e) := h.each (fun _ _ hs => (hs.dropWaiter _).stop _) _

theorem Sound.preemptRequest {s : State} (h : Sound s) (v launch gang : Nat) (area : Addr) :
    Sounds (s.preemptRequest v launch gang area) := by
  unfold State.preemptRequest
  split
  · exact .ite .none (.some h)
  · exact .ite (.some h) (.some ((h.modSite ..).stopClaims ..))

theorem Sound.dropDrain {s : State} (h : Sound s) (o : MOp) : Sound (s.dropDrain o) := by
  unfold State.dropDrain
  split
  · exact .ite (((h.modGang ..).dropWaiter _).freeSlot _) (h.modGang ..)
  · exact h

theorem Sound.unqueueMatrix {s : State} (h : Sound s) (v e : Nat) :
    Sound (s.unqueueMatrix v e) := h.each (fun _ _ hs => ((hs.modCore ..).each (fun _ _ hs1 => (hs1.dropDrain _).stop _) _).each
        (fun _ _ hs1 => hs1.settle _) _) _

theorem Sound.deadline {s : State} (h : Sound s) (v e : Nat) :
    Sounds (s.deadline v e) := .ite (.some (((h.modGang ..).unqueueMatrix ..).each (fun _ _ hs => hs.deadlineStrand _) _)) .none

theorem Sound.wakeMailbox {s : State} (h : Sound s) (c n : Nat) : Sound (s.wakeMailbox c n) := h.each (fun _ _ hs => .ite (hs.wake _) hs) _

theorem Sound.clearCore {s : State} (h : Sound s) (c e : Nat) :
    Sound (s.clearCore c e) := ((h.dropReplays ..).modCore ..).each (fun _ _ hs => hs.wakeMailbox ..) _

theorem Sound.writeContext {s : State} (h : Sound s) (v : Nat) (area : Addr) : Sound (s.writeContext v area) := (h.record.sysWrite ..).markLeaves ..

theorem Sound.rekeyHost {s : State} (h : Sound s) (f : Nat → Nat) : Sound (s.rekeyHost f) := h.mapSites fun t => { t with gate := t.gate.rekeyed f }

theorem Sound.gangSave {s : State} (h : Sound s) (v e : Nat) : Sounds (s.gangSave v e) := by
  unfold State.gangSave
  dsimp only
  split
  · refine .some (Sound.scanAll (Sound.releaseThen (Sound.modSite (Sound.filterStrands (Sound.rekeyHost (Sound.sysInspect (Sound.writeContext
        (Sound.each (fun _ _ hs => hs.clearCore ..) _ ?_) _ _) _) _) _) _ _) _ _ _) _)
    exact h.fresh.each (fun _ _ hs => hs.sendRemoval _) _
  · exact .none

theorem Memory.wf_foldl_write {α : Type} {m : List Host.Cell} (h : Memory.wf m = true) (a : α → Nat) (b : α → Byte) (l : List α) :
    Memory.wf (l.foldl (fun m x => Memory.write (a x) (b x) m) m) = true := by
  induction l generalizing m with
  | nil => exact h
  | cons x l ih => exact ih (Memory.wf_write h ..)

theorem Sound.restoreStore {s : State} (h : Sound s) (v : Nat) (x : Context) : Sound (s.restoreStore v x) := by
  have hz := h.each (fun _ q hs => hs.each (fun _ g ht => ht.zeroGranule v q.1 g) q.2) x.gang.stores
  refine Sound.each (fun _ _ hs => hs.serveChanged ..) _ ⟨?_, hz.2⟩
  exact Memory.wf_foldl_write hz.1 _ _ _

theorem Sound.resume {s : State} (h : Sound s) (i : Nat) : Sounds (s.resume i) := by
  unfold State.resume
  split
  · exact .none
  · split
    · exact .none
    · dsimp only
      split
      · exact .none
      · split
        · exact .some (h.modSite ..)
        · split
          · exact .none
          · refine .some (Sound.wakeBarrier (Sound.countFourth (Sound.report (Sound.testWatched (Sound.restoreStore (Sound.rekeyHost (Sound.record
                (Sound.modSite (Sound.each (fun _ _ hs => hs.setStrand ..) _ ?_) _ _)) _) _ _) _ _) _) _ _) _ _)
            exact (h.acquireCaches ..).each (fun _ _ hs => hs.modCore ..) _

theorem Sound.withdrawResumption {s : State} (h : Sound s) (i : Nat) : Sounds (s.withdrawResumption i) :=
  .ite (.some (h.mapSites fun t => { t with marks := t.marks.filter (fun m => m.1 != i), resuming := Tab.del i t.resuming })) .none

end Sys2Proof
end

section
/-! The vector unit and the matrix engine keep the state sound (R312-R350). -/

namespace Sys2Proof

open Sys2Proof.Machine

theorem Sound.enqueue {s : State} (h : Sound s) (o : VOp) : Sound (s.enqueue o) := (h.modCore ..).park ..

theorem Sound.vector {s : State} (h : Sound s) (p : PClass) (names : List Nat) (f : Strand → VResult) :
    Sound (s.vector p names f) := h.issue _ _ (h.withPermit _ _ ((h.takePermit ..).enqueue _))

theorem Sound.lanes {s : State} (h : Sound s) (p : PClass) (names : List Nat) (d t : BitVec 4) (k : BitVec 2) (z : BitVec 1)
    (f : Strand → Nat → Nat) :
    Sound (s.lanes p names d t k z f) := h.vector ..

theorem Sound.lanesAB {s : State} (h : Sound s) (d a b t : BitVec 4) (k : BitVec 2) (z y : BitVec 1) (f : Strand → Nat → Nat → Nat) :
    Sound (s.lanesAB d a b t k z y f) := h.lanes ..

theorem Sound.lanesA {s : State} (h : Sound s) (p : PClass) (d a t : BitVec 4) (k : BitVec 2) (z : BitVec 1) (f : Strand → Nat → Nat) :
    Sound (s.lanesA p d a t k z f) := h.lanes ..

theorem Sound.laneShift {s : State} (h : Sound s) (d a b t : BitVec 4) (k : BitVec 2) (z y : BitVec 1) (f : Nat → Nat → Nat) :
    Sound (s.laneShift d a b t k z y f) := h.lanes ..

theorem Sound.compareLanes {s : State} (h : Sound s) (d : BitVec 2) (a b t : BitVec 4) (k : BitVec 2) (y : BitVec 1) (f : Nat → Nat → Bool) :
    Sound (s.compareLanes d a b t k y f) := h.vector ..

theorem Sound.lanesFused {s : State} (h : Sound s) (d a b t : BitVec 4) (k : BitVec 2) (z y : BitVec 1) (r : BitVec 3)
    (f : Bool → FVal → FVal → FVal → FVal) :
    Sound (s.lanesFused d a b t k z y r f) := h.lanes ..

theorem Sound.lanesSfu {s : State} (h : Sound s) (d a t : BitVec 4) (k : BitVec 2) (z : BitVec 1) (r : BitVec 3) (f : FVal → FVal) :
    Sound (s.lanesSfu d a t k z r f) := h.lanesA ..

theorem Sound.modVop {s : State} (h : Sound s) (k : Nat) (f : VOp → VOp) : Sound (s.modVop k f) := h.modCore ..

theorem Sound.dropVop {s : State} (h : Sound s) (k : Nat) : Sound (s.dropVop k) := h.modCore ..

theorem Sound.elemDone {s : State} (h : Sound s) (k i : Nat) (d : List Byte) : Sound (s.elemDone k i d) := h.modVop ..

theorem Sound.elemFault {s : State} (h : Sound s) (k i : Nat) (f : Late) : Sound (s.elemFault k i f) := h.modVop ..

theorem Sound.sendElem {s : State} (h : Sound s) (k : Nat) (e : VElem) : Sound (s.sendElem k e) := by
  unfold State.sendElem
  split
  · split
    · next e2 => exact ((h.lookL1d ..).along e2).elemDone ..
    · next e2 => exact ((h.lookL1d ..).along e2).elemFault ..
    · next e2 => exact ((h.lookL1d ..).along e2).sendAccess _
  · exact h.sendAccess _

theorem Sound.takeVector {s : State} (h : Sound s) (c : Nat) : Sounds (s.takeVector c) := by
  unfold State.takeVector
  split
  · exact .none
  · exact .ite .none (.some ((h.modVop ..).each (fun _ _ hs => hs.sendElem ..) _))

theorem Sound.pageCompleted {s : State} (h : Sound s) (k n : Nat) : Sound (s.pageCompleted k n) := .ite ((h.modStrand ..).advance ..) (h.completed ..)

theorem Sound.vectorDone {s : State} (h : Sound s) (o : VOp) : Sound (s.vectorDone o) := ((h.dropVop _).modStrand ..).pageCompleted ..

theorem Sound.vectorResult {s : State} (h : Sound s) (k : Nat) : Sounds (s.vectorResult k) := by
  unfold State.vectorResult
  split
  · exact .none
  · dsimp only
    split
    · exact .none
    · split
      · exact .ite (.some (((h.dropVop _).dropReplays ..).takeFault ..)) .none
      · exact .ite (.some (h.vectorDone _)) .none

theorem Sound.vectorAccess {s : State} (h : Sound s) (names : List Nat) (kind : Nat) (plan : State → Checked VOp) :
    Sound (s.vectorAccess names kind plan) := by
  unfold State.vectorAccess
  refine Sound.issue h _ _ ?_
  dsimp only
  split
  · exact h.held _
  · split
    · exact (h.takePermit ..).faultAt ..
    · exact .ite (h.park ..) (.ite ((h.takePermit ..).faultAt ..) ((h.takePermit ..).enqueue _))

theorem Sound.tile {s : State} (h : Sound s) (k : Nat) (rs : List (Nat × Nat)) (rd : Bool) : Sounds (s.tile k rs rd).after := by
  unfold State.tile
  dsimp only
  split
  · exact .some h
  · generalize (if rd = true then _ else _ : List Nat) = ks
    split
    · exact .none
    · split
      · next e => exact .some ((h.inspectAll ..).along e)
      · next e => exact .some ((h.inspectAll ..).along e)

theorem Sound.mmaGroup {s : State} (h : Sound s) (o : MOp) (p : Mma) (g : Nat) : Sound (s.mmaGroup o p g) := h.modCore ..

theorem Sound.enlane {s : State} (h : Sound s) (drain : Bool) (acc adv : Nat) (kind : MKind) :
    Sound (s.enlane drain acc adv kind) := (h.modCore ..).park ..

theorem Sound.matrixOp {s : State} (h : Sound s) (names : List Nat) (acc : State → Nat) {body : State → State}
    (hb : ∀ t, Sound t → Sound (body t)) : Sound (s.matrixOp names acc body) :=
  h.issue _ _ (.ite (h.raiseFault ..) (.ite (h.park ..) (h.withPermit _ _ (.ite ((h.takePermit ..).raiseFault ..) (hb _ (h.takePermit ..))))))

theorem Sound.mmaIssue {s : State} (h : Sound s) (acc : BitVec 2) (m : BitVec 6) (p : Mma) :
    Sound (s.mmaIssue acc m p) := .ite (h.raiseFault ..) (.ite (h.raiseFault ..) (.ite (h.raiseFault ..) (h.enlane ..)))

theorem Sound.tileOffset {s : State} (h : Sound s) (b : BitVec 8) {body : Nat → State} (hb : ∀ o, Sound (body o)) : Sound (s.tileOffset b body) :=
  .ite (h.raiseFault ..) (.ite (h.raiseFault ..) (hb _))

theorem Sound.settleCore {s : State} (h : Sound s) (c : Nat) : Sound (s.settleCore c) := h.each (fun _ _ hs => hs.settle _) _

theorem Sound.laneDone {s : State} (h : Sound s) (drain : Bool) (o : MOp) : Sound (s.laneDone drain o) := ((h.modCore ..).completed ..).settleCore _

theorem Sound.laneFault {s : State} (h : Sound s) (drain : Bool) (o : MOp) (code : Code) (a : Addr) (kind : Nat) :
    Sound (s.laneFault drain o code a kind) := ((h.modCore ..).takeFault ..).settleCore _

theorem Sound.laneBegin {s : State} (h : Sound s) (c : Nat) (drain : Bool) : Sounds (s.laneBegin c drain) := by
  unfold State.laneBegin
  split
  · exact .none
  · dsimp only
    split
    · exact .none
    · split
      · exact .some ((((h.modCore ..).setStrand ..).modSite ..).scanOne ..)
      · exact .some (h.modCore ..)

theorem Sound.kgroup {s : State} (h : Sound s) (c : Nat) : Sounds (s.kgroup c) := by
  unfold State.kgroup
  split
  · exact .none
  · split
    · split
      · exact .none
      · split
        · exact .some (h.halt _)
        · split
          · exact .some (h.count ..)
          · split
            · exact .none
            · next e5 => exact .some (((h.tile ..).sound (congrArg Tile.after e5)).laneFault ..)
            · next e5 => exact .some ((((Sound.ite ((h.tile ..).sound (congrArg Tile.after e5)) (((h.tile ..).sound
                  (congrArg Tile.after e5)).takePermit ..)).mmaGroup ..).modCore ..).count ..)
    · exact .none

theorem Sound.storeRows (acc : List (Nat × BitVec 32)) (k off : Nat) (l : List Nat) {s : State} (h : Sound s) :
    Sounds ((State.storeRows acc k off l s).map Prod.snd) := by
  induction l generalizing s with
  | nil => exact .some h
  | cons i l ih =>
    unfold State.storeRows
    split
    · exact .none
    · next e => exact .some ((h.tile ..).sound (congrArg Tile.after e))
    · next e => exact ih ((((h.tile ..).sound (congrArg Tile.after e)).freshen _).store ..)

theorem Sound.laneComplete {s : State} (h : Sound s) (c : Nat) (drain : Bool) : Sounds (s.laneComplete c drain) := by
  unfold State.laneComplete
  split
  · exact .none
  · dsimp only
    split
    · exact .none
    · split
      · exact .ite (.some (h.laneDone ..)) .none
      · exact .some ((h.modCore ..).laneDone ..)
      · split
        · exact .none
        · next e => exact .some (((h.tile ..).sound (congrArg Tile.after e)).laneFault ..)
        · next e => exact .some ((((h.tile ..).sound (congrArg Tile.after e)).modCore ..).laneDone ..)
      · split
        · exact .none
        · next e => exact .some (((Sound.storeRows _ _ _ _ h).sound (congrArg (Option.map Prod.snd) e)).laneFault ..)
        · next e => exact .some (((Sound.storeRows _ _ _ _ h).sound (congrArg (Option.map Prod.snd) e)).laneDone ..)
      · exact .none

theorem Sound.drainDone {s : State} (h : Sound s) (o : MOp) (q : Nat) (ctr : Option Nat) : Sound (s.drainDone o q ctr) := by
  unfold State.drainDone
  dsimp only
  refine Sound.scanAll (Sound.laneDone ?_ ..) _
  split
  · exact ((h.freeSlot _).modGang ..).addTc ..
  · exact (h.freeSlot _).modGang ..

theorem Sound.drainRowEnd {s : State} (h : Sound s) (c : Nat) : Sounds (s.drainRowEnd c) := by
  unfold State.drainRowEnd
  split
  · exact .none
  · split
    · exact .ite .none (.ite (.ite (.some (h.halt _)) (.ite (.some ((h.halt _).halt _)) .none)) (.ite (.ite (.some ((h.modCore ..).drainRow _)) (.some
          (h.drainDone ..))) .none))
    · exact .none

end Sys2Proof
end

section
/-! Collectives, counters, triggers, copies and queues keep the state sound (R208-R220, R351-R370). -/

namespace Sys2Proof

open Sys2Proof.Machine

theorem Sound.storeGet {s : State} (h : Sound s) (v u off n : Nat) (sup : Bool) : Sound (s.storeGet v u off n sup).2 := by
  unfold State.storeGet
  dsimp only
  split
  · exact h
  · exact h.inspectAll ..

theorem Sound.setTrellis {s : State} (h : Sound s) (v key : Nat) (e : Trellis) : Sound (s.setTrellis v key e) := h.modSite ..

theorem Sound.sendPieces {s : State} (h : Sound s) (v key d : Nat) (e : Trellis) (op : Nat → Nat → MsgOp) (l : List (Word × FFlags)) :
    Sound (s.sendPieces v key d e op l) := by
  unfold State.sendPieces
  split
  · exact h
  · exact h.record.each (fun _ _ hs => hs.sendOut _) _

theorem Sound.testTrellis {s : State} (h : Sound s) (v key : Nat) :
    Sound (s.testTrellis v key) := .ite (.ite ((Sound.ite h.record h).setTrellis ..) (((Sound.ite h.record h).setTrellis ..).sendPieces ..)) h

theorem Sound.contributeLocal {s : State} (h : Sound s) (v key : Nat) (ws : List Nat) :
    Sound (s.contributeLocal v key ws) := (h.setTrellis ..).testTrellis ..

theorem Sound.collectiveNotice {s : State} (h : Sound s) (v : Nat) : Sound (s.collectiveNotice v) := h.raise ..

theorem Sound.refusePiece {s : State} (h : Sound s) (m : Msg) (v key d : Nat) :
    Sounds (s.refusePiece m v key d) := .ite (.some (h.consume _)) (.ite .none (.some ((((h.consume _).modSite ..).collectiveNotice _).reply ..)))

theorem Sound.contribution {s : State} (h : Sound s) (n : Nat) : Sounds (s.contribution n) := by
  unfold State.contribution
  split
  · split
    · exact .ite (.some (h.turnAway _)) (.ite (.some (((h.consume _).setTrellis ..).testTrellis ..)) (h.refusePiece ..))
    · exact .none
  · exact .none

theorem Sound.resultPiece {s : State} (h : Sound s) (n : Nat) : Sounds (s.resultPiece n) := by
  unfold State.resultPiece
  split
  · split
    · exact .ite (.some (h.turnAway _)) (.ite (.some ((h.consume _).setTrellis ..)) (.ite .none (.some ((h.consume _).collectiveNotice _))))
    · exact .none
  · exact .none

theorem Sound.deliver {s : State} (h : Sound s) (v key : Nat) :
    Sounds (s.deliver v key) := .ite .none (.ite .none (.ite (.some ((h.each (fun _ _ hs => hs.sendPieces ..) _).setTrellis ..)) (.ite (.some
        (((h.each (fun _ _ hs => hs.sendPieces ..) _).raise ..).setTrellis ..)) (.some ((((h.each
            (fun _ _ hs => hs.sendPieces ..) _).setTrellis ..).engineStore ..).addTc ..)))))

theorem Sound.clearTrellis {s : State} (h : Sound s) (v key : Nat) : Sound (s.clearTrellis v key) := h.setTrellis ..

theorem Sound.sendArm {s : State} (h : Sound s) (v key o d : Nat) (op : MsgOp) : Sound (s.sendArm v key o d op) := h.record.record.sendOut _

theorem Sound.armGo {s : State} (h : Sound s) (d h0 h1 : Nat) (ms : List Member) : Sound (s.armGo d h0 h1 ms) := by
  unfold State.armGo
  dsimp only
  split
  · exact h.askUnit ..
  · exact .ite (h.askUnit ..) (((h.fresh.park ..).modSite ..).each (fun _ _ hs => hs.sendArm ..) _)

theorem Sound.execCollArm {s : State} (h : Sound s) (d a : BitVec 8) : EndsSound (execCollArm d a s) := by
  unfold Machine.execCollArm
  refine EndsSound.next (Sound.issue h _ _ ?_)
  dsimp only
  split
  · exact h.raiseFault ..
  · split
    · exact h.raiseFault ..
    · split
      · exact h.park ..
      · split
        · next e3 => exact ((h.storeGet ..).along e3).raiseFault ..
        · next e3 =>
            split
            · exact ((h.storeGet ..).along e3).raiseFault ..
            · split
              · next e5 => exact ((((h.storeGet ..).along e3).storeGet ..).along e5).raiseFault ..
              · next e5 =>
                  exact .ite (((((h.storeGet ..).along e3).storeGet ..).along e5).raiseFault ..)
                      (((((h.storeGet ..).along e3).storeGet ..).along e5).armGo ..)

theorem Sound.armReserve {s : State} (h : Sound s) (n : Nat) : Sounds (s.armReserve n) := by
  unfold State.armReserve
  split
  · split
    · exact .ite (.some (h.turnAway _)) (.ite (.some (((h.consume _).setTrellis ..).reply ..)) (.some ((h.consume _).reply ..)))
    · exact .none
  · exact .none

theorem Sound.armCommit {s : State} (h : Sound s) (n : Nat) : Sounds (s.armCommit n) := by
  unfold State.armCommit
  split
  · split
    · exact .some (.ite (h.turnAway _) (((Sound.ite ((h.consume _).setTrellis ..) (h.consume _)).reply ..).testTrellis ..))
    · exact .none
  · exact .none

theorem Sound.armRelease {s : State} (h : Sound s) (n : Nat) : Sounds (s.armRelease n) := by
  unfold State.armRelease
  split
  · split
    · exact .some (.ite (h.turnAway _) ((Sound.ite ((h.consume _).setTrellis ..) (h.consume _)).reply ..))
    · exact .none
  · exact .none

theorem Sound.armEnd {s : State} (h : Sound s) (v : Nat) (o : ArmOp) (r : Nat) :
    Sound (s.armEnd v o r) := .ite (((h.modSite ..).modStrand ..).completed ..) (h.modSite ..)

theorem Sound.armAnswer {s : State} (h : Sound s) (v n site r : Nat) : Sound (s.armAnswer v n site r) := by
  unfold State.armAnswer
  split
  · exact h
  · dsimp only
    exact .ite (h.modSite ..) (.ite (.ite ((h.modSite ..).each (fun _ _ hs => hs.sendArm ..) _) (.ite (h.armEnd ..) ((h.modSite ..).each
        (fun _ _ hs => hs.sendArm ..) _))) (h.armEnd ..))

theorem Sound.afterRelaxed {s : State} (h : Sound s) {body : State → State} (hb : Sound (body s)) : Sound (s.afterRelaxed body) :=
  .ite hb (h.park ..)

theorem Sound.sendAdd {s : State} (h : Sound s) (v key d : Nat) (m : Option Mesh) (n : Nat) (w : Word) (a : Machine.Acc) :
    Sound (s.sendAdd v key d m n w a) := h.record.record.sendOut _

theorem Sound.execCtrAddr {s : State} (h : Sound s) (a b : BitVec 8) : EndsSound (execCtrAddr a b s) := by
  unfold Machine.execCtrAddr
  refine EndsSound.next (Sound.issue h _ _ (Sound.afterRelaxed h ?_))
  dsimp only
  split
  · exact h.raiseFault ..
  · exact .ite ((h.askUnit ..).addTc ..) ((h.park ..).sendAdd ..)

theorem Sound.counterAdd {s : State} (h : Sound s) (n : Nat) : Sounds (s.counterAdd n) := by
  unfold State.counterAdd
  split
  · split
    · exact .ite (.some ((h.consume _).reply ..)) (.some (((h.consume _).addTc ..).reply ..))
    · exact .none
  · exact .none

theorem Sound.post? {s : State} (h : Sound s) (d o threshold adv : Nat) : Sound (s.post? d o threshold adv) := by
  unfold State.post?
  dsimp only
  split
  · exact h.raiseFault ..
  · split
    · exact h.raiseFault ..
    · split
      · exact h.park ..
      · split
        · next e3 => exact ((h.storeGet ..).along e3).raiseFault ..
        · next e3 =>
            split
            · exact ((h.storeGet ..).along e3).faultAt ..
            · split
              · exact ((h.storeGet ..).along e3).askUnit ..
              · exact ((((h.storeGet ..).along e3).modSite ..).testWatched ..).askUnit ..

theorem Sound.modOp {s : State} (h : Sound s) (v o : Nat) (f : TrigOp → TrigOp) : Sound (s.modOp v o f) := h.modSite ..

theorem Sound.dropOp {s : State} (h : Sound s) (v o : Nat) : Sound (s.dropOp v o) := h.modSite ..

theorem Sound.opFault {s : State} (h : Sound s) (v o code : Nat) (a : Addr) : Sound (s.opFault v o code a) := h.modOp ..

theorem Sound.startPut {s : State} (h : Sound s) (v : Nat) (q : TrigOp) : Sound (s.startPut v q) := by
  unfold State.startPut
  dsimp only
  split
  · next e => exact ((h.storeGet ..).along e).opFault ..
  · next e =>
      exact .ite (.ite ((((h.storeGet ..).along e).modOp ..).sendAccess _) ((((h.storeGet ..).along e).modOp ..).each
          (fun _ _ hs => hs.sendAccess _) _)) ((((h.storeGet ..).along e).modOp ..).each (fun _ _ hs => hs.sendAccess _) _)

theorem Sound.startAmo {s : State} (h : Sound s) (v : Nat) (q : TrigOp) : Sound (s.startAmo v q) := (h.modOp ..).sendAccess _

theorem Sound.startCopy {s : State} (h : Sound s) (q : TrigOp) (e : Trig) : Sound (s.startCopy q e) := h.modCore ..

theorem Sound.startLaunchOp {s : State} (h : Sound s) (v : Nat) (q : TrigOp) (segs : List (Nat × Seg)) :
    Sound (s.startLaunchOp v q segs) := by
  unfold State.startLaunchOp
  dsimp only
  split
  · exact (h.sysSeen ..).opFault ..
  · exact (h.sysSeen ..).opFault ..
  · split
    · exact (h.sysSeen ..).opFault ..
    · exact (h.sysSeen ..).fresh.record.sendOut _

theorem Sound.startQueueWord {s : State} (h : Sound s) (v : Nat) (q : TrigOp) : Sound (s.startQueueWord v q) := h.record.record.sendOut _

theorem Sound.startStep {s : State} (h : Sound s) (v : Nat) (q : TrigOp) : Sound (s.startStep v q) := by
  unfold State.startStep
  dsimp only
  split
  · exact (h.collectiveNotice _).dropOp ..
  · split
    · exact h.opFault ..
    · split
      · next e2 => exact ((h.storeGet ..).along e2).opFault ..
      · next e2 => exact (((h.storeGet ..).along e2).contributeLocal ..).modOp ..

theorem Sound.startOp {s : State} (h : Sound s) (v : Nat) (q : TrigOp) (e : Trig) : Sound (s.startOp v q e) := by
  unfold State.startOp
  dsimp only
  split
  · exact h.startPut ..
  · exact h.startAmo ..
  · exact h.startCopy ..
  · exact (h.addTc ..).modOp ..
  · split
    · exact h.opFault ..
    · exact .ite ((h.addTc ..).modOp ..) ((h.modOp ..).sendAdd ..)
  · exact h.startStep ..
  · exact h.startLaunchOp ..
  · exact h.startQueueWord ..

theorem Sound.triggerFire {s : State} (h : Sound s) (v n : Nat) :
    Sounds (s.triggerFire v n) := .ite .none (.some (((h.record.modSite ..).testWatched ..).startOp ..))

theorem Sound.opAck {s : State} (h : Sound s) (v o : Nat) : Sound (s.opAck v o) := by
  unfold State.opAck
  split
  · exact h
  · dsimp only
    split
    · exact h.modOp ..
    · split
      · exact (h.modOp ..).sendAccess _
      · exact h.modOp ..

theorem Sound.opComplete {s : State} (h : Sound s) (v o : Nat) : Sounds (s.opComplete v o) := by
  unfold State.opComplete
  split
  · exact .none
  · split
    · exact .ite .none (.some ((h.raise ..).dropOp ..))
    · exact .ite .none (.some (.ite ((h.dropOp ..).addTc ..) (h.dropOp ..)))

theorem Sound.opStatus {s : State} (h : Sound s) (v o r : Nat) (req : Msg) (acc : Machine.Acc) : Sound (s.opStatus v o r req acc) := by
  unfold State.opStatus
  split
  · exact h.modOp ..
  · split
    · exact h.record.record.modOp ..
    · split
      · exact h.opFault ..
      · exact h

theorem Sound.launchRetry {s : State} (h : Sound s) (v o : Nat) : Sounds (s.launchRetry v o) := by
  unfold State.launchRetry
  split
  · exact .ite .none (.some ((h.record.modOp ..).sendAgain _))
  · exact .none

theorem Sound.copyRest {s : State} (h : Sound s) (c : Nat) : Sound (s.copyRest c) := .ite (h.count ..) h

theorem Sound.abandon {s : State} (h : Sound s) (c n : Nat) : Sound (s.abandon c n) := ((h.disown ..).dropReplays ..).modCore ..

theorem Sound.unpost {s : State} (h : Sound s) (c : Nat) (m : Mail) : Sound (s.unpost c m) := ((h.modCore ..).copyRest _).settle _

theorem Sound.execCcancel {s : State} (h : Sound s) (a : BitVec 8) : EndsSound (execCcancel a s) := by
  unfold Machine.execCcancel
  refine EndsSound.next (Sound.issue h _ _ ?_)
  dsimp only
  split
  · exact h.pass _
  · exact ((h.unpost ..).wakeMailbox ..).pass _
  · exact (h.unpost ..).pass _
  · exact (Sound.ite ((h.modCore ..).abandon ..) (h.modCore ..)).park ..

theorem Sound.copyFault {s : State} (h : Sound s) (c n : Nat) (f : Late) : Sound (s.copyFault c n f) := h.modCore ..

theorem Sound.copyTrouble {s : State} (h : Sound s) (c : Nat) (q : Copy) (code : Code) (a : Option Addr) (kind : Nat) :
    Sound (s.copyTrouble c q code a kind) := by
  unfold State.copyTrouble
  split
  · exact h.copyFault ..
  · exact h.record.copyFault ..

theorem Sound.copyTake {s : State} (h : Sound s) (c : Nat) : Sounds (s.copyTake c) := by
  unfold State.copyTake
  dsimp only
  split
  · exact .none
  · split
    · exact .none
    · split
      · exact .some (h.count ..)
      · split
        · exact .none
        · refine Sounds.some ?_
          split
          · refine Sound.copyTrouble (Sound.modCore (Sound.storeGet ?_ ..) ..) ..
            split
            · exact ((h.takePermit ..).modCore ..).wakeMailbox ..
            · exact (h.takePermit ..).modCore ..
          · split
            · refine Sound.copyTrouble (Sound.modCore (Sound.storeGet ?_ ..) ..) ..
              split
              · exact ((h.takePermit ..).modCore ..).wakeMailbox ..
              · exact (h.takePermit ..).modCore ..
            · refine Sound.modCore (Sound.storeGet ?_ ..) ..
              split
              · exact ((h.takePermit ..).modCore ..).wakeMailbox ..
              · exact (h.takePermit ..).modCore ..

theorem Sound.copyBeatOf {s : State} (h : Sound s) (c : Nat) (q : Copy) : Sound (s.copyBeatOf c q) := by
  unfold State.copyBeatOf
  dsimp only
  split
  · exact h
  · split
    · exact h.copyTrouble ..
    · exact .ite ((h.modCore ..).each (fun _ _ hs => hs.sendAccess _) _) ((h.modCore ..).each (fun _ _ hs => hs.sendAccess _) _)

theorem Sound.copyBeat {s : State} (h : Sound s) (c i : Nat) : Sounds (s.copyBeat c i) := by
  unfold State.copyBeat
  dsimp only
  split
  · exact .none
  · exact .ite .none (.ite (.some (h.count ..)) (.some ((((h.takePermit ..).modCore ..).copyBeatOf ..).count ..)))

theorem Sound.copyReadDone {s : State} (h : Sound s) (c n : Nat) (a : Machine.Acc) (d : List Byte) : Sound (s.copyReadDone c n a d) := by
  unfold State.copyReadDone
  split
  · exact h
  · exact h.modCore ..

theorem Sound.copyWriteDone {s : State} (h : Sound s) (c n i : Nat) : Sound (s.copyWriteDone c n i) := h.modCore ..

theorem Sound.copyGone {s : State} (h : Sound s) (c n k : Nat) :
    Sound (s.copyGone c n k) := ((((h.modCore ..).copyRest _).each (fun _ _ hs => .ite (hs.completed ..) hs) _).settle _).releasesDone _

theorem Sound.copyComplete {s : State} (h : Sound s) (c n : Nat) : Sounds (s.copyComplete c n) := by
  unfold State.copyComplete
  split
  · exact .none
  · split
    · dsimp only
      refine Sounds.some ?_
      split
      · exact (Sound.ite ((h.copyGone ..).addTc ..) (h.copyGone ..)).modOp ..
      · exact .ite ((h.copyGone ..).addTc ..) (h.copyGone ..)
    · exact .none

theorem Sound.copyFaultDelivery {s : State} (h : Sound s) (c n : Nat) : Sounds (s.copyFaultDelivery c n) := by
  unfold State.copyFaultDelivery
  split
  · exact .none
  · split
    · exact .none
    · split
      · dsimp only
        refine Sounds.some ?_
        split
        · exact ((h.dropReplays ..).copyGone ..).opFault ..
        · exact .ite (((h.dropReplays ..).lateFault ..).copyGone ..) ((h.dropReplays ..).copyGone ..)
      · exact .none

theorem Sound.execNqSend {s : State} (h : Sound s) (a b : BitVec 8) : EndsSound (execNqSend a b s) := by
  unfold Machine.execNqSend
  refine EndsSound.next ?_
  split
  · exact h.raiseFault ..
  · refine Sound.issue h _ _ ?_
    dsimp only
    split
    · exact h.raiseFault ..
    · exact (h.park ..).fresh.record.sendOut _

theorem Sound.execNqRecv {s : State} (h : Sound s) (d a : BitVec 8) : EndsSound (execNqRecv d a s) := by
  unfold Machine.execNqRecv
  refine EndsSound.next ?_
  split
  · exact h.raiseFault ..
  · refine Sound.issue h _ _ ?_
    dsimp only
    split
    · exact (h.modCore ..).finish ..
    · exact h.park ..

theorem Sound.queueWord {s : State} (h : Sound s) (c q : Nat) (w : Word) : Sounds (s.queueWord c q w) := by
  unfold State.queueWord
  dsimp only
  split
  · exact .none
  · split
    · exact .ite (.some (((h.modCore ..).modStrand ..).completed ..)) (.some (h.modCore ..))
    · exact .some ((h.modCore ..).rouse ..)

theorem Sound.nqArrive {s : State} (h : Sound s) (n : Nat) : Sounds (s.nqArrive n) := by
  unfold State.nqArrive
  split
  · split
    · dsimp only
      split
      · exact .some ((h.consume _).reply ..)
      · split
        · next e3 => exact .some ((((h.consume _).queueWord ..).sound e3).reply ..)
        · exact .some ((h.consume _).reply ..)
    · exact .none
  · exact .none

theorem Sound.holdBack {s : State} (h : Sound s) (t : Nat) : Sound (s.holdBack t) := h.record

theorem Sound.queueRefusal {s : State} (h : Sound s) (n : Nat) : Sounds (s.queueRefusal n) := by
  unfold State.queueRefusal
  split
  · exact .ite (.some ((h.consume _).holdBack _)) .none
  · exact .none

theorem Sound.resendTxn {s : State} (h : Sound s) (t : Nat) (p : MsgOp → Bool) : Sounds (s.resendTxn t p) := by
  unfold State.resendTxn
  split
  · exact .ite (.some (h.record.sendAgain _)) .none
  · exact .none

end Sys2Proof
end

section
/-! Registers, power, flits, links and the tables of a pavilion keep the state sound (R56-R68, R201-R206, R226-R230, R402-R411). -/

namespace Sys2Proof

open Sys2Proof.Machine

theorem Sound.regWrite {s : State} (h : Sound s) (k n : Nat) (w : Word) : Sound (s.regWrite k n w) := by
  unfold State.regWrite
  dsimp only
  split
  · exact h.modStrand ..
  · exact h.modStrand ..
  · exact h.modStrand ..
  · exact h.modStrand ..
  · exact h.modStrand ..
  · exact h.modCore ..
  · exact h.modSite ..
  · exact h.modCore ..
  · exact h.modStrand ..
  · exact h.modStrand ..
  · exact h.modCore ..
  · exact h.modCore ..
  · exact h.modSite ..
  · exact h.modCore ..
  · exact h.modCore ..
  · exact h.modStrand ..
  · exact h.modStrand ..
  · exact .ite (h.modCore ..) (.ite (h.modCore ..) (.ite (h.modCore ..) h))

theorem Sound.execGetc {s : State} (h : Sound s) (d : BitVec 8) (n : BitVec 16) : EndsSound (execGetc d n s) := by
  unfold Machine.execGetc
  refine EndsSound.next ?_
  split
  · exact h.raiseFault ..
  · exact h.issue _ _ (.ite (h.finish ..) (h.askUnit ..))

theorem Sound.execSetc {s : State} (h : Sound s) (a : BitVec 8) (n : BitVec 16) : EndsSound (execSetc a n s) := by
  unfold Machine.execSetc
  refine EndsSound.next ?_
  split
  · exact h.raiseFault ..
  · exact h.issue _ _ (.ite ((h.regWrite ..).pass _) (h.park ..))

theorem Sound.watchdogExpiry {s : State} (h : Sound s) (v : Nat) :
    Sounds (s.watchdogExpiry v) := .ite .none (.some (.ite (h.setSite ..) ((h.setSite ..).raise ..)))

theorem Sound.watchdogWrite {s : State} (h : Sound s) (k : Nat) : Sounds (s.watchdogWrite k) := by
  unfold State.watchdogWrite
  split
  · exact .none
  · exact .ite ((h.watchdogExpiry _).mapState (fun _ hs => (hs.modSite ..).completed ..)) (.some ((h.modSite ..).completed ..))

theorem Sound.tickSite {s : State} (h : Sound s) (v : Nat) : Sound (s.tickSite v) := (h.setSite ..).each (fun _ _ hs => hs.count ..) _

theorem Sound.tick {s : State} (h : Sound s) (rx ry : Nat) : Sounds (s.tick rx ry) := .ite (.some (h.each (fun _ _ hs => hs.tickSite _) _)) .none

theorem Sound.offsetProbe {s : State} (h : Sound s) (v d : Nat) : Sounds (s.offsetProbe v d) := by
  unfold State.offsetProbe
  split
  · exact .ite (.some (h.post _)) .none
  · exact .none

theorem Sound.probeTimestamp {s : State} (h : Sound s) (n : Nat) : Sounds (s.probeTimestamp n) := by
  unfold State.probeTimestamp
  split
  · split
    · exact .some ((h.consume _).post _)
    · exact .none
  · exact .none

theorem Sound.probeEcho {s : State} (h : Sound s) (n : Nat) : Sounds (s.probeEcho n) := by
  unfold State.probeEcho
  split
  · split
    · exact .some ((h.consume _).each (fun _ _ hs => hs.modSite ..) _)
    · exact .none
  · exact .none

theorem Sound.slicePinWrite {s : State} (h : Sound s) (k : Nat) : Sounds (s.slicePinWrite k) := by
  unfold State.slicePinWrite
  refine Sounds.map (fun a => ?_) _
  split
  · exact .ite (h.completed ..) ((((((h.flushSlice ..).modSite ..).zeroBytes ..).serveChanged ..).modStrand ..).testFence _)

theorem Sound.awaitRecord {s : State} (h : Sound s) (k : Nat) : Sound (s.awaitRecord k) := (h.repark ..).modStrand ..

theorem Sound.execMissDoneNotPresent {s : State} (h : Sound s) (k : Nat) : EndsSound (execMissDoneNotPresent k s) := by
  unfold Machine.execMissDoneNotPresent
  refine EndsSound.due _ (Sounds.map (fun a => ?_) _)
  split
  · next e => exact (((h.missAbsent _).sound e).completed ..).releasesDone _
  · exact h.awaitRecord _

theorem Sound.execMissDoneIgnored {s : State} (h : Sound s) (k : Nat) : EndsSound (execMissDoneIgnored k s) := by
  unfold Machine.execMissDoneIgnored
  refine EndsSound.due _ ?_
  split
  · exact .none
  · exact .ite (.some (h.completed ..)) .none

theorem Sound.writeFqHead {s : State} (h : Sound s) (v : Nat) (w : Word) :
    Sound (s.writeFqHead v w) := (h.modSite ..).each (fun _ _ hs => hs.wakeRecord _) _

theorem Sound.faultNotice {s : State} (h : Sound s) (n : Nat) : Sounds (s.faultNotice n) := by
  unfold State.faultNotice
  split
  · exact .ite (.some ((h.consume _).modGate ..)) .none
  · exact .none

theorem Sound.lateTaken {s : State} (h : Sound s) (k : Nat) : Sounds (s.lateTaken k) := by
  unfold State.lateTaken
  dsimp only
  split
  · exact .none
  · exact .ite .none (.ite (.ite (.some ((h.park ..).testHalt _)) (.some (h.setStrand ..))) (.some (h.takeLate _)))

theorem Sound.relaxedEnd {s : State} (h : Sound s) (k : Nat) :
    Sound (s.relaxedEnd k) := .ite (.ite ((h.modStrand ..).wake _) (.ite ((h.modStrand ..).modStrand ..) (h.modStrand ..))) h

theorem Sound.replayEnd {s : State} (h : Sound s) (c ix : Nat) : Sounds (s.replayEnd c ix) := by
  unfold State.replayEnd
  split
  · exact .none
  · split
    · exact .none
    · dsimp only
      split
      · exact .some ((h.dropReplays ..).releasesDone _)
      · split
        · exact .some ((h.dropReplays ..).relaxedEnd _)
        · split
          · exact .ite (.some ((h.dropReplays ..).vectorDone _)) (.some (h.dropReplays ..))
          · exact .some (h.dropReplays ..)

theorem Sound.tlbInv {s : State} (h : Sound s) (v : Nat) (w : Word) : Sound (s.tlbInv v w) := .ite (h.setSite ..) (h.setSite ..)

theorem Sound.tlbIdle {s : State} (h : Sound s) (v : Nat) : Sounds (s.tlbIdle v) := by
  unfold State.tlbIdle
  dsimp only
  split
  · refine Sounds.some ?_
    split
    · exact (h.setSite ..).tlbInv ..
    · exact h.setSite ..
  · exact .none

theorem Sound.controlInterval {s : State} (h : Sound s) (v : Nat) :
    Sounds (s.controlInterval v) := .ite (.some ((h.setSite ..).each (fun _ _ hs => hs.modBower ..) _)) .none

theorem Sound.setStage {s : State} (h : Sound s) (v n : Nat) : Sound (s.setStage v n) := h.modSite ..

theorem Sound.limiterWindow {s : State} (h : Sound s) (v meas : Nat) : Sounds (s.limiterWindow v meas) := by
  unfold State.limiterWindow
  split
  · exact .none
  · dsimp only
    refine Sounds.some ?_
    split
    · exact .ite (((h.modSite ..).setStage ..).each (fun _ _ hs => hs.modCore ..) _) (h.modSite ..)
    · exact .ite ((((h.modSite ..).setStage ..).raise ..).each (fun _ _ hs => hs.modCore ..) _) (.ite (((h.modSite ..).setStage ..).each
          (fun _ _ hs => hs.modCore ..) _) (h.modSite ..))
    · exact .ite (((h.modSite ..).setStage ..).each (fun _ _ hs => hs.modCore ..) _) (h.modSite ..)

theorem Sound.thermalTrip {s : State} (h : Sound s) (v : Nat) (temp : Int) :
    Sounds (s.thermalTrip v temp) := .ite .none (.ite (.some ((((h.modSite ..).modSite ..).each (fun _ _ hs => hs.modBower ..) _).raise ..)) (.some
        (h.modSite ..)))

theorem Sound.atGo {s : State} (h : Sound s) (v : Nat) : Sound (s.atGo v) := h.modSite ..

theorem Sound.freeScalar {s : State} (h : Sound s) : Sound s.freeScalar.2 := h.record.record.record.record

theorem Sound.quoteDone {s : State} (h : Sound s) (v : Nat) : Sounds (s.quoteDone v) := by
  unfold State.quoteDone
  split
  · split
    · next e1 => exact .some ((h.freeScalar.along e1).modSite ..)
  · exact .none

theorem Sound.countRetry {s : State} (h : Sound s) (v off n : Nat) : Sound (s.countRetry v off n) := .ite (h.modSite ..) h

theorem Sound.resendLink {s : State} (h : Sound s) (v d : Nat) (x : Mesh) : Sound (s.resendLink v d x) := (h.modLink ..).countRetry ..

theorem Sound.unsent {s : State} (h : Sound s) (v u : Nat) (m : Msg) : Sound (s.unsent v u m) := by
  unfold State.unsent
  dsimp only
  split
  · exact h.post _
  · exact .ite (h.post _) (h.raise ..)

theorem Sound.sendFlit {s : State} (h : Sound s) (n : Nat) : Sounds (s.sendFlit n) := by
  unfold State.sendFlit
  split
  · exact .none
  · split
    · exact .ite (.ite .none (.some ((h.unbuffer _).modLink ..).record)) (.ite .none (.some ((h.consume _).unsent ..)))
    · exact .none

theorem Sound.linkFields {s : State} (h : Sound s) (v d : Nat) (x : Mesh) (f : LinkFields) :
    Sound (s.linkFields v d x f) := .ite ((h.modLink ..).resendLink ..) (h.modLink ..)

theorem Sound.detected {s : State} (h : Sound s) (v d : Nat) (x : Mesh) : Sound (s.detected v d x) := (h.modLink ..).countRetry ..

theorem Sound.takeFlit {s : State} (h : Sound s) (w d : Nat) (x : Mesh) : Sound (s.takeFlit w d x) := h.modLink ..

theorem Sound.landed {s : State} (h : Sound s) (d n : Nat) : Sound (s.landed d n) := by
  unfold State.landed
  split
  · exact h
  · exact h.record

theorem Sound.recvFlit {s : State} (h : Sound s) (v d : Nat) (x : Mesh) : Sounds (s.recvFlit v d x) := by
  unfold State.recvFlit
  split
  · exact .none
  · split
    · exact .none
    · exact .ite .none (.ite (.ite .none (.some (.ite ((((Sound.ite (((h.takeFlit ..).modLink ..).modLink ..)
          ((h.takeFlit ..).modLink ..)).linkFields ..).landed ..).raise ..) (((Sound.ite (((h.takeFlit ..).modLink ..).modLink ..)
              ((h.takeFlit ..).modLink ..)).linkFields ..).landed ..)))) (.ite (.some ((h.takeFlit ..).modLink ..)) (.some
                  (((h.takeFlit ..).modLink ..).detected ..))))

theorem Sound.endDown {s : State} (h : Sound s) (v d : Nat) (x : Mesh) : Sound (s.endDown v d x) := by
  unfold State.endDown
  dsimp only
  refine Sound.each (fun t a hs => ?_) _ (h.modLink ..).record
  split
  · exact hs.unsent ..
  · exact .ite (hs.unsent ..) (hs.raise ..)

theorem Sound.dropLink {s : State} (h : Sound s) (v d : Nat) (x : Mesh) : Sound (s.dropLink v d x) := by
  unfold State.dropLink
  split
  · exact h
  · exact (h.endDown ..).endDown ..

theorem Sound.linkDown {s : State} (h : Sound s) (v d : Nat) (x : Mesh) : Sound (s.linkDown v d x) := (h.raise ..).dropLink ..

theorem Sound.crcError {s : State} (h : Sound s) (v d : Nat) (x : Mesh) : Sounds (s.crcError v d x) := by
  unfold State.crcError
  split
  · exact .none
  · split
    · exact .none
    · split
      · exact .some (h.detected ..)
      · exact .ite (.ite .none (.some (((h.detected ..).countRetry ..).linkDown ..))) (.some (((h.takeFlit ..).modLink ..).detected ..))

theorem Sound.idleFlit {s : State} (h : Sound s) (v d : Nat) (x : Mesh) (f : LinkFields) : Sounds (s.idleFlit v d x f) := by
  unfold State.idleFlit
  split
  · exact .none
  · exact .ite (.some ((h.modLink ..).linkFields ..)) .none

theorem Sound.protocolError {s : State} (h : Sound s) (v d : Nat) (x : Mesh) (b : List Byte) : Sounds (s.protocolError v d x b) := by
  unfold State.protocolError
  split
  · exact .none
  · exact .ite .none (.ite (.some (((h.modLink ..).linkFields ..).raise ..)) (.ite (.some
        ((((h.modLink ..).modLink ..).linkFields ..).raise ..)) .none))

theorem Sound.mergeAmo {s : State} (h : Sound s) (v n1 n2 : Nat) : Sounds (s.mergeAmo v n1 n2) := by
  unfold State.mergeAmo
  split
  · split
    · exact .ite .none (.some ((h.unbuffer _).unbuffer _).record.record.record)
    · exact .none
  · exact .none

theorem Sound.writeMapWord {s : State} (h : Sound s) (v j : Nat) (w : Word) : Sound (s.writeMapWord v j w) := h.modSite ..

theorem Sound.writeSelf {s : State} (h : Sound s) (v : Nat) (w : Word) : Sound (s.writeSelf v w) := h.modSite ..

theorem Sound.refq {s : State} (h : Sound s) (v : Nat) (w : Word) : Sound (s.refq v w) := h.setSite ..

theorem Sound.releaseHeld {s : State} (h : Sound s) (v k : Nat) : Sound (s.releaseHeld v k) := h.record.each (fun _ _ hs => hs.sendAgain _) _

theorem Sound.nsFinish {s : State} (h : Sound s) (v : Nat) : Sound (s.nsFinish v) := by
  unfold State.nsFinish
  split
  · exact (h.modSite ..).releaseHeld ..
  · exact h

theorem Sound.nsUpdate {s : State} (h : Sound s) (v : Nat) (w : Word) : Sound (s.nsUpdate v w) := by
  unfold State.nsUpdate
  dsimp only
  split
  · exact h
  · split
    · exact (h.setSite ..).nsFinish _
    · exact .ite ((((h.setSite ..).modSite ..).each (fun _ _ hs => hs.post _) _).nsFinish _) (((h.setSite ..).modSite ..).each
          (fun _ _ hs => hs.post _) _)

theorem Sound.drainMarker {s : State} (h : Sound s) (n : Nat) : Sounds (s.drainMarker n) := by
  unfold State.drainMarker
  split
  · split
    · exact .some ((h.consume _).post _)
    · exact .none
  · exact .none

theorem Sound.markerReturn {s : State} (h : Sound s) (n : Nat) : Sounds (s.markerReturn n) := by
  unfold State.markerReturn
  split
  · split
    · exact .some (.ite (((h.consume _).modSite ..).nsFinish _) ((h.consume _).modSite ..))
    · exact .none
  · exact .none

theorem Sound.bandWrite {s : State} (h : Sound s) (v r : Nat) (w : Word) : Sound (s.bandWrite v r w) := h.modSite ..

end Sys2Proof
end

section
/-! Bring-up, windows and the requests at their homes keep the state sound (R57, R65, R99, R119-R134, R175, R302, R408-R420). -/

namespace Sys2Proof

open Sys2Proof.Machine

theorem Sound.enter {s : State} (h : Sound s) (v : Nat) (n : SiteState) : Sound (s.enter v n) := h.modSite ..

theorem Sound.move {s : State} (h : Sound s) (v : Nat) (a b : SiteState) : Sounds (s.move v a b) := .ite (.some (h.enter ..)) .none

theorem Sound.forgetRegion {s : State} (h : Sound s) (v : Nat) :
    Sound (s.forgetRegion v) := .ite h (h.each (fun _ _ hs => hs.each (fun _ _ hs1 => hs1.modSite ..) _) _)

/-- The records of some strands, cores and bowers are dropped (R415). -/
theorem Sound.filterRecords {s : State} (h : Sound s) (p : Nat × Strand → Bool) (q : Nat × Core → Bool) (r : Nat × Bower → Bool) {net : List Msg}
    {txns : List Txn} : Sound { s with strands := s.strands.filter p, cores := s.cores.filter q, bowers := s.bowers.filter r, net, txns } :=
  ⟨h.1, h.2.1.filter p, h.2.2.1.filter q, h.2.2.2.1.filter r, h.2.2.2.2⟩

theorem Sound.coldSite {s : State} (h : Sound s) (v : Nat) : Sound (s.coldSite v) := by
  unfold State.coldSite
  refine Sound.forgetRegion (Sound.setSite (Sound.filterRecords (Sound.each (fun t d hs => ?_) _ h) _ _ _) _ _) _
  dsimp only
  split
  · exact hs.each (fun _ _ hs => (Sound.ite (hs.endDown ..) hs).modLink ..) _
  · exact hs

theorem Sound.sendHello {s : State} (h : Sound s) (v d : Nat) (x : Mesh) : Sound (s.sendHello v d x) := by
  unfold State.sendHello
  split
  · exact h
  · split
    · exact h.post _

theorem Sound.linkInit {s : State} (h : Sound s) (v d : Nat) (x : Mesh) : Sounds (s.linkInit v d x) := by
  unfold State.linkInit
  split
  · exact .none
  · exact .ite .none (.some ((((h.modLink ..).modLink ..).sendHello ..).sendHello ..))

theorem Sound.referenceLock {s : State} (h : Sound s) (v d : Nat) : Sounds (s.referenceLock v d) := by
  unfold State.referenceLock
  dsimp only
  split
  · exact .none
  · exact .ite (.some (h.setSite ..)) .none

theorem Sound.gateStable {s : State} (h : Sound s) (v : Nat) : Sounds (s.gateStable v) := .ite (.some (h.setSite ..)) .none

theorem Sound.isolate {s : State} (h : Sound s) (v : Nat) : Sound (s.isolate v) := by
  unfold State.isolate
  dsimp only
  refine Sound.enter (Sound.each (fun t a hs => ?_) _ h) ..
  refine Sound.each (fun t a hs => ?_) _ hs
  split
  · exact hs.linkDown ..
  · exact hs

theorem Sound.listenTimeout {s : State} (h : Sound s) (v : Nat) :
    Sounds (s.listenTimeout v) := .ite .none (.ite (.some (h.enter ..)) (.ite (.some (h.isolate _)) .none))

theorem Sound.cfgIsolate {s : State} (h : Sound s) (v : Nat) : Sound (s.cfgIsolate v) := .ite h (h.isolate _)

theorem Sound.coordConflict {s : State} (h : Sound s) (v : Nat) :
    Sound (s.coordConflict v) := .ite (((h.modSite ..).raise ..).enter ..) ((h.modSite ..).raise ..)

theorem Sound.helloArrives {s : State} (h : Sound s) (n : Nat) : Sounds (s.helloArrives n) := by
  unfold State.helloArrives
  split
  · split
    · exact .ite .none (.some ((Sound.ite ((Sound.ite ((((h.consume _).modLink ..).modSite ..).modSite ..)
          (((h.consume _).modLink ..).modSite ..)).coordConflict _) (.ite ((((h.consume _).modLink ..).modSite ..).modSite ..)
              (((h.consume _).modLink ..).modSite ..))).modSite ..))
    · exact .none
  · exact .none

theorem Sound.askBlock {s : State} (h : Sound s) (v n forSite : Nat) : Sound (s.askBlock v n forSite) := by
  unfold State.askBlock
  split
  · exact h.post _
  · split
    · exact h
    · exact h.post _

theorem Sound.answerImage {s : State} (h : Sound s) (v : Nat) (r : Nat × Nat × Nat) : Sound (s.answerImage v r) := by
  unfold State.answerImage
  split
  · dsimp only
    split
    · exact h.post _
    · exact h.post _

theorem Sound.serveImages {s : State} (h : Sound s) (v : Nat) :
    Sound (s.serveImages v) := .ite ((h.modSite ..).each (fun _ _ hs => hs.answerImage ..) _) h

theorem Sound.placeImage {s : State} (h : Sound s) (v : Nat) : Sounds (s.placeImage v) := .ite (.some ((h.modGate ..).serveImages _)) .none

theorem Sound.placeFirmware {s : State} (h : Sound s) (v : Nat) (l : List Byte) :
    Sounds (s.placeFirmware v l) := .ite (.some ((h.modGate ..).serveImages _)) .none

theorem Sound.selfTest {s : State} (h : Sound s) (v : Nat) (ok : Bool) :
    Sounds (s.selfTest v ok) := .ite .none (.ite (.some ((h.enter ..).raise ..)) (.some (.ite (((Sound.ite ((h.each
        (fun _ _ hs => hs.zeroBytes ..) _).zeroBytes ..) h).enter ..).enter ..) ((((Sound.ite ((h.each
            (fun _ _ hs => hs.zeroBytes ..) _).zeroBytes ..) h).enter ..).askBlock ..).serveImages _))))

theorem Sound.imageAsked {s : State} (h : Sound s) (n : Nat) : Sounds (s.imageAsked n) := by
  unfold State.imageAsked
  split
  · split
    · exact .ite (.some (h.turnAway _)) (.ite (.some ((h.consume _).answerImage ..)) (.some (.ite (((h.consume _).modSite ..).askBlock ..)
          ((h.consume _).modSite ..))))
    · exact .none
  · exact .none

theorem Sound.serviceStrand {s : State} (h : Sound s) (c n : Nat) (e : Addr) (segs : List (Nat × Word × Word)) :
    Sound (s.serviceStrand c n e segs) := h.setStrand ..

theorem Sound.keeperStrand {s : State} (h : Sound s) (c n : Nat) (e : Addr) (segs : List (Nat × Word × Word)) :
    Sound (s.keeperStrand c n e segs) := .ite ((h.serviceStrand ..).modStrand ..) (h.serviceStrand ..)

theorem Sound.startKeeper {s : State} (h : Sound s) (v : Nat) (l : List (Nat × Addr × List (Nat × Word × Word))) :
    Sound (s.startKeeper v l) := (h.setCore ..).each (fun _ _ hs => hs.keeperStrand ..) _

theorem Sound.applyImage {s : State} (h : Sound s) (v : Nat) (img : List Byte) :
    Sound (s.applyImage v img) := .ite ((h.modSite ..).enter ..) (.ite (((h.modSite ..).enter ..).startKeeper ..) ((((h.modSite ..).enter ..).each
        (fun _ _ hs => hs.modBower ..) _).each (fun _ _ hs => (hs.setCore ..).each (fun _ _ hs1 => hs1.serviceStrand ..) _) _))

theorem Sound.checkImage {s : State} (h : Sound s) (v : Nat) : Sounds (s.checkImage v) := by
  unfold State.checkImage
  dsimp only
  split
  · exact .none
  · split
    · exact .some h
    · split
      · exact .some (h.applyImage ..)
      · exact .ite .none (.some ((h.enter ..).raise ..))

theorem Sound.imageArrives {s : State} (h : Sound s) (n : Nat) : Sounds (s.imageArrives n) := by
  unfold State.imageArrives
  split
  · split
    · dsimp only
      split
      · split
        · exact .some (h.consume _)
        · split
          · exact .some (h.consume _)
          · exact .some (((h.consume _).modSite ..).post _)
      · exact .ite (.some (h.consume _)) (.ite (((h.consume _).modSite ..).checkImage _) (.some (((h.consume _).modSite ..).askBlock ..)))
    · exact .none
  · exact .none

theorem Sound.quoteWrite {s : State} (h : Sound s) (v off : Nat) (w : Word) : Sound (s.quoteWrite v off w) := .ite (h.modSite ..) (.ite (h.atGo _) h)

theorem Sound.pavilionWrite {s : State} (h : Sound s) (v off : Nat) (w : Word) :
    Sound (s.pavilionWrite v off w) := .ite (h.writeFqHead ..) (.ite (h.wakeWord ..) (.ite (h.modSite ..) (.ite (h.tlbInv ..) (.ite (h.modSite ..)
        (.ite (h.writeSelf ..) (.ite (h.refq ..) (.ite (h.writeMapWord ..) (.ite (h.nsUpdate ..) (.ite (h.bandWrite ..) (.ite (h.clearTrellis ..)
            (.ite (h.clearTrellis ..) (.ite (h.setTc ..) (.ite (.ite h (h.modSite ..)) (.ite (h.modBower ..) (.ite (h.modBower ..) (.ite
                (h.modSite ..) (h.quoteWrite ..)))))))))))))))))

theorem Sound.queueWrite {s : State} (h : Sound s) (g q i : Nat) (w : Word) : Sounds (s.queueWrite g q i w) := by
  unfold State.queueWrite
  split
  · exact .some (h.modQueue ..)
  · exact h.writeQctl ..
  · exact h.writeQtail ..
  · exact .some (h.modQueue ..)
  · exact .some (h.writeCread ..)
  · exact .some h

theorem Sound.gatehouseWrite {s : State} (h : Sound s) (v off : Nat) (w : Word) :
    Sounds (s.gatehouseWrite v off w) := .ite (h.queueWrite ..) (.ite (.some (h.modGate ..)) (.ite (.some (h.writeMapWord ..)) (.ite (.some
        (h.nsUpdate ..)) (.ite (.some (h.modGate ..)) (.some (h.quoteWrite ..))))))

theorem Sound.windowWrite {s : State} (h : Sound s) (v off : Nat) (w : Word) :
    Sounds (s.windowWrite v off w) := .ite (.some (h.pavilionWrite ..)) (h.gatehouseWrite ..)

/-- Changes that each keep the state sound, as far as they are due, keep it so together. -/
theorem Sound.foldlM {α : Type} {f : State → α → Option State} (hf : ∀ s a, Sound s → Sounds (f s a)) (l : List α) {s : State} (h : Sound s) :
    Sounds (l.foldlM f s) := by
  induction l generalizing s with
  | nil => exact .some h
  | cons a l ih =>
    rw [List.foldlM_cons]
    cases e : f s a with
    | none => exact .none
    | some t => exact ih ((hf s a h).sound e)

theorem Sound.windowStore {s : State} (h : Sound s) (v off en : Nat) (d : List Byte) : Sounds (s.windowStore v off en d) :=
  Sound.foldlM (fun _ _ hs => .ite (hs.windowWrite ..) (.some hs)) _ h

theorem Sound.sendConfig {s : State} (h : Sound s) (g : Nat) (op : MsgOp) (off : Nat) (data : List Byte) (a : Machine.Acc) (parts : List Msg) :
    Sound (s.sendConfig g op off data a parts) := h.record.record.sendOut _

theorem Sound.hostConfig {s : State} (h : Sound s) (g : Nat) (op : MsgOp) (off : Nat) (data : List Byte) (o : Owner) :
    Sounds (s.hostConfig g op off data o) := .ite .none (.some (.ite (h.sendConfig ..) h))

theorem Sound.hostConfigRead {s : State} (h : Sound s) (g off : Nat) : Sounds (s.hostConfigRead g off) := (h.modGate ..).hostConfig ..

theorem Sound.registerWrite {s : State} (h : Sound s) (t : WriteTarget) : Sounds (s.registerWrite t) := by
  unfold State.registerWrite
  split
  · refine Sounds.map (fun a => ?_) _
    split
    · exact (h.regWrite ..).completed ..
  · exact .ite .none (.ite (h.hostConfig ..) (h.windowWrite ..))

theorem Sound.cfgWrite {s : State} (h : Sound s) (v off : Nat) (w : Word) :
    Sound (s.cfgWrite v off w) := .ite (h.cfgIsolate _) (.ite (h.writeMapWord ..) (.ite (h.nsUpdate ..) h))

theorem Sound.configRead {s : State} (h : Sound s) (n : Nat) : Sounds (s.configRead n) := by
  unfold State.configRead
  split
  · split
    · dsimp only
      refine Sounds.some ?_
      split
      · exact (h.consume _).reply ..
      · exact (h.consume _).reply ..
    · exact .none
  · exact .none

theorem Sound.configWrite {s : State} (h : Sound s) (n : Nat) : Sounds (s.configWrite n) := by
  unfold State.configWrite
  split
  · split
    · exact .none
    · split
      · dsimp only
        split
        · exact .some ((h.consume _).reply ..)
        · refine Sounds.some ?_
          split
          · exact (h.consume _).reply ..
          · exact ((h.consume _).reply ..).cfgWrite ..
      · exact .none
  · exact .none

theorem Sound.cfgAccess {s : State} (h : Sound s) (g n : Nat) : Sounds (s.cfgAccess g n) := by
  unfold State.cfgAccess
  split
  · split
    · exact .none
    · dsimp only
      split
      · exact .none
      · exact .some ((h.consume _).reply ..)
      · exact .ite (.some ((h.consume _).reply ..)) (.ite (.some ((h.consume _).reply ..)) (.some ((h.consume _).sendConfig ..)))
  · exact .none

theorem Sound.windowPut {s : State} (h : Sound s) (m : Msg) (en : Nat) (d : List Byte) : Sounds (s.windowPut m en d) := h.windowStore ..

theorem Sound.windowStep {s : State} (h : Sound s) (m : Msg) : Sounds (s.windowStep m) := by
  unfold State.windowStep
  dsimp only
  split
  · exact .some ((h.consume _).reply ..)
  · exact ((h.consume _).windowPut ..).mapState (fun _ hs => (hs.raiseTag _).reply ..)
  · exact ((h.consume _).windowPut ..).mapState (fun _ hs => hs.reply ..)
  · exact ((h.consume _).windowPut ..).mapState (fun _ hs => (hs.raiseTag _).reply ..)
  · exact ((h.consume _).windowPut ..).mapState (fun _ hs => hs.reply ..)
  · exact .some ((h.consume _).reply ..)
  · exact .some ((h.consume _).reply ..)

theorem Sound.hostPost {s : State} (h : Sound s) (m : Msg) (en : Nat) (d : List Byte) : Sound (s.hostPost m en d) := h.record.modGate ..

theorem Sound.hostWait_ {s : State} (h : Sound s) (m : Msg) : Sound (s.hostWait_ m) := h.modGate ..

theorem Sound.hostStep {s : State} (h : Sound s) (m : Msg) : Sound (s.hostStep m) := by
  unfold State.hostStep
  dsimp only
  split
  · split
    · exact (h.consume _).reply ..
    · split
      · exact (h.consume _).reply ..
      · split
        · exact (h.consume _).hostWait_ _
        · exact ((h.consume _).hostPost ..).reply ..
        · exact ((h.consume _).hostPost ..).reply ..
        · exact (h.consume _).reply ..
        · exact .ite ((h.consume _).hostWait_ _) ((h.consume _).reply ..)
  · exact h.consume _

/-- A request at its home is sound when the operation that it performs there is (R99). -/
theorem Sound.homeStep {s : State} (h : Sound s) (n : Nat) (p : ReqOp → Bool) (fe : Bool) (rd : Msg → List Nat) {act : State → Msg → State}
    (ha : ∀ s m, Sound s → Sound (act s m)) : Sounds (s.homeStep n p fe rd act) := by
  unfold State.homeStep
  split
  · exact .none
  · dsimp only
    split
    · exact .some ((h.consume _).reply ..)
    · exact .ite (.some (h.hostStep _)) (.ite (.ite .none (h.windowStep _)) (h.atHome _ _ _ _ ha))

theorem Sound.feWithdrawn {s : State} (h : Sound s) (n : Nat) : Sounds (s.feWithdrawn n) := by
  unfold State.feWithdrawn
  split
  · split
    · exact .ite (.some ((h.consume _).reply ..)) (.ite (.some ((h.consume _).reply ..)) (.some (((h.consume _).modSite ..).reply ..)))
    · exact .none
  · exact .none

theorem Sound.performMonArm {s : State} (h : Sound s) (m : Msg) :
    Sound (s.performMonArm m) := .ite (h.reply ..) (.ite ((h.reply ..).modSite ..) ((h.reply ..).reply ..))

theorem Sound.performMonClr {s : State} (h : Sound s) (m : Msg) : Sound (s.performMonClr m) := (h.modSite ..).reply ..

theorem Sound.zeroLengthRead {s : State} (h : Sound s) (g : Nat) : Sounds (s.zeroLengthRead g) := by
  unfold State.zeroLengthRead
  dsimp only
  split
  · exact .ite (.some (h.modGate ..)) .none
  · exact .none

theorem Sound.hostShow {s : State} (h : Sound s) (p : Posted) : Sound (s.hostShow p) := .ite h (h.writeBytes ..)

theorem Sound.hostWriteComplete {s : State} (h : Sound s) (g : Nat) : Sounds (s.hostWriteComplete g) := by
  unfold State.hostWriteComplete
  split
  · exact .none
  · exact .some (((h.each (fun _ _ hs => hs.hostShow _) _).modGate ..).each (fun _ _ hs => hs.testFence _) _)

theorem Sound.hostAnswered {s : State} (h : Sound s) (g : Nat) (m : Msg) : Sound (s.hostAnswered g m) := h.modGate ..

theorem Sound.hostAtomicDone {s : State} (h : Sound s) (g t : Nat) (ok : Bool) : Sounds (s.hostAtomicDone g t ok) := by
  unfold State.hostAtomicDone
  split
  · exact .none
  · dsimp only
    split
    · exact .some ((h.hostAnswered ..).reply ..)
    · have hs (u : State) (hu : Sound u) (a en : Nat) (l : List Byte) (f : Gate → Gate) := (hu.writeBytes a en l).modGate g f
      refine .some ?_
      split
      · exact (hs _ ((h.hostAnswered ..).each (fun _ _ hs => hs.hostShow _) _) _ _ _ _).reply ..
      · exact (hs _ ((h.hostAnswered ..).each (fun _ _ hs => hs.hostShow _) _) _ _ _ _).reply ..

theorem Sound.hostReadDone {s : State} (h : Sound s) (g t : Nat) (ok : Bool) : Sounds (s.hostReadDone g t ok) := by
  unfold State.hostReadDone
  split
  · exact .none
  · dsimp only
    split
    · exact .some ((h.hostAnswered ..).reply ..)
    · refine Sounds.some (Sound.reply ?_ ..)
      split
      · exact (h.hostAnswered ..).modGate ..
      · exact h.hostAnswered ..

theorem Sound.hostLinkChange {s : State} (h : Sound s) (g : Nat) (up : Bool) :
    Sounds (s.hostLinkChange g up) := .ite .none (.ite (.some (h.modGate ..)) (.some ((h.modGate ..).each (fun _ _ hs => hs.reply ..) _)))

theorem Sound.hostRetryAnswer {s : State} (h : Sound s) (g t : Nat) : Sounds (s.hostRetryAnswer g t) := by
  unfold State.hostRetryAnswer
  split
  · exact .ite (.some ((h.hostAnswered ..).reply ..)) .none
  · exact .ite (.some ((h.hostAnswered ..).reply ..)) .none
  · exact .none

end Sys2Proof
end

section
/-! What the replies, the events and the rotation do keeps a state sound (R27, R73, R86, R122-R124). -/

namespace Sys2Proof

open Sys2Proof.Machine

theorem Sound.replayAnswered {s : State} (h : Sound s) (o : Owner) : Sound (s.replayAnswered o) := by
  unfold State.replayAnswered
  split
  · exact h
  · exact .ite (h.modCore ..) h

theorem Sound.launchBytes {s : State} (h : Sound s) (k d : Nat) (a : Addr) (buf : List Byte) :
    Sound (s.launchBytes k d a buf) := .ite (h.launchSend ..) (h.launchPiece ..)

theorem Sound.strandDone {s : State} (h : Sound s) (k : Nat) (d : List Byte) (full : Bool) : Sound (s.strandDone k d full) := by
  unfold State.strandDone
  dsimp only
  split
  · exact h
  · split
    · exact h.elemDone ..
    · exact h.barAnswer _
    · exact (h.modStrand ..).completed ..
    · exact h.launchBytes ..
    · exact (h.modStrand ..).wake _

theorem Sound.writeBackDone {s : State} (h : Sound s) (v : Nat) : Sound (s.writeBackDone v) := by
  unfold State.writeBackDone
  dsimp only
  refine Sound.releasesDone (Sound.each (fun t a hs => ?_) _ h) _
  split
  · exact .ite (hs.launchGo ..) hs
  · exact hs.testFence _

theorem Sound.monitorWake {s : State} (h : Sound s) (k : Nat) : Sound (s.monitorWake k) := by
  unfold State.monitorWake
  dsimp only
  split
  · split
    · exact h.completed ..
    · exact h.wake _
  · exact h

theorem Sound.monitorArmed {s : State} (h : Sound s) (k n : Nat) (q : Msg) :
    Sound (s.monitorArmed k n q) := ((Sound.ite ((h.modStrand ..).modStrand ..) ((h.modStrand ..).removeWatch ..)).settle _).monitorWake _

theorem Sound.answered {s : State} (h : Sound s) (a : Machine.Acc) : Sound (s.answered a) := by
  unfold State.answered
  dsimp only
  split
  · exact (h.replayAnswered _).releasesDone _
  · exact h.replayAnswered _

theorem Sound.accDone {s : State} (h : Sound s) (a : Machine.Acc) (q : Msg) (d : Option (List Byte)) (full : Bool) :
    Sound (s.accDone a q d full) := by
  unfold State.accDone
  dsimp only
  refine Sound.answered ?_ _
  split
  · exact h.strandDone ..
  · exact h.relaxedDone ..
  · exact h.elemDone ..
  · exact h.writeBackDone _
  · exact h.copyReadDone ..
  · exact h.copyWriteDone ..
  · exact h.opAck ..
  · exact h.monitorArmed ..
  · exact h.gangDone ..
  · exact h.modGate ..
  · exact h
  · exact h
  · exact h
  · exact h
  · exact h

theorem Sound.strandFault {s : State} (h : Sound s) (k code : Nat) (a : Machine.Acc) : Sound (s.strandFault k code a) := by
  unfold State.strandFault
  dsimp only
  split
  · exact h
  · split
    · exact h.elemFault ..
    · exact h.launchStatus ..
    · exact .ite (h.launchStatus ..) ((h.takeFault ..).testHalt _)
    · exact .ite (h.endWalk ..) ((h.takeFault ..).testHalt _)

theorem Sound.fetchFault {s : State} (h : Sound s) (k code : Nat) (a : Machine.Acc) :
    Sound (s.fetchFault k code a) := .ite h ((h.takeFault ..).testHalt _)

theorem Sound.monitorFault {s : State} (h : Sound s) (k n : Nat) (f : Late) :
    Sound (s.monitorFault k n f) := (((h.lateFault ..).modStrand ..).settle _).monitorWake _

theorem Sound.gangAddFailed {s : State} (h : Sound s) (v rim launch : Nat) : Sound (s.gangAddFailed v rim launch) := (h.modSite ..).releasesDone _

theorem Sound.accFault {s : State} (h : Sound s) (a : Machine.Acc) (q : Msg) (code : Nat) : Sound (s.accFault a q code) := by
  unfold State.accFault
  dsimp only
  refine Sound.answered ?_ _
  split
  · exact h.strandFault ..
  · exact (h.lateFault ..).relaxedDone ..
  · exact h.elemFault ..
  · exact h.fetchFault ..
  · exact h.writeBackDone _
  · exact (h.copyFault ..).modCore ..
  · exact (h.copyFault ..).copyWriteDone ..
  · split
    · exact h.opStatus ..
    · exact h.opFault ..
  · exact h.monitorFault ..
  · exact h.gangAddFailed ..
  · exact h.armAnswer ..
  · exact h.modGate ..
  · exact h
  · exact h
  · exact h

theorem Sound.settled {s : State} (h : Sound s) (m : Msg) : Sound (s.settled m) := (h.consume _).dropTxn _

theorem Sound.stray {s : State} (h : Sound s) (n : Nat) (p : MsgOp → Bool) : Sounds (s.stray n p) := by
  unfold State.stray
  split
  · exact .ite (.some (h.consume _)) .none
  · exact .none

theorem Sound.answerParts {s : State} (h : Sound s) (v : Nat) (t : Txn) (op : MsgOp) (d : List Byte) :
    Sound (s.answerParts v t op d) := h.each (fun _ _ hs => hs.post _) _

theorem Sound.rspData {s : State} (h : Sound s) (n : Nat) : Sounds (s.rspData n) := by
  unfold State.rspData
  split
  · exact h.stray ..
  · split
    · exact .none
    · exact .none
    · exact .some (((h.settled _).answerParts ..).accDone ..)

theorem Sound.withdrawn {s : State} (h : Sound s) (t : Nat) : Sound (s.withdrawn t) := by
  unfold State.withdrawn
  split
  · exact h
  · dsimp only
    split
    · exact (h.dropTxn _).endFe _
    · exact h.dropTxn _

theorem Sound.rspAck {s : State} (h : Sound s) (n : Nat) : Sounds (s.rspAck n) := by
  unfold State.rspAck
  split
  · exact h.stray ..
  · split
    · exact .some ((h.settled _).answerParts ..)
    · split
      · exact .none
      · split
        · exact .some ((h.settled _).withdrawn _)
        · exact .some ((h.settled _).accDone ..)

theorem Sound.mergedAnswer {s : State} (h : Sound s) (n : Nat) : Sounds (s.mergedAnswer n) := by
  unfold State.mergedAnswer
  split
  · exact .none
  · exact .ite .none (.some ((h.settled _).answerParts ..))

theorem Sound.rspError {s : State} (h : Sound s) (n : Nat) : Sounds (s.rspError n) := by
  unfold State.rspError
  split
  · exact .none
  · split
    · split
      · exact .some (h.consume _)
      · dsimp only
        split
        · exact .some ((h.settled _).answerParts ..)
        · split
          · exact .some ((h.settled _).withdrawn _)
          · exact .some ((h.settled _).accFault ..)
    · exact .none

theorem Sound.rspDeferral {s : State} (h : Sound s) (n : Nat) : Sounds (s.rspDeferral n) := by
  unfold State.rspDeferral
  split
  · exact h.stray ..
  · dsimp only
    refine Sounds.some ?_
    split
    · exact (((h.consume _).count ..).dropTxn _).answered _
    · exact (((h.consume _).count ..).dropTxn _).answered _
    · exact .ite ((((h.consume _).count ..).dropTxn _).endFe _) (((h.consume _).count ..).holdBack _)
    · exact ((h.consume _).count ..).holdBack _

theorem Sound.rspHostRetry {s : State} (h : Sound s) (n : Nat) : Sounds (s.rspHostRetry n) := by
  unfold State.rspHostRetry
  split
  · exact h.stray ..
  · split
    · exact .some ((h.settled _).wake _)
    · exact .some ((h.settled _).wake _)
    · exact .some (h.settled _)

theorem Sound.rspStatus {s : State} (h : Sound s) (n : Nat) : Sounds (s.rspStatus n) := by
  unfold State.rspStatus
  split
  · exact .none
  · split
    · split
      · exact .some (h.consume _)
      · dsimp only
        refine Sounds.some ?_
        split
        · split
          · exact (h.settled _).launchStatus ..
          · exact h.settled _
        · exact (h.settled _).opStatus ..
        · exact (h.settled _).armAnswer ..
        · exact h.settled _
    · exact .none

theorem Sound.rspMonitorFire {s : State} (h : Sound s) (n : Nat) : Sounds (s.rspMonitorFire n) := by
  unfold State.rspMonitorFire
  split
  · exact .none
  · split
    · exact .some (.ite (h.consume _) (((h.consume _).modStrand ..).monitorWake _))
    · exact .none

theorem Sound.fillCaches {s : State} (h : Sound s) (c : Nat) (m : Msg) (t : Txn) (l : Line) :
    Sound (s.fillCaches c m t l) := .ite (.ite h (h.fillSlice ..)) ((Sound.ite h (h.fillSlice ..)).fillL1d ..)

theorem Sound.mendFilled {s : State} (h : Sound s) (c : Nat) (l : Line) : Sounds ((s.mendFilled c l).map Prod.snd) := by
  unfold State.mendFilled
  split
  · split
    · exact .none
    · exact .some (h.mendL1d ..)
  · exact .some h

theorem Sound.accOnLine {s : State} (h : Sound s) (c : Nat) (m : Msg) (t : Txn) (l : Line) : Sound (s.accOnLine c m t l) := by
  unfold State.accOnLine
  dsimp only
  split
  · exact (h.modCore ..).accDone ..
  · exact (h.lineLeaves ..).accDone ..
  · exact h.accDone ..
  · exact h.accDone ..

theorem Sound.lookAgain {s : State} (h : Sound s) (m : Msg) (a : Machine.Acc) : Sound (s.lookAgain m a) := by
  unfold State.lookAgain
  split
  · exact h.settled _
  · exact (h.settled _).sendAccess _

theorem Sound.l1dFill {s : State} (h : Sound s) (n : Nat) : Sounds (s.l1dFill n) := by
  unfold State.l1dFill
  split
  · exact .none
  · split
    · exact .none
    · exact .none
    · dsimp only
      split
      · exact .some (h.lookAgain ..)
      · next e =>
        have ht := (h.mendFilled ..).sound (congrArg (Option.map Prod.snd) e)
        refine .some ?_
        split
        · exact ((ht.settled _).fillCaches ..).count ..
        · exact .ite (((ht.settled _).fillCaches ..).accFault ..) (((ht.settled _).fillCaches ..).accOnLine ..)

theorem Sound.fetched {s : State} (h : Sound s) (k line : Nat) (t : Txn) (d : List Byte) :
    Sound (s.fetched k line t d) := .ite ((Sound.ite h (h.modCore ..)).wake _) (.ite h (h.modCore ..))

theorem Sound.icacheFill {s : State} (h : Sound s) (n : Nat) : Sounds (s.icacheFill n) := by
  unfold State.icacheFill
  split
  · exact .none
  · split
    · dsimp only
      split
      · exact .some ((h.settled _).fetched ..)
      · split
        · exact .some (h.lookAgain ..)
        · next e =>
          have ht := (h.mendFilled ..).sound (congrArg (Option.map Prod.snd) e)
          exact .some (.ite (((ht.settled _).fillCaches ..).accFault ..) (((ht.settled _).fillCaches ..).fetched ..))
    · exact .none

theorem Sound.stridePrefetch {s : State} (h : Sound s) (c slot ahead : Nat) : Sounds (s.stridePrefetch c slot ahead) := by
  unfold State.stridePrefetch
  split
  · exact .none
  · exact .ite (.some (.ite ((h.modCore ..).prefetch ..) ((h.modCore ..).count ..))) .none

theorem Sound.actStalled {s : State} (h : Sound s) (v u : Nat) : Sound (s.actStalled v u) := by
  unfold State.actStalled
  split
  · exact h
  · dsimp only
    split
    · exact h
    · split
      · exact h.faultAct ..
      · exact h

theorem Sound.holdEmptied {s : State} (h : Sound s) (v u : Nat) :
    Sound (s.holdEmptied v u) := .ite h (((h.nextLeaving _).serveRest ..).writeBackDone _)

theorem Sound.holdToRecord {s : State} (h : Sound s) (v : Nat) : Sounds (s.holdToRecord v) := by
  unfold State.holdToRecord
  dsimp only
  split
  · exact .none
  · exact .some ((((h.setSite ..).each (fun _ _ hs => hs.wake _) _).holdEmptied ..).actStalled ..)

theorem Sound.sendRecord {s : State} (h : Sound s) (v : Nat) : Sounds (s.sendRecord v) := by
  unfold State.sendRecord
  dsimp only
  split
  · exact .ite .none (.ite (.some (h.setSite ..)) (.some ((h.setSite ..).modGate ..)))
  · exact .none

theorem Sound.modLines {s : State} (h : Sound s) (v u : Nat) (f : List Line → List Line) :
    Sound (s.modLines v u f) := .ite (h.modSite ..) (h.modCore ..)

theorem Sound.scrubLine {s : State} (h : Sound s) (v u : Nat) (l : Line) (lasting uncorrectable : Bool) :
    Sound (s.scrubLine v u l lasting uncorrectable) := .ite ((Sound.ite (h.raise ..) (h.raise ..)).modLines ..) ((h.raise ..).modLines ..)

theorem Sound.scrub {s : State} (h : Sound s) (v u g : Nat) (lasting uncorrectable : Bool) :
    Sounds (s.scrub v u g lasting uncorrectable) := .ite .none (.ite (.map (fun _ => h.scrubLine ..) _) (.ite .none (.some (h.raise ..).record)))

theorem Sound.mended {s : State} (h : Sound s) (g : Guarded) (lasting : Bool) : Sounds (s.mended g lasting) := by
  unfold State.mended
  split
  · exact .ite .none (.some (h.raise ..))

theorem Sound.copyTurn {s : State} (h : Sound s) (c : Nat) : Sound (s.copyTurn c).after := by
  unfold State.copyTurn
  dsimp only
  split
  · next e => exact (Sounds.ite (h.copyTake _) (.bind (fun _ => h.copyBeat ..) _)).sound e
  · exact .ite (h.count ..) h

theorem Sound.dropStale {s : State} (h : Sound s) (k : Nat) : Sound (s.dropStale k) := .ite h (h.modStrand ..)

theorem Sound.strandTurn {s : State} (h : Sound s) (k : Nat) : Sound (s.strandTurn k).after := by
  unfold State.strandTurn
  dsimp only
  split
  · exact (h.modStrand ..).dropStale _
  · split
    · exact (((h.modStrand ..).dropStale _).stop _).count ..
    · split
      · exact ((h.modStrand ..).dropStale _).park ..
      · exact ((h.modStrand ..).dropStale _).fetchInstr _

theorem Sound.turn {s : State} (h : Sound s) (k : Nat) : Sound (s.turn k).after := by
  unfold State.turn
  dsimp only
  split
  · exact h.count ..
  · split
    · exact h.copyTurn _
    · split
      · exact h.strandTurn _
      · exact h.count ..

theorem Sound.endTurn {s : State} (h : Sound s) (c : Nat) : Sound (s.endTurn c) := .ite (h.coreCycle _) h

theorem Sound.permitRefill {s : State} (h : Sound s) (c : Nat) : Sounds (s.permitRefill c) := by
  unfold State.permitRefill
  split
  · exact .none
  · split
    · next e => exact .some (((h.turn _).along e).endTurn _)
    · exact .none
    · exact .none

/-- An execution whose every outcome from a sound state is sound. -/
def KeepsSound (ex : Instr → State → Out) : Prop := ∀ i s, Sound s → EndsSound (ex i s)

theorem Sound.runCycle {s : State} (h : Sound s) {ex : Instr → State → Out} (hex : KeepsSound ex) (c : Nat) : EndsSound (runCycle ex c s) := by
  unfold Machine.runCycle
  dsimp only
  split
  · next e => exact .next (((Sound.turn h.record _).along e).endTurn _)
  · next e => exact .next (((Sound.turn h.record _).along e).endTurn _)
  · next e =>
    split
    · next e' => exact .next ((((hex _ _ ((Sound.turn h.record _).along e)).sound e').issued ..).endTurn _)
    · exact ⟨nofun⟩
    · exact ⟨nofun⟩

theorem Sound.runEvent {s : State} (h : Sound s) {ex : Instr → State → Out} (hex : KeepsSound ex) (i : Instr) : EndsSound (runEvent ex i s) :=
  .ite (hex i s h) ⟨nofun⟩

theorem Sound.runItem {s : State} (h : Sound s) {ex : Instr → State → Out} (hex : KeepsSound ex) (i : Item) : EndsSound (runItem ex i s) := by
  cases i with
  | event i => exact h.runEvent hex i
  | cycle c => exact h.runCycle hex c

theorem Sound.runItems {ex : Instr → State → Out} (hex : KeepsSound ex) (n : Nat) {l : List Item} {s : State} (h : Sound s) :
    EndsSound (runItems ex n l s) := by
  induction n generalizing l s with
  | zero => exact .next h
  | succ n ih =>
    unfold Machine.runItems
    split
    · exact .next h
    · split
      · exact .next h
      · split
        · next e => exact ih ((Sound.runItem (.ite h.endInstant h) hex _).sound e)
        · exact ⟨nofun⟩
        · exact ⟨nofun⟩

theorem Sound.runInstant {s : State} (h : Sound s) {ex : Instr → State → Out} (hex : KeepsSound ex) (cs : List Nat) (l : List Instr) :
    EndsSound (runInstant ex cs l s) := by
  unfold Machine.runInstant
  dsimp only
  split
  · next e => exact .next ((Sound.runItems hex _ h.record).sound e).endInstant
  · exact ⟨nofun⟩
  · exact ⟨nofun⟩

theorem Sound.runSched {s : State} (h : Sound s) {ex : Instr → State → Out} (hex : KeepsSound ex) (a : Sched) : EndsSound (runSched ex a s) := by
  cases a with
  | event i => exact h.runEvent hex i
  | cycle c => exact h.runCycle hex c
  | send n => exact .due _ (h.sendFlit n)
  | recv v d x => exact .due _ (h.recvFlit v d x)
  | together cs l => exact h.runInstant hex cs l
  | withdraw n => exact .due _ (h.withdrawResumption n)
  | placeImage g => exact .due _ (h.placeImage g)
  | placeFirmware g l => exact .due _ (h.placeFirmware g l)
  | mended g lasting => exact .due _ (h.mended g lasting)
  | hostConfigRead g off => exact .due _ (h.hostConfigRead g off)

theorem Sound.runStep {s : State} (h : Sound s) {ex : Instr → State → Out} (hex : KeepsSound ex) : EndsSound (runStep ex s) := by
  unfold Machine.runStep
  dsimp only
  split
  · exact Sound.runCycle h.record hex _
  · exact Sound.runSched h.record hex _

end Sys2Proof
end

section
/-! Every step keeps a state sound (R85, R88). -/

namespace Sys2Proof

open Sys2Proof.Machine

/-- Whatever an instruction or an event does to a sound state leaves it sound. -/
theorem exec_keepsSound : KeepsSound exec := by
  intro i s h
  cases i with
  | add | sub | mul | mulhI | mulhN | divI | divN | remI | remN | and | or | xor | shl | shr | sra | minI | maxI | minN | maxN | seq | sltI | sltN
  | sel | clz | popc | sext | zext | addW | mulW | bfx | bfi | addi | andi | ori | xori | shli | shri | srai | seqi | sltiI | sltiN | miniI
  | maxiI | idget | cquery | lget | mcapr | li | lih | addl => exact .next (h.compute ..)
  | bz | bnz | blt | bge => exact .next (h.branch ..)
  | j => exact .next (h.jump _)
  | call => exact .next (h.modStrand ..)
  | jr | callr => exact .next (h.issue _ _ (h.jumpReg ..))
  | nest => exact h.execNest ..
  | next => exact .ite (.next (h.pass _)) (.ite (.next (h.handOut ..)) (.next ((h.modFetcher ..).park ..)))
  | trap => exact .next (h.trapN _)
  | eret => exact .next (.ite (h.trapReturn _) (h.raiseFault ..))
  | ldI8 | ldN8 | ldI16 | ldN16 | ldI32 | ldN32 | ld64 => exact .next (h.loadM ..)
  | ld128 | st128 | famoCas => exact .next (h.issue _ _ (h.plain ..))
  | ldr64 | str64 => exact .next (h.issue _ _ (h.relaxedAccess ..))
  | ldf64 | ldfc64 | ldfn64 | stf64 | stef64 | clre | setf => exact .next (h.issue _ _ (h.feM ..))
  | pref => exact h.execPref ..
  | st8 | st16 | st32 | st64 => exact .next (h.storeM ..)
  | amoAdd | amoFadd | amoMinI | amoMaxI | amoMinN | amoMaxN | amoAnd | amoOr | amoXor => exact .next (h.amoM ..)
  | famoAdd | famoFadd | famoOr | famoSwap => exact .next (h.famoM ..)
  | fenceAcq => exact .next (h.fence _ _ (h.acqActions _))
  | fenceRel => exact .next (h.fence _ _ (h.relActions _))
  | fenceAr => exact .next (h.fence _ _ ((h.relActions _).acqActions _))
  | barArr | barSync => exact .next (h.arrive _)
  | barWait => exact .next (h.askUnit ..)
  | monArm => exact h.execMonArm ..
  | monWait | waitR => exact .next (.ite (h.pass _) (h.park ..))
  | monClr => exact .next ((h.sendRemoval _).modStrand ..)
  | inv | wb => exact .next (h.range ..)
  | start => exact .next (h.issue _ _ (.ite (h.raiseFault ..) (.ite (h.faultAt ..) ((h.begin ..).modStrand ..))))
  | join => exact .next (.ite (h.raiseFault ..) (.ite (h.park ..) (h.pass _)))
  | endStrand => exact .next (.ite (h.pass _) (.ite (h.park ..) (.ite (h.park ..) (.ite (h.endDrain _) (.ite (h.freeSlot _) (h.endStrand _))))))
  | halt => exact .next (h.faultAt ..)
  | acqW =>
    exact .next (h.issue _ _ (.ite (h.raiseFault ..) (.ite (h.pass _) (.ite (((h.park ..).count ..).stop _)
      ((((h.park ..).count ..).modSite ..).scanOne ..)))))
  | acqF => exact .next (h.issue _ _ (.ite (h.raiseFault ..) (.ite (h.finish ..) ((Sound.ite (h.grant ..) (h.count ..)).askUnit ..))))
  | rel => exact h.execRel ..
  | relAll => exact .next (h.release _)
  | claimqHeld | claimqRem | claimqFree | claimqGran => exact .next (h.claimQuery ..)
  | launch => exact .next (h.issue _ _ (.ite (h.park ..) (.ite ((h.relActions _).park ..) (((h.relActions _).park ..).launchGo ..))))
  | ckpt =>
    exact .next (.ite (h.pass _) (.ite (h.park ..) (.ite h (.ite (((h.liveSeen ..).stop _).modStrand ..) (.ite (h.park ..)
      (((h.liveSeen ..).raise ..).pass _))))))
  | ctrAdd => exact .next (h.issue _ _ (h.afterRelaxed ((h.askUnit ..).addTc ..)))
  | ctrSet => exact .next (h.issue _ _ ((h.askUnit ..).setTc ..))
  | ctrRead | trigQuery | collGetr => exact .next (h.issue _ _ (h.askUnit ..))
  | ctrWait => exact .next (h.issue _ _ (.ite (h.askUnit ..) ((h.park ..).repark ..)))
  | ctrAddr => exact h.execCtrAddr ..
  | trigPost | trigPostl => exact .next (h.issue _ _ (h.afterRelaxed (h.post? ..)))
  | trigCancel => exact .next (h.issue _ _ ((Sound.ite (h.modSite ..) h).askUnit ..))
  | collArm => exact h.execCollArm ..
  | collPut =>
    exact .next (h.issue _ _ (.ite (.ite (h.park ..) ((h.collectiveNotice _).askUnit ..)) (.ite (h.askUnit ..) ((h.contributeLocal ..).askUnit ..))))
  | nqSend => exact h.execNqSend ..
  | nqRecv => exact h.execNqRecv ..
  | cpost =>
    exact .next (h.issue _ _ (.ite (h.raiseFault ..) (.ite (h.raiseFault ..) (.ite (h.raiseFault ..) (.ite (h.park ..) (.ite (h.park ..)
      ((h.modCore ..).pass _)))))))
  | ccancel => exact h.execCcancel ..
  | lset => exact .next (h.issue _ _ ((h.modCore ..).pass _))
  | mzero => exact .next (h.matrixOp _ _ (fun _ hs => hs.enlane ..))
  | mload | mstore => exact .next (h.matrixOp _ _ (fun _ hs => hs.tileOffset _ (fun _ => hs.enlane ..)))
  | mdrain =>
    exact .next (h.matrixOp _ _ (fun _ hs => .ite (hs.raiseFault ..) (.ite (hs.raiseFault ..) (.ite (hs.faultAt ..) (.ite (hs.raiseFault ..)
      ((hs.modGang ..).enlane ..))))))
  | vadd | vsub | vmul | vmulh | vmin | vmax | vand | vor | vxor | vfadd | vfsub | vfmul | vfmin | vfmax => exact .next (h.lanesAB ..)
  | vshl | vshr | vsra => exact .next (h.laneShift ..)
  | vabs | vpopc | vfabs => exact .next (h.lanesA ..)
  | vcmp | vfcmp => exact .next (h.compareLanes ..)
  | vsel | vcvt | vfsum | vext | vins | vred | vscan | mop => exact .next (h.vector ..)
  | vfma | vfms => exact .next (h.lanesFused ..)
  | vrcp | vrsq | vexp2 | vlog2 | vtanh => exact .next (h.lanesSfu ..)
  | vld | vst | vldf | vstf | vgather | vscatter => exact .next (h.vectorAccess ..)
  | vbcast | vperm | vsplat => exact .next (h.lanes ..)
  | getc => exact h.execGetc ..
  | setc => exact h.execSetc ..
  | mma | mmaIdx => exact .next (h.matrixOp _ _ (fun _ hs => hs.mmaIssue ..))
  | segset => exact .next (h.issue _ _ (.ite (h.raiseFault ..) (h.modStrand ..)))
  | ldl => exact .next (.ite (h.raiseFault ..) (h.issue _ _ (h.loadAt ..)))
  | stl => exact .next (h.issue _ _ (h.storeAt ..))
  | illegalInstruction => exact .next (h.raiseFault ..)
  | abortComplete => exact .due _ (h.abortComplete ..)
  | lateFaultTaken => exact .due _ (h.lateTaken _)
  | rspData => exact .due _ (h.rspData _)
  | rspAcknowledge => exact .due _ (h.rspAck _)
  | rspDeferral => exact .due _ (h.rspDeferral _)
  | feDeferralResend | nqResend => exact .due _ (h.resendTxn ..)
  | rspError => exact .due _ (h.rspError _)
  | rspMonitorFire => exact .due _ (h.rspMonitorFire _)
  | rspQueueRefusal => exact .due _ (h.queueRefusal _)
  | rspHostRetry => exact .due _ (h.rspHostRetry _)
  | rspStatus => exact .due _ (h.rspStatus _)
  | icacheFill => exact .due _ (h.icacheFill _)
  | reqRead => exact .due _ (h.homeStep _ _ _ _ (fun _ _ hs => hs.performRead _))
  | reqWrite => exact .due _ (h.homeStep _ _ _ _ (fun _ _ hs => hs.performWrite _))
  | reqWriteSetFull => exact .due _ (h.homeStep _ _ _ _ (fun _ _ hs => hs.performWriteFull _))
  | reqLdf => exact .due _ (h.homeStep _ _ _ _ (fun _ _ hs => hs.performLdf _))
  | reqLdfc => exact .due _ (h.homeStep _ _ _ _ (fun _ _ hs => hs.performLdfc _))
  | reqLdfn => exact .due _ (h.homeStep _ _ _ _ (fun _ _ hs => hs.performLdfn _))
  | reqStef => exact .due _ (h.homeStep _ _ _ _ (fun _ _ hs => hs.performStef _))
  | reqClre => exact .due _ (h.homeStep _ _ _ _ (fun _ _ hs => hs.performClre _))
  | reqSetf => exact .due _ (h.homeStep _ _ _ _ (fun _ _ hs => hs.performSetf _))
  | reqVldf => exact .due _ (h.homeStep _ _ _ _ (fun _ _ hs => hs.performVldf ..))
  | reqFeWithdraw => exact .due _ (h.feWithdrawn _)
  | reqNibbleWrite => exact .due _ (h.homeStep _ _ _ _ (fun _ _ hs => hs.performNibble _))
  | reqAmo => exact .due _ (h.homeStep _ _ _ _ (fun _ _ hs => hs.performAmo ..))
  | reqFamo => exact .due _ (h.homeStep _ _ _ _ (fun _ _ hs => hs.performFamo ..))
  | reqMonitorArm => exact .due _ (h.homeStep _ _ _ _ (fun _ _ hs => hs.performMonArm _))
  | reqMonitorClear => exact .due _ (h.homeStep _ _ _ _ (fun _ _ hs => hs.performMonClr _))
  | reqNqWord => exact .due _ (h.nqArrive _)
  | drainMarkerReturn => exact .due _ (h.markerReturn _)
  | routerMergeAmo => exact .due _ (h.mergeAmo ..)
  | mergedAmoAnswer => exact .due _ (h.mergedAnswer _)
  | l1dFill => exact .due _ (h.l1dFill _)
  | stridePrefetch => exact .due _ (h.stridePrefetch ..)
  | scrubPass => exact .due _ (h.scrub ..)
  | memoryPortTranslate => exact .due _ (h.portTranslate ..)
  | missDoneInstall => exact .due _ (.map (fun _ => (h.missInstall _).completed ..) _)
  | missDoneNotPresent => exact h.execMissDoneNotPresent ..
  | missDoneFault => exact .due _ (.map (fun _ => (h.missFault ..).completed ..) _)
  | missDoneIgnored => exact h.execMissDoneIgnored ..
  | fqWake => exact .due _ (.ite (.some (h.wakeWord ..)) .none)
  | replayEntryEnd => exact .due _ (h.replayEnd ..)
  | tlbInvAddr | tlbInvAll => exact .due _ (.ite (.some (h.tlbInv ..)) .none)
  | tlbBusyClear => exact .due _ (h.tlbIdle _)
  | smMapWrite => exact .due _ (.ite (.some (h.writeMapWord ..)) .none)
  | smRefq => exact .due _ (.ite (.some (h.refq ..)) .none)
  | nsUpdate => exact .due _ (.ite .none (.some (h.nsUpdate ..)))
  | cfgNsupdate => exact .due _ (.ite (.some (h.nsUpdate ..)) .none)
  | bandWrite => exact .due _ (.ite (.some (h.bandWrite ..)) .none)
  | trClear => exact .due _ (.ite (.some (h.clearTrellis ..)) .none)
  | slicePinWrite => exact .due _ (h.slicePinWrite _)
  | permitWrite => exact .due _ (.ite (.some (h.modCore ..)) .none)
  | permitRefill => exact .due _ (h.permitRefill _)
  | watchdogWrite => exact .due _ (h.watchdogWrite _)
  | watchdogExpiry => exact .due _ (h.watchdogExpiry _)
  | counterWindowStore => exact .due _ (.ite (.some (h.setTc ..)) .none)
  | registerWrite => exact .due _ (h.registerWrite _)
  | reqCounterAdd => exact .due _ (h.counterAdd _)
  | triggerFire => exact .due _ (h.triggerFire ..)
  | triggerOpComplete => exact .due _ (h.opComplete ..)
  | triggerLaunchRetry => exact .due _ (h.launchRetry ..)
  | barrierArrival => exact .due _ (h.barrierArrival _)
  | nestClaim => exact .due _ (h.nestClaim _)
  | vectorQueueTake => exact .due _ (h.takeVector _)
  | vectorResult => exact .due _ (h.vectorResult _)
  | matrixOpBegin => exact .due _ (h.laneBegin ..)
  | matrixKgroupStep => exact .due _ (h.kgroup _)
  | matrixOpComplete => exact .due _ (h.laneComplete ..)
  | drainRowEnd => exact .due _ (h.drainRowEnd _)
  | copyTake => exact .due _ (h.copyTake _)
  | copyBeat => exact .due _ (h.copyBeat ..)
  | copyComplete => exact .due _ (h.copyComplete ..)
  | copyFaultDelivery => exact .due _ (h.copyFaultDelivery ..)
  | hostCmdLaunch => exact .due _ (h.cmdLaunch ..)
  | hostCmdReplay => exact .due _ (h.cmdReplay ..)
  | hostCmdPreempt => exact .due _ (h.cmdPreempt ..)
  | hostCmdDrain => exact .due _ (h.cmdDrain ..)
  | hostCmdReserved => exact .due _ (h.cmdReserved ..)
  | qtailWrite => exact .due _ (.ite (h.writeQtail ..) .none)
  | qctlWrite => exact .due _ (.ite (h.writeQctl ..) .none)
  | creadWrite => exact .due _ (.ite (.some (h.writeCread ..)) .none)
  | completionRecordWrite => exact .due _ (.ite (h.writeRecord ..) .none)
  | replayStart => exact .due _ (h.replayStart ..)
  | graphNodeStart => exact .due _ (h.nodeStart ..)
  | reqLaunchSubmission => exact .due _ (h.launchSubmission _)
  | gangOffer => exact .due _ (h.gangOffer ..)
  | placementReservation => exact .due _ (h.placeReservation ..)
  | preemptRequest => exact .due _ (.ite (h.preemptRequest ..) .none)
  | psaveDeadlineExpiry => exact .due _ (h.deadline ..)
  | gangSaveComplete => exact .due _ (h.gangSave ..)
  | resumption => exact .due _ (h.resume _)
  | eventHoldToRecord => exact .due _ (h.holdToRecord _)
  | eventForward => exact .due _ (.ite .none (h.sendRecord _))
  | eventResend => exact .due _ (.ite ((h.sendRecord _).mapState (fun _ hs => hs.countRetry ..)) .none)
  | reqArmReserve => exact .due _ (h.armReserve _)
  | reqArmCommit => exact .due _ (h.armCommit _)
  | reqArmRelease => exact .due _ (h.armRelease _)
  | reqContribution => exact .due _ (h.contribution _)
  | reqResult => exact .due _ (h.resultPiece _)
  | trellisDeliver => exact .due _ (h.deliver ..)
  | tick => exact .due _ (h.tick ..)
  | offsetProbe => exact .due _ (h.offsetProbe ..)
  | reqProbeTimestamp => exact .due _ (h.probeTimestamp _)
  | reqProbeEcho => exact .due _ (h.probeEcho _)
  | controlInterval => exact .due _ (h.controlInterval _)
  | levelChangeComplete => exact .due _ (.ite (.some (h.modBower ..)) .none)
  | limiterWindow => exact .due _ (h.limiterWindow ..)
  | thermalTrip => exact .due _ (h.thermalTrip ..)
  | linkCrcError => exact .due _ (h.crcError ..)
  | linkRetryTimeout => exact .due _ (.ite (.some (h.resendLink ..)) .none)
  | flitProtocolError => exact .due _ (h.protocolError ..)
  | referenceClockLoss => exact .due _ (.ite .none (.some (h.each (fun _ _ hs => hs.linkDown ..) _)))
  | gatehouseZeroLengthRead => exact .due _ (h.zeroLengthRead _)
  | hostWriteComplete => exact .due _ (h.hostWriteComplete _)
  | hostAtomicopComplete => exact .due _ (h.hostAtomicDone ..)
  | reqConfigRead => exact .due _ (h.configRead _)
  | reqConfigWrite => exact .due _ (h.configWrite _)
  | cfgWindowAccess => exact .due _ (h.cfgAccess ..)
  | cfgIsolate => exact .due _ (.ite (.some (h.cfgIsolate _)) .none)
  | powerGood | mapImageTimeout => exact .due _ (h.move ..)
  | moduleReset => exact .due _ (.ite (.some (h.coldSite _)) .none)
  | referenceLock => exact .due _ (h.referenceLock ..)
  | gatehouseReferenceStable => exact .due _ (h.gateStable _)
  | listenTimeout => exact .due _ (h.listenTimeout _)
  | linkInitComplete => exact .due _ (h.linkInit ..)
  | helloResend => exact .due _ (.ite (.some (h.sendHello ..)) .none)
  | reqHello => exact .due _ (h.helloArrives _)
  | selfTestDone => exact .due _ (h.selfTest ..)
  | reqImageRequest => exact .due _ (h.imageAsked _)
  | reqImageBlock => exact .due _ (h.imageArrives _)
  | atGo => exact .due _ (.ite .none (.some (h.atGo _)))
  | quoteDone => exact .due _ (h.quoteDone _)
  | idleFlit => exact .due _ (h.idleFlit ..)
  | reqDrainMarker => exact .due _ (h.drainMarker _)
  | hostReadCompletion => exact .due _ (h.hostReadDone ..)
  | hostLinkStateChange => exact .due _ (h.hostLinkChange ..)
  | fqHeadWrite => exact .due _ (.ite (.some (h.writeFqHead ..)) .none)
  | faultQueueNotice => exact .due _ (h.faultNotice _)
  | gatehouseRetryAnswer => exact .due _ (h.hostRetryAnswer ..)

/-- Settles O9: every operation that a step runs keeps memory in canonical form and the keys of its tables rising. -/
theorem stepKeepsSound : Obligations.StepKeepsSound :=
  fun _ _ h => (h.runStep exec_keepsSound).sound

end Sys2Proof
end

section
/-! Memory in canonical form is what its bytes read as (log 2; R74, R85, R88). -/

namespace Sys2Proof.Machine

open Sys2Proof

/-- A memory in canonical form lists exactly the bytes that read as something else than an unlisted address. -/
theorem Memory.mem_iff_read {m : List Host.Cell} (h : Memory.wf m = true) (p : Host.Cell) :
    p ∈ m ↔ Memory.read m p.1 = p.2 ∧ p.2 ≠ Memory.empty := by
  obtain ⟨hr, he⟩ := (Memory.wf_iff m).1 h
  refine ⟨fun hp => ⟨Tab.get_of_mem hr hp _, he p hp⟩, fun ⟨hp, hne⟩ => ?_⟩
  unfold Memory.read Tab.get at hp
  cases hf : Tab.find p.1 m with
  | none => rw [hf] at hp; exact absurd hp.symm hne
  | some b =>
    rw [hf] at hp
    obtain rfl : b = p.2 := hp
    exact Tab.mem_of_find hf

/-- Two memories in canonical form that list the same bytes are the same list: both are in the order of their addresses. -/
theorem Memory.ext_mem {m n : List Host.Cell} (hm : Memory.wf m = true) (hn : Memory.wf n = true) (h : ∀ p, p ∈ m ↔ p ∈ n) : m = n := by
  have sorted {l : List Host.Cell} (hl : Memory.wf l = true) : l.Pairwise fun p q => p.1 < q.1 := List.pairwise_map.1 ((Memory.wf_iff l).1 hl).1
  have nodup {l : List Host.Cell} (hl : Memory.wf l = true) : l.Nodup := (sorted hl).imp fun hlt e => absurd (e ▸ hlt) (Nat.lt_irrefl _)
  exact ((List.perm_ext_iff_of_nodup (nodup hm) (nodup hn)).2 h).eq_of_pairwise (fun _ _ _ _ hpq hqp => absurd hpq (Nat.lt_asymm hqp))
    (sorted hm) (sorted hn)

/-- Settles O10: the read after a write, the canonical form after it, and the list of a memory from its reads. -/
theorem memoryLaws : Obligations.MemoryLaws :=
  ⟨fun _ a b x h => Memory.read_write h a b x, fun _ a x h => Memory.wf_write h a x, fun _ _ hm hn h =>
    Memory.ext_mem hm hn fun p => by rw [Memory.mem_iff_read hm, Memory.mem_iff_read hn, h]⟩

end Sys2Proof.Machine
end

section
/-! Requests at a home that serves them: one rule for the request's way to its operation, and one for each thing that an operation does there
(R88, R99, R330, R401). -/

namespace Sys2Proof.Machine

open Sys2Proof Sys2Proof.Spec

/-! ## From the request to its operation -/

theorem State.readOver_clean {s : State} (h : s.flaws = []) (v u : Nat) (gs : List Nat) (n : Nat) : s.readOver v u gs n = .clean := by
  have none_struck : (gs.zipIdx.drop n).find? (fun p => (Tab.find p.1 s.flaws).isSome) = none := by
    rw [h]; exact List.find?_eq_none.2 fun _ _ => nofun
  unfold State.readOver
  rw [none_struck]

theorem State.inService_of_homeError {s : State} {m : Msg} {fe : Bool} {n : Nat} (h : s.homeError m fe n = none) :
    ¬((s.site m.dst).state = .failed ∨ (s.site m.dst).state = .isolated) := fun hs => by
  simp [State.homeError, State.placeError, hs] at h

/-- A home that serves a request takes it in and performs its operation (R99). -/
theorem State.homeStep_serves {s : State} {n : Nat} {m : Msg} {op : ReqOp} {fe : Bool} (h : Serves s n m op fe) {p : ReqOp → Bool} (hp : p op = true)
    (rd : Msg → List Nat) (act : State → Msg → State) : s.homeStep n p fe rd act = some (act (s.consume n) m) := by
  obtain ⟨ha, hop, hh, hu, he, hf, ht, hw⟩ := h
  have hreq : s.arrivingReq n p = some m := by simp [State.arrivingReq, ha, hop, hp]
  have hserved : s.atHome m fe (max 1 m.len) (rd m) act = some (act (s.consume n) m) := by
    simp [State.atHome, he, hw, State.readOver_clean hf, Msg.strayTag, ht, State.arriving_id ha]
  simp [State.homeStep, hreq, State.inService_of_homeError he, hh, hu, hserved]

theorem exec_serves {s : State} {i : Instr} {name : String} {n : Nat} {m : Msg} {op : ReqOp} {fe : Bool} {p : ReqOp → Bool} {rd : Msg → List Nat}
    {act : State → Msg → State} (hi : exec i s = due name (s.homeStep n p fe rd act)) (h : Serves s n m op fe) (hp : p op = true) :
    exec i s = .next (act (s.consume n) m) := by
  rw [hi, State.homeStep_serves h hp]; rfl

theorem State.raiseTag_untagged {m : Msg} (h : m.tag = none) (s : State) : s.raiseTag m = s := by unfold State.raiseTag; rw [h]

/-! ## What is answered -/

/-- An answer stays on its way while messages are added. -/
theorem Answered.mono {t u : State} {m : Msg} {op : MsgOp} {d : List Byte} {f : Bool} (h : Answered t m op d f) (hn : t.net ⊆ u.net) :
    Answered u m op d f := by
  obtain ⟨q, hq, answer⟩ := h
  exact ⟨q, hn hq, answer⟩

theorem each_net_subset {α : Type} {f : State → α → State} (hf : ∀ s a, s.net ⊆ (f s a).net) (l : List α) (s : State) : s.net ⊆ (each l f s).net := by
  induction l generalizing s with
  | nil => exact List.Subset.refl _
  | cons a l ih => exact List.Subset.trans (hf s a) (ih _)

theorem State.net_subset_fire (s : State) (v u g key : Nat) : s.net ⊆ (s.fire v u g key).net :=
  each_net_subset (fun _ _ => List.subset_append_left ..) _ s

/-! ## The bits (R88) -/

theorem NatSet.contains_add (x g : Nat) (l : List Nat) : (NatSet.add x l).contains g = if g = x then true else l.contains g := by
  induction l with
  | nil => by_cases h : g = x <;> simp [NatSet.add, h]
  | cons y t ih =>
    unfold NatSet.add
    split_ifs with hlt hg
    · simp [hg]
    · simp [hg]
    · simp_all
    · simp_all
    · simp_all
    · simp_all

theorem NatSet.contains_del (x g : Nat) (l : List Nat) : (NatSet.del x l).contains g = if g = x then false else l.contains g := by
  rw [Bool.eq_iff_iff]
  by_cases h : g = x <;> simp [NatSet.del, h]

theorem State.contains_fill (s : State) (v u h g : Nat) :
    (s.fill v u h).full.contains g = if g = homeKey v u 0 / 16 + h then true else s.full.contains g := NatSet.contains_add ..
theorem State.contains_drain (s : State) (v u h g : Nat) :
    (s.drain v u h).full.contains g = if g = homeKey v u 0 / 16 + h then false else s.full.contains g := NatSet.contains_del ..

theorem State.fire_full (s : State) (v u g key : Nat) : (s.fire v u g key).full = s.full := s.fire_keeps State.full (fun _ _ _ => rfl) ..
theorem State.fire_mem (s : State) (v u g key : Nat) : (s.fire v u g key).mem = s.mem := s.fire_keeps State.mem (fun _ _ _ => rfl) ..
theorem State.fire_site (s : State) (v u g key w : Nat) : (s.fire v u g key).site w = s.site w := s.fire_keeps (·.site w) (fun _ _ _ => rfl) ..
theorem State.store_site (s : State) (v u off en : Nat) (d : List Byte) (key w : Nat) : (s.store v u off en d key).site w = s.site w :=
  each_keeps (·.site w) (fun s _ => s.fire_site ..) _ _

/-- The bits after a change that gives the bit of one granule a value, made for each granule of a list. -/
theorem each_full {f : State → Nat → State} {b : Bool} {key : Nat}
    (hf : ∀ s h g, (f s h).full.contains g = if g = key + h then b else s.full.contains g) (gs : List Nat) (s : State) (g : Nat) :
    (each gs f s).full.contains g = if ∃ h ∈ gs, g = key + h then b else s.full.contains g := by
  induction gs generalizing s with
  | nil => simp
  | cons h gs ih =>
    rw [each_cons, ih, hf]
    by_cases h1 : ∃ h ∈ gs, g = key + h <;> by_cases h2 : g = key + h <;> simp [h1, h2]

/-! ## The lists of a home where nothing waits -/

theorem State.serve_nothing {s : State} {v : Nat} (h : (s.site v).waits = []) (n : Nat) (gs : List Nat) (u : Nat) : State.serve n gs v u s = s := by
  induction n generalizing gs with
  | zero => cases gs <;> rfl
  | succ n ih =>
    cases gs with
    | nil => rfl
    | cons g gs =>
      have empty : (s.site v).waitList u g = [] := by simp [Site.waitList, h]
      unfold State.serve
      rw [empty]
      exact ih gs

theorem State.serveLists_nothing {s : State} {v : Nat} (h : (s.site v).waits = []) (u : Nat) (gs : List Nat) : s.serveLists v u gs = s :=
  State.serve_nothing h ..

theorem State.waits_consume (s : State) (n v : Nat) : ((s.consume n).site v).waits = (s.site v).waits := by
  obtain ⟨l, hl⟩ := s.site_consume_links n v
  rw [hl]

/-! ## The bytes of a nibble write (R330, R401) -/

theorem nibbleByte_eq (o n : Byte) (lo hi : Bool) : nibbleByte o n lo hi =
    (if hi then n.extractLsb' 4 4 else o.extractLsb' 4 4) ++ (if lo then n.extractLsb' 0 4 else o.extractLsb' 0 4) := by
  have halves (a b : Byte) : BitVec.ofNat 8 (b.toNat % 16 + 16 * (a.toNat / 16)) = a.extractLsb' 4 4 ++ b.extractLsb' 0 4 := by
    apply BitVec.eq_of_toNat_eq
    have ha := a.isLt
    have hb : b.toNat % 2 ^ 4 < 2 ^ 4 := Nat.mod_lt _ (by decide)
    simp only [BitVec.toNat_ofNat, BitVec.toNat_append, BitVec.extractLsb'_toNat, Nat.shiftRight_eq_div_pow, Nat.pow_zero, Nat.div_one]
    rw [← Nat.shiftLeft_add_eq_or_of_lt hb, Nat.shiftLeft_eq]
    omega
  cases lo <;> cases hi <;> exact halves ..

theorem nibbleByte_none (o n : Byte) : nibbleByte o n false false = o := by
  apply BitVec.eq_of_toNat_eq
  simp only [nibbleByte, Bool.false_eq_true, if_false, BitVec.toNat_ofNat, Nat.mod_add_div]
  exact Nat.mod_eq_of_lt o.isLt

/-- The bytes that a nibble write leaves, of the bytes that were. -/
def Msg.nibbleBytes (m : Msg) (old : List Byte) : List Byte :=
  (m.data.zip old).zipIdx.map fun ((n, o), j) => nibbleByte o n (bitOn m.en j) (bitOn m.hi j)

theorem Msg.length_nibbleBytes {m : Msg} {old : List Byte} (h : m.data.length = old.length) : (m.nibbleBytes old).length = old.length := by
  simp [Msg.nibbleBytes, h]

theorem Msg.getD_nibbleBytes {m : Msg} {old : List Byte} (h : m.data.length = old.length) {j : Nat} (hj : j < old.length) :
    (m.nibbleBytes old).getD j 0 = nibbleByte (old.getD j 0) (m.data.getD j 0) (bitOn m.en j) (bitOn m.hi j) := by
  simp [Msg.nibbleBytes, List.getD_eq_getElem?_getD, h, hj]

theorem State.performNibble_eq (s : State) (m : Msg) : s.performNibble m =
    ((s.repair m).store m.dst m.unit m.off (m.en ||| m.hi) (m.nibbleBytes (s.fetchBytes m.dst m.unit m.off m.len)) m.key).reply m .ack [] false := rfl

theorem State.getD_fetchBytes (s : State) (v u off : Nat) {n j : Nat} (h : j < n) :
    (s.fetchBytes v u off n).getD j 0 = Memory.read s.mem (homeKey v u off + j) := by
  simp [State.fetchBytes, Memory.readN, List.getD_eq_getElem?_getD, h]

theorem State.length_fetchBytes (s : State) (v u off n : Nat) : (s.fetchBytes v u off n).length = n := by simp [State.fetchBytes, Memory.readN]

end Sys2Proof.Machine
end

section
/-! Reads and writes at a home (R88, R99, R330, R401). -/

namespace Sys2Proof.Machine

open Sys2Proof Sys2Proof.Spec

variable {s : State} {n : Nat} {m : Msg}

theorem reqRead_serves (h : Serves s n m .read false) : ∃ t, exec (.reqRead n) s = .next t ∧ t.mem = s.mem ∧ t.full = s.full ∧
    Answered t m .data ((List.range m.len).map fun j => Memory.read s.mem (keyOf m + j)) false := by
  refine ⟨_, exec_serves (by rfl) h rfl, s.consume_mem n, s.consume_full n, ?_⟩
  have hbytes : (s.consume n).fetchBytes m.dst m.unit m.off m.len = (List.range m.len).map fun j => Memory.read s.mem (keyOf m + j) := by
    rw [State.fetchBytes, State.consume_mem]; rfl
  exact hbytes ▸ answered_reply ..

theorem reqWrite_serves (hs : Memory.wf s.mem = true) (h : Serves s n m .write false) (hl : m.data.length = m.len) :
    ∃ t, exec (.reqWrite n) s = .next t ∧ t.full = s.full ∧ Answered t m .ack [] false ∧ ∀ a, Memory.read t.mem a =
      if keyOf m ≤ a ∧ a < keyOf m + m.len ∧ m.en.testBit (a - keyOf m) = true then m.data.getD (a - keyOf m) 0 else Memory.read s.mem a := by
  refine ⟨_, exec_serves (by rfl) h rfl, ?_⟩
  obtain ⟨-, -, -, -, -, -, ht, -⟩ := h
  rw [State.performWrite, State.raiseTag_untagged ht]
  refine ⟨(State.store_full ..).trans (s.consume_full n), answered_reply .., fun a => ?_⟩
  have hr := State.store_read ((s.consume n).repair m) ((s.consume_mem n).symm ▸ hs) m.dst m.unit m.off m.en m.data m.key a
  rw [hl, bitOn_eq_testBit] at hr
  exact hr.trans (by rw [State.repair, State.freshen, State.consume_mem]; rfl)

/-- The byte that a nibble write leaves (R330, R401). -/
theorem State.read_performNibble (hs : Memory.wf s.mem = true) (hl : m.data.length = m.len) (a : Nat) :
    Memory.read (s.performNibble m).mem a =
      if keyOf m ≤ a ∧ a < keyOf m + m.len then
        nibbleByte (Memory.read s.mem a) (m.data.getD (a - keyOf m) 0) (bitOn m.en (a - keyOf m)) (bitOn m.hi (a - keyOf m))
      else Memory.read s.mem a := by
  have hold := State.length_fetchBytes s m.dst m.unit m.off m.len
  have hlen := hl.trans hold.symm
  have hr := State.store_read (s.repair m) hs m.dst m.unit m.off (m.en ||| m.hi) (m.nibbleBytes (s.fetchBytes m.dst m.unit m.off m.len)) m.key a
  have hmem : (s.repair m).mem = s.mem := rfl
  rw [Msg.length_nibbleBytes hlen, hold, hmem, ← keyOf] at hr
  rw [State.performNibble_eq, State.reply_mem, hr]
  by_cases hin : keyOf m ≤ a ∧ a < keyOf m + m.len
  · obtain ⟨hlo, hup⟩ := hin
    have hj : a - keyOf m < m.len := by omega
    have key : keyOf m + (a - keyOf m) = a := by omega
    by_cases hon : bitOn (m.en ||| m.hi) (a - keyOf m) = true
    · rw [if_pos ⟨hlo, hup, hon⟩, if_pos ⟨hlo, hup⟩]
      refine (Msg.getD_nibbleBytes hlen (hold.symm ▸ hj)).trans ?_
      rw [State.getD_fetchBytes _ _ _ _ hj]
      exact congrArg (fun b => nibbleByte (Memory.read s.mem b) _ _ _) key
    · rw [if_neg fun hc => hon hc.2.2, if_pos ⟨hlo, hup⟩]
      simp only [bitOn_eq_testBit, Nat.testBit_or, Bool.or_eq_true, not_or, Bool.not_eq_true] at hon
      obtain ⟨hen, hhi⟩ := hon
      rw [bitOn_eq_testBit, bitOn_eq_testBit, hen, hhi, nibbleByte_none]
  · rw [if_neg hin, if_neg fun hc => hin ⟨hc.1, hc.2.1⟩]

theorem reqNibbleWrite_serves (hs : Memory.wf s.mem = true) (h : Serves s n m .nibble false) (hl : m.data.length = m.len) :
    ∃ t, exec (.reqNibbleWrite n) s = .next t ∧ t.full = s.full ∧ Answered t m .ack [] false ∧ ∀ a,
      let b := m.data.getD (a - keyOf m) 0
      Memory.read t.mem a =
        if keyOf m ≤ a ∧ a < keyOf m + m.len then
          (if m.hi.testBit (a - keyOf m) then b.extractLsb' 4 4 else (Memory.read s.mem a).extractLsb' 4 4) ++
            (if m.en.testBit (a - keyOf m) then b.extractLsb' 0 4 else (Memory.read s.mem a).extractLsb' 0 4)
        else Memory.read s.mem a := by
  refine ⟨_, exec_serves (by rfl) h rfl, (State.store_full ((s.consume n).repair m) ..).trans (s.consume_full n), answered_reply ..,
    fun a => ?_⟩
  rw [State.read_performNibble ((s.consume_mem n).symm ▸ hs) hl, State.consume_mem]
  simp only [nibbleByte_eq, bitOn_eq_testBit]

/-- What a write that sets full leaves, before any waiting operation is served: the bytes, then the bits (R88, R331). -/
def State.storeFull (s : State) (m : Msg) : State :=
  each (granuleNos m.off m.len) (fun s g => s.fill m.dst m.unit g)
    ((s.freshen (granuleKeys m.dst m.unit m.off m.len)).store m.dst m.unit m.off m.en m.data m.key)

theorem State.storeFull_keeps {β : Type} (g : State → β) (hg : ∀ (s : State) l, g { s with full := l } = g s) (s : State) (m : Msg) :
    g (s.storeFull m) = g ((s.freshen (granuleKeys m.dst m.unit m.off m.len)).store m.dst m.unit m.off m.en m.data m.key) :=
  each_keeps g (fun s _ => hg s _) _ _

theorem State.performWriteFull_untagged (ht : m.tag = none) (hw : (s.site m.dst).waits = []) :
    s.performWriteFull m = (s.storeFull m).reply m .ack [] false := by
  refine (State.serveLists_nothing (s := ((s.storeFull m).raiseTag m).reply m .ack [] false) ?_ ..).trans (by rw [State.raiseTag_untagged ht])
  rw [State.raiseTag_untagged ht]
  exact (congrArg Site.waits (((s.storeFull_keeps (·.site m.dst) (fun _ _ => rfl) m)).trans (State.store_site ..))).trans hw

theorem reqWriteSetFull_serves (hs : Memory.wf s.mem = true) (h : Serves s n m .writeFull true) (hl : m.data.length = m.len)
    (hw : (s.site m.dst).waits = []) :
    ∃ t, exec (.reqWriteSetFull n) s = .next t ∧ Answered t m .ack [] false ∧ bitsNow t s m (granuleNos m.off m.len) true ∧ ∀ a, Memory.read t.mem a =
      if keyOf m ≤ a ∧ a < keyOf m + m.len ∧ m.en.testBit (a - keyOf m) = true then m.data.getD (a - keyOf m) 0 else Memory.read s.mem a := by
  have he := exec_serves (i := .reqWriteSetFull n) (by rfl) h rfl
  obtain ⟨-, -, -, -, -, -, ht, -⟩ := h
  rw [State.performWriteFull_untagged ht ((s.waits_consume ..).trans hw)] at he
  refine ⟨_, he, answered_reply .., fun g => ?_, fun a => ?_⟩
  · refine (each_full (fun s h g => State.contains_fill s ..) ..).trans ?_
    rw [State.store_full, State.freshen, State.consume_full]
  · have hr := State.store_read ((s.consume n).freshen (granuleKeys m.dst m.unit m.off m.len)) ((s.consume_mem n).symm ▸ hs) m.dst m.unit m.off
      m.en m.data m.key a
    rw [hl, bitOn_eq_testBit, ← State.storeFull_keeps State.mem (fun _ _ => rfl)] at hr
    exact hr.trans (by rw [State.freshen, State.consume_mem]; rfl)

end Sys2Proof.Machine
end

section
/-! The statement about reads and writes at a home. -/

namespace Sys2Proof.Machine

open Sys2Proof Sys2Proof.Spec

/-- Settles O23, form by form. -/
theorem homeReadsAndWrites : Obligations.HomeReadsAndWrites :=
  fun _ _ _ hs => ⟨reqRead_serves, reqWrite_serves hs, reqNibbleWrite_serves hs, reqWriteSetFull_serves hs⟩

end Sys2Proof.Machine
end

section
/-! Full/empty operations at their home: what each leaves when its condition holds and nothing waits, and how an operation that must wait enters a wait
list (R88, R127-R131, R298, R331). -/

namespace Sys2Proof.Machine

open Sys2Proof Sys2Proof.Spec

variable {s t : State} {n : Nat} {m : Msg}

/-! ## The request in hand -/

theorem State.isFull_consume (s : State) (n v u g : Nat) : (s.consume n).isFull v u g = s.isFull v u g := by
  rw [State.isFull, State.isFull, State.consume_full]

theorem State.fetchBytes_consume (s : State) (n : Nat) (m : Msg) (len : Nat) :
    (s.consume n).fetchBytes m.dst m.unit m.off len = (List.range len).map fun j => Memory.read s.mem (keyOf m + j) := by
  rw [State.fetchBytes, State.consume_mem]; rfl

/-- The bits of a state that agrees with one whose message has been taken. -/
theorem bitsNow.of_consume {gs : List Nat} {b : Bool} (h : bitsNow t (s.consume n) m gs b) : bitsNow t s m gs b := by
  intro g
  rw [h g, State.consume_full]

/-! ## Served at once (R88, R298, R331) -/

theorem State.performLdf_full (hf : s.isFull m.dst m.unit (m.off / 16) = true) :
    s.performLdf m = s.reply m .data (s.fetchBytes m.dst m.unit m.off 8) false := if_pos hf

/-- A granule drained, with what watches it told. -/
def State.emptied (s : State) (m : Msg) (g : Nat) : State := (s.drain m.dst m.unit g).fire m.dst m.unit g m.key
/-- A granule filled, with what watches it told. -/
def State.filledUp (s : State) (m : Msg) (g : Nat) : State := (s.fill m.dst m.unit g).fire m.dst m.unit g m.key

theorem State.emptied_mem (s : State) (m : Msg) (g : Nat) : (s.emptied m g).mem = s.mem := State.fire_mem ..
theorem State.emptied_site (s : State) (m : Msg) (g v : Nat) : (s.emptied m g).site v = s.site v := State.fire_site ..
theorem State.net_subset_emptied (s : State) (m : Msg) (g : Nat) : s.net ⊆ (s.emptied m g).net := State.net_subset_fire (s.drain ..) ..
theorem State.contains_emptied (s : State) (m : Msg) (h g : Nat) :
    (s.emptied m h).full.contains g = if g = homeKey m.dst m.unit 0 / 16 + h then false else s.full.contains g := by
  rw [State.emptied, State.fire_full, State.contains_drain]
theorem State.filledUp_mem (s : State) (m : Msg) (g : Nat) : (s.filledUp m g).mem = s.mem := State.fire_mem ..
theorem State.filledUp_site (s : State) (m : Msg) (g v : Nat) : (s.filledUp m g).site v = s.site v := State.fire_site ..
theorem State.contains_filledUp (s : State) (m : Msg) (h g : Nat) :
    (s.filledUp m h).full.contains g = if g = homeKey m.dst m.unit 0 / 16 + h then true else s.full.contains g := by
  rw [State.filledUp, State.fire_full, State.contains_fill]

/-- Where nothing waited, no list is served after a change that leaves the site as it was. -/
theorem State.serveLists_kept {v : Nat} (hw : (s.site v).waits = []) (he : t.site v = s.site v) (u : Nat) (gs : List Nat) : t.serveLists v u gs = t :=
  State.serveLists_nothing (he ▸ hw) ..

section

variable (hw : (s.site m.dst).waits = [])
include hw

theorem State.performLdfc_full (hf : s.isFull m.dst m.unit (m.off / 16) = true) :
    s.performLdfc m = (s.reply m .data (s.fetchBytes m.dst m.unit m.off 8) false).emptied m (m.off / 16) := by
  refine (if_pos hf).trans (State.serveLists_kept hw ?_ ..)
  exact State.emptied_site (s.reply ..) ..

theorem State.performStef_empty (hf : s.isFull m.dst m.unit (m.off / 16) = false) :
    s.performStef m = (((s.freshen (granuleKeys m.dst m.unit m.off 8)).store m.dst m.unit m.off (allOn 8) m.data m.key).fill m.dst m.unit
      (m.off / 16)).reply m .ack [] false := by
  refine (if_neg (Bool.eq_false_iff.1 hf)).trans (State.serveLists_kept hw ?_ ..)
  exact State.store_site (s.freshen ..) ..

theorem State.performClre_served : s.performClre m = (s.emptied m (m.off / 16)).reply m .ack [] false := by
  refine State.serveLists_kept hw ?_ ..
  exact State.emptied_site ..

theorem State.performSetf_served : s.performSetf m = (s.filledUp m (m.off / 16)).reply m .ack [] false := by
  refine State.serveLists_kept hw ?_ ..
  exact State.filledUp_site ..

theorem State.performVldf_full (c : Bool) (hf : ∀ j, j < 8 → s.isFull m.dst m.unit (m.off / 16 + j) = true) :
    s.performVldf m c = each (if c then blockOf m.off else []) (fun s g => s.emptied m g) (s.reply m .data (s.fetchBytes m.dst m.unit m.off 128) false) := by
  have all_full : (blockOf m.off).find? (fun h => !s.isFull m.dst m.unit h) = none := by
    simpa [blockOf, List.find?_eq_none] using hf
  unfold State.performVldf
  rw [all_full]
  cases c with
  | false => rfl
  | true =>
    have kept : (each (blockOf m.off) (fun s g => s.emptied m g) (s.reply m .data (s.fetchBytes m.dst m.unit m.off 128) false)).site m.dst = s.site m.dst :=
      each_keeps (·.site m.dst) (fun s g => s.emptied_site m g _) _ (s.reply ..)
    simp only [if_true]
    exact State.serveLists_kept hw kept ..

end

/-! ## Waiting (R127, R128, R132) -/

/-- The park reason of a strand whose access waits at a home (R126). -/
def State.feNoted (s : State) (k : Nat) : State :=
  if (s.strand k).why = some Park.access ∨ (s.strand k).why = some Park.vector then (s.repark k .fullEmpty).count (coreOfK k) 0x00E 1 else s

theorem State.feNoted_keeps {β : Type} (g : State → β) (hs : ∀ (s : State) k x, g (s.setStrand k x) = g s) (hc : ∀ (s : State) c x, g (s.setCore c x) = g s)
    (s : State) (k : Nat) : g (s.feNoted k) = g s := by
  unfold State.feNoted State.repark
  split
  · split
    · exact (hc ..).trans ((hc ..).trans (hs ..))
    · exact hc ..
  · rfl

theorem State.entry_feNoted (s : State) (k : Nat) : ((s.feNoted k).strand k).entry = (s.strand k).entry := by
  unfold State.feNoted State.repark
  split
  · split <;> simp
  · rfl

/-- The record of an operation that waits for a granule. -/
def Site.waitRec (t : Site) (m : Msg) (g : Nat) (op : ReqOp) : WaitRec :=
  { unit := m.unit, granule := g, order := t.waitOrder, txn := m.txn, op, src := m.src, off := m.off, data := m.data, seen := 0 }

/-- An operation enters the wait list of a granule, or is answered with a deferral. -/
def State.enroll (s : State) (m : Msg) (g : Nat) (op : ReqOp) : State :=
  let t := s.site m.dst
  if t.tableLoad m.unit < 256 then s.setSite m.dst { t with waits := insertRec (t.waitRec m g op) t.waits, waitOrder := t.waitOrder + 1 }
  else (s.setSite m.dst { t with retries := Tab.put 0xC3100 (Tab.get 0 0xC3100 t.retries + 1) t.retries }).reply m .deferral [] false

theorem mem_insertRec (r : WaitRec) (l : List WaitRec) : r ∈ insertRec r l := by
  induction l with
  | nil => exact List.mem_singleton.2 rfl
  | cons q l ih =>
    unfold insertRec
    split
    · exact List.mem_cons_self
    · exact List.mem_cons_of_mem _ ih

theorem State.enroll_waits {g : Nat} {op : ReqOp} : (s.enroll m g op).mem = s.mem ∧ (s.enroll m g op).full = s.full ∧
    (((s.site m.dst).tableLoad m.unit < 256 ∧ (s.enroll m g op).net = s.net ∧
        ∃ r ∈ ((s.enroll m g op).site m.dst).waits, r.unit = m.unit ∧ r.granule = g ∧ r.op = op ∧ r.txn = m.txn ∧ r.data = m.data) ∨
      (256 ≤ (s.site m.dst).tableLoad m.unit ∧ Answered (s.enroll m g op) m .deferral [] false)) := by
  unfold State.enroll
  dsimp only
  split
  · next h =>
    refine ⟨rfl, rfl, .inl ⟨h, rfl, (s.site m.dst).waitRec m g op, ?_, rfl, rfl, rfl, rfl, rfl⟩⟩
    rw [State.site_setSite, if_pos rfl]
    exact mem_insertRec ..
  · next h => exact ⟨rfl, rfl, .inr ⟨Nat.not_lt.1 h, answered_reply ..⟩⟩

/-- An admission leaves the gangs of every site and the strands as they are. -/
theorem State.enroll_gang (s : State) (m : Msg) (g : Nat) (op : ReqOp) (v e : Nat) : (s.enroll m g op).gang v e = s.gang v e := by
  unfold State.enroll
  dsimp only
  split
  · simp only [State.gang, State.site_setSite]; split_ifs with hv <;> [rw [hv]; rfl]
  · change Tab.get {} e (State.site (s.setSite ..) v).gangs = _
    simp only [State.gang, State.site_setSite]; split_ifs with hv <;> [rw [hv]; rfl]
theorem State.enroll_strand (s : State) (m : Msg) (g : Nat) (op : ReqOp) (k : Nat) : (s.enroll m g op).strand k = s.strand k := by
  unfold State.enroll
  dsimp only
  split <;> rfl

theorem State.testHalt_running {k : Nat} (h : (s.gang (siteOfK k) (s.strand k).entry).expired = false) : s.testHalt k = s :=
  if_neg fun hc => Bool.noConfusion (h.symm.trans hc.2)

section

variable {x : Txn} (hx : s.txn m.txn = some x) (hg : x.acc.owner.gone = false)
  (he : (s.gang (siteOfK x.acc.k) (s.strand x.acc.k).entry).expired = false)
include hx hg he

/-- An operation of a strand whose gang goes on is admitted, or deferred, and nothing more happens to its strand (R127, R128). -/
theorem State.enlist_running (g : Nat) (op : ReqOp) : s.enlist m g op = (s.feNoted x.acc.k).enroll m g op := by
  have enlisted : s.enlist m g op = ((s.feNoted x.acc.k).enroll m g op).testHalt x.acc.k := by
    simp only [State.enlist, hx, Option.bind_some, hg, Bool.false_eq_true, if_false, Option.isSome_some, Bool.true_and, decide_eq_true_eq]
    rfl
  have hsite : (s.feNoted x.acc.k).site (siteOfK x.acc.k) = s.site (siteOfK x.acc.k) :=
    State.feNoted_keeps (·.site (siteOfK x.acc.k)) (fun _ _ _ => rfl) (fun _ _ _ => rfl) ..
  rw [enlisted, State.testHalt_running]
  rw [State.enroll_gang, State.enroll_strand, State.entry_feNoted, State.gang, hsite]
  exact he

theorem State.enlist_waits (g : Nat) (op : ReqOp) : (s.enlist m g op).mem = s.mem ∧ (s.enlist m g op).full = s.full ∧
    (((s.site m.dst).tableLoad m.unit < 256 ∧ (s.enlist m g op).net = s.net ∧
        ∃ r ∈ ((s.enlist m g op).site m.dst).waits, r.unit = m.unit ∧ r.granule = g ∧ r.op = op ∧ r.txn = m.txn ∧ r.data = m.data) ∨
      (256 ≤ (s.site m.dst).tableLoad m.unit ∧ Answered (s.enlist m g op) m .deferral [] false)) := by
  have keeps {β : Type} (f : State → β) (hs : ∀ (s : State) k x, f (s.setStrand k x) = f s) (hc : ∀ (s : State) c x, f (s.setCore c x) = f s) :
      f (s.feNoted x.acc.k) = f s := State.feNoted_keeps f hs hc s x.acc.k
  rw [State.enlist_running hx hg he]
  obtain ⟨hm, hf, hcase⟩ := State.enroll_waits (s := s.feNoted x.acc.k) (m := m) (g := g) (op := op)
  rw [keeps (·.site m.dst) (fun _ _ _ => rfl) (fun _ _ _ => rfl), keeps State.net (fun _ _ _ => rfl) (fun _ _ _ => rfl)] at hcase
  exact ⟨hm.trans (keeps State.mem (fun _ _ _ => rfl) (fun _ _ _ => rfl)), hf.trans (keeps State.full (fun _ _ _ => rfl) (fun _ _ _ => rfl)), hcase⟩

end

end Sys2Proof.Machine
end

section
/-! The statement about full/empty operations. -/

namespace Sys2Proof.Machine

open Sys2Proof Sys2Proof.Spec

variable {s t : State} {n : Nat} {m : Msg}

/-- One bit changed is the change of the granules of a list of one. -/
theorem bitsNow_one {g : Nat} {b : Bool} (h : ∀ g', t.full.contains g' = if g' = homeKey m.dst m.unit 0 / 16 + g then b else s.full.contains g') :
    bitsNow t s m [g] b := fun g' => (h g').trans (by simp)

/-! ## Conditions that hold -/

section

theorem reqLdf_serves (h : Serves s n m .ldf true) (hf : s.isFull m.dst m.unit (m.off / 16) = true) : ∃ t, exec (.reqLdf n) s = .next t ∧
    t.mem = s.mem ∧ t.full = s.full ∧ Answered t m .data ((List.range 8).map fun j => Memory.read s.mem (keyOf m + j)) false := by
  have he := exec_serves (i := .reqLdf n) (by rfl) h rfl
  rw [State.performLdf_full ((s.isFull_consume ..).trans hf), State.fetchBytes_consume] at he
  exact ⟨_, he, s.consume_mem n, s.consume_full n, answered_reply ..⟩

theorem reqLdfn_serves (h : Serves s n m .ldfn true) : ∃ t, exec (.reqLdfn n) s = .next t ∧ t.mem = s.mem ∧ t.full = s.full ∧
    Answered t m .data ((List.range 8).map fun j => Memory.read s.mem (keyOf m + j)) (s.isFull m.dst m.unit (m.off / 16)) := by
  have he := exec_serves (i := .reqLdfn n) (by rfl) h rfl
  rw [State.performLdfn, State.fetchBytes_consume, State.isFull_consume] at he
  exact ⟨_, he, s.consume_mem n, s.consume_full n, answered_reply ..⟩

variable (hw : (s.site m.dst).waits = [])
include hw

theorem reqLdfc_serves (h : Serves s n m .ldfc true) (hf : s.isFull m.dst m.unit (m.off / 16) = true) : ∃ t, exec (.reqLdfc n) s = .next t ∧
    t.mem = s.mem ∧ bitsNow t s m [m.off / 16] false ∧ Answered t m .data ((List.range 8).map fun j => Memory.read s.mem (keyOf m + j)) false := by
  have he := exec_serves (i := .reqLdfc n) (by rfl) h rfl
  rw [State.performLdfc_full ((s.waits_consume ..).trans hw) ((s.isFull_consume ..).trans hf), State.fetchBytes_consume] at he
  refine ⟨_, he, (State.emptied_mem ..).trans (s.consume_mem n), bitsNow.of_consume (bitsNow_one fun g' => State.contains_emptied ..), ?_⟩
  exact Answered.mono (answered_reply ..) (State.net_subset_emptied ..)

theorem reqStef_serves (hs : Memory.wf s.mem = true) (h : Serves s n m .stef true) (hf : s.isFull m.dst m.unit (m.off / 16) = false)
    (hl : m.data.length = 8) : ∃ t, exec (.reqStef n) s = .next t ∧ bitsNow t s m [m.off / 16] true ∧ Answered t m .ack [] false ∧
      ∀ a, Memory.read t.mem a = if keyOf m ≤ a ∧ a < keyOf m + 8 then m.data.getD (a - keyOf m) 0 else Memory.read s.mem a := by
  have he := exec_serves (i := .reqStef n) (by rfl) h rfl
  rw [State.performStef_empty ((s.waits_consume ..).trans hw) ((s.isFull_consume ..).trans hf)] at he
  refine ⟨_, he, bitsNow.of_consume (n := n) (bitsNow_one fun g' => ?_), answered_reply .., fun a => ?_⟩
  · refine (State.contains_fill ..).trans ?_
    rw [State.store_full]
    rfl
  · have hr := State.store_read ((s.consume n).freshen (granuleKeys m.dst m.unit m.off 8)) ((s.consume_mem n).symm ▸ hs) m.dst m.unit m.off
      (allOn 8) m.data m.key a
    have hmem : ((s.consume n).freshen (granuleKeys m.dst m.unit m.off 8)).mem = s.mem := s.consume_mem n
    rw [hl, hmem, ← keyOf] at hr
    refine hr.trans (if_congr ⟨fun hc => ⟨hc.1, hc.2.1⟩, fun hc => ⟨hc.1, hc.2, ?_⟩⟩ rfl rfl)
    rw [bitOn_eq_testBit, allOn, Nat.testBit_two_pow_sub_one]
    exact decide_eq_true (by omega)

theorem reqClre_serves (h : Serves s n m .clre true) : ∃ t, exec (.reqClre n) s = .next t ∧ t.mem = s.mem ∧ bitsNow t s m [m.off / 16] false ∧
    Answered t m .ack [] false := by
  have he := exec_serves (i := .reqClre n) (by rfl) h rfl
  rw [State.performClre_served ((s.waits_consume ..).trans hw)] at he
  exact ⟨_, he, (State.emptied_mem (s.consume n) ..).trans (s.consume_mem n), bitsNow.of_consume (bitsNow_one fun g' => State.contains_emptied (s.consume n) ..),
    answered_reply ..⟩

theorem reqSetf_serves (h : Serves s n m .setf true) : ∃ t, exec (.reqSetf n) s = .next t ∧ t.mem = s.mem ∧ bitsNow t s m [m.off / 16] true ∧
    Answered t m .ack [] false := by
  have he := exec_serves (i := .reqSetf n) (by rfl) h rfl
  rw [State.performSetf_served ((s.waits_consume ..).trans hw)] at he
  exact ⟨_, he, (State.filledUp_mem (s.consume n) ..).trans (s.consume_mem n), bitsNow.of_consume (bitsNow_one fun g' => State.contains_filledUp (s.consume n) ..),
    answered_reply ..⟩

end

/-- A `vldf` at its home performs the operation with the clear that the request names (R331). -/
theorem exec_reqVldf {c : Bool} (h : Serves s n m (.vldf c) true) : exec (.reqVldf n) s = .next ((s.consume n).performVldf m c) := by
  have he := exec_serves (i := .reqVldf n) (by rfl) h rfl
  obtain ⟨-, hop, -⟩ := h
  have hc : decide (m.op = .req (.vldf true)) = c := by rw [hop]; cases c <;> rfl
  exact hc ▸ he

theorem reqVldf_serves (hw : (s.site m.dst).waits = []) (c : Bool) (h : Serves s n m (.vldf c) true)
    (hf : ∀ j, j < 8 → s.isFull m.dst m.unit (m.off / 16 + j) = true) : ∃ t, exec (.reqVldf n) s = .next t ∧ t.mem = s.mem ∧
      Answered t m .data ((List.range 128).map fun j => Memory.read s.mem (keyOf m + j)) false ∧
      bitsNow t s m (if c then (List.range 8).map (m.off / 16 + ·) else []) false := by
  have he := exec_reqVldf h
  rw [State.performVldf_full ((s.waits_consume ..).trans hw) c fun j hj => (s.isFull_consume ..).trans (hf j hj), State.fetchBytes_consume] at he
  refine ⟨_, he, ?_, ?_, bitsNow.of_consume (n := n) fun g => ?_⟩
  · exact (each_keeps State.mem (fun s g => s.emptied_mem m g) _ _).trans (s.consume_mem n)
  · exact Answered.mono (answered_reply ..) (each_net_subset (fun s g => s.net_subset_emptied m g) ..)
  · exact each_full (fun s h g => s.contains_emptied m h g) ..

/-! ## Conditions that fail -/

/-- What a request leaves that waits for a granule: it is in the wait list, or is answered with a deferral (R127, R128). -/
def Waits (s : State) (n : Nat) (m : Msg) (i : Instr) (op : ReqOp) (g : Nat) : Prop :=
  ∃ t, exec i s = .next t ∧ t.mem = s.mem ∧ t.full = s.full ∧
    (((s.site m.dst).tableLoad m.unit < 256 ∧ t.net = (s.consume n).net ∧
        ∃ r ∈ (t.site m.dst).waits, r.unit = m.unit ∧ r.granule = g ∧ r.op = op ∧ r.txn = m.txn ∧ r.data = m.data) ∨
      (256 ≤ (s.site m.dst).tableLoad m.unit ∧ Answered t m .deferral [] false))

section

variable {x : Txn} (hx : s.txn m.txn = some x) (hg : x.acc.owner.gone = false)
  (he : (s.gang (siteOfK x.acc.k) (s.strand x.acc.k).entry).expired = false)
include hx hg he

theorem waits_of_enlist {i : Instr} {op : ReqOp} {g : Nat} (hi : exec i s = .next ((s.consume n).enlist m g op)) : Waits s n m i op g := by
  have gang : ((s.consume n).gang (siteOfK x.acc.k) ((s.consume n).strand x.acc.k).entry).expired = false := by
    obtain ⟨l, hl⟩ := s.site_consume_links n (siteOfK x.acc.k)
    rw [State.strand_consume, State.gang, hl]
    exact he
  have load : ((s.consume n).site m.dst).tableLoad m.unit = (s.site m.dst).tableLoad m.unit := by
    rw [Site.tableLoad, s.waits_consume, Site.tableLoad]
  obtain ⟨hm, hf, hcase⟩ := State.enlist_waits ((s.txn_consume ..).trans hx) hg gang g op
  rw [load] at hcase
  exact ⟨_, hi, hm.trans (s.consume_mem n), hf.trans (s.consume_full n), hcase⟩

theorem reqLdf_waits (h : Serves s n m .ldf true) (hf : s.isFull m.dst m.unit (m.off / 16) = false) : Waits s n m (.reqLdf n) .ldf (m.off / 16) := by
  have hi := exec_serves (i := .reqLdf n) (by rfl) h rfl
  rw [State.performLdf, s.isFull_consume, hf] at hi
  exact waits_of_enlist hx hg he hi

theorem reqLdfc_waits (h : Serves s n m .ldfc true) (hf : s.isFull m.dst m.unit (m.off / 16) = false) : Waits s n m (.reqLdfc n) .ldfc (m.off / 16) := by
  have hi := exec_serves (i := .reqLdfc n) (by rfl) h rfl
  rw [State.performLdfc, s.isFull_consume, hf] at hi
  exact waits_of_enlist hx hg he hi

theorem reqStef_waits (h : Serves s n m .stef true) (hf : s.isFull m.dst m.unit (m.off / 16) = true) : Waits s n m (.reqStef n) .stef (m.off / 16) := by
  have hi := exec_serves (i := .reqStef n) (by rfl) h rfl
  rw [State.performStef, s.isFull_consume, hf] at hi
  exact waits_of_enlist hx hg he hi

theorem reqVldf_waits {c : Bool} {j : Nat} (h : Serves s n m (.vldf c) true) (hj : j < 8) (hf : s.isFull m.dst m.unit (m.off / 16 + j) = false)
    (below : ∀ i, i < j → s.isFull m.dst m.unit (m.off / 16 + i) = true) : Waits s n m (.reqVldf n) (.vldf c) (m.off / 16 + j) := by
  have hi := exec_reqVldf h
  have lowest : (blockOf m.off).find? (fun g => !(s.consume n).isFull m.dst m.unit g) = some (m.off / 16 + j) := by
    simp only [s.isFull_consume, blockOf, List.find?_map, Option.map_eq_some_iff]
    refine ⟨j, List.find?_range_eq_some.2 ⟨by simpa using hf, by simpa using hj, fun i hij => by simpa using below i hij⟩, rfl⟩
  rw [State.performVldf, lowest] at hi
  exact waits_of_enlist hx hg he hi

end

/-- Settles O24: the operations whose condition holds, then those that wait. -/
theorem fullEmpty : Obligations.FullEmpty :=
  ⟨fun _ _ _ hs hw => ⟨reqLdf_serves, reqLdfc_serves hw, reqLdfn_serves, reqStef_serves hw hs, reqClre_serves hw, reqSetf_serves hw, reqVldf_serves hw⟩,
    fun _ _ _ _ hx hg he => ⟨reqLdf_waits hx hg he, reqLdfc_waits hx hg he, reqStef_waits hx hg he, fun _ _ => reqVldf_waits hx hg he⟩⟩

end Sys2Proof.Machine
end

section
/-! Accesses that the L1D serves in their turn: what a look-up finds, the line after it, and the strand and core after the instruction
(R86, R291, R293-R297). -/

namespace Sys2Proof.Machine

open Sys2Proof Sys2Proof.Spec

/-! ## The look-up -/

/-- A line after an access that it serves (R86, R295). -/
def Line.after (l : Line) (q : Acc) : Line := if q.op = .write then l.write (q.addr.toNat % 128) q.en q.data else l
/-- The bytes that a line gives an access (R291). -/
def Line.answer (l : Line) (q : Acc) : List Byte := if q.op = .write then [] else l.read (q.addr.toNat % 128) q.size

/-- The access is one that a readable line serves: a read, or a write where the line bears the write mark (R295). -/
def Acc.servedBy (q : Acc) (l : Line) : Prop := q.op = .read ∨ q.op = .write ∧ l.mark = true

/-- A core's line comes to the front of its L1D as an access is served, and the hit is counted (R85, R92, R230). -/
def State.l1dServes (s : State) (c slot : Nat) (l : Line) : State :=
  (s.setCore c ({ s.core c with l1d := toFront l (s.core c).l1d }.streamHit slot l.line)).count c 0x006 1

theorem Line.line_after (l : Line) (q : Acc) : (l.after q).line = l.line := by
  unfold Line.after
  split <;> rfl

theorem lineOf_line {n : Nat} {ls : List Line} {l : Line} (h : lineOf n ls = some l) : l.line = n := by simpa using List.find?_some h

theorem lineOf_toFront (l : Line) (ls : List Line) : lineOf l.line (toFront l ls) = some l := by simp [lineOf, toFront]

theorem State.l1d_l1dServes (s : State) (c slot : Nat) (l : Line) : ((s.l1dServes c slot l).core c).l1d = toFront l (s.core c).l1d := by
  rw [State.l1dServes, State.count, State.core_modCore, if_pos rfl, State.core_setCore, if_pos rfl]
  rfl

variable {s : State} {l : Line}

/-- A look-up that finds a readable line, not struck, is served by it (R86, R291, R295). -/
theorem State.lookL1d_serves {c : Nat} {q : Acc} (hl : lineOf (q.addr.toNat / 128) (s.core c).l1d = some l) (hf : l.flaw = 0) (hu : l.unread = false)
    (hq : q.servedBy l) : s.lookL1d c q = .hit (s.l1dServes c (slotOf q.k) (l.after q)) (l.answer q) := by
  have kept : s.mendL1d c (q.addr.toNat / 128) = s := by simp [State.mendL1d, hl, hf]
  have notLost : lineLost (q.addr.toNat / 128) (s.core c).l1d = false := by simp [lineLost, hl, hf]
  unfold State.lookL1d
  dsimp only
  simp only [kept, notLost, hl, Bool.false_eq_true, if_false, State.l1dServes, Line.line_after, lineOf_line hl]
  rcases hq with hop | ⟨hop, hm⟩
  · simp [hop, hu, Line.after, Line.answer]
  · simp [hop, hm, Line.after, Line.answer]

/-! ## The turn that a line serves -/

variable {a : Addr}

theorem State.takePermit_cur (s : State) (c : Nat) : (s.takePermit c .memory).cur = s.cur := rfl

/-- Taking a permit leaves the L1D of every core as it is (R226). -/
theorem State.l1d_takePermit (s : State) (c d : Nat) : ((s.takePermit c .memory).core d).l1d = (s.core d).l1d := by
  rw [State.takePermit_memory, State.core_modCore]
  split_ifs with h
  · rw [h]; rfl
  · rfl

/-- The state in which the issuing strand's access has been served by its core's L1D. -/
def State.servedL1d (s : State) (l : Line) (f : Strand → Strand) : State :=
  ((s.takePermit (coreOfK s.cur) .memory).l1dServes (coreOfK s.cur) (slotOf s.cur) l).modStrand s.cur f

theorem State.onlyMine_servedL1d (s : State) (l : Line) (f : Strand → Strand) : OnlyMine s (s.servedL1d l f) :=
  ⟨rfl, rfl, rfl, rfl, rfl, rfl, rfl, fun _ hk => (State.strand_modStrand ..).trans (if_neg hk)⟩

theorem State.me_servedL1d (s : State) (l : Line) (f : Strand → Strand) : (s.servedL1d l f).me = f s.me := (State.strand_modStrand ..).trans (if_pos rfl)

theorem State.lineOf_servedL1d (s : State) (l : Line) (f : Strand → Strand) :
    lineOf l.line ((s.servedL1d l f).core (coreOfK s.cur)).l1d = some l := by
  rw [State.servedL1d, State.core_modStrand, State.l1d_l1dServes, lineOf_toFront]

/-- An access with an address is looked for on the line of a core that has one for it. -/
theorem lookL1d_cached (hc : Cached s a l) {q : Acc} (ha : q.addr = a) (hk : slotOf q.k = slotOf s.cur) (hq : q.servedBy l) :
    (s.takePermit (coreOfK s.cur) .memory).lookL1d (coreOfK s.cur) q =
      .hit ((s.takePermit (coreOfK s.cur) .memory).l1dServes (coreOfK s.cur) (slotOf s.cur) (l.after q)) (l.answer q) := by
  obtain ⟨-, hl, hf, hu⟩ := hc
  rw [State.lookL1d_serves (by rw [State.l1d_takePermit, ha]; exact hl) hf hu hq, hk]

theorem cacheable_cached (hc : Cached s a l) {q : Acc} (ha : q.addr = a) (hhi : q.hi = 0) (hq : q.servedBy l) : q.cacheable = true := by
  obtain ⟨hkind, -⟩ := hc
  rcases hq with hop | ⟨hop, -⟩ <;> simp [Acc.cacheable, ha, hkind, hhi, hop]

theorem eventWait_cached (hc : Cached s a l) {q : Acc} (ha : q.addr = a) : s.eventWait q = none := by
  obtain ⟨-, hl, hf, -⟩ := hc
  simp [State.eventWait, State.l1dStalled, ha, hl, hf]

theorem Acc.servedBy.notFe {q : Acc} (hq : q.servedBy l) : q.op.isFe = false := by
  rcases hq with hop | ⟨hop, -⟩ <;> rw [hop] <;> rfl

/-- A plain access that the L1D serves completes in its turn (R291). -/
theorem State.plain_serves {r : Reach} {q : Acc} (c : Cont) (hr : Reaches s r.seg r.off r.size r.need r.align a) (hc : Cached s a l) (hhi : q.hi = 0)
    (hq : q.servedBy l) :
    let p := { q with addr := a, size := r.size }
    s.plain r q c = s.servedL1d (l.after p) fun x => x.finish c (l.answer p) false := by
  obtain ⟨hp, hck, hb⟩ := hr
  refine (State.reach_ok _ _ _ hp hck hb (eventWait_cached hc rfl)).trans ?_
  refine (if_neg (by rw [hq.notFe]; exact Bool.false_ne_true)).trans ((if_pos ?_).trans ?_)
  · exact cacheable_cached hc rfl hhi hq
  · rw [State.takePermit_cur, lookL1d_cached (q := Acc.mk ..) hc rfl rfl hq]
    rfl

/-- A relaxed access that the L1D serves is performed in its turn (R102, R291, R297). -/
theorem State.relaxedAccess_serves {r : Reach} {q : Acc} (dest : Option Nat) (hr : Reaches s r.seg r.off r.size r.need r.align a) (hc : Cached s a l)
    (hhi : q.hi = 0) (hq : q.servedBy l) :
    let p := { q with addr := a, size := r.size }
    s.relaxedAccess r q dest = s.servedL1d (l.after p) fun x => (match dest with | some g => x.setReg g (leWord (l.answer p)) | none => x).step 4 := by
  obtain ⟨hp, hck, hb⟩ := hr
  have hit : s.hitsL1d { q with addr := a, size := r.size } = true := by
    rw [State.hitsL1d, cacheable_cached (q := Acc.mk ..) hc rfl hhi hq, Bool.true_and]
    obtain ⟨-, hl, hf, hu⟩ := hc
    rw [State.lookL1d_serves (q := Acc.mk ..) hl hf hu hq]
  intro p
  unfold State.relaxedAccess
  refine (State.reach_ok _ _ _ hp hck hb ?_).trans ?_
  · simp only [eventWait_cached (q := { q with addr := a }) hc rfl, hit, Bool.not_true, Bool.false_eq_true, and_false, if_false]
  · refine (if_pos ?_).trans ?_
    · exact cacheable_cached hc rfl hhi hq
    · rw [State.takePermit_cur, lookL1d_cached (q := Acc.mk ..) hc rfl rfl hq]
      rfl

end Sys2Proof.Machine
end

section
/-! The loads and stores that the L1D serves (R86, R291-R297). -/

namespace Sys2Proof.Machine

open Sys2Proof Sys2Proof.Spec

variable {s : State} {l : Line} {a : Addr}

/-! ## The instructions, by the access that they make -/

theorem exec_loadForms {d x : BitVec 8} {g : BitVec 3} {o : BitVec 5} : ∀ p ∈ loadForms d x g o, ∀ s,
    p.2.2 = p.2.1.size ∧ exec p.1 s = .next (s.loadM p.2.1 d x g o) := by
  simp only [loadForms, List.forall_mem_cons, List.not_mem_nil, false_imp_iff, implies_true, and_true]
  and_intros <;> exact fun _ => ⟨rfl, rfl⟩

theorem exec_storeForms {d x : BitVec 8} {g : BitVec 3} {o : BitVec 5} : ∀ p ∈ storeForms d x g o, ∀ s, exec p.1 s = .next (s.storeM p.2 d x g o) := by
  simp only [storeForms, List.forall_mem_cons, List.not_mem_nil, false_imp_iff, implies_true, and_true]
  and_intros <;> exact fun _ => rfl

theorem exec_ldlForms {d x : BitVec 8} {g : BitVec 3} {imm : BitVec 32} : ∀ q ∈ ldlForms, ∀ s, q.2.2 = q.2.1.size ∧
    exec (.ldl d x g q.1 imm) s = .next (s.issue [d.toNat, x.toNat] fun s => s.loadAt q.2.1 d.toNat g.toNat (s.offL x imm) 8) := by
  simp only [ldlForms, List.forall_mem_cons, List.not_mem_nil, false_imp_iff, implies_true, and_true]
  and_intros <;> exact fun _ => ⟨rfl, rfl⟩

theorem pairOk_next {d : BitVec 8} (h : pairOk d = true) : (d + 1).toNat = d.toNat + 1 := by
  simp only [pairOk, Bool.and_eq_true, decide_eq_true_eq] at h
  obtain ⟨-, heven⟩ := h
  have := d.isLt
  change (d.toNat + 1) % 2 ^ 8 = d.toNat + 1
  omega

/-- The registers of a pair and an offset register are ready. -/
theorem State.issue_pair {d x : BitVec 8} {body : State → State} (hd : pairOk d = true) (h : Ready s [d, d + 1, x]) :
    s.issue [d.toNat, d.toNat + 1, x.toNat] body = body s := by
  rw [← pairOk_next hd]
  exact State.issue_ready body (numbers_ready h)

/-! ## What is delivered -/

theorem LoadTy.value_eq (ty : LoadTy) (b : List Byte) : ty.value b = extended ty b := by
  cases ty with
  | n8 | n16 | n32 =>
    apply BitVec.eq_of_toNat_eq
    simp [LoadTy.value, extended]
  | i8 | i16 | i32 | w64 => rfl

/-- A register written, then pc moved on. -/
theorem Strand.step_setReg (x : Strand) (d : BitVec 8) (w : Word) (n : Nat) :
    (x.setReg d.toNat w).step n = { put x d w with pc := x.pc + BitVec.ofNat 60 n } := by
  rw [put_eq_setReg, Strand.step, Strand.setReg]
  split <;> rfl

theorem Strand.step_setPair (x : Strand) {d : BitVec 8} (hd : pairOk d = true) (w v : Word) (n : Nat) :
    ((x.setReg d.toNat w).setReg (d.toNat + 1) v).step n = { put (put x d w) (d + 1) v with pc := x.pc + BitVec.ofNat 60 n } := by
  have hpc : (x.setReg d.toNat w).pc = x.pc := by unfold Strand.setReg; split <;> rfl
  rw [← pairOk_next hd, Strand.step_setReg, hpc, put_eq_setReg x]

/-! ## The turn of an instruction that a line serves -/

/-- An instruction is served: it completes in its turn, with the strand and the line as they are given, and nothing else differs (R86, R291). -/
def ServedAs (i : Instr) (s : State) (a : Addr) (x : Strand) (l : Line) : Prop :=
  ∃ t, exec i s = .next t ∧ OnlyMine s t ∧ t.me = x ∧ lineOf (a.toNat / 128) (t.core (coreOfK s.cur)).l1d = some l

theorem servedAs_of_servedL1d {i : Instr} {f : Strand → Strand} {q : Acc} (hc : Cached s a l) (hi : exec i s = .next (s.servedL1d (l.after q) f)) :
    ServedAs i s a (f s.me) (l.after q) := by
  have hline : (l.after q).line = a.toNat / 128 := by
    obtain ⟨-, hl, -⟩ := hc
    rw [Line.line_after, lineOf_line hl]
  exact ⟨_, hi, s.onlyMine_servedL1d .., s.me_servedL1d .., hline ▸ s.lineOf_servedL1d ..⟩

theorem servedAs_plain {i : Instr} {r : Reach} {q : Acc} {c : Cont} (hi : exec i s = .next (s.plain r q c))
    (hr : Reaches s r.seg r.off r.size r.need r.align a) (hc : Cached s a l) (hhi : q.hi = 0) (hq : q.servedBy l) :
    ServedAs i s a (s.me.finish c (l.answer { q with addr := a, size := r.size }) false) (l.after { q with addr := a, size := r.size }) :=
  servedAs_of_servedL1d hc (hi.trans (congrArg _ (State.plain_serves c hr hc hhi hq)))

theorem servedAs_relaxed {i : Instr} {r : Reach} {q : Acc} {dest : Option Nat} (hi : exec i s = .next (s.relaxedAccess r q dest))
    (hr : Reaches s r.seg r.off r.size r.need r.align a) (hc : Cached s a l) (hhi : q.hi = 0) (hq : q.servedBy l) :
    ServedAs i s a ((match dest with
      | some g => s.me.setReg g (leWord (l.answer { q with addr := a, size := r.size }))
      | none => s.me).step 4) (l.after { q with addr := a, size := r.size }) :=
  servedAs_of_servedL1d hc (hi.trans (congrArg _ (State.relaxedAccess_serves dest hr hc hhi hq)))

/-- What a served load leaves of the strand. -/
theorem ServedAs.strand {i : Instr} {x y : Strand} (h : ServedAs i s a x l) (e : x = y) : ∃ t, exec i s = .next t ∧ OnlyMine s t ∧ t.me = y := by
  obtain ⟨t, ht, hm, hx, -⟩ := h
  exact ⟨t, ht, hm, hx.trans e⟩

/-! ## Loads (R293, R296, R297) -/

variable {d x : BitVec 8} {g : BitVec 3} {o : BitVec 5}

theorem load_serves {i : Instr} {ty : LoadTy} {off adv : Nat} (hi : exec i s = .next (s.loadAt ty d.toNat g.toNat off adv))
    (hr : Reaches s g.toNat off ty.size rR ty.size a) (hc : Cached s a l) :
    ∃ t, exec i s = .next t ∧ OnlyMine s t ∧
      t.me = { put s.me d (extended ty (l.read (a.toNat % 128) ty.size)) with pc := s.me.pc + BitVec.ofNat 60 adv } := by
  refine (servedAs_plain hi hr hc rfl (.inl rfl)).strand ?_
  rw [← LoadTy.value_eq]
  exact Strand.step_setReg ..

theorem loadForms_serve : ∀ p ∈ loadForms d x g o, ∀ s a l, Ready s [d, x] → Reaches s g.toNat (mOff x o p.2.2 s) p.2.2 rR p.2.2 a → Cached s a l →
    ∃ t, exec p.1 s = .next t ∧ OnlyMine s t ∧
      t.me = { put s.me d (extended p.2.1 (l.read (a.toNat % 128) p.2.2)) with pc := s.me.pc + 4 } := by
  intro p hp s a l hready hr hc
  obtain ⟨hsize, hi⟩ := exec_loadForms p hp s
  rw [State.loadM, State.issue_two hready] at hi
  rw [hsize] at hr ⊢
  exact load_serves hi hr hc

theorem ldl_serves : ∀ q ∈ ldlForms, ∀ (imm : BitVec 32) s a l, Ready s [d, x] →
    Reaches s g.toNat (((s.val x).toNat + imm.toNat) % 2 ^ 64) q.2.2 rR q.2.2 a → Cached s a l →
    ∃ t, exec (.ldl d x g q.1 imm) s = .next t ∧ OnlyMine s t ∧
      t.me = { put s.me d (extended q.2.1 (l.read (a.toNat % 128) q.2.2)) with pc := s.me.pc + 8 } := by
  intro q hq imm s a l hready hr hc
  obtain ⟨hsize, hi⟩ := exec_ldlForms (d := d) (x := x) (g := g) (imm := imm) q hq s
  rw [State.issue_two hready] at hi
  rw [hsize] at hr ⊢
  exact load_serves hi hr hc

theorem ld128_serves (hd : pairOk d = true) (hready : Ready s [d, d + 1, x]) (hr : Reaches s g.toNat (mOff x o 16 s) 16 rR 16 a) (hc : Cached s a l) :
    ∃ t, exec (.ld128 d x g o) s = .next t ∧ OnlyMine s t ∧
      t.me = { put (put s.me d (leWord ((l.read (a.toNat % 128) 16).take 8))) (d + 1) (leWord ((l.read (a.toNat % 128) 16).drop 8))
               with pc := s.me.pc + 4 } := by
  have hi : exec (.ld128 d x g o) s = .next (s.plain { seg := g.toNat, off := s.offM x o 16, size := 16, need := rR, align := 16 }
      { op := .read, kind := 0x02 } (.pair d.toNat 4)) := congrArg _ (State.issue_pair hd hready)
  exact (servedAs_plain hi hr hc rfl (.inl rfl)).strand (Strand.step_setPair _ hd ..)

theorem ldr64_serves (hready : Ready s [d, x]) (hr : Reaches s g.toNat (mOff x o 8 s) 8 rR 8 a) (hc : Cached s a l) :
    ∃ t, exec (.ldr64 d x g o) s = .next t ∧ OnlyMine s t ∧
      t.me = { put s.me d (leWord (l.read (a.toNat % 128) 8)) with pc := s.me.pc + 4 } := by
  have hi : exec (.ldr64 d x g o) s = .next (s.relaxedAccess { seg := g.toNat, off := s.offM x o 8, size := 8, need := rR, align := 8 }
      { op := .read, kind := 0x04 } (some d.toNat)) := congrArg _ (State.issue_two hready)
  exact (servedAs_relaxed hi hr hc rfl (.inl rfl)).strand (Strand.step_setReg ..)

/-! ## Stores (R294-R297) -/

theorem store_serves {i : Instr} {n off adv : Nat} {w : Word} (hi : exec i s = .next (s.storeAt n w g.toNat off adv))
    (hr : Reaches s g.toNat off n rW n a) (hc : Cached s a l) (hm : l.mark = true) :
    ServedAs i s a { s.me with pc := s.me.pc + BitVec.ofNat 60 adv } (l.write (a.toNat % 128) (2 ^ n - 1) (leBytes n w.toNat)) :=
  servedAs_plain hi hr hc rfl (.inr ⟨rfl, hm⟩)

theorem storeForms_serve : ∀ p ∈ storeForms d x g o, ∀ s a l, Ready s [d, x] → Reaches s g.toNat (mOff x o p.2 s) p.2 rW p.2 a → Cached s a l →
    l.mark = true → ServedAs p.1 s a { s.me with pc := s.me.pc + 4 } (l.write (a.toNat % 128) (2 ^ p.2 - 1) (leBytes p.2 (s.val d).toNat)) := by
  intro p hp s a l hready hr hc hm
  have hi := exec_storeForms p hp s
  rw [State.storeM, State.issue_two hready] at hi
  exact store_serves hi hr hc hm

theorem stl_serves (z : BitVec 2) (imm : BitVec 32) (hready : Ready s [d, x])
    (hr : Reaches s g.toNat (((s.val x).toNat + imm.toNat) % 2 ^ 64) (2 ^ z.toNat) rW (2 ^ z.toNat) a) (hc : Cached s a l) (hm : l.mark = true) :
    ServedAs (.stl d x g z imm) s a { s.me with pc := s.me.pc + 8 }
      (l.write (a.toNat % 128) (2 ^ 2 ^ z.toNat - 1) (leBytes (2 ^ z.toNat) (s.val d).toNat)) :=
  store_serves (congrArg _ (State.issue_two hready)) hr hc hm

theorem st128_serves (hd : pairOk d = true) (hready : Ready s [d, d + 1, x]) (hr : Reaches s g.toNat (mOff x o 16 s) 16 rW 16 a) (hc : Cached s a l)
    (hm : l.mark = true) : ServedAs (.st128 d x g o) s a { s.me with pc := s.me.pc + 4 }
      (l.write (a.toNat % 128) (2 ^ 16 - 1) (leBytes 8 (s.val d).toNat ++ leBytes 8 (s.val (d + 1)).toNat)) := by
  have hi : exec (.st128 d x g o) s = .next (s.plain { seg := g.toNat, off := s.offM x o 16, size := 16, need := rW, align := 16 }
      { op := .write, data := s.pairBytes d, en := allOn 16, kind := 0x03 } (.done 4)) := congrArg _ (State.issue_pair hd hready)
  have hpair : s.pairBytes d = leBytes 8 (s.val d).toNat ++ leBytes 8 (s.val (d + 1)).toNat := by rw [State.pairBytes, ← pairOk_next hd]; rfl
  rw [hpair] at hi
  exact servedAs_plain hi hr hc rfl (.inr ⟨rfl, hm⟩)

theorem str64_serves (hready : Ready s [d, x]) (hr : Reaches s g.toNat (mOff x o 8 s) 8 rW 8 a) (hc : Cached s a l) (hm : l.mark = true) :
    ServedAs (.str64 d x g o) s a { s.me with pc := s.me.pc + 4 } (l.write (a.toNat % 128) (2 ^ 8 - 1) (leBytes 8 (s.val d).toNat)) := by
  have hi : exec (.str64 d x g o) s = .next (s.relaxedAccess { seg := g.toNat, off := s.offM x o 8, size := 8, need := rW, align := 8 }
      { op := .write, data := leBytes 8 (s.val d).toNat, en := allOn 8, kind := 0x05 } none) := congrArg _ (State.issue_two hready)
  exact servedAs_relaxed hi hr hc rfl (.inr ⟨rfl, hm⟩)

end Sys2Proof.Machine
end

section
/-! The statement about accesses that the L1D serves. -/

namespace Sys2Proof.Machine

open Sys2Proof Sys2Proof.Spec

/-- Settles O20: the loads, then the stores, form by form. -/
theorem cacheHits : Obligations.CacheHits :=
  ⟨fun _ _ _ _ => ⟨loadForms_serve, fun _ _ _ => ld128_serves, ldl_serves, fun _ _ _ => ldr64_serves⟩,
    fun _ _ _ _ => ⟨storeForms_serve, fun _ _ _ => st128_serves, fun z imm _ _ _ => stl_serves z imm, fun _ _ _ => str64_serves⟩⟩

end Sys2Proof.Machine
end

section
/-! The end of a helper whose starter's number names no slot of its own core (R337): a state outside R335, which the statement admits. -/

namespace Sys2Proof.Machine

open Sys2Proof Sys2Proof.Spec

/-- A helper in slot 1 of core 0, alone in its crew, whose starter number 16 names slot 0 of core 1: a strand of the same gang is parked there, in the
`join` of slot 1. -/
def strayHelper : State :=
  { State.reset with
    cur := 1
    strands := [(1, { st := .ready, starter := 16 }), (16, { st := .parked, why := some .join, cont := .join 1, helpers := 2 })]
    sites := [(0, { gangs := [(0, { st := .running, cores := [0] })] })] }

/-- The crew of core 0 ends with the helper, and with it the gang: the parked strand is gone (R155, R337). -/
theorem strayHelper_ends_gang : ((strayHelper.endStrand 1).strand 16).st = .free := by decide +kernel

/-- A strand of a gang, no drain's, with nothing to wait for ends (R337). -/
theorem exec_endStrand {s : State} (hk : slotOf s.cur < 13) (ht : s.me.tracker.isEmpty = true) (hc : s.copying s.cur = false) (hd : s.me.drain = false)
    (hg : s.myGang.st ≠ .free) : exec .endStrand s = .next (s.endStrand s.cur) := by
  change execEndStrand s = _
  unfold execEndStrand
  simp only [Nat.not_le.2 hk, ht, hc, hd, hg, Bool.not_true, Bool.false_eq_true, if_false]

/-- Refutes O33: a starter number of 16 or more leads out of the helper's core, so that the helper may be the last of the last crew of a gang. Its `end`
then ends the gang, and the strand whose `join` it completes with it, which is FREE and not READY. (`start` gives numbers below 16 only, R335.) -/
theorem not_strandsEnd : ¬ Obligations.StrandsEnd := by
  intro ⟨ends, _⟩
  have starter : slotKey (coreOfK strayHelper.cur) strayHelper.me.starter = 16 := by decide
  obtain ⟨t, ht, -, -, ready, -⟩ := (ends strayHelper (by decide)).2.2 (by decide) (by decide +kernel) (by decide) (by decide) (by decide) (by decide)
    (by decide) (by decide) (by decide) (by decide) (by decide) (by decide) (by decide)
  rw [exec_endStrand (by decide) (by decide) (by decide +kernel) (by decide) (by decide), Host.Outcome.next.injEq] at ht
  rw [starter, ← ht] at ready
  exact SlotState.noConfusion (strayHelper_ends_gang.symm.trans ready)

end Sys2Proof.Machine
end

section
/-! A K-group of a multiply: the check of the bytes that it reads, the elements that it updates, and the fault of a granule that nobody holds
(R80, R248, R343, R346). -/

namespace Sys2Proof.Machine

open Sys2Proof Sys2Proof.Spec

/-! ## The elements of an accumulator (R170) -/

/-- Dropping the records that equal the default leaves every reading of a table with rising keys. -/
theorem Tab.get_filter_ne {α : Type} [BEq α] [LawfulBEq α] (d : α) (k : Nat) {t : List (Nat × α)} (hr : Rising t) :
    Tab.get d k (t.filter fun p => p.2 != d) = Tab.get d k t := by
  induction t with
  | nil => rfl
  | cons q t ih =>
    obtain ⟨j, y⟩ := q
    simp only [Rising, List.map_cons, List.pairwise_cons] at hr
    obtain ⟨above, hr⟩ := hr
    have ih := ih hr
    by_cases hy : y = d
    · subst hy
      by_cases hj : j = k
      · subst hj
        have absent : Tab.get y j t = y := by rw [Tab.get, Tab.find_below above]; rfl
        simpa [Tab.get, Tab.find, absent] using ih.trans absent
      · simpa [Tab.get, Tab.find, hj] using ih
    · by_cases hj : j = k
      · simp [Tab.get, Tab.find, hy, hj]
      · simpa [Tab.get, Tab.find, hy, hj] using ih

theorem Tab.get_indexed {α : Type} (d : α) (f : Nat → α) {n i : Nat} (hi : i < n) : Tab.get d i ((List.range n).map fun i => (i, f i)) = f i := by
  have rising : Rising ((List.range n).map fun i => (i, f i)) := by
    rw [Rising, List.map_map]
    exact List.pairwise_lt_range.map _ fun _ _ h => h
  exact Tab.get_of_mem rising (List.mem_map.2 ⟨i, List.mem_range.2 hi, rfl⟩) d

theorem Core.get_setAcc (x : Core) (n : Nat) (f : Nat → Nat) {i : Nat} (hi : i < 1024) : Tab.get 0 i ((x.setAcc n f).acc n) = BitVec.ofNat 32 (f i) := by
  have rising : Rising ((List.range 1024).map fun i => (i, BitVec.ofNat 32 (f i))) := by
    rw [Rising, List.map_map]
    exact List.pairwise_lt_range.map _ fun _ _ h => h
  rw [Core.setAcc, Core.acc, Tab.get_put_self, Tab.get_filter_ne 0 i rising, Tab.get_indexed 0 _ hi]

/-! ## The bytes that a group reads (R80, R91) -/

variable {s : State} {o : MOp} {p : Mma} {c : Nat}

/-- Some range of a list of bytes reaches into a store granule. -/
def TouchesGranule (rs : List (Nat × Nat)) (g : Nat) : Prop := ∃ r ∈ rs, r.1 / 16384 ≤ g ∧ g ≤ (r.1 + r.2 - 1) / 16384

/-- The store granules of some ranges, each with the first byte of a range that reaches it. -/
def storeGranules (rs : List (Nat × Nat)) : List (Nat × Nat) :=
  (rs.flatMap fun r => (List.range ((r.1 + r.2 - 1) / 16384 + 1 - r.1 / 16384)).map fun i => (r.1 / 16384 + i, r.1)).eraseDups

theorem touchesGranule_iff (rs : List (Nat × Nat)) (g : Nat) : TouchesGranule rs g ↔ ∃ b, (g, b) ∈ storeGranules rs := by
  simp only [TouchesGranule, storeGranules, List.mem_eraseDups, List.mem_flatMap, List.mem_map, List.mem_range, Prod.mk.injEq]
  constructor
  · rintro ⟨r, hr, hlo, hhi⟩
    exact ⟨r.1, r, hr, g - r.1 / 16384, by omega, by omega, rfl⟩
  · rintro ⟨b, r, hr, i, hi, rfl, -⟩
    exact ⟨r, hr, by omega, by omega⟩

/-- Nothing is struck where no memory is (R91). -/
theorem State.inspectAll_clean (h : s.flaws = []) (v u : Nat) (gs : List Nat) : s.inspectAll v u gs = (true, s) := by
  rw [State.inspectAll, State.flawed_nil h]; rfl

/-- A tile whose granules are held, or that supervisor mode reads, is read (R80). -/
theorem State.tile_go {k : Nat} {rs : List (Nat × Nat)} (hf : s.flaws = [])
    (h : (s.strand k).sup = true ∨ ∀ g, TouchesGranule rs g → (s.site (siteOfK k)).storeHeld (coreNo k / 4) g = true) (rd : Bool) :
    s.tile k rs rd = .go s := by
  have all_held : (if (s.strand k).sup then none else (storeGranules rs).find? fun g => !(s.site (siteOfK k)).storeHeld (coreNo k / 4) g.1) = none := by
    split
    · rfl
    · next hs =>
      refine List.find?_eq_none.2 fun g hg => ?_
      simp [(h.resolve_left hs) g.1 ((touchesGranule_iff rs g.1).2 ⟨g.2, hg⟩)]
  unfold State.tile
  dsimp only
  rw [← storeGranules, all_held]
  simp only [State.stalled_nil hf, State.inspectAll_clean hf, Bool.false_eq_true, if_false]

/-- In user mode a granule that nobody holds is the unheld-store fault (R80). -/
theorem State.tile_unheld {k : Nat} {rs : List (Nat × Nat)} {g : Nat} (hs : (s.strand k).sup = false) (hg : TouchesGranule rs g)
    (hh : (s.site (siteOfK k)).storeHeld (coreNo k / 4) g = false) (rd : Bool) : ∃ a, s.tile k rs rd = .bad .unheldStore a s := by
  obtain ⟨b, hb⟩ := (touchesGranule_iff rs g).1 hg
  obtain ⟨u, hu⟩ := Option.isSome_iff_exists.1
    (List.find?_isSome.2 ⟨(g, b), hb, by simp [hh]⟩ : ((storeGranules rs).find? fun g => !(s.site (siteOfK k)).storeHeld (coreNo k / 4) g.1).isSome)
  refine ⟨s.homeAddr (siteOfK k) (coreNo k / 4) (max u.2 (u.1 * 16384)), ?_⟩
  unfold State.tile
  dsimp only
  rw [← storeGranules, hs, if_neg Bool.false_ne_true, hu]

/-! ## The update of a group (R248) -/

theorem zip_maps {α β γ : Type} (f : α → β) (g : α → γ) (l : List α) : ((l.map f).zip (l.map g)).zip l = l.map fun x => ((f x, g x), x) := by
  induction l with
  | nil => rfl
  | cons x l ih => simp [ih]

/-- The products of a group for element j of the column and row r of A. -/
def State.products (s : State) (o : MOp) (p : Mma) (g r j : Nat) : List FVal :=
  ((List.range (groupOf p.ta)).map (g * groupOf p.ta + ·)).map fun kk =>
    if kk < p.kk then
      mmaProduct p.ta p.tb (s.element o.k p.ta (p.offA + 16 * p.lda * r) kk) (s.element o.k p.tb (p.offB + 16 * p.ldb * j) kk)
        (if p.x then some (s.tileByte o.k (p.offSA + p.ldsa * r + kk / 32), s.tileByte o.k (p.offSB + p.ldsb * j + kk / 32)) else none)
    else .fin false 0 0

theorem accElem_mmaGroup (g : Nat) {i : Nat} (hi : i < 1024) :
    accElem (s.mmaGroup o p g) (coreOfK o.k) (s.strand o.k).entry o.acc i =
      if i / 32 < p.rowIx.length then
        BitVec.ofNat 32 (accumulate (accElem s (coreOfK o.k) (s.strand o.k).entry o.acc i).toNat (s.products o p g (p.rowIx.getD (i / 32) 0) (i % 32)))
      else accElem s (coreOfK o.k) (s.strand o.k).entry o.acc i := by
  have hj : i % 32 < 32 := Nat.mod_lt _ (by decide)
  rw [accElem, State.mmaGroup, State.core_modCore, if_pos rfl, Core.get_setAcc _ _ _ hi]
  simp only [List.getElem?_map, List.getElem?_range hj, Option.map_some]
  by_cases hr : i / 32 < p.rowIx.length
  · rw [if_pos hr, List.getElem?_eq_getElem hr, Option.map_some, List.getD_eq_getElem _ _ hr]
    dsimp only
    rw [zip_maps, List.map_map]
    rfl
  · rw [if_neg hr, List.getElem?_eq_none (Nat.not_lt.1 hr)]
    simp [accElem]

end Sys2Proof.Machine
end

section
/-! The fault of a strand in user mode, and what follows it on its core (R59, R165, R373). -/

namespace Sys2Proof.Machine

open Sys2Proof Sys2Proof.Spec

variable {s t u : State} {k c : Nat}

/-! ## What an abort leaves -/

/-- What an abort of strands leaves as it was: memory, accumulators, the pc of every strand, and an empty lane. -/
structure AbortKeeps (s t : State) : Prop where
  mem : t.mem = s.mem
  accs : ∀ c, (t.core c).accs = (s.core c).accs
  mul : ∀ c, (s.core c).mul = [] → (t.core c).mul = []
  pc : ∀ k, (t.strand k).pc = (s.strand k).pc

theorem AbortKeeps.refl (s : State) : AbortKeeps s s := ⟨rfl, fun _ => rfl, fun _ h => h, fun _ => rfl⟩

theorem AbortKeeps.trans (h : AbortKeeps s t) (g : AbortKeeps t u) : AbortKeeps s u :=
  ⟨g.mem.trans h.mem, fun c => (g.accs c).trans (h.accs c), fun c hc => g.mul c (h.mul c hc), fun k => (g.pc k).trans (h.pc k)⟩

/-- A change outside memory, cores and strands. -/
theorem AbortKeeps.rest (h : AbortKeeps s t) (hm : u.mem = t.mem) (hc : u.cores = t.cores) (hs : u.strands = t.strands) : AbortKeeps s u :=
  h.trans ⟨hm, fun c => by rw [State.core, hc, State.core], fun c h => by rwa [State.core, hc], fun k => by rw [State.strand, hs, State.strand]⟩

theorem AbortKeeps.modStrand (h : AbortKeeps s t) (k : Nat) {f : Strand → Strand} (hf : ∀ x, (f x).pc = x.pc) : AbortKeeps s (t.modStrand k f) := by
  refine h.trans ⟨rfl, fun _ => rfl, fun _ h => h, fun j => ?_⟩
  rw [State.strand_modStrand]
  split_ifs with hj
  · rw [hf, hj]
  · rfl

theorem AbortKeeps.modCore (h : AbortKeeps s t) (c : Nat) {f : Core → Core} (ha : ∀ x, (f x).accs = x.accs) (hm : ∀ x, x.mul = [] → (f x).mul = []) :
    AbortKeeps s (t.modCore c f) := by
  refine h.trans ⟨rfl, fun d => ?_, fun d h => ?_, fun _ => rfl⟩ <;> rw [State.core_modCore] <;> split_ifs with hd
  · rw [ha, hd]
  · rfl
  · exact hm _ (hd ▸ h)
  · exact h

theorem AbortKeeps.count (h : AbortKeeps s t) (c n m : Nat) : AbortKeeps s (t.count c n m) := h.modCore c (fun _ => rfl) fun _ h => h

theorem AbortKeeps.park (h : AbortKeeps s t) (k : Nat) (r : Park) (c : Cont) : AbortKeeps s (t.park k r c) := by
  unfold State.park
  refine .count (.modStrand h k ?_) _ _ _
  exact fun _ => rfl

theorem AbortKeeps.faultRecord (h : AbortKeeps s t) (k : Nat) (f : Trouble) : AbortKeeps s (t.faultRecord k f) := by
  unfold State.faultRecord
  cases f.addr with
  | none =>
    refine .count (.modStrand (h.rest (u := t.free.2) rfl rfl rfl) k ?_) _ _ _
    exact fun _ => rfl
  | some a =>
    refine .count (.modStrand h k ?_) _ _ _
    exact fun _ => rfl

theorem AbortKeeps.abortStrand (h : AbortKeeps s t) (k : Nat) : AbortKeeps s (t.abortStrand k) := by
  have withdrawn := h.rest (u := ((t.forget k).orphan k (t.gang (siteOfK k) (t.strand k).entry).mark).dropWaiter k) rfl rfl rfl
  unfold State.abortStrand
  refine .modCore (.modStrand withdrawn k fun x => ?_) _ (fun _ => rfl) fun x hx => ?_
  · split <;> rfl
  change x.mul.filter _ = []
  rw [hx]
  rfl

theorem AbortKeeps.abortGang (h : AbortKeeps s t) (v e : Nat) : AbortKeeps s (t.abortGang v e) :=
  each_invariant (P := AbortKeeps s) (fun _ k h => h.abortStrand k) _ (h.rest rfl rfl rfl)

/-! ## The fault in user mode -/

/-- A strand that has met a fault in user mode: it is stopped, or stays parked until the event can be held (R165, R373). -/
def Strand.faulted (x : Strand) : Prop := x.st = .stopped ∨ ∃ f, x.st = .parked ∧ x.cont = .stalled f

theorem State.faultAct_atRest (f : Late) (hu : (s.strand k).sup = false) (hst : (s.strand k).st ≠ .free) (hk : slotOf k < 13) :
    AbortKeeps s (s.faultAct k f) ∧ ((s.faultAct k f).strand k).faulted ∧
      ((s.faultAct k f).strand k).faultCode = (s.strand k).faultCode ∧ ((s.faultAct k f).strand k).faultPc = (s.strand k).faultPc := by
  by_cases hh : s.holdFull (siteOfK k) (16 + coreNo k) = true
  · have parked : s.faultAct k f = s.park k .access (.stalled f) := by simp [State.faultAct, hu, hh]
    rw [parked, State.strand_park, if_pos rfl]
    exact ⟨(AbortKeeps.refl s).park .., .inr ⟨f, rfl, rfl⟩, rfl, rfl⟩
  · rw [Bool.not_eq_true] at hh
    obtain ⟨-, -, hs, hc, hp⟩ := State.faultAct_user f hu hst hk hh
    refine ⟨?_, .inl hs, hc, hp⟩
    simp only [State.faultAct, hu, hh, Bool.false_eq_true, if_false]
    refine .abortGang (.rest (.refl s) ?_ ?_ ?_) _ _ <;> rfl

/-- What a fault in user mode leaves: its record, the strand at rest, and what an abort keeps (R59, R373). -/
theorem State.takeFault_user {f : Trouble} (hf : f.code ≠ .pageFault) (hu : (s.strand k).sup = false) (hst : (s.strand k).st ≠ .free) (hk : slotOf k < 13) :
    AbortKeeps s (s.takeFault k f) ∧ ((s.takeFault k f).strand k).faulted ∧
      ((s.takeFault k f).strand k).faultCode = BitVec.ofNat 64 (f.kind * 2 ^ 16 + f.code.num) ∧ ((s.takeFault k f).strand k).faultPc = f.pc := by
  have record := s.strand_faultRecord k k f
  rw [if_pos rfl] at record
  rw [State.takeFault_of_ne s k hf]
  obtain ⟨hkeep, hrest, hc, hp⟩ := State.faultAct_atRest (s := s.faultRecord k f) (k := k)
    { code := f.code.num, addr := ((s.faultRecord k f).strand k).faultAddr, pc := f.pc, kind := f.kind } (by rw [record]; exact hu)
    (by rw [record]; exact hst) hk
  exact ⟨((AbortKeeps.refl s).faultRecord k f).trans hkeep, hrest, hc.trans (by rw [record]), hp.trans (by rw [record])⟩

/-! ## The strands of a core looked at again (R185) -/

theorem Settled.settleCore (s : State) (c : Nat) : Settled s (s.settleCore c) := .each (fun s k => .settle s k) _ s

theorem State.settle_faulted (h : (s.strand k).faulted) : s.settle k = s := by
  unfold State.settle
  rcases h with hst | ⟨f, hst, hc⟩
  · simp [hst]
  · simp [hst, hc]

/-- A strand that has met a fault stays as it is while the strands of a core are looked at again. -/
theorem State.strand_settleCore_faulted (h : (s.strand k).faulted) (c : Nat) : (s.settleCore c).strand k = s.strand k := by
  refine each_invariant (P := fun t => t.strand k = s.strand k) (fun t j ht => ?_) _ rfl
  by_cases hj : k = j
  · rw [← hj, State.settle_faulted (ht ▸ h), ht]
  · rw [(Touches.settle t j).strand k hj, ht]

end Sys2Proof.Machine
end

section
/-! The steps of the multiply lane (R248, R343, R346). -/

namespace Sys2Proof.Machine

open Sys2Proof Sys2Proof.Spec

variable {s : State} {c : Nat} {o : MOp} {p : Mma}

/-- The next group of an operation can be done: it is not the last, its gang does not stop, and for every group but the first a permit is at hand. -/
def Steps (s : State) (c : Nat) (o : MOp) (p : Mma) : Prop :=
  o.g < p.groups ∧ (s.gang (siteOfK o.k) (s.strand o.k).entry).expired = false ∧ (o.g = 0 ∨ s.hasPermit c .matrix = true)

/-- The bytes that the next group of an operation reads. -/
def MOp.bytes (o : MOp) (p : Mma) : List (Nat × Nat) := p.ranges (o.g * groupOf p.ta) (min p.kk ((o.g + 1) * groupOf p.ta))

/-- What the check of a group's bytes brings about (R346). -/
def State.grouped (c : Nat) (o : MOp) (p : Mma) : Tile → Option State
  | .wait => none
  | .bad e a s => some (s.laneFault false o e a 0x0E)
  | .go s => some ((((if o.g = 0 then s else s.takePermit c .matrix).mmaGroup o p o.g).modCore c fun x =>
      x.modOp false o.seq fun q => { q with g := o.g + 1 }).count c 0x013 1)

theorem grouped_effect {u : State} (hl : (s.core (coreOfK o.k)).mul = [o]) (hm : u.mem = s.mem) (hs : u.strands = s.strands)
    (ha : (u.core (coreOfK o.k)).accs = (s.core (coreOfK o.k)).accs) (hu : (u.core (coreOfK o.k)).mul = (s.core (coreOfK o.k)).mul) :
    let t := ((u.mmaGroup o p o.g).modCore (coreOfK o.k) fun x => x.modOp false o.seq fun q => { q with g := o.g + 1 }).count (coreOfK o.k) 0x013 1
    t.mem = s.mem ∧ t.strands = s.strands ∧ (t.core (coreOfK o.k)).mul = [{ o with g := o.g + 1 }] ∧
      ∀ i, i < 1024 → accElem t (coreOfK o.k) (s.strand o.k).entry o.acc i =
        if i / 32 < p.rowIx.length then
          BitVec.ofNat 32 (accumulate (accElem s (coreOfK o.k) (s.strand o.k).entry o.acc i).toNat (s.products o p o.g (p.rowIx.getD (i / 32) 0) (i % 32)))
        else accElem s (coreOfK o.k) (s.strand o.k).entry o.acc i := by
  have strand : u.strand o.k = s.strand o.k := by rw [State.strand, hs, State.strand]
  have products (r j : Nat) : u.products o p o.g r j = s.products o p o.g r j := by simp only [State.products, State.element, State.tileByte, hm]
  have elem (i : Nat) : accElem u (coreOfK o.k) (s.strand o.k).entry o.acc i = accElem s (coreOfK o.k) (s.strand o.k).entry o.acc i := by
    simp only [accElem, Core.acc, ha]
  refine ⟨hm, hs, ?_, fun i hi => ?_⟩
  · have kept : ((u.mmaGroup o p o.g).core (coreOfK o.k)).mul = [o] := by
      rw [State.mmaGroup, State.core_modCore, if_pos rfl]
      exact hu.trans hl
    rw [State.count, State.core_modCore, if_pos rfl, State.core_modCore, if_pos rfl]
    change ((State.core _ _).mul.map _) = _
    rw [kept]
    simp
  · have counted : accElem (((u.mmaGroup o p o.g).modCore (coreOfK o.k) fun x => x.modOp false o.seq fun q => { q with g := o.g + 1 }).count (coreOfK o.k) 0x013 1)
        (coreOfK o.k) (s.strand o.k).entry o.acc i = accElem (u.mmaGroup o p o.g) (coreOfK o.k) (s.strand o.k).entry o.acc i := by
      rw [accElem, State.count, State.core_modCore, if_pos rfl, State.core_modCore, if_pos rfl]
      rfl
    rw [counted, ← strand, accElem_mmaGroup o.g hi, strand, elem, products]

section

variable (hh : AtHead s c false o) (hb : o.begun = true) (hm : o.kind = .mma p)
include hh hb hm

theorem kgroup_steps (hs : Steps s c o p) : s.kgroup c = State.grouped c o p (s.tile o.k (o.bytes p) true) := by
  obtain ⟨hl, -, hst, -⟩ := hh
  obtain ⟨hg, he, hp⟩ := hs
  have lane : (s.core c).mul = [o] := hl
  have permit : ¬(o.g ≠ 0 ∧ (!s.hasPermit c .matrix) = true) := fun ⟨h0, hn⟩ => by
    rcases hp with h | h
    · exact h0 h
    · simp [h] at hn
  unfold State.kgroup
  rw [lane]
  simp only [hm, hb, hst, he, permit, Nat.not_le.2 hg, Bool.not_true, decide_false, Bool.or_self, bne_self_eq_false, Bool.false_eq_true, if_false]
  rfl

theorem matrixKgroupStep_go (hs : Steps s c o p) (hf : s.flaws = [])
    (hr : (s.strand o.k).sup = true ∨ ∀ g, TouchesGranule (o.bytes p) g → (s.site (siteOfK o.k)).storeHeld (coreNo o.k / 4) g = true) :
    ∃ t, exec (.matrixKgroupStep c) s = .next t ∧ t.mem = s.mem ∧ t.strands = s.strands ∧ (t.core c).mul = [{ o with g := o.g + 1 }] ∧
      ∀ i, i < 1024 → accElem t c (s.strand o.k).entry o.acc i =
        if i / 32 < p.rowIx.length then
          BitVec.ofNat 32 (accumulate (accElem s c (s.strand o.k).entry o.acc i).toNat (s.products o p o.g (p.rowIx.getD (i / 32) 0) (i % 32)))
        else accElem s c (s.strand o.k).entry o.acc i := by
  have hi : exec (.matrixKgroupStep c) s = due "MATRIX_KGROUP_STEP" (s.kgroup c) := by rfl
  rw [kgroup_steps hh hb hm hs, State.tile_go hf hr] at hi
  obtain ⟨hl, hc, -⟩ := hh
  subst hc
  have lane : (s.core (coreOfK o.k)).mul = [o] := hl
  refine ⟨_, hi, ?_⟩
  have taken (f : Core → Core) (hf : ∀ x, (f x).accs = x.accs ∧ (f x).mul = x.mul) : ((s.modCore (coreOfK o.k) f).core (coreOfK o.k)).accs =
      (s.core (coreOfK o.k)).accs ∧ ((s.modCore (coreOfK o.k) f).core (coreOfK o.k)).mul = (s.core (coreOfK o.k)).mul := by
    rw [State.core_modCore, if_pos rfl]
    exact hf _
  obtain ⟨accs, mul⟩ := taken (fun x => x.setPermit .matrix { x.permit .matrix with count := (x.permit .matrix).count - 1 }) fun _ => ⟨rfl, rfl⟩
  split
  · exact grouped_effect lane rfl rfl rfl rfl
  · exact grouped_effect lane rfl rfl accs mul

end

end Sys2Proof.Machine
end

section
/-! The K-groups of a multiply (R80, R248, R346). -/

namespace Sys2Proof.Machine

open Sys2Proof Sys2Proof.Spec

variable {s : State} {c : Nat} {o : MOp}

theorem State.mul_dropOp (h : (s.core c).mul = [o]) : ((s.modCore c fun x => x.dropOp false o.seq).core c).mul = [] := by
  rw [State.core_modCore, if_pos rfl]
  change (s.core c).mul.filter _ = []
  simp [h]

/-- An operation of a strand in user mode that ends on a fault: the lane is empty, memory and the accumulators stay, the fault is recorded at its instruction (R59, R346). -/
theorem laneFault_user {code : Code} (hl : (s.core (coreOfK o.k)).mul = [o]) (hp : (s.strand o.k).st = .parked) (hk : slotOf o.k < 13)
    (hu : (s.strand o.k).sup = false) (hc : code ≠ .pageFault) (a : Addr) (kind : Nat) :
    let t := s.laneFault false o code a kind
    t.mem = s.mem ∧ (t.core (coreOfK o.k)).mul = [] ∧ (∀ i, accElem t (coreOfK o.k) (s.strand o.k).entry o.acc i = accElem s (coreOfK o.k) (s.strand o.k).entry o.acc i) ∧
      (t.strand o.k).faultCode = BitVec.ofNat 64 (kind * 2 ^ 16 + code.num) ∧ (t.strand o.k).faultPc = o.pc ∧ (t.strand o.k).pc = (s.strand o.k).pc := by
  intro t
  have dropped : AbortKeeps s (s.modCore (coreOfK o.k) fun x => x.dropOp false o.seq) :=
    .modCore (.refl s) _ (fun _ => rfl) fun x hx => by simp [Core.dropOp, hx]
  obtain ⟨hkeep, hrest, hcode, hpc⟩ := State.takeFault_user (s := s.modCore (coreOfK o.k) fun x => x.dropOp false o.seq) (k := o.k)
    (f := { code, addr := some a, pc := o.pc, kind }) hc hu (by rw [State.strand_modCore, hp]; decide) hk
  have settled := Settled.settleCore ((s.modCore (coreOfK o.k) fun x => x.dropOp false o.seq).takeFault o.k { code, addr := some a, pc := o.pc, kind }) (coreOfK o.k)
  have strand := State.strand_settleCore_faulted hrest (coreOfK o.k)
  have all := dropped.trans hkeep
  refine ⟨settled.mem.trans all.mem, ?_, fun i => ?_, ?_, ?_, ?_⟩
  · rw [show t = State.settleCore _ _ from rfl, settled.core]
    exact hkeep.mul _ (State.mul_dropOp hl)
  · rw [show t = State.settleCore _ _ from rfl, accElem, settled.core, Core.acc, all.accs]
    rfl
  · exact (congrArg Strand.faultCode strand).trans hcode
  · exact (congrArg Strand.faultPc strand).trans hpc
  · exact (congrArg Strand.pc strand).trans (all.pc o.k)

/-- The strand of a completed operation goes on, and the lane is empty (R343, R346). -/
theorem laneDone_goesOn (h : AtHead s c false o) : GoesOn s (s.laneDone false o) o.k o.adv ∧ ((s.laneDone false o).core c).mul = [] ∧ (s.laneDone false o).mem = s.mem := by
  obtain ⟨hl, rfl, hp, hc, hh, -⟩ := h
  have on : GoesOn s ((s.modCore (coreOfK o.k) fun x => x.dropOp false o.seq).completed o.k o.adv) o.k o.adv :=
    State.completed_goesOn (s := s.modCore (coreOfK o.k) fun x => x.dropOp false o.seq) (k := o.k) o.adv hp hh
  have done := Settled.completed (s.modCore (coreOfK o.k) fun x => x.dropOp false o.seq) o.k o.adv
  have settled := Settled.settleCore ((s.modCore (coreOfK o.k) fun x => x.dropOp false o.seq).completed o.k o.adv) (coreOfK o.k)
  refine ⟨(settled.strand _ ?_).trans on, ?_, settled.mem.trans done.mem⟩
  · rw [on]
    exact SlotState.noConfusion
  · rw [State.laneDone, settled.core, done.core]
    exact State.mul_dropOp hl

section

variable {p : Mma} (hh : AtHead s c false o) (hb : o.begun = true) (hm : o.kind = .mma p)
include hh hb hm

theorem matrixKgroupStep_unheld (hs : Steps s c o p) (hu : (s.strand o.k).sup = false) {g : Nat} (hg : TouchesGranule (o.bytes p) g)
    (hn : (s.site (siteOfK o.k)).storeHeld (coreNo o.k / 4) g = false) :
    ∃ a, exec (.matrixKgroupStep c) s = .next (s.laneFault false o .unheldStore a 0x0E) := by
  obtain ⟨a, ha⟩ := State.tile_unheld hu hg hn true
  have hi : exec (.matrixKgroupStep c) s = due "MATRIX_KGROUP_STEP" (s.kgroup c) := by rfl
  rw [kgroup_steps hh hb hm hs, ha] at hi
  exact ⟨a, hi⟩

theorem matrixOpComplete_done (hg : o.g = p.groups) : exec (.matrixOpComplete c false) s = .next (s.laneDone false o) := by
  obtain ⟨hl, -, hp, -⟩ := hh
  have hi : exec (.matrixOpComplete c false) s = due "MATRIX_OP_COMPLETE" (s.laneComplete c false) := by rfl
  rw [State.laneComplete, hl] at hi
  simpa [hb, hm, hg, hp, due] using hi

end

/-- Settles O42: a group whose granules are held adds its products, one of an unheld granule faults in user mode, and after the last the strand goes on. -/
theorem matrixGroups : Obligations.MatrixGroups := by
  intro s c o p hh hb hm
  refine ⟨fun hs hf hr => matrixKgroupStep_go hh hb hm hs hf hr, fun g hs hu hg hn => ?_, fun hg => ?_⟩
  · obtain ⟨a, ht⟩ := matrixKgroupStep_unheld hh hb hm hs hu hg hn
    obtain ⟨hl, rfl, hp, -, -, hk⟩ := hh
    exact ⟨_, ht, laneFault_user hl hp hk hu (by decide) a 0x0E⟩
  · exact ⟨_, matrixOpComplete_done hh hb hm hg, laneDone_goesOn hh⟩

end Sys2Proof.Machine
end

section
/-! Lines that enter and leave the caches of a pavilion (R86, R91, R104). -/

namespace Sys2Proof.Machine

open Sys2Proof Sys2Proof.Spec

variable {s t u : State} {l w : Line}

/-! ## What the way out of a cache leaves -/

/-- What lines on their way out of the caches leave as it was: memory, cores, strands and the gangs. -/
structure LinesMove (s t : State) : Prop where
  mem : t.mem = s.mem
  cores : t.cores = s.cores
  strands : t.strands = s.strands
  gangs : ∀ v, (t.site v).gangs = (s.site v).gangs

theorem LinesMove.refl (s : State) : LinesMove s s := ⟨rfl, rfl, rfl, fun _ => rfl⟩

theorem LinesMove.trans (h : LinesMove s t) (g : LinesMove t u) : LinesMove s u :=
  ⟨g.mem.trans h.mem, g.cores.trans h.cores, g.strands.trans h.strands, fun v => (g.gangs v).trans (h.gangs v)⟩

/-- Messages, transactions and identifiers come and go. -/
theorem LinesMove.rest (hm : t.mem = s.mem) (hc : t.cores = s.cores) (hk : t.strands = s.strands) (hv : t.sites = s.sites) : LinesMove s t :=
  ⟨hm, hc, hk, fun v => by rw [State.site, hv, State.site]⟩

theorem LinesMove.ite {p : Prop} [Decidable p] (h : LinesMove s t) (g : LinesMove s u) : LinesMove s (if p then t else u) := by
  split
  · exact h
  · exact g

theorem LinesMove.modSite (h : LinesMove s t) (v : Nat) {f : Site → Site} (hf : ∀ x, (f x).gangs = x.gangs) : LinesMove s (t.modSite v f) := by
  refine h.trans ⟨rfl, rfl, rfl, fun w => ?_⟩
  rw [State.site_modSite]
  split_ifs with hw
  · rw [hf, hw]
  · rfl

theorem LinesMove.setSite (h : LinesMove s t) (v : Nat) {x : Site} (hx : x.gangs = (t.site v).gangs) : LinesMove s (t.setSite v x) := by
  refine h.trans ⟨rfl, rfl, rfl, fun w => ?_⟩
  rw [State.site_setSite]
  split_ifs with hw
  · rw [hx, hw]
  · rfl

theorem LinesMove.raise (h : LinesMove s t) (v u sev code : Nat) (n : Option Nat) (a : Addr) : LinesMove s (t.raise v u sev code n a) := h.setSite v rfl

theorem LinesMove.core (h : LinesMove s t) (c : Nat) : t.core c = s.core c := by rw [State.core, h.cores, State.core]
theorem LinesMove.strand (h : LinesMove s t) (k : Nat) : t.strand k = s.strand k := by rw [State.strand, h.strands, State.strand]
theorem LinesMove.gang (h : LinesMove s t) (v e : Nat) : t.gang v e = s.gang v e := by rw [State.gang, h.gangs, State.gang]

/-- One change of a core on both sides. -/
theorem LinesMove.modCore_both (h : LinesMove s t) (c : Nat) (f : Core → Core) : LinesMove (s.modCore c f) (t.modCore c f) := by
  refine ⟨h.mem, ?_, h.strands, h.gangs⟩
  simp only [State.modCore, State.setCore, h.core, h.cores]

theorem LinesMove.requestAs (h : LinesMove s t) (id : Option Nat) (v key : Nat) (a : Acc) (r : Route) (fill : Option Line) (len : Nat) :
    LinesMove s (t.requestAs id v key a r fill len) := by
  cases id <;> exact h.trans (.rest rfl rfl rfl rfl)

theorem LinesMove.writeHome (h : LinesMove s t) (v low : Nat) (id : Option Nat) (l : Line) : LinesMove s (t.writeHome v low id l) := by
  unfold State.writeHome
  split
  · exact h.requestAs ..
  · cases id <;> exact h.trans (.rest rfl rfl rfl rfl)

theorem LinesMove.writeSlice (h : LinesMove s t) (c : Nat) (id : Option Nat) (l : Line) : LinesMove s (t.writeSlice c id l) := by
  unfold State.writeSlice
  dsimp only
  split
  · exact h.modSite _ fun _ => rfl
  · split_ifs
    · refine .writeHome (.modSite (.modSite h _ ?_) _ ?_) .. <;> exact fun _ => rfl
    · refine .writeHome (.modSite (.modSite h _ ?_) _ ?_) .. <;> exact fun _ => rfl
  · refine .writeHome (h.trans ?_) ..
    exact .rest rfl rfl rfl rfl

theorem LinesMove.lineOut (h : LinesMove s t) (v u : Nat) (id : Option Nat) (l : Line) : LinesMove s (t.lineOut v u id l) := .ite (h.writeHome ..) (h.writeSlice ..)

theorem LinesMove.lineEvent (h : LinesMove s t) (v u : Nat) (l : Line) : LinesMove s (t.lineEvent v u l) :=
  .ite (h.raise ..) (.ite (h.raise ..) (.ite (h.raise ..) (h.raise ..)))

theorem LinesMove.lineStruck (h : LinesMove s t) (v u : Nat) (id : Option Nat) (l : Line) : LinesMove s (t.lineStruck v u id l) :=
  .ite (h.lineEvent ..) ((h.lineEvent ..).lineOut ..)

theorem LinesMove.lineLeaves (h : LinesMove s t) (v u : Nat) (l : Line) : LinesMove s (t.lineLeaves v u l) :=
  .ite h (.ite (.modSite (h.trans (u := t.fresh.2) (.rest rfl rfl rfl rfl)) _ fun _ => rfl) (.ite (h.lineOut ..) (h.lineStruck ..)))

theorem LinesMove.consume (s : State) (n : Nat) : LinesMove s (s.consume n) := by
  refine ⟨by simp, by simp, by simp, fun v => ?_⟩
  obtain ⟨links, h⟩ := s.site_consume_links n v
  rw [h]

theorem LinesMove.settled (s : State) (m : Msg) : LinesMove s (s.settled m) := .trans (.consume s m.id) (.rest rfl rfl rfl rfl)

/-! ## Lines that enter -/

theorem lineOf_none_ne {n : Nat} {ls : List Line} (h : lineOf n ls = none) {w : Line} (hw : w ∈ ls) : w.line ≠ n := by
  simpa using List.find?_eq_none.1 h w hw

theorem lineOf_filter_ne {l w : Line} (h : w.line ≠ l.line) (ls : List Line) :
    lineOf l.line ((toFront l ls).filter fun x => x.line != w.line) = some l := by
  simp [lineOf, toFront, h.symm]

/-- A line that enters a set is not the one that leaves it. -/
theorem lineOf_evict (sets : Nat) {ways : Nat} (hw : ways ≠ 0) (l : Line) (ls : List Line) : lineOf l.line (evict sets ways l.line (toFront l ls)).1 = some l := by
  unfold evict
  have head : (toFront l ls).filter (fun q => q.line % sets == l.line % sets) =
      l :: (ls.filter fun x => x.line != l.line).filter fun q => q.line % sets == l.line % sets := by simp [toFront]
  obtain ⟨n, rfl⟩ := Nat.exists_eq_succ_of_ne_zero hw
  rw [head]
  dsimp only [List.drop_succ_cons]
  split
  · exact lineOf_toFront l ls
  · next w rest hr =>
    have other : w ∈ (ls.filter fun x => x.line != l.line).filter fun q => q.line % sets == l.line % sets :=
      List.mem_of_mem_drop (hr ▸ List.mem_cons_self)
    exact lineOf_filter_ne (by simpa using (List.mem_filter.1 (List.mem_filter.1 other).1).2) ls

/-- A line that the L1D does not hold fills it, and nothing but the caches differs (R86). -/
theorem State.fillL1d_new {c : Nat} (h : lineOf l.line (s.core c).l1d = none) :
    ∃ ls, LinesMove (s.modCore c fun x => { x with l1d := ls }) (s.fillL1d c l) ∧ lineOf l.line ls = some l := by
  refine ⟨_, ?_, lineOf_evict l1dSets (ways := l1dWays) (by decide) l (s.core c).l1d⟩
  unfold State.fillL1d
  dsimp only
  rw [h]
  dsimp only
  split
  · exact (LinesMove.refl _).lineLeaves ..
  · exact .refl _

theorem LinesMove.fillSlice (h : LinesMove s t) (v : Nat) (l : Line) : LinesMove s (t.fillSlice v l) := by
  unfold State.fillSlice
  refine .ite h ?_
  split
  · exact h.setSite v rfl
  · dsimp only
    split
    · refine .lineLeaves (.setSite h v ?_) ..
      rfl
    · exact h.setSite v rfl

end Sys2Proof.Machine
end

section
/-! Fills: the line of a miss comes back (R86, R295, R436). -/

namespace Sys2Proof.Machine

open Sys2Proof Sys2Proof.Spec

variable {s t u : State} {n k c : Nat} {m : Msg} {x : Txn} {l : Line}

/-! ## A parked strand goes on -/

/-- A strand of a gang that does not stop is READY once it is woken (R125). -/
theorem State.strand_wake_ready (hs : (s.strand k).st = .parked) (hg : (s.gang (siteOfK k) (s.strand k).entry).halting = false) :
    (s.wake k).strand k = { s.strand k with st := .ready, why := none, cont := .reissue } := by
  simp [State.wake, hs, hg, State.strand_setStrand]

theorem Strand.gang_finish (x : Strand) (c : Cont) (d : List Byte) (full : Bool) :
    (x.finish c d full).st = x.st ∧ (x.finish c d full).entry = x.entry := by
  have written (x : Strand) (r : Nat) (w : Word) : (x.setReg r w).st = x.st ∧ (x.setReg r w).entry = x.entry := by
    unfold Strand.setReg
    split <;> exact ⟨rfl, rfl⟩
  unfold Strand.finish
  split <;> simp [Strand.step, written]

/-- The access of a strand that waits for a load or a store is performed: its strand goes on with what the continuation makes of the bytes. -/
theorem State.strandDone_finish {d : List Byte} {full : Bool} {b : Cont} (h : WaitsFor s k b)
    (hb : s.strandDone k d full = (s.modStrand k fun x => x.finish b d full).wake k) :
    (s.strandDone k d full).strand k = { (s.strand k).finish b d full with st := .ready, why := none, cont := .reissue } := by
  obtain ⟨hs, -, hg⟩ := h
  obtain ⟨st, entry⟩ := (s.strand k).gang_finish b d full
  have self : (s.modStrand k fun x => x.finish b d full).strand k = (s.strand k).finish b d full := by rw [State.strand_modStrand, if_pos rfl]
  rw [hb, State.strand_wake_ready (by rw [self, st, hs]) (by rw [self, entry]; exact hg), self]

theorem State.strandDone_load {d : List Byte} {full : Bool} {ty : LoadTy} {r a : Nat} (h : WaitsFor s k (.load ty r a)) :
    s.strandDone k d full = (s.modStrand k fun x => x.finish (.load ty r a) d full).wake k := by
  obtain ⟨hs, hc, -⟩ := h
  simp [State.strandDone, hs, hc]

theorem State.strandDone_done {d : List Byte} {full : Bool} {a : Nat} (h : WaitsFor s k (.done a)) :
    s.strandDone k d full = (s.modStrand k fun x => x.finish (.done a) d full).wake k := by
  obtain ⟨hs, hc, -⟩ := h
  simp [State.strandDone, hs, hc]

theorem waitsFor_of_linesMove {b : Cont} (h : WaitsFor s k b) (hm : LinesMove s t) : WaitsFor t k b := by
  obtain ⟨hs, hc, hg⟩ := h
  refine ⟨?_, ?_, ?_⟩
  · rw [hm.strand, hs]
  · rw [hm.strand, hc]
  · rw [hm.strand, hm.gang, hg]

/-- A wake changes strands alone. -/
theorem State.wake_rest (s : State) (k : Nat) : (s.wake k).mem = s.mem ∧ (s.wake k).cores = s.cores := by
  obtain h | ⟨x, h⟩ := s.wake_cases k <;> rw [h] <;> exact ⟨rfl, rfl⟩

/-- What is counted in replays touches no strand and no cache (R113). -/
theorem State.replayAnswered_keeps (s : State) (o : Owner) :
    (s.replayAnswered o).mem = s.mem ∧ (s.replayAnswered o).strands = s.strands ∧ ∀ c, ((s.replayAnswered o).core c).l1d = (s.core c).l1d := by
  unfold State.replayAnswered
  split
  · exact ⟨rfl, rfl, fun _ => rfl⟩
  · dsimp only
    split_ifs
    · refine ⟨rfl, rfl, fun c => ?_⟩
      rw [State.core_modCore]
      split_ifs with hc
      · rw [hc]
      · rfl
    · exact ⟨rfl, rfl, fun _ => rfl⟩

/-- The access of a strand that waits for it is performed: memory and the L1Ds stay, and the strand goes on. -/
theorem State.accDone_strand {a : Acc} {q : Msg} {d : Option (List Byte)} {full : Bool} {b : Cont} (ho : a.owner = .strand k) (h : WaitsFor s k b)
    (hb : s.strandDone k (d.getD []) full = (s.modStrand k fun x => x.finish b (d.getD []) full).wake k) :
    (s.accDone a q d full).mem = s.mem ∧ (∀ c, ((s.accDone a q d full).core c).l1d = (s.core c).l1d) ∧
      (s.accDone a q d full).strand k = { (s.strand k).finish b (d.getD []) full with st := .ready, why := none, cont := .reissue } := by
  obtain ⟨hm, hs, hl⟩ := (s.strandDone k (d.getD []) full).replayAnswered_keeps (.strand k)
  obtain ⟨wm, wc⟩ := (s.modStrand k fun x => x.finish b (d.getD []) full).wake_rest k
  have done : s.accDone a q d full = (s.strandDone k (d.getD []) full).replayAnswered (.strand k) := by
    simp only [State.accDone, State.answered, ho]
  rw [done]
  refine ⟨hm.trans ?_, fun c => (hl c).trans ?_, ?_⟩
  · rw [hb, wm]
    rfl
  · rw [hb, State.core, wc]
    rfl
  · rw [State.strand, hs]
    exact State.strandDone_finish h hb

/-! ## The fill of the L1D (R86) -/

theorem State.mendFilled_new (h : lineOf l.line (s.core c).l1d = none) : s.mendFilled c l = some (false, s) := by simp [State.mendFilled, h]

/-- The line as it fills the caches. -/
def Line.filled (l : Line) (m : Msg) : Line := { l with data := m.data, dirty := 0, flaw := 0 }

/-- A line that the L1D does not hold fills the caches, and nothing else differs but a write-back (R86). -/
theorem State.fillCaches_new (hx : x.stale = false) (h : lineOf l.line (s.core c).l1d = none) :
    ∃ ls, LinesMove (s.modCore c fun y => { y with l1d := ls }) (s.fillCaches c m x l) ∧ lineOf l.line ls = some (l.filled m) := by
  have slice : LinesMove s (if m.src = m.dst ∨ x.staleSlice then s else s.fillSlice m.dst { l.filled m with mark := false, unread := false }) :=
    .ite (.refl s) ((LinesMove.refl s).fillSlice ..)
  obtain ⟨ls, hm, hl⟩ := State.fillL1d_new (l := l.filled m) (c := c) (s := if m.src = m.dst ∨ x.staleSlice then s else s.fillSlice m.dst { l.filled m with mark := false, unread := false })
    (by rw [slice.core]; exact h)
  refine ⟨ls, ?_, hl⟩
  have both := slice.modCore_both c fun y => { y with l1d := ls }
  unfold State.fillCaches
  dsimp only
  rw [hx]
  exact both.trans hm

/-- The fill of a line of a miss: the line stands in the L1D; memory and the strand that waits for it stay. -/
theorem State.filled_new {b : Cont} (h : FillArrives s n m x l) (hw : WaitsFor s k b) :
    let t := (s.settled m).fillCaches (coreOfK x.acc.k) m x l
    t.mem = s.mem ∧ t.strand k = s.strand k ∧ WaitsFor t k b ∧ lineOf l.line (t.core (coreOfK x.acc.k)).l1d = some (l.filled m) := by
  obtain ⟨-, -, -, -, hstale, hl⟩ := h
  have settled := LinesMove.settled s m
  obtain ⟨ls, hm, hls⟩ := State.fillCaches_new (s := s.settled m) (c := coreOfK x.acc.k) (m := m) hstale (by rw [settled.core]; exact hl)
  have waits : WaitsFor ((s.settled m).modCore (coreOfK x.acc.k) fun y => { y with l1d := ls }) k b :=
    waitsFor_of_linesMove (t := s.settled m) hw settled
  refine ⟨hm.mem.trans settled.mem, (hm.strand k).trans (settled.strand k), waitsFor_of_linesMove waits hm, ?_⟩
  rw [hm.core, State.core_modCore, if_pos rfl, hls]

theorem exec_l1dFill (h : FillArrives s n m x l) (ho : x.acc.owner = .strand k) :
    exec (.l1dFill n) s = .next (((s.settled m).fillCaches (coreOfK x.acc.k) m x l).accOnLine (coreOfK x.acc.k) m x l) := by
  obtain ⟨ha, hop, hx, hf, -, hl⟩ := h
  have hr : s.replied n (· == .data) = some (m, x) := State.replied_some ha hx (by rw [hop]; rfl)
  have hi : exec (.l1dFill n) s = due "L1D_FILL" (s.l1dFill n) := by rfl
  rw [hi, State.l1dFill, hr]
  simp only [hf, ho, State.mendFilled_new hl]
  rfl

section

variable (h : FillArrives s n m x l) (ho : x.acc.owner = .strand k)
include h ho

/-- The load that missed takes its bytes from the line that has come (R86, R293). -/
theorem l1dFill_load {ty : LoadTy} {d : BitVec 8} {a : Nat} (hop : x.acc.op = .read) (hw : WaitsFor s k (.load ty d.toNat a)) :
    ∃ t w, exec (.l1dFill n) s = .next t ∧ t.mem = s.mem ∧ lineOf l.line (t.core (coreOfK x.acc.k)).l1d = some w ∧ w.data = m.data ∧ w.dirty = 0 ∧
      w.mark = l.mark ∧ t.strand k = { put (s.strand k) d (extended ty ((m.data.drop (x.acc.addr.toNat % 128)).take x.acc.size)) with
        pc := (s.strand k).pc + BitVec.ofNat 60 a, st := .ready, why := none, cont := .reissue } := by
  obtain ⟨fmem, fstrand, waits, line⟩ := State.filled_new h hw
  have hi := exec_l1dFill h ho
  rw [State.accOnLine, line] at hi
  simp only [hop] at hi
  obtain ⟨mem, l1d, strand⟩ := State.accDone_strand (q := x.req) (d := some ((l.filled m).read (x.acc.addr.toNat % 128) x.acc.size)) (full := false) ho waits
    (State.strandDone_load waits)
  refine ⟨_, l.filled m, hi, mem.trans fmem, by rw [l1d, line], rfl, rfl, rfl, strand.trans ?_⟩
  rw [fstrand, Strand.finish, Strand.step_setReg, LoadTy.value_eq]
  rfl

/-- The store that missed writes its bytes into the line that has come, which gets the write mark (R86, R295). -/
theorem l1dFill_store {a : Nat} (hop : x.acc.op = .write) (hw : WaitsFor s k (.done a)) :
    ∃ t w, exec (.l1dFill n) s = .next t ∧ t.mem = s.mem ∧ GoesOn s t k a ∧ lineOf l.line (t.core (coreOfK x.acc.k)).l1d = some w ∧ w.mark = true ∧
      w.data = (Line.write { l with data := m.data, dirty := 0 } (x.acc.addr.toNat % 128) x.acc.en x.acc.data).data := by
  obtain ⟨fmem, fstrand, waits, line⟩ := State.filled_new h hw
  have hi := exec_l1dFill h ho
  rw [State.accOnLine, line] at hi
  simp only [hop] at hi
  generalize (s.settled m).fillCaches (coreOfK x.acc.k) m x l = u at *
  obtain ⟨mem, l1d, strand⟩ := State.accDone_strand (q := x.req) (d := none) (full := false) (k := k) (b := .done a) (s := u.modCore
    (coreOfK x.acc.k) fun y => { y with l1d := toFront { (l.filled m).write (x.acc.addr.toNat % 128) x.acc.en x.acc.data with mark := true } y.l1d })
    ho waits (State.strandDone_done waits)
  refine ⟨_, { (l.filled m).write (x.acc.addr.toNat % 128) x.acc.en x.acc.data with mark := true }, hi, mem.trans fmem, strand.trans ?_, ?_, rfl, rfl⟩
  · rw [State.strand_modCore, fstrand]
    rfl
  · rw [l1d, State.core_modCore, if_pos rfl]
    exact lineOf_toFront { (l.filled m).write (x.acc.addr.toNat % 128) x.acc.en x.acc.data with mark := true } _

end

/-! ## The fill of the instruction cache (R436) -/

theorem Core.mem_fillIcache (y : Core) (l : Line) : ∃ q ∈ (y.fillIcache l).icache, q.line = l.line ∧ q.data = l.data :=
  ⟨_, List.mem_cons_self, rfl, rfl⟩

theorem exec_icacheFill {line : Nat} (ha : s.arriving n = some m) (hop : m.op = .data) (hx : s.txn m.txn = some x) (hf : x.fill = none)
    (ho : x.acc.owner = .fetch k line) : exec (.icacheFill n) s = .next ((s.settled m).fetched k line x m.data) := by
  have hr : s.replied n (· == .data) = some (m, x) := State.replied_some ha hx (by rw [hop]; rfl)
  have hi : exec (.icacheFill n) s = due "ICACHE_FILL" (s.icacheFill n) := by rfl
  rw [hi, State.icacheFill, hr]
  simp only [hf, ho]
  rfl

/-- A line that was fetched enters the instruction cache, and the strand that waits for it goes on (R95, R436). -/
theorem State.fetched_goesOn {line : Nat} {d : List Byte} (hx : x.stale = false) (hs : (s.strand k).st = .parked) (hw : (s.strand k).why = some .fetch)
    (hg : (s.gang (siteOfK k) (s.strand k).entry).halting = false) :
    GoesOn s (s.fetched k line x d) k 0 ∧ (s.fetched k line x d).mem = s.mem ∧
      ∃ q ∈ ((s.fetched k line x d).core (coreOfK k)).icache, q.line = line ∧ q.data = d := by
  have fetched : s.fetched k line x d = (s.modCore (coreOfK k) fun y => y.fillIcache { line, data := d }).wake k := by
    unfold State.fetched
    dsimp only
    rw [hx, if_neg (c := false = true) Bool.false_ne_true]
    exact if_pos ⟨hs, hw⟩
  obtain ⟨wm, wc⟩ := (s.modCore (coreOfK k) fun y => y.fillIcache { line, data := d }).wake_rest k
  rw [fetched]
  refine ⟨?_, wm, ?_⟩
  · rw [GoesOn, State.strand_wake_ready (by exact hs) (by exact hg), State.strand_modCore]
    simp
  · rw [State.core, wc, ← State.core, State.core_modCore, if_pos rfl]
    exact Core.mem_fillIcache _ { line, data := d }

theorem icacheFill_goesOn {line : Nat} (ha : s.arriving n = some m) (hop : m.op = .data) (hx : s.txn m.txn = some x) (hf : x.fill = none)
    (hstale : x.stale = false) (ho : x.acc.owner = .fetch k line) (hs : (s.strand k).st = .parked) (hw : (s.strand k).why = some .fetch)
    (hg : (s.gang (siteOfK k) (s.strand k).entry).halting = false) :
    ∃ t, exec (.icacheFill n) s = .next t ∧ GoesOn s t k 0 ∧ t.mem = s.mem ∧ ∃ q ∈ (t.core (coreOfK k)).icache, q.line = line ∧ q.data = m.data := by
  have settled := LinesMove.settled s m
  have strand := settled.strand k
  obtain ⟨on, mem, line⟩ := State.fetched_goesOn (s := s.settled m) (k := k) (line := line) (d := m.data) hstale (by rw [strand, hs]) (by rw [strand, hw])
    (by rw [strand, settled.gang, hg])
  exact ⟨_, exec_icacheFill ha hop hx hf ho, by rwa [GoesOn, strand] at on, mem.trans settled.mem, line⟩

end Sys2Proof.Machine
end

section
/-! Prefetches and the scrubber (R91-R93, R303, R430). -/

namespace Sys2Proof.Machine

open Sys2Proof Sys2Proof.Spec

variable {s : State} {c : Nat} {a : Addr}

/-! ## Prefetches (R92, R93, R303) -/

theorem State.checkAccess_modCore (s : State) (c : Nat) (f : Core → Core) (k : Nat) (g : Seg) (off size need align : Nat) :
    (s.modCore c f).checkAccess k g off size need align = s.checkAccess k g off size need align := rfl

theorem State.streamAdmits_modCore (s : State) (c : Nat) (f : Core → Core) (k : Nat) (g : Seg) (a : Nat) :
    (s.modCore c f).streamAdmits k g a = s.streamAdmits k g a := rfl

/-- The access that asks for the line of an address ahead of its use. -/
def prefetchOf (k : Nat) (a : Addr) : Acc :=
  { addr := BitVec.ofNat 60 (a.toNat / 128 * 128), op := .read, size := 128, k, owner := .prefetch (coreOfK k) (a.toNat / 128) }

/-- A line that the L1D does not hold is asked for at the memory port. -/
theorem State.prefetch_missing (k : Nat) (h : lineOf (a.toNat / 128) (s.core (coreOfK k)).l1d = none) :
    s.prefetch k a = s.toPort (siteOfK k) (prefetchOf k a) := by
  simp only [State.prefetch, h]
  rfl

/-- The first state of `pref` past its registers and its permit. -/
def State.prefSent (s : State) (x : BitVec 8) (g : BitVec 3) (o : BitVec 5) : State :=
  let u := s.takePermit (coreOfK s.cur) .memory
  match s.checkAccess s.cur (s.me.seg g.toNat) (mOff x o 128 s) 1 rR 1 with
  | .ok a => if kindBits a.toNat = 0 then u.prefetch s.cur a else u.count (coreOfK s.cur) 0x009 1
  | .error _ => u.count (coreOfK s.cur) 0x009 1

theorem exec_pref {x : BitVec 8} {g : BitVec 3} {o : BitVec 5} (hr : Ready s [x]) (hp : s.hasPermit (coreOfK s.cur) .memory = true) :
    exec (.pref x g o) s = .next ((s.prefSent x g o).pass 4) := by
  have hi : exec (.pref x g o) s = execPref x g o s := by rfl
  rw [hi, execPref, State.issue_one hr, State.withPermit_yes _ hp]
  rfl

theorem pref_fetches {x : BitVec 8} {g : BitVec 3} {o : BitVec 5} (hr : Ready s [x]) (hp : s.hasPermit (coreOfK s.cur) .memory = true)
    (ha : s.checkAccess s.cur (s.me.seg g.toNat) (mOff x o 128 s) 1 rR 1 = .ok a) (hk : kindBits a.toNat = 0)
    (hl : lineOf (a.toNat / 128) (s.core (coreOfK s.cur)).l1d = none) :
    ∃ t p, exec (.pref x g o) s = .next t ∧ Passes s t 4 ∧ t.mem = s.mem ∧
      (t.site (siteOfK s.cur)).port = (s.site (siteOfK s.cur)).port ++ [p] ∧ p.missed = false ∧ p.acc.op = .read ∧
      p.acc.addr = BitVec.ofNat 60 (a.toNat / 128 * 128) ∧ p.acc.owner = .prefetch (coreOfK s.cur) (a.toNat / 128) := by
  have missing : lineOf (a.toNat / 128) ((s.takePermit (coreOfK s.cur) .memory).core (coreOfK s.cur)).l1d = none := by rw [State.l1d_takePermit, hl]
  have sent : s.prefSent x g o = (s.takePermit (coreOfK s.cur) .memory).toPort (siteOfK s.cur) (prefetchOf s.cur a) := by
    rw [State.prefSent, ha]
    dsimp only
    rw [if_pos hk, State.prefetch_missing _ missing]
  refine ⟨_, { id := s.nextId, acc := prefetchOf s.cur a }, exec_pref hr hp, passes_pass 4 (by rw [sent]; rfl), by rw [sent]; rfl, ?_, rfl, rfl, rfl, rfl⟩
  rw [sent, State.pass, State.site_modStrand, State.port_toPort, if_pos rfl]
  rfl

theorem pref_drops {x : BitVec 8} {g : BitVec 3} {o : BitVec 5} {e : Code × Option Addr} (hr : Ready s [x]) (hp : s.hasPermit (coreOfK s.cur) .memory = true)
    (ha : s.checkAccess s.cur (s.me.seg g.toNat) (mOff x o 128 s) 1 rR 1 = .error e) :
    ∃ t, exec (.pref x g o) s = .next t ∧ Passes s t 4 ∧ t.mem = s.mem ∧ t.sites = s.sites := by
  have sent : s.prefSent x g o = (s.takePermit (coreOfK s.cur) .memory).count (coreOfK s.cur) 0x009 1 := by
    rw [State.prefSent, ha]
  exact ⟨_, exec_pref hr hp, passes_pass 4 (by rw [sent]; rfl), by rw [sent]; rfl, by rw [sent]; rfl⟩

theorem coreOfK_slotKey (c : Nat) {slot : Nat} (h : slot < 16) : coreOfK (slotKey c slot) = c := by
  unfold coreOfK slotKey
  omega

section

variable {slot n : Nat} {q : Stream}

/-- A stream of a core that asks one line further ahead (R92). -/
def State.streamAhead (s : State) (c slot ahead : Nat) : State :=
  s.modCore c fun x => { x with streams := x.streams.map fun q => if q.slot = slot then { q with ahead } else q }

variable (hq : (s.core c).streams.find? (fun q => q.slot == slot) = some q) (hits : 3 ≤ q.hits) (hah : q.ahead < 4)
  (hn : (n : Int) = q.last + (q.ahead + 1 : Nat) * q.stride) (hb : n < 2 ^ 50)
include hq hits hah hn hb

theorem exec_stridePrefetch : exec (.stridePrefetch c slot (q.ahead + 1)) s = .next
    (if s.streamAdmits (slotKey c slot) ((s.strand (slotKey c slot)).seg q.seg) (n * 128) then
      (s.streamAhead c slot (q.ahead + 1)).prefetch (slotKey c slot) (BitVec.ofNat 60 (n * 128))
    else (s.streamAhead c slot (q.ahead + 1)).count c 0x009 1) := by
  have hi : exec (.stridePrefetch c slot (q.ahead + 1)) s = due "STRIDE_PREFETCH" (s.stridePrefetch c slot (q.ahead + 1)) := by rfl
  have due : 3 ≤ q.hits ∧ q.ahead + 1 = q.ahead + 1 ∧ q.ahead + 1 ≤ 4 ∧ (0 : Int) ≤ n ∧ (n : Int) < 2 ^ 50 := ⟨hits, rfl, hah, by omega, by exact_mod_cast hb⟩
  rw [hi, State.stridePrefetch, hq]
  dsimp only
  rw [← hn, if_pos due]
  rfl

theorem stridePrefetch_fetches (hs : slot < 16) (hl : lineOf n (s.core c).l1d = none)
    (ha : s.streamAdmits (slotKey c slot) ((s.strand (slotKey c slot)).seg q.seg) (n * 128) = true) :
    ∃ t p, exec (.stridePrefetch c slot (q.ahead + 1)) s = .next t ∧ t.mem = s.mem ∧ t.strands = s.strands ∧
      (t.site (siteOfC c)).port = (s.site (siteOfC c)).port ++ [p] ∧ p.acc.op = .read ∧ p.acc.addr = BitVec.ofNat 60 (n * 128) := by
  have hi := exec_stridePrefetch hq hits hah hn hb
  have line : (BitVec.ofNat 60 (n * 128)).toNat / 128 = n := by
    rw [BitVec.toNat_ofNat, Nat.mod_eq_of_lt (by omega), Nat.mul_div_cancel n (by decide)]
  have missing : lineOf ((BitVec.ofNat 60 (n * 128)).toNat / 128) ((s.streamAhead c slot (q.ahead + 1)).core (coreOfK (slotKey c slot))).l1d = none := by
    rw [line, coreOfK_slotKey c hs, State.streamAhead, State.core_modCore, if_pos rfl]
    exact hl
  have site : siteOfK (slotKey c slot) = siteOfC c := by
    unfold siteOfK siteOfC slotKey
    omega
  rw [if_pos ha, State.prefetch_missing _ missing, site] at hi
  refine ⟨_, { id := s.nextId, acc := prefetchOf (slotKey c slot) (BitVec.ofNat 60 (n * 128)) }, hi, rfl, rfl, ?_, rfl, ?_⟩
  · rw [State.port_toPort, if_pos rfl]
    rfl
  · rw [prefetchOf, line]

theorem stridePrefetch_drops (ha : s.streamAdmits (slotKey c slot) ((s.strand (slotKey c slot)).seg q.seg) (n * 128) = false) :
    ∃ t, exec (.stridePrefetch c slot (q.ahead + 1)) s = .next t ∧ t.mem = s.mem ∧ t.strands = s.strands ∧ t.sites = s.sites := by
  have hi := exec_stridePrefetch hq hits hah hn hb
  rw [ha] at hi
  exact ⟨_, hi, rfl, rfl, rfl⟩

end

/-! ## The scrubber (R91, R430) -/

theorem unitGranules_store {v u g : Nat} (h : g < unitGranules v u) : ¬(kindOf v = .pavilion ∧ 5 ≤ u) := by
  rintro ⟨hv, hu⟩
  rw [unitGranules, hv, if_neg (by omega), if_neg (by omega)] at h
  exact absurd h (Nat.not_lt_zero g)

/-- A granule without a recorded error is scrubbed: the event is raised, and an error that lasts stays recorded. -/
theorem scrubPass_raises {v u g : Nat} {lasting bad : Bool} (hv : siteKey v = true) (hg : g < unitGranules v u) (hh : s.holdFull v 14 = false)
    (hf : Tab.find (homeKey v u 0 / 16 + g) s.flaws = none) :
    ∃ t, exec (.scrubPass v u g lasting bad) s = .next t ∧ t.mem = s.mem ∧ t.holdFull v 14 = true ∧
      Tab.find (homeKey v u 0 / 16 + g) t.flaws = if lasting then some (if bad then 3 else 1) else none := by
  have hi : exec (.scrubPass v u g lasting bad) s = due "SCRUB_PASS" (s.scrub v u g lasting bad) := by rfl
  rw [State.scrub, hv, hh, if_neg (by simp), if_neg (unitGranules_store hg), if_neg (Nat.not_le.2 hg)] at hi
  dsimp only at hi
  rw [hf] at hi
  refine ⟨_, hi, rfl, State.holdFull_raise .., ?_⟩
  cases lasting <;> cases bad <;> simp [Tab.find_del]

/-- Settles O43: each clause by the rule of its step. -/
theorem cachesFill : Obligations.CachesFill := by
  refine ⟨fun x g o s hr hp => ⟨fun a ha hk hl => pref_fetches hr hp ha hk hl, fun e he => pref_drops hr hp he⟩,
    fun s c slot n q hq hits hah hs hn hb hl => ⟨stridePrefetch_fetches hq hits hah hn hb hs hl, stridePrefetch_drops hq hits hah hn hb⟩,
    fun s n k m x l h ho => ⟨fun ty d a hop hw => l1dFill_load h ho hop hw, fun a hop hw => l1dFill_store h ho hop hw⟩,
    fun s n k line m x ha hop hx hf hstale ho hs hw hg => icacheFill_goesOn ha hop hx hf hstale ho hs hw hg,
    fun s v u g lasting bad hv hg hh hf => scrubPass_raises hv hg hh hf⟩

end Sys2Proof.Machine
end

section
/-! The memory port: misses, rights and placed homes (R82-R84, R137). -/

namespace Sys2Proof.Machine

open Sys2Proof Sys2Proof.Spec

variable {s t : State} {v n c k : Nat} {p : PortReq} {e : TlbEntry}

/-! ## The port -/

theorem portReq_id {x : Site} (h : x.portReq n = some p) : p.id = n := by simpa using List.find?_some h

theorem portReq_mem {x : Site} (h : x.portReq n = some p) : p ∈ x.port := List.mem_of_find?_eq_some h

theorem State.portReq_dropPort (s : State) (v n : Nat) : ((s.dropPort v n).site v).portReq n = none := by
  rw [State.dropPort, State.site_modSite, if_pos rfl]
  exact List.find?_eq_none.2 fun q hq => by simpa using (List.mem_filter.1 hq).2

/-- The destination of a message depends on what its site knows of the others. -/
theorem State.resolve_congr (hl : (t.site v).listed = (s.site v).listed) (hs : (t.site v).self = (s.site v).self) (hn : (t.site v).ns = (s.site v).ns)
    (hm : (t.site v).smap = (s.site v).smap) (x y off : Nat) : t.resolve v x y off = s.resolve v x y off := by
  have kind (x y : Nat) : t.kindAt v x y = s.kindAt v x y := by
    unfold State.kindAt
    rw [hl]
  have virt : t.virt v = s.virt v := by
    unfold State.virt
    rw [hs]
  have place : t.physical v x y = s.physical v x y := by
    unfold State.physical
    rw [kind, hm]
  unfold State.resolve
  rw [kind, virt, hn, place]

/-- A reply formed in the pavilion tells the owner the code, and is a refusal of the access. -/
theorem refused_localReply (s : State) (v : Nat) (a : Acc) (code : Nat) (d : List Byte) (l : Option Line) : Refused (s.localReply v a (.error code) d l) a code :=
  ⟨_, List.mem_append_right _ (List.mem_singleton_self _), rfl, _, List.mem_append_right _ (List.mem_singleton_self _), rfl, rfl⟩

theorem State.sites_request (s : State) (v key : Nat) (a : Acc) (r : Route) (fill : Option Line) (len : Nat) : (s.request v key a r fill len).sites = s.sites := rfl

/-! ## An access that the port takes up -/

/-- What the port does with an access whose page the TLB holds, once its granule and its lines wait for nothing. -/
def State.portEntry (s : State) (v n : Nat) (a : Acc) (e : TlbEntry) : Option State :=
  let u := s.dropPort v n
  let go (s : State) : State := (s.orEntry v e a.op.writes).translated v a { e with dirty := e.dirty || a.op.writes }
  if (a.op.writes && !bitOn e.pte.toNat 57) || (!a.op.writes && !bitOn e.pte.toNat 58) then some (u.localReply v a (.error Code.pageProtection.num) [] none)
  else if a.op.isFe && decide (pteClass e.pte < 2) then some (u.localReply v a (.error Code.feHome.num) [] none)
  else if decide (a.op = .monArm) && decide (pteClass e.pte = 0) then some (u.localReply v a (.error Code.feHome.num) [] none)
  else match s.readOver e.leaf.1 0 (if e.marked a.op.writes then [] else [homeKey e.leaf.1 0 e.leaf.2 / 16]) 0 with
    | .clean => some (go u)
    | .mended t _ => some (go (t.dropPort v n))
    | .lost t => some ((t.dropPort v n).localReply v a (.error Code.uncorrectable.num) [] none)
    | .stalls => none

section

variable (hp : AtPort s v n p)
include hp

theorem portTranslate_miss (h : tlbFind (s.site v).tlb (p.acc.addr.toNat % 2 ^ 57) = none) : s.portTranslate v n = s.sendMiss v p := by
  obtain ⟨hr, hm, hf, hc⟩ := hp
  have free : ¬(p.missed ∨ (p.acc.cacheable ∧ (s.portStalled v (coreOfK p.acc.k) (p.acc.addr.toNat / 128) ∨ s.lineMoves v (p.acc.addr.toNat / 128)))) := by
    rw [hm]
    rintro (h | ⟨hc1, hc2⟩)
    · exact Bool.false_ne_true h
    · simp [hc hc1] at hc2
  rw [State.portTranslate, hr]
  dsimp only
  rw [if_neg free, h, hf]
  rfl

theorem portTranslate_entry (h : tlbFind (s.site v).tlb (p.acc.addr.toNat % 2 ^ 57) = some e) (hg : pteClass e.pte ≠ 0 → s.granuleWaits v p.acc = false)
    (hb : pteClass e.pte = 0 → p.acc.cacheable = false → p.acc.isEngine = false → s.bypassWaits v (coreOfK p.acc.k) p.acc = false) :
    s.portTranslate v n = s.portEntry v n p.acc e := by
  obtain ⟨hr, hm, hf, hc⟩ := hp
  have free : ¬(p.missed ∨ (p.acc.cacheable ∧ (s.portStalled v (coreOfK p.acc.k) (p.acc.addr.toNat / 128) ∨ s.lineMoves v (p.acc.addr.toNat / 128)))) := by
    rw [hm]
    rintro (h | ⟨hc1, hc2⟩)
    · exact Bool.false_ne_true h
    · simp [hc hc1] at hc2
  have ordered : ¬(pteClass e.pte ≠ 0 ∧ s.granuleWaits v p.acc) := fun ⟨h0, h1⟩ => by simp [hg h0] at h1
  have clear : ¬(pteClass e.pte = 0 ∧ !p.acc.cacheable ∧ !p.acc.isEngine ∧ s.bypassWaits v (coreOfK p.acc.k) p.acc) := fun ⟨h0, h1, h2, h3⟩ => by
    simp [hb h0 (by simpa using h1) (by simpa using h2)] at h3
  rw [State.portTranslate, hr]
  dsimp only
  rw [if_neg free, h]
  dsimp only
  rw [hf, Bool.false_and, if_neg Bool.false_ne_true, if_neg ordered, if_neg clear]
  rfl

end

/-! ## The miss (R137) -/

/-- The message of a miss for the walk strand. -/
def missOf (s : State) (v : Nat) (p : PortReq) : Miss :=
  { va := p.acc.addr.toNat % 2 ^ 57, slot := slotOf p.acc.k, kind := p.acc.kind, port := p.id, epoch := (s.site v).tlbEpoch }

theorem State.rouse_rest (s : State) (k : Nat) (r : Park) : (s.rouse k r).mem = s.mem ∧ (s.rouse k r).cores = s.cores := by
  unfold State.rouse
  split
  · exact s.wake_rest k
  · exact ⟨rfl, rfl⟩

theorem slotOf_walk (c : Nat) : slotOf (slotKey c walkSlot) = 13 := by
  unfold slotOf slotKey walkSlot
  omega

/-- A strand of a slot beyond a gang's is READY once it is woken. -/
theorem State.st_wake_walk (hs : (s.strand k).st = .parked) (hk : slotOf k = 13) :
    (s.wake k).strand k = { s.strand k with st := .ready, why := none, cont := .reissue } := by
  simp [State.wake, hs, hk, State.strand_setStrand]

/-- A first miss of a core with an empty mailbox enters it and wakes the walk strand (R137). -/
theorem State.sendMiss_first (hm : (s.core (coreOfK p.acc.k)).misses = []) (hq : ∀ q ∈ (s.site v).port, q.queued = false) :
    ∃ t, s.sendMiss v p = some t ∧ t.mem = s.mem ∧ (t.core (coreOfK p.acc.k)).misses = [missOf s v p] ∧
      ((s.strand (slotKey (coreOfK p.acc.k) 13)).st = .parked → (s.strand (slotKey (coreOfK p.acc.k) 13)).why = some .missIdle →
        (t.strand (slotKey (coreOfK p.acc.k) 13)).st = .ready) := by
  have before : ((s.site v).port.takeWhile fun q => q.id != p.id).any (fun q => q.queued && coreOfK q.acc.k == coreOfK p.acc.k) = false :=
    List.any_eq_false.2 fun q hmem => by simp [hq q ((List.takeWhile_sublist _).subset hmem)]
  unfold State.sendMiss
  dsimp only
  rw [hm, before, List.any_nil, if_neg Bool.false_ne_true, if_neg (by simp)]
  refine ⟨_, rfl, ?_, ?_, fun hs hw => ?_⟩
  · exact (State.rouse_rest ..).1
  · rw [State.core, (State.rouse_rest ..).2, ← State.core, State.count, State.core_modCore, if_pos rfl]
    change (State.core _ _).misses = _
    rw [State.core_modSite, State.core_setCore, if_pos rfl]
    rfl
  · rw [State.rouse, if_pos (by exact ⟨hs, hw⟩)]
    exact congrArg Strand.st (State.st_wake_walk (by exact hs) (slotOf_walk _))

theorem memoryPortTranslate_miss (hp : AtPort s v n p) (h : tlbFind (s.site v).tlb (p.acc.addr.toNat % 2 ^ 57) = none)
    (hm : (s.core (coreOfK p.acc.k)).misses = []) (hq : ∀ q ∈ (s.site v).port, q.queued = false) :
    ∃ t m, exec (.memoryPortTranslate v n) s = .next t ∧ t.mem = s.mem ∧ (t.core (coreOfK p.acc.k)).misses = [m] ∧ m.va = p.acc.addr.toNat % 2 ^ 57 ∧
      m.slot = slotOf p.acc.k ∧ m.kind = p.acc.kind ∧ m.port = n ∧ m.epoch = (s.site v).tlbEpoch ∧
      ((s.strand (slotKey (coreOfK p.acc.k) 13)).st = .parked → (s.strand (slotKey (coreOfK p.acc.k) 13)).why = some .missIdle →
        (t.strand (slotKey (coreOfK p.acc.k) 13)).st = .ready) := by
  obtain ⟨t, ht, mem, misses, walk⟩ := State.sendMiss_first hm hq
  have hi : exec (.memoryPortTranslate v n) s = due "MEMORY_PORT_TRANSLATE" (s.portTranslate v n) := by rfl
  rw [portTranslate_miss hp h, ht] at hi
  obtain ⟨hr, -⟩ := hp
  exact ⟨t, missOf s v p, hi, mem, misses, rfl, rfl, rfl, portReq_id hr, rfl, walk⟩

/-! ## An access whose page the TLB holds (R82, R83, R84) -/

/-- The request for a translated access at the home of a placed page. -/
def placedRoute (a : Acc) (e : TlbEntry) (d : Nat) (x : Option Mesh) : Route :=
  { dst := d, unit := if pteClass e.pte < 2 then 0 else if pteClass e.pte = 2 then 4 else bits e.pte.toNat 38 37,
    off := pteFrame e.pte + a.addr.toNat % 2 ^ pageBits e.size, mesh := x }

theorem portEntry_placed {d : Nat} {x : Option Mesh} (hr : (if p.acc.op.writes then e.pte.getLsbD 57 else e.pte.getLsbD 58) = true) (hc : 2 ≤ pteClass e.pte)
    (ha : e.pte.getLsbD 56 = true) (hd : p.acc.op.writes = true → e.dirty = true)
    (hx : s.resolve v (pteX e.pte) (pteY e.pte) (pteFrame e.pte + p.acc.addr.toNat % 2 ^ pageBits e.size) = some (d, x)) :
    let u := (s.dropPort v n).modSite v fun t => { t with tlb := tlbPut t.tlb e }
    s.portEntry v n p.acc e = some (u.request v (u.accKey p.acc) p.acc (placedRoute p.acc e d x) none p.acc.size) := by
  intro u
  have allowed : ¬((p.acc.op.writes && !bitOn e.pte.toNat 57) || (!p.acc.op.writes && !bitOn e.pte.toNat 58)) = true := by
    rw [bitOn_eq_getLsbD, bitOn_eq_getLsbD]
    cases hw : p.acc.op.writes <;> simpa [hw] using hr
  have marked : e.marked p.acc.op.writes = true := by
    rw [TlbEntry.marked, bitOn_eq_getLsbD, ha]
    cases hw : p.acc.op.writes
    · rfl
    · exact hd hw
  have fe : ¬(p.acc.op.isFe && decide (pteClass e.pte < 2)) = true := by simp [Nat.not_lt.2 hc]
  have arm : ¬(decide (p.acc.op = .monArm) && decide (pteClass e.pte = 0)) = true := by
    simp [show pteClass e.pte ≠ 0 by omega]
  have entry : (s.dropPort v n).orEntry v e p.acc.op.writes = u := by rw [State.orEntry, if_pos marked]
  have same : u.resolve v (pteX e.pte) (pteY e.pte) (pteFrame e.pte + p.acc.addr.toNat % 2 ^ pageBits e.size) = some (d, x) := by
    rw [← hx]
    refine State.resolve_congr ?_ ?_ ?_ ?_ .. <;> simp [u, State.dropPort]
  rw [State.portEntry]
  dsimp only
  rw [if_neg allowed, if_neg fe, if_neg arm, marked, entry]
  change some (u.translated v p.acc _) = _
  rw [State.translated]
  dsimp only
  rw [if_neg (by omega), if_neg (by omega), same]
  rfl

section

variable (hp : AtPort s v n p) (h : tlbFind (s.site v).tlb (p.acc.addr.toNat % 2 ^ 57) = some e)
  (hg : pteClass e.pte ≠ 0 → s.granuleWaits v p.acc = false)
  (hb : pteClass e.pte = 0 → p.acc.cacheable = false → p.acc.isEngine = false → s.bypassWaits v (coreOfK p.acc.k) p.acc = false)
include hp h hg hb

theorem memoryPortTranslate_refused (hr : (if p.acc.op.writes then e.pte.getLsbD 57 else e.pte.getLsbD 58) = false) :
    ∃ t, exec (.memoryPortTranslate v n) s = .next t ∧ t.mem = s.mem ∧ Refused t p.acc 0x0C := by
  have denied : ((p.acc.op.writes && !bitOn e.pte.toNat 57) || (!p.acc.op.writes && !bitOn e.pte.toNat 58)) = true := by
    rw [bitOn_eq_getLsbD, bitOn_eq_getLsbD]
    cases hw : p.acc.op.writes <;> simpa [hw] using hr
  have hi : exec (.memoryPortTranslate v n) s = due "MEMORY_PORT_TRANSLATE" (s.portTranslate v n) := by rfl
  rw [portTranslate_entry hp h hg hb, State.portEntry, if_pos denied] at hi
  exact ⟨_, hi, rfl, refused_localReply ..⟩

theorem memoryPortTranslate_placed {d : Nat} {x : Option Mesh} (hr : (if p.acc.op.writes then e.pte.getLsbD 57 else e.pte.getLsbD 58) = true)
    (hc : 2 ≤ pteClass e.pte) (ha : e.pte.getLsbD 56 = true) (hd : p.acc.op.writes = true → e.dirty = true)
    (hx : s.resolve v (pteX e.pte) (pteY e.pte) (pteFrame e.pte + p.acc.addr.toNat % 2 ^ pageBits e.size) = some (d, x)) :
    ∃ t, exec (.memoryPortTranslate v n) s = .next t ∧ t.mem = s.mem ∧ (t.site v).portReq n = none ∧
      ∃ q ∈ t.net, q.op = .req p.acc.op ∧ q.src = v ∧ q.dst = d ∧ q.off = pteFrame e.pte + p.acc.addr.toNat % 2 ^ pageBits e.size ∧
        q.unit = (if pteClass e.pte = 2 then 4 else (e.pte.extractLsb' 37 2).toNat) ∧ q.len = p.acc.size ∧ q.data = p.acc.data ∧ q.en = p.acc.en := by
  have hi : exec (.memoryPortTranslate v n) s = due "MEMORY_PORT_TRANSLATE" (s.portTranslate v n) := by rfl
  rw [portTranslate_entry hp h hg hb, portEntry_placed hr hc ha hd hx] at hi
  refine ⟨_, hi, rfl, ?_, _, List.mem_append_right _ (List.mem_singleton_self _), rfl, rfl, rfl, rfl, ?_, rfl, rfl, rfl⟩
  · rw [State.site, State.sites_request, ← State.site, State.site_modSite, if_pos rfl]
    exact s.portReq_dropPort v n
  · change (if pteClass e.pte < 2 then 0 else if pteClass e.pte = 2 then 4 else bits e.pte.toNat 38 37) = _
    rw [if_neg (by omega), show (e.pte.extractLsb' 37 2).toNat = bits e.pte.toNat 38 37 from toNat_extractLsb'_eq_bits e.pte 37 1]

end

end Sys2Proof.Machine
end

section
/-! The ends of a miss (R138, R139, R141, R199). -/

namespace Sys2Proof.Machine

open Sys2Proof Sys2Proof.Spec

variable {s t u : State} {k j v n : Nat} {w : Word} {m : Miss} {ms : List Miss} {p : PortReq}

/-! ## What the end of a miss leaves of the walk strand -/

/-- A step towards the end of a miss of core c: memory stays, the miss at the head of the mailbox is gone, and strand k is as before. -/
structure MissEnds (s t : State) (k : Nat) (ms : List Miss) : Prop where
  mem : t.mem = s.mem
  misses : (t.core (coreOfK k)).misses = ms
  strand : t.strand k = s.strand k

theorem MissEnds.popMiss (h : (s.core (coreOfK k)).misses = m :: ms) : MissEnds s (s.popMiss (coreOfK k)) k ms := by
  refine ⟨rfl, ?_, rfl⟩
  rw [State.popMiss, State.core_modCore, if_pos rfl, h]
  rfl

theorem MissEnds.rest (h : MissEnds s t k ms) (hm : u.mem = t.mem) (hc : u.cores = t.cores) (hk : u.strands = t.strands) : MissEnds s u k ms := by
  obtain ⟨mem, misses, strand⟩ := h
  exact ⟨hm.trans mem, by rwa [State.core, hc], by rwa [State.strand, hk]⟩

/-- The walk strand goes on past its `setc` (R138). -/
theorem MissEnds.completed (h : MissEnds s t k ms) (hk : slotOf k = 13) (hs : (s.strand k).st = .parked) :
    GoesOn s (t.completed k 8) k 8 ∧ ((t.completed k 8).core (coreOfK k)).misses = ms ∧ (t.completed k 8).mem = s.mem := by
  obtain ⟨mem, misses, strand⟩ := h
  have parked : (t.strand k).st = .parked := by rw [strand, hs]
  have advanced : (t.advance k 8).strand k = { t.strand k with pc := (t.strand k).pc + BitVec.ofNat 60 8 } := by
    rw [State.advance, State.strand_modStrand, if_pos rfl]
  refine ⟨?_, ?_, ?_⟩
  · rw [GoesOn, State.completed, if_pos parked, State.st_wake_walk (by rw [advanced]; exact parked) hk, advanced, strand]
  · rw [State.core, State.completed_keeps (·.cores) (fun _ _ _ => rfl)]
    exact misses
  · rw [State.completed_keeps (·.mem) (fun _ _ _ => rfl), mem]

theorem missDone_written (h : MissWritten s k w m ms) {o : Nat} (ho : w.toNat % 4 = o) : s.missDone k o = some w := by
  obtain ⟨-, hs, hc, hm⟩ := h
  simp [State.missDone, State.pendingSetc, hs, hc, ho, hm]

/-! ## An installed leaf (R138, R199) -/

theorem mem_tlbPut (l : List TlbEntry) (e : TlbEntry) : e ∈ tlbPut l e := by
  unfold tlbPut
  dsimp only
  split <;> exact List.mem_cons_self

/-- The accesses that share a miss may be tried again. -/
def State.retried (s : State) (v n : Nat) : State :=
  s.modSite v fun t => { t with port := t.port.map fun (q : PortReq) => if ((t.sharers n).map (·.id)).contains q.id then { q with missed := false } else q }

/-- The entry that a leaf makes of a miss. -/
def missEntry (s : State) (c : Nat) (m : Miss) : TlbEntry :=
  { size := pteSize (s.core c).missPte, vpn := m.va / 2 ^ pageBits (pteSize (s.core c).missPte), pte := (s.core c).missPte,
    pteAddr := (s.core c).missPteAddr, dirty := bitOn (s.core c).missPte.toNat 55 }

/-- The code that answers an access whose leaf is malformed (R199, R290). -/
def leafCode (leaf : Word) (a : Acc) : Code :=
  if bitOn leaf.toNat 63 && !bitOn leaf.toNat (if a.op.writes then 57 else 58) then .pageProtection else .pageFormat

/-- An access in the port is answered with a code. -/
def State.refusePort (v : Nat) (f : Acc → Nat) (s : State) (p : PortReq) : State := (s.dropPort v p.id).localReply v p.acc (.error (f p.acc)) [] none

section

variable {c : Nat} (hm : (s.core c).misses = m :: ms)
include hm

theorem missInstall_good (he : (s.site (siteOfC c)).tlbEpoch = m.epoch) (hp : s.pteMalformed (siteOfC c) (s.core c).missPte = false) :
    s.missInstall c = ((s.popMiss c).modSite (siteOfC c) fun t => { t with tlb := tlbPut t.tlb (missEntry s c m) }).retried (siteOfC c) m.port := by
  have form : (s.popMiss c).pteMalformed (siteOfC c) (s.core c).missPte = false := hp
  rw [State.missInstall, hm]
  dsimp only
  rw [if_neg (by rw [not_not]; exact he), form, if_neg Bool.false_ne_true]
  rfl

theorem missInstall_bad (he : (s.site (siteOfC c)).tlbEpoch = m.epoch) (hp : s.pteMalformed (siteOfC c) (s.core c).missPte = true) :
    s.missInstall c = each ((s.site (siteOfC c)).sharers m.port) (State.refusePort (siteOfC c) fun a => (leafCode (s.core c).missPte a).num) (s.popMiss c) := by
  have form : (s.popMiss c).pteMalformed (siteOfC c) (s.core c).missPte = true := hp
  rw [State.missInstall, hm]
  dsimp only
  rw [if_neg (by rw [not_not]; exact he), form, if_pos rfl]
  rfl

end

theorem site_popMiss (s : State) (c v : Nat) : (s.popMiss c).site v = s.site v := rfl

/-- The access that names a miss shares it. -/
theorem sharers_head {x : Site} (h : x.portReq n = some p) : ∃ l, x.sharers n = p :: l := by
  rw [Site.sharers, h]
  exact ⟨_, rfl⟩

theorem State.port_retried (s : State) (v n : Nat) : ∀ q ∈ ((s.retried v n).site v).port, q.id = n → q.missed = false := by
  rw [State.retried, State.site_modSite, if_pos rfl]
  intro q hq hn
  obtain ⟨r, hr, rfl⟩ := List.mem_map.1 hq
  have id : r.id = n := by
    split_ifs at hn with h
    · exact hn
    · exact hn
  obtain ⟨p, hp⟩ := Option.isSome_iff_exists.1 (List.find?_isSome.2 ⟨r, hr, by simpa using id⟩ : ((s.site v).port.find? fun p => p.id == n).isSome)
  obtain ⟨l, hl⟩ := sharers_head (x := s.site v) hp
  have shares : (((s.site v).sharers n).map (·.id)).contains r.id = true := by
    rw [hl, id, List.map_cons, portReq_id (x := s.site v) hp]
    simp
  rw [if_pos shares]

/-! ## Refusals (R138, R199) -/

theorem Refused.mono {a : Acc} {code : Nat} (h : Refused s a code) (hn : ∀ q ∈ s.net, q ∈ t.net) (ht : ∀ y ∈ s.txns, y ∈ t.txns) : Refused t a code := by
  obtain ⟨q, hq, hop, y, hy, hid, ha⟩ := h
  exact ⟨q, hn q hq, hop, y, ht y hy, hid, ha⟩

/-- The accesses of a miss are answered with codes: memory, cores and strands stay, and each is refused. -/
theorem each_refusePort (f : Acc → Nat) (v : Nat) (l : List PortReq) (s : State) :
    (each l (State.refusePort v f) s).mem = s.mem ∧ (each l (State.refusePort v f) s).cores = s.cores ∧
      (each l (State.refusePort v f) s).strands = s.strands ∧ ∀ p ∈ l, Refused (each l (State.refusePort v f) s) p.acc (f p.acc) := by
  obtain ⟨mem, cores, strands⟩ := each_invariant (P := fun t => t.mem = s.mem ∧ t.cores = s.cores ∧ t.strands = s.strands)
    (f := State.refusePort v f) (fun _ _ h => h) l ⟨rfl, rfl, rfl⟩
  refine ⟨mem, cores, strands, fun p hp => ?_⟩
  exact each_reaches (f := State.refusePort v f) (P := fun _ => True) (Q := fun s => Refused s p.acc (f p.acc)) (fun _ _ _ => trivial)
    (fun _ _ h => Refused.mono h (fun _ hq => List.mem_append_left _ hq) fun _ hy => List.mem_append_left _ hy)
    (fun _ _ => refused_localReply ..) hp trivial

/-- A completion keeps what has been refused. -/
theorem Refused.completed {a : Acc} {code : Nat} (h : Refused s a code) (k n : Nat) : Refused (s.completed k n) a code :=
  Refused.mono h (fun _ hq => by rwa [State.completed_keeps (·.net) (fun _ _ _ => rfl)]) fun _ hy => by rwa [State.completed_keeps (·.txns) (fun _ _ _ => rfl)]

/-! ## The outcomes -/

section

variable (h : MissWritten s k w m ms)
include h

theorem missDoneInstall_good (ho : w.toNat % 4 = 0) (he : (s.site (siteOfC (coreOfK k))).tlbEpoch = m.epoch)
    (hp : s.pteMalformed (siteOfC (coreOfK k)) (s.core (coreOfK k)).missPte = false) :
    ∃ t, exec (.missDoneInstall k) s = .next t ∧ GoesOn s t k 8 ∧ (t.core (coreOfK k)).misses = ms ∧ t.mem = s.mem ∧
      (∃ e ∈ (t.site (siteOfC (coreOfK k))).tlb, e.pte = (s.core (coreOfK k)).missPte ∧ e.size = pteSize (s.core (coreOfK k)).missPte ∧
        e.vpn = m.va / 2 ^ pageBits (pteSize (s.core (coreOfK k)).missPte)) ∧
      ∀ q ∈ (t.site (siteOfC (coreOfK k))).port, q.id = m.port → q.missed = false := by
  have hi : exec (.missDoneInstall k) s = due "MISS_DONE_INSTALL" ((s.missDone k 0).map fun _ => (s.missInstall (coreOfK k)).completed k 8) := by rfl
  rw [missDone_written h ho] at hi
  obtain ⟨hk, hs, -, hm⟩ := h
  obtain ⟨on, misses, mem⟩ := ((MissEnds.popMiss hm).rest (u := s.missInstall (coreOfK k)) (by rw [missInstall_good hm he hp]; rfl)
    (by rw [missInstall_good hm he hp]; rfl) (by rw [missInstall_good hm he hp]; rfl)).completed hk hs
  refine ⟨_, hi, on, misses, mem, ⟨missEntry s (coreOfK k) m, ?_, rfl, rfl, rfl⟩, ?_⟩
  · rw [State.site, State.completed_keeps (·.sites) (fun _ _ _ => rfl), ← State.site, missInstall_good hm he hp, State.retried, State.site_modSite, if_pos rfl]
    change _ ∈ (State.site _ _).tlb
    rw [State.site_modSite, if_pos rfl]
    exact mem_tlbPut ..
  · rw [State.site, State.completed_keeps (·.sites) (fun _ _ _ => rfl), ← State.site, missInstall_good hm he hp]
    exact State.port_retried _ _ _

theorem missDoneInstall_bad (ho : w.toNat % 4 = 0) (he : (s.site (siteOfC (coreOfK k))).tlbEpoch = m.epoch)
    (hp : s.pteMalformed (siteOfC (coreOfK k)) (s.core (coreOfK k)).missPte = true) (hq : (s.site (siteOfC (coreOfK k))).portReq m.port = some p) :
    ∃ t, exec (.missDoneInstall k) s = .next t ∧ GoesOn s t k 8 ∧ (t.core (coreOfK k)).misses = ms ∧ t.mem = s.mem ∧
      Refused t p.acc (if (s.core (coreOfK k)).missPte.getLsbD 63 = true ∧
        (s.core (coreOfK k)).missPte.getLsbD (if p.acc.op.writes then 57 else 58) = false then 0x0C else 0x0D) := by
  have hi : exec (.missDoneInstall k) s = due "MISS_DONE_INSTALL" ((s.missDone k 0).map fun _ => (s.missInstall (coreOfK k)).completed k 8) := by rfl
  rw [missDone_written h ho] at hi
  obtain ⟨hk, hs, -, hm⟩ := h
  obtain ⟨l, hl⟩ := sharers_head hq
  obtain ⟨rmem, rcores, rstrands, refused⟩ := each_refusePort (fun a => (leafCode (s.core (coreOfK k)).missPte a).num) (siteOfC (coreOfK k))
    ((s.site (siteOfC (coreOfK k))).sharers m.port) (s.popMiss (coreOfK k))
  obtain ⟨on, misses, mem⟩ := ((MissEnds.popMiss hm).rest (u := s.missInstall (coreOfK k)) (by rw [missInstall_bad hm he hp]; exact rmem)
    (by rw [missInstall_bad hm he hp]; exact rcores) (by rw [missInstall_bad hm he hp]; exact rstrands)).completed hk hs
  refine ⟨_, hi, on, misses, mem, ?_⟩
  have code : (leafCode (s.core (coreOfK k)).missPte p.acc).num = if (s.core (coreOfK k)).missPte.getLsbD 63 = true ∧
      (s.core (coreOfK k)).missPte.getLsbD (if p.acc.op.writes then 57 else 58) = false then 0x0C else 0x0D := by
    rw [leafCode, bitOn_eq_getLsbD, bitOn_eq_getLsbD]
    cases (s.core (coreOfK k)).missPte.getLsbD 63 <;> cases (s.core (coreOfK k)).missPte.getLsbD (if p.acc.op.writes then 57 else 58) <;> rfl
  rw [← code]
  refine Refused.completed ?_ ..
  rw [missInstall_bad hm he hp]
  exact refused p (hl ▸ List.mem_cons_self)

theorem missDoneFault_refuses (ho : w.toNat % 4 = 2) (hq : (s.site (siteOfC (coreOfK k))).portReq m.port = some p) :
    ∃ t, exec (.missDoneFault k) s = .next t ∧ GoesOn s t k 8 ∧ (t.core (coreOfK k)).misses = ms ∧ t.mem = s.mem ∧
      Refused t p.acc (w.extractLsb' 16 16).toNat := by
  have hi : exec (.missDoneFault k) s = due "MISS_DONE_FAULT" ((s.missDone k 2).map fun w => (s.missFault (coreOfK k) (bits w.toNat 31 16)).completed k 8) := by rfl
  rw [missDone_written h ho] at hi
  obtain ⟨hk, hs, -, hm⟩ := h
  obtain ⟨l, hl⟩ := sharers_head hq
  obtain ⟨rmem, rcores, rstrands, refused⟩ := each_refusePort (fun _ => bits w.toNat 31 16) (siteOfC (coreOfK k))
    ((s.site (siteOfC (coreOfK k))).sharers m.port) (s.popMiss (coreOfK k))
  have fault : s.missFault (coreOfK k) (bits w.toNat 31 16) = each ((s.site (siteOfC (coreOfK k))).sharers m.port)
      (State.refusePort (siteOfC (coreOfK k)) fun _ => bits w.toNat 31 16) (s.popMiss (coreOfK k)) := by
    rw [State.missFault, hm]
    rfl
  obtain ⟨on, misses, mem⟩ := ((MissEnds.popMiss hm).rest (u := s.missFault (coreOfK k) (bits w.toNat 31 16)) (by rw [fault]; exact rmem)
    (by rw [fault]; exact rcores) (by rw [fault]; exact rstrands)).completed hk hs
  refine ⟨_, hi, on, misses, mem, ?_⟩
  rw [show (w.extractLsb' 16 16).toNat = bits w.toNat 31 16 from toNat_extractLsb'_eq_bits w 16 15]
  refine Refused.completed ?_ ..
  rw [fault]
  exact refused p (hl ▸ List.mem_cons_self)

theorem missDoneIgnored_passes (ho : w.toNat % 4 = 3) :
    ∃ t, exec (.missDoneIgnored k) s = .next t ∧ GoesOn s t k 8 ∧ t.mem = s.mem ∧ t.sites = s.sites ∧ t.cores = s.cores := by
  obtain ⟨hk, hs, hc, hm⟩ := h
  have hi : exec (.missDoneIgnored k) s = .next (s.completed k 8) := by
    change due "MISS_DONE_IGNORED" _ = _
    simp [State.pendingSetc, hs, hc, hm, ho, due]
  obtain ⟨on, -, mem⟩ := MissEnds.completed (s := s) (t := s) ⟨rfl, hm, rfl⟩ hk hs
  exact ⟨_, hi, on, mem, State.completed_keeps (·.sites) (fun _ _ _ => rfl) .., State.completed_keeps (·.cores) (fun _ _ _ => rfl) ..⟩

end

end Sys2Proof.Machine
end

section
/-! A page that is not present: the record of the fault and the strand that waits for the page (R139, R141). -/

namespace Sys2Proof.Machine

open Sys2Proof Sys2Proof.Spec

variable {s t u : State} {k j v n : Nat} {w : Word} {m : Miss} {ms : List Miss} {p : PortReq}

/-! ## What the releases of gangs leave -/

/-- What the end of a gang's release leaves as it was: strands and fault queues. -/
structure FaultsStay (s t : State) : Prop where
  strands : t.strands = s.strands
  fq : ∀ v, (t.site v).fq = (s.site v).fq
  fqTail : ∀ v, (t.site v).fqTail = (s.site v).fqTail

theorem FaultsStay.refl (s : State) : FaultsStay s s := ⟨rfl, fun _ => rfl, fun _ => rfl⟩

theorem FaultsStay.trans (h : FaultsStay s t) (g : FaultsStay t u) : FaultsStay s u :=
  ⟨g.strands.trans h.strands, fun v => (g.fq v).trans (h.fq v), fun v => (g.fqTail v).trans (h.fqTail v)⟩

theorem FaultsStay.ite {q : Prop} [Decidable q] (h : FaultsStay s t) (g : FaultsStay s u) : FaultsStay s (if q then t else u) := by
  split
  · exact h
  · exact g

theorem FaultsStay.rest (h : FaultsStay s t) (hk : u.strands = t.strands) (hv : u.sites = t.sites) : FaultsStay s u :=
  h.trans ⟨hk, fun v => by rw [State.site, hv, State.site], fun v => by rw [State.site, hv, State.site]⟩

theorem FaultsStay.modSite (h : FaultsStay s t) (v : Nat) {f : Site → Site} (hq : ∀ x, (f x).fq = x.fq) (ht : ∀ x, (f x).fqTail = x.fqTail) :
    FaultsStay s (t.modSite v f) := by
  refine h.trans ⟨rfl, fun w => ?_, fun w => ?_⟩ <;> rw [State.site_modSite] <;> split_ifs with hw
  · rw [hq, hw]
  · rfl
  · rw [ht, hw]
  · rfl

theorem FaultsStay.modGate (h : FaultsStay s t) (v : Nat) (f : Gate → Gate) : FaultsStay s (t.modGate v f) := h.modSite v (fun _ => rfl) fun _ => rfl

theorem FaultsStay.setSite (h : FaultsStay s t) (v : Nat) {x : Site} (hq : x.fq = (t.site v).fq) (ht : x.fqTail = (t.site v).fqTail) :
    FaultsStay s (t.setSite v x) := by
  refine h.trans ⟨rfl, fun w => ?_, fun w => ?_⟩ <;> rw [State.site_setSite] <;> split_ifs with hw
  · rw [hq, hw]
  · rfl
  · rw [ht, hw]
  · rfl

theorem FaultsStay.raise (h : FaultsStay s t) (v u sev code : Nat) (o : Option Nat) (a : Addr) : FaultsStay s (t.raise v u sev code o a) := h.setSite v rfl rfl

theorem FaultsStay.gangSaved (h : FaultsStay s t) (g : Gang) : FaultsStay s (t.gangSaved g) :=
  each_invariant (P := FaultsStay s) (fun _ _ h => h.modGate _ _) _ h

theorem FaultsStay.completionAdd (h : FaultsStay s t) (v : Nat) (g : Gang) : FaultsStay s (t.completionAdd v g) := by
  unfold State.completionAdd
  extract_lets mark
  have marked : FaultsStay s (mark t) := h.modGate ..
  clear_value mark
  refine .ite (h.modGate ..) ?_
  split
  · exact (h.raise ..).modGate ..
  · exact marked.rest rfl rfl

theorem FaultsStay.finishRelease (h : FaultsStay s t) (v : Nat) (r : Release) : FaultsStay s (t.finishRelease v r) := by
  have erased := h.modSite v (f := fun x => { x with releases := x.releases.erase r }) (fun _ => rfl) fun _ => rfl
  unfold State.finishRelease
  dsimp only
  refine .ite h ?_
  split
  · exact .ite h ((erased.gangSaved _).completionAdd ..)
  · exact erased.gangSaved _
  · exact .ite h ((erased.raise ..).modGate ..)

theorem FaultsStay.releasesDone (s : State) (v : Nat) : FaultsStay s (s.releasesDone v) :=
  each_invariant (P := FaultsStay s) (fun _ r h => h.finishRelease v r) _ (.refl s)

/-! ## The record (R141) -/

/-- The record of a page fault for the queue of a pavilion. -/
def Site.record (x : Site) (va : Nat) (w1 : Word) : FaultRec := { w0 := BitVec.ofNat 64 va, w1, w2 := BitVec.ofNat 64 x.fqTail, w3 := x.time }

/-- A pavilion with a record appended to its fault queue. -/
def Site.recorded (x : Site) (va : Nat) (w1 : Word) : Site :=
  { x with fq := Tab.put (x.fqTail % 256) (x.record va w1) x.fq, fqTail := (x.fqTail + 1) % 2 ^ 32 }

/-- A record is appended to the fault queue of a pavilion, and nothing else of the state differs but a notice. -/
theorem State.fqAppend_effect (s : State) (v va : Nat) (w1 : Word) :
    (s.fqAppend v va w1).mem = s.mem ∧ (s.fqAppend v va w1).cores = s.cores ∧ (s.fqAppend v va w1).strands = s.strands ∧
      (s.fqAppend v va w1).sites = (s.setSite v ((s.site v).recorded va w1)).sites := by
  unfold State.fqAppend
  dsimp only
  split
  · split <;> exact ⟨rfl, rfl, rfl, rfl⟩
  · exact ⟨rfl, rfl, rfl, rfl⟩

/-- A strand whose fault registers name a page fault. -/
def Strand.noted (x : Strand) (w1 : Word) (va : Nat) (pc : Addr) : Strand :=
  { x with faultCode := w1 &&& 0x3FFFFFFF#64, faultAddr := BitVec.ofNat 60 va, faultPc := pc }

/-- The record of a page fault for a strand's own access: it enters the queue, and the fault registers of the strand name it. -/
theorem State.pageRecord_strand {a : Acc} (ho : a.owner = .strand j) (hk : a.k = j) (s : State) (v : Nat) :
    ∃ w1, s.pageRecord v a none = (((s.fqAppend v (a.addr.toNat % 2 ^ 57) w1).count (coreOfK j) 0x00D 1).modStrand j
      fun x => x.noted w1 (a.addr.toNat % 2 ^ 57) a.pc).count (coreOfK j) 0x018 1 := by
  refine ⟨faultWord (s.number a.k) none a.kind Code.pageFault.num, ?_⟩
  have named : s.namedAddr a = a.addr := by simp [State.namedAddr, ho]
  have alive (u : State) : ¬(u.triggered a.owner ∨ !u.strandLives a) := by simp [State.triggered, State.strandLives, ho, Owner.gone]
  rw [State.pageRecord, if_neg (alive _), named, hk]
  rfl

/-- What a page fault of a strand's own access leaves in the fault queue, in memory and of the strands (R139, R141). -/
structure PageFaulted (s t : State) (v j : Nat) (a : Acc) : Prop where
  mem : t.mem = s.mem
  misses : ∀ c, (t.core c).misses = (s.core c).misses
  others : ∀ i, i ≠ j → t.strand i = s.strand i
  parked : (t.strand j).st = .parked ∧ (t.strand j).why = some .pageFault ∧ (t.strand j).cont = .reissue ∧ (t.strand j).pc = (s.strand j).pc ∧ (t.strand j).faultPc = a.pc
  site : ∃ w1, t.sites = (s.setSite v ((s.site v).recorded (a.addr.toNat % 2 ^ 57) w1)).sites

/-- A strand that waits for its page, to issue its instruction again (R139). -/
def State.awaitPage (s : State) (j : Nat) : State := (s.repark j .pageFault).modStrand j fun x => { x with cont := .reissue }

theorem State.awaitPage_parked (h : (s.strand j).st = .parked) :
    (s.awaitPage j).mem = s.mem ∧ (s.awaitPage j).sites = s.sites ∧ (∀ c, ((s.awaitPage j).core c).misses = (s.core c).misses) ∧
      ∀ i, (s.awaitPage j).strand i = if i = j then { s.strand j with why := some .pageFault, cont := .reissue } else s.strand i := by
  rw [State.awaitPage, State.repark, if_pos h]
  refine ⟨rfl, rfl, fun c => State.core_count_keeps Core.misses (fun _ _ _ => rfl) .., fun i => ?_⟩
  by_cases hi : i = j <;> simp [State.strand_modStrand, hi]

/-- The strand whose page is not present parks with reason page-fault, to issue its instruction again. -/
theorem pageFaulted {a : Acc} (ho : a.owner = .strand j) (hk : a.k = j) (hs : (s.strand j).st = .parked)
    (hg : (s.gang (siteOfK j) (s.strand j).entry).expired = false) : PageFaulted s (((s.pageRecord v a none).awaitPage j).testHalt j) v j a := by
  obtain ⟨w1, hr⟩ := State.pageRecord_strand ho hk s v
  obtain ⟨mem, cores, strands, sites⟩ := s.fqAppend_effect v (a.addr.toNat % 2 ^ 57) w1
  have strand (i : Nat) : (s.pageRecord v a none).strand i = if i = j then (s.strand j).noted w1 (a.addr.toNat % 2 ^ 57) a.pc else s.strand i := by
    rw [hr, State.strand_count, State.strand_modStrand, State.strand_count, State.strand_count]
    simp only [State.strand, strands]
  have misses (c : Nat) : ((s.pageRecord v a none).core c).misses = (s.core c).misses := by
    rw [hr, State.core_count_keeps Core.misses (fun _ _ _ => rfl), State.core_modStrand, State.core_count_keeps Core.misses (fun _ _ _ => rfl), State.core, cores, State.core]
  have queue : (s.pageRecord v a none).sites = (s.setSite v ((s.site v).recorded (a.addr.toNat % 2 ^ 57) w1)).sites := by rw [hr]; exact sites
  have gang (e : Nat) : (s.pageRecord v a none).gang (siteOfK j) e = s.gang (siteOfK j) e := by
    rw [State.gang, State.site, queue, ← State.site, State.site_setSite, State.gang]
    split_ifs with hv
    · rw [hv, Site.recorded]
    · rfl
  have same : (s.pageRecord v a none).mem = s.mem := by rw [hr]; exact mem
  have own := (strand j).trans (if_pos rfl)
  obtain ⟨amem, asites, amisses, astrand⟩ := State.awaitPage_parked (s := s.pageRecord v a none) (j := j) (by rw [own]; exact hs)
  have stays : ((s.pageRecord v a none).awaitPage j).testHalt j = (s.pageRecord v a none).awaitPage j := by
    have after (e : Nat) : ((s.pageRecord v a none).awaitPage j).gang (siteOfK j) e = s.gang (siteOfK j) e := by
      rw [State.gang, State.site, asites, ← State.site, ← State.gang, gang]
    refine if_neg fun ⟨_, h⟩ => Bool.false_ne_true ?_
    rw [after, astrand, if_pos rfl, own] at h
    exact hg.symm.trans h
  rw [stays]
  refine ⟨amem.trans same, fun c => (amisses c).trans (misses c), fun i hi => ?_, ?_, w1, asites.trans queue⟩
  · rw [astrand, if_neg hi, strand, if_neg hi]
  · rw [astrand, if_pos rfl, own]
    exact ⟨hs, rfl, rfl, rfl, rfl⟩

/-! ## The outcome -/

theorem missAbsent_parks (hm : (s.core (coreOfK k)).misses = m :: ms) (hq : (s.site (siteOfC (coreOfK k))).portReq m.port = some p) (ho : p.acc.owner = .strand j)
    (hk : p.acc.k = j) (h13 : m.kind ≠ 0x13) (hr : replayable m.kind = false) (hf : (s.site (siteOfC (coreOfK k))).fqFull = false) :
    s.missAbsent (coreOfK k) = some (((((s.popMiss (coreOfK k)).dropPort (siteOfC (coreOfK k)) m.port).pageRecord (siteOfC (coreOfK k)) p.acc none).awaitPage j).testHalt j) := by
  rw [State.missAbsent, hm]
  dsimp only
  rw [hq]
  dsimp only
  rw [if_neg h13, if_neg (by rw [ho]; exact Owner.noConfusion), hf, if_neg Bool.false_ne_true, hr, if_neg Bool.false_ne_true, ho, hk]
  rfl

theorem missDoneNotPresent_parks (h : MissWritten s k w m ms) (hw : w.toNat % 4 = 1) (hq : (s.site (siteOfC (coreOfK k))).portReq m.port = some p)
    (ho : p.acc.owner = .strand j) (hk : p.acc.k = j) (hjk : j ≠ k) (h13 : m.kind ≠ 0x13) (hr : replayable m.kind = false)
    (hf : (s.site (siteOfC (coreOfK k))).fqFull = false) (hs : (s.strand j).st = .parked) (hg : (s.gang (siteOfK j) (s.strand j).entry).expired = false) :
    ∃ t, exec (.missDoneNotPresent k) s = .next t ∧ GoesOn s t k 8 ∧ (t.core (coreOfK k)).misses = ms ∧ t.mem = s.mem ∧
      (t.strand j).st = .parked ∧ (t.strand j).why = some .pageFault ∧ (t.strand j).cont = .reissue ∧ (t.strand j).pc = (s.strand j).pc ∧
      (t.strand j).faultPc = p.acc.pc ∧ (t.site (siteOfC (coreOfK k))).fqTail = ((s.site (siteOfC (coreOfK k))).fqTail + 1) % 2 ^ 32 ∧
      ∃ r, Tab.find ((s.site (siteOfC (coreOfK k))).fqTail % 256) (t.site (siteOfC (coreOfK k))).fq = some r ∧ r.w0 = BitVec.ofNat 64 (p.acc.addr.toNat % 2 ^ 57) := by
  have hi : exec (.missDoneNotPresent k) s = due "MISS_DONE_NOT_PRESENT" ((s.missDone k 1).map fun _ =>
    match s.missAbsent (coreOfK k) with
    | some t => (t.completed k 8).releasesDone (siteOfK k)
    | none => s.awaitRecord k) := by rfl
  obtain ⟨hk13, hsk, -, hm⟩ := id h
  rw [missDone_written h hw, missAbsent_parks hm hq ho hk h13 hr hf] at hi
  have gang : ((s.popMiss (coreOfK k)).dropPort (siteOfC (coreOfK k)) m.port).gang (siteOfK j) (s.strand j).entry = s.gang (siteOfK j) (s.strand j).entry := by
    rw [State.gang, State.dropPort, State.site_modSite, State.gang]
    split_ifs with hv
    · rw [hv]
      rfl
    · rfl
  obtain ⟨mem, misses, others, parked, w1, sites⟩ := pageFaulted (v := siteOfC (coreOfK k)) (s := (s.popMiss (coreOfK k)).dropPort (siteOfC (coreOfK k)) m.port) ho hk hs
    (by rw [← hg, ← gang]; rfl)
  generalize ((((s.popMiss (coreOfK k)).dropPort (siteOfC (coreOfK k)) m.port).pageRecord (siteOfC (coreOfK k)) p.acc none).awaitPage j).testHalt j = t at *
  have popped := MissEnds.popMiss hm
  obtain ⟨on, left, same⟩ := MissEnds.completed (s := s) (t := t) (k := k) (ms := ms) ⟨mem, (misses _).trans popped.misses, others k hjk.symm⟩ hk13 hsk
  have settled := Settled.releasesDone (t.completed k 8) (siteOfK k)
  obtain ⟨rstrands, rfq, rtail⟩ := FaultsStay.releasesDone (t.completed k 8) (siteOfK k)
  have strandJ : ((t.completed k 8).releasesDone (siteOfK k)).strand j = t.strand j := by
    rw [State.strand, rstrands, ← State.strand]
    exact (Touches.completed ..).strand j hjk
  have recorded : (t.completed k 8).site (siteOfC (coreOfK k)) =
      (((s.popMiss (coreOfK k)).dropPort (siteOfC (coreOfK k)) m.port).site (siteOfC (coreOfK k))).recorded (p.acc.addr.toNat % 2 ^ 57) w1 := by
    rw [State.site, State.completed_keeps (·.sites) (fun _ _ _ => rfl), sites, ← State.site, State.site_setSite, if_pos rfl]
  have dropped : ((s.popMiss (coreOfK k)).dropPort (siteOfC (coreOfK k)) m.port).site (siteOfC (coreOfK k)) =
      { s.site (siteOfC (coreOfK k)) with port := (s.site (siteOfC (coreOfK k))).port.filter fun p => p.id != m.port } := by
    rw [State.dropPort, State.site_modSite, if_pos rfl, site_popMiss]
  obtain ⟨pst, pwhy, pcont, ppc, pfault⟩ := parked
  refine ⟨_, hi, ?_, ?_, settled.mem.trans same, ?_, ?_, ?_, ?_, ?_, ?_, ?_⟩
  · rw [GoesOn, settled.strand k (by rw [on]; exact SlotState.noConfusion), on]
  · rw [settled.core, left]
  · rw [strandJ, pst]
  · rw [strandJ, pwhy]
  · rw [strandJ, pcont]
  · rw [strandJ, ppc]
    rfl
  · rw [strandJ, pfault]
  · rw [rtail, recorded, dropped, Site.recorded]
  · rw [rfq, recorded, dropped, Site.recorded]
    exact ⟨_, Tab.find_put_self .., rfl⟩

/-- Settles O44: the port's answers to an access, and the four outcomes of a miss. -/
theorem misses : Obligations.Misses := by
  refine ⟨fun s v n p hp => ⟨memoryPortTranslate_miss hp, fun e h hg hb => ⟨memoryPortTranslate_refused hp h hg hb,
    fun d x hr hc ha hd hx => memoryPortTranslate_placed hp h hg hb hr hc ha hd hx⟩⟩, fun s k w m rest h => ⟨?_, ?_, ?_, ?_, ?_⟩⟩
  · exact missDoneInstall_good h
  · exact fun p ho he hp hq => missDoneInstall_bad h ho he hp hq
  · exact fun p ho hq => missDoneFault_refuses h ho hq
  · exact fun p j hw hq ho hk hjk h13 hr hf hs hg => missDoneNotPresent_parks h hw hq ho hk hjk h13 hr hf hs hg
  · exact missDoneIgnored_passes h

end Sys2Proof.Machine
end

section
/-! The gatehouse and host memory: posted writes, reads, AtomicOps and the link (R119-R121, R302, R420). -/

namespace Sys2Proof.Machine

open Sys2Proof Sys2Proof.Spec

variable {s t : State} {g n w : Nat} {m : Msg}

/-! ## Fences that are tested (R106, R132, R162) -/

section Keeps

variable {β : Type} (g : State → β) (hk : ∀ (s : State) k x, g (s.setStrand k x) = g s) (hc : ∀ (s : State) c x, g (s.setCore c x) = g s)
  (hn : ∀ (s : State) n i x, g { s with net := n, nextId := i, txns := x } = g s)

include hn in
theorem State.sendAgain_keeps (s : State) (m : Msg) : g (s.sendAgain m) = g s := by
  have posted (s : State) (m : Msg) : g (s.post m) = g s := s.post_keeps g (fun s n i => hn s n i s.txns) m
  unfold State.sendAgain State.sendOut
  dsimp only
  split_ifs
  · exact posted ..
  · exact posted ..
  · rfl
  · exact posted ..

include hk hc in
theorem State.endFe_keeps (s : State) (k : Nat) : g (s.endFe k) = g s := (State.wake_keeps g hk ..).trans (hc ..)

include hk hc hn in
theorem State.withdrawFe_keeps (s : State) (k : Nat) : g (s.withdrawFe k) = g s := by
  unfold State.withdrawFe
  split
  · rfl
  · next x _ =>
    split_ifs
    · rfl
    · exact (State.endFe_keeps g hk hc ..).trans (hn s s.net s.nextId _)
    · exact (State.sendAgain_keeps g hn ..).trans (hn s s.net _ _)

variable (hw : ∀ (s : State) v (f : Site → List Waiter), g (s.modSite v fun x => { x with waiters := f x }) = g s)
include hk hc hn hw

theorem State.deadlineStrand_keeps (s : State) (k : Nat) : g (s.deadlineStrand k) = g s := by
  unfold State.deadlineStrand
  dsimp only
  split
  · split_ifs
    · exact State.withdrawFe_keeps g hk hc hn ..
    · exact hk ..
    · exact (hk ..).trans (hw s _ fun x => x.waiters.filter fun r => r.k != k)
    · exact hk ..
    · rfl
  · rfl

theorem State.testFence_keeps (s : State) (k : Nat) : g (s.testFence k) = g s := by
  have halted : g (s.testHalt k) = g s := by
    unfold State.testHalt
    split_ifs
    · exact State.deadlineStrand_keeps g hk hc hn hw ..
    · rfl
  unfold State.testFence
  split
  · split_ifs
    · exact State.completed_keeps g hk ..
    · exact halted
  · rfl

end Keeps

theorem State.testFence_mem (s : State) (k : Nat) : (s.testFence k).mem = s.mem :=
  s.testFence_keeps State.mem (fun _ _ _ => rfl) (fun _ _ _ => rfl) (fun _ _ _ _ => rfl) (fun _ _ _ => rfl) k

theorem State.gate_modGate (s : State) (v : Nat) (f : Gate → Gate) : (s.modGate v f).gate v = f (s.gate v) := by
  rw [State.modGate, State.gate, State.site_modSite, if_pos rfl]; rfl

theorem State.testFence_gate (s : State) (k v : Nat) : (s.testFence k).gate v = s.gate v := by
  refine s.testFence_keeps (·.gate v) (fun _ _ _ => rfl) (fun _ _ _ => rfl) (fun _ _ _ _ => rfl) (fun s u f => ?_) k
  rw [State.gate, State.site_modSite]
  split_ifs with h
  · rw [h]; rfl
  · rfl

/-! ## Posted writes (R119) -/

theorem each_hostShow_mem (l : List Posted) (s : State) : (each l State.hostShow s).mem =
    l.foldl (fun m p => if p.atHost then m else Memory.writeN m (hostKey p.off) p.en p.data) s.mem := by
  induction l generalizing s with
  | nil => rfl
  | cons p l ih =>
    have shown : (s.hostShow p).mem = if p.atHost then s.mem else Memory.writeN s.mem (hostKey p.off) p.en p.data := by
      unfold State.hostShow; split_ifs <;> rfl
    rw [each_cons, ih, shown]
    rfl

theorem each_hostShow_gate (l : List Posted) (s : State) (v : Nat) : (each l State.hostShow s).gate v = s.gate v :=
  each_keeps (·.gate v) (fun s p => by unfold State.hostShow; split_ifs <;> rfl) l s

theorem exec_gatehouseZeroLengthRead {p : Posted} (hp : (s.gate g).probe = none) (hl : (s.gate g).posted.getLast? = some p)
    (hu : (s.gate g).linkUp = true) : exec (.gatehouseZeroLengthRead g) s = .next (s.modGate g fun x => { x with probe := some p.id }) := by
  have step : exec (.gatehouseZeroLengthRead g) s = due "GATEHOUSE_ZERO_LENGTH_READ" (s.zeroLengthRead g) := by rfl
  have issued : s.zeroLengthRead g = some (s.modGate g fun x => { x with probe := some p.id }) := by
    simp only [State.zeroLengthRead, hp, hl, hu, if_true]
  rw [step, issued]
  rfl

theorem exec_hostWriteComplete (hp : (s.gate g).probe = some w) :
    ∃ t, exec (.hostWriteComplete g) s = .next t ∧ (t.gate g).probe = none ∧ (t.gate g).posted = (s.gate g).posted.filter (fun p => !decide (p.id ≤ w)) ∧
      t.mem = ((s.gate g).posted.filter fun p => decide (p.id ≤ w)).foldl
        (fun m p => if p.atHost then m else Memory.writeN m (hostKey p.off) p.en p.data) s.mem := by
  let shown := each ((s.gate g).posted.filter fun p => decide (p.id ≤ w)) State.hostShow s
  let after (x : Gate) : Gate :=
    { x with posted := x.posted.filter (fun p => !decide (p.id ≤ w)), probe := none, served := x.served.filter fun r => !decide (r.2 ≤ w) }
  let left := shown.modGate g after
  have step : exec (.hostWriteComplete g) s = .next (each left.fenceStrands State.testFence left) := by
    have hi : exec (.hostWriteComplete g) s = due "HOST_WRITE_COMPLETE" (s.hostWriteComplete g) := by rfl
    have done : s.hostWriteComplete g = some (each left.fenceStrands State.testFence left) := by
      simp only [State.hostWriteComplete, hp]; rfl
    rw [hi, done]
    rfl
  have gate : (each left.fenceStrands State.testFence left).gate g = after (s.gate g) := by
    rw [each_keeps (·.gate g) (fun s k => s.testFence_gate k g), State.gate_modGate, each_hostShow_gate]
  have mem : (each left.fenceStrands State.testFence left).mem = shown.mem := each_keeps State.mem State.testFence_mem ..
  exact ⟨_, step, by rw [gate], by rw [gate], mem.trans (each_hostShow_mem ..)⟩

/-! ## Reads (R119, R121) -/

/-- What a gatehouse reads of host memory depends on memory and on its buffer. -/
theorem State.hostBytes_congr (hm : t.mem = s.mem) (hp : (t.gate g).posted = (s.gate g).posted) (a n : Nat) : t.hostBytes g a n = s.hostBytes g a n := by
  unfold State.hostBytes State.hostByte
  rw [hm, hp]

/-- What a read that the host completes leaves, before its answer. -/
def State.hostServed (s : State) (g : Nat) (m : Msg) : State :=
  match ((s.hostAnswered g m).gate g).posted.getLast? with
  | some p => (s.hostAnswered g m).modGate g fun x =>
      { x with served := ((s.hostAnswered g m).hostStrand m, p.id) :: x.served.filter fun r => r.1 != (s.hostAnswered g m).hostStrand m }
  | none => s.hostAnswered g m

theorem State.hostServed_rest (s : State) (g : Nat) (m : Msg) :
    (s.hostServed g m).mem = s.mem ∧ ((s.hostServed g m).gate g).posted = (s.gate g).posted := by
  have answered : ((s.hostAnswered g m).gate g).posted = (s.gate g).posted := by rw [State.hostAnswered, State.gate_modGate]
  unfold State.hostServed
  split
  · exact ⟨rfl, by rw [State.gate_modGate]; exact answered⟩
  · exact ⟨rfl, answered⟩

theorem exec_hostReadCompletion (h : s.hostPending g n (· == .read) = some (w, m)) :
    (∃ t, exec (.hostReadCompletion g n true) s = .next t ∧ t.mem = s.mem ∧ Answered t m .data (s.hostBytes g m.off m.len) false) ∧
      (∃ t, exec (.hostReadCompletion g n false) s = .next t ∧ t.mem = s.mem ∧ Answered t m (.error 0x10) [] false) := by
  have hi (ok : Bool) : exec (.hostReadCompletion g n ok) s = due "HOST_READ_COMPLETION" (s.hostReadDone g n ok) := by rfl
  refine ⟨⟨(s.hostServed g m).reply m .data ((s.hostServed g m).hostBytes g m.off m.len) false, ?_, (s.hostServed_rest g m).1, ?_⟩,
    ⟨(s.hostAnswered g m).reply m (.error 0x10) [] false, ?_, rfl, answered_reply ..⟩⟩
  · rw [hi, State.hostReadDone, h]; rfl
  · obtain ⟨mem, posted⟩ := s.hostServed_rest g m
    rw [State.hostBytes_congr mem posted]
    exact answered_reply ..
  · rw [hi, State.hostReadDone, h]; rfl

/-! ## AtomicOps (R119, R302) -/

theorem leNat_lt (l : List Byte) : leNat l < 256 ^ l.length := by
  induction l with
  | nil => decide
  | cons b l ih =>
    have hb := b.isLt
    rw [leNat, List.length_cons, Nat.pow_succ]
    omega

theorem leNat_word {l : List Byte} (h : l.length ≤ 8) : leNat l < 2 ^ 64 :=
  (leNat_lt l).trans_le (Nat.pow_le_pow_right (by decide) h : 256 ^ l.length ≤ 256 ^ 8)

theorem getD_leBytes_word (n : Nat) {i : Nat} (hi : i < 8) : (leBytes 8 n).getD i 0 = (BitVec.ofNat 64 n).extractLsb' (8 * i) 8 := by
  have byte : (leBytes 8 n).getD i 0 = BitVec.ofNat 8 (n / 2 ^ (8 * i)) := by simp [leBytes, List.getD_eq_getElem?_getD, hi]
  rw [byte]
  ext j hj
  have hin : 8 * i + j < 64 := by omega
  rw [← BitVec.getLsbD_eq_getElem, ← BitVec.getLsbD_eq_getElem, BitVec.getLsbD_extractLsb', BitVec.getLsbD_ofNat, BitVec.getLsbD_ofNat,
    Nat.testBit_div_two_pow, decide_eq_true hj, decide_eq_true hin, Nat.add_comm]
  rfl

/-- What 8 bytes of a number, written at an address, leave in memory. -/
theorem Memory.read_writeWord {M : List Host.Cell} (h : Memory.wf M = true) (a v b : Nat) : Memory.read (Memory.writeN M a (allOn 8) (leBytes 8 v)) b =
    if a ≤ b ∧ b < a + 8 then (BitVec.ofNat 64 v).extractLsb' (8 * (b - a)) 8 else Memory.read M b := by
  have len : (leBytes 8 v).length = 8 := by simp [leBytes]
  rw [Memory.read_writeN h, len]
  by_cases hin : a ≤ b ∧ b < a + 8
  · obtain ⟨hlo, hup⟩ := hin
    have hj : b - a < 8 := by omega
    have on : bitOn (allOn 8) (b - a) = true := by
      rw [bitOn_eq_testBit, allOn, Nat.testBit_two_pow_sub_one]; exact decide_eq_true hj
    rw [if_pos ⟨hlo, hup, on⟩, if_pos ⟨hlo, hup⟩, getD_leBytes_word v hj]
  · rw [if_neg hin, if_neg fun hc => hin ⟨hc.1, hc.2.1⟩]

/-- The number that an AtomicOp leaves in host memory (R302). -/
def Msg.hostNew (m : Msg) (old : Nat) : Nat :=
  match m.reqOp with
  | .famo op => famoApply op old m.data
  | _ => amoApply .add old (leNat (m.data.take 8)) {}

/-- What an AtomicOp answers: the old bytes, where it fetches. -/
def Msg.hostReply (m : Msg) (s : State) (old : Nat) : State :=
  match m.reqOp with
  | .famo _ => s.reply m .data (leBytes 8 old) false
  | _ => s.reply m .ack [] false

theorem Msg.hostReply_mem (m : Msg) (s : State) (old : Nat) : (m.hostReply s old).mem = s.mem := by unfold Msg.hostReply; split <;> rfl

/-- With nothing in the buffer, an AtomicOp writes its new value over the old one and is answered. -/
theorem exec_hostAtomicop_done (h : s.hostPending g n hostAtomic = some (w, m)) (hp : (s.gate g).posted = []) :
    ∃ u, exec (.hostAtomicopComplete g n true) s = .next (m.hostReply u (leNat (Memory.readN s.mem (hostKey m.off) 8))) ∧
      u.mem = Memory.writeN s.mem (hostKey m.off) (allOn 8) (leBytes 8 (m.hostNew (leNat (Memory.readN s.mem (hostKey m.off) 8)))) := by
  have hi : exec (.hostAtomicopComplete g n true) s = due "HOST_ATOMICOP_COMPLETE" (s.hostAtomicDone g n true) := by rfl
  have posted : ((s.hostAnswered g m).gate g).posted = [] := by rw [State.hostAnswered, State.gate_modGate]; exact hp
  rw [hi, State.hostAtomicDone, h]
  simp only [posted]
  exact ⟨_, rfl, rfl⟩

theorem exec_hostAtomicop_fails (h : s.hostPending g n hostAtomic = some (w, m)) :
    ∃ t, exec (.hostAtomicopComplete g n false) s = .next t ∧ t.mem = s.mem ∧ Answered t m (.error 0x10) [] false := by
  have hi : exec (.hostAtomicopComplete g n false) s = due "HOST_ATOMICOP_COMPLETE" (s.hostAtomicDone g n false) := by rfl
  refine ⟨(s.hostAnswered g m).reply m (.error 0x10) [] false, ?_, rfl, answered_reply ..⟩
  rw [hi, State.hostAtomicDone, h]
  rfl

/-- An AtomicOp whose new value and answer are known, with nothing in the buffer. -/
theorem exec_hostAtomicop_gives (h : s.hostPending g n hostAtomic = some (w, m)) (hp : (s.gate g).posted = []) (hs : Memory.wf s.mem = true)
    {new : Word} {r : MsgOp} {d : List Byte} (hnew : BitVec.ofNat 64 (m.hostNew (leNat (Memory.readN s.mem (hostKey m.off) 8))) = new)
    (hr : ∀ u, Answered (m.hostReply u (leNat (Memory.readN s.mem (hostKey m.off) 8))) m r d false) :
    ∃ t, exec (.hostAtomicopComplete g n true) s = .next t ∧ Answered t m r d false ∧ ∀ a, Memory.read t.mem a =
      if hostKey m.off ≤ a ∧ a < hostKey m.off + 8 then new.extractLsb' (8 * (a - hostKey m.off)) 8 else Memory.read s.mem a := by
  obtain ⟨u, step, mem⟩ := exec_hostAtomicop_done h hp
  refine ⟨_, step, hr u, fun a => ?_⟩
  rw [Msg.hostReply_mem, mem, Memory.read_writeWord hs, hnew]

theorem Msg.answered_hostReply_amo {op : AmoOp} (hop : m.op = .req (.amo op)) (u : State) (old : Nat) : Answered (m.hostReply u old) m .ack [] false := by
  simp only [Msg.hostReply, Msg.reqOp, hop]
  exact answered_reply ..

theorem Msg.answered_hostReply_famo {op : FamoOp} (hop : m.op = .req (.famo op)) (u : State) {old : Nat} (ho : old < 2 ^ 64) :
    Answered (m.hostReply u old) m .data (leBytes 8 (BitVec.ofNat 64 old).toNat) false := by
  rw [BitVec.toNat_ofNat, Nat.mod_eq_of_lt ho]
  simp only [Msg.hostReply, Msg.reqOp, hop]
  exact answered_reply ..

theorem ofNat_compareSwap {a b c : Nat} (ha : a < 2 ^ 64) (hb : b < 2 ^ 64) : BitVec.ofNat 64 (if a = b then c else a) =
    if BitVec.ofNat 64 a = BitVec.ofNat 64 b then BitVec.ofNat 64 c else BitVec.ofNat 64 a := by
  by_cases h : a = b
  · rw [if_pos h, if_pos (congrArg _ h)]
  · rw [if_neg h, if_neg fun hc => h ?_]
    have := congrArg BitVec.toNat hc
    rwa [BitVec.toNat_ofNat, BitVec.toNat_ofNat, Nat.mod_eq_of_lt ha, Nat.mod_eq_of_lt hb] at this

theorem exec_hostAtomicopComplete (h : s.hostPending g n hostAtomic = some (w, m)) (hp : (s.gate g).posted = []) (hs : Memory.wf s.mem = true) :
    let old := BitVec.ofNat 64 (leNat (Memory.readN s.mem (hostKey m.off) 8))
    let x := leWord (m.data.take 8)
    let gives := fun (op : ReqOp) (new : Word) (r : MsgOp) (d : List Byte) => m.op = .req op → ∃ t, exec (.hostAtomicopComplete g n true) s = .next t ∧
      Answered t m r d false ∧ ∀ a, Memory.read t.mem a =
        if hostKey m.off ≤ a ∧ a < hostKey m.off + 8 then new.extractLsb' (8 * (a - hostKey m.off)) 8 else Memory.read s.mem a
    gives (.amo .add) (old + x) .ack [] ∧ gives (.famo .add) (old + x) .data (leBytes 8 old.toNat) ∧
      gives (.famo .swap) x .data (leBytes 8 old.toNat) ∧
      gives (.famo .cas) (if old = x then leWord ((m.data.drop 8).take 8) else old) .data (leBytes 8 old.toNat) := by
  intro old x gives
  have hold : leNat (Memory.readN s.mem (hostKey m.off) 8) < 2 ^ 64 := leNat_word (by simp [Memory.readN])
  have hx : leNat (m.data.take 8) < 2 ^ 64 := leNat_word (List.length_take_le ..)
  refine ⟨fun hop => exec_hostAtomicop_gives h hp hs ?_ fun u => Msg.answered_hostReply_amo hop u _,
    fun hop => exec_hostAtomicop_gives h hp hs ?_ fun u => Msg.answered_hostReply_famo hop u hold,
    fun hop => exec_hostAtomicop_gives h hp hs ?_ fun u => Msg.answered_hostReply_famo hop u hold,
    fun hop => exec_hostAtomicop_gives h hp hs ?_ fun u => Msg.answered_hostReply_famo hop u hold⟩
  · simp only [Msg.hostNew, Msg.reqOp, hop, amoApply, BitVec.ofNat_toNat, BitVec.setWidth_eq]
    rfl
  · simp only [Msg.hostNew, Msg.reqOp, hop, famoApply, BitVec.ofNat_toNat, BitVec.setWidth_eq]
    rfl
  · simp only [Msg.hostNew, Msg.reqOp, hop, famoApply]
    rfl
  · simp only [Msg.hostNew, Msg.reqOp, hop, famoApply]
    exact ofNat_compareSwap hold hx

/-! ## The link to the host (R77, R420) -/

theorem exec_hostLinkStateChange_up (hk : kindOf g = .gatehouse) (hu : (s.gate g).linkUp = false) :
    exec (.hostLinkStateChange g true) s = .next (s.modGate g fun x => { x with linkUp := true }) := by
  have hi : exec (.hostLinkStateChange g true) s = due "HOST_LINK_STATE_CHANGE" (s.hostLinkChange g true) := by rfl
  rw [hi, State.hostLinkChange, if_neg (by rw [hk, hu]; simp), if_pos rfl]
  rfl

theorem exec_hostLinkStateChange_down (hk : kindOf g = .gatehouse) (hu : (s.gate g).linkUp = true) :
    ∃ t, exec (.hostLinkStateChange g false) s = .next t ∧ t.mem = s.mem ∧ (t.gate g).linkUp = false ∧
      (t.gate g).pending = [] ∧ ∀ p ∈ (s.gate g).pending, Answered t p.2 (.error 0x10) [] false := by
  let down := s.modGate g fun x => { x with linkUp := false, pending := [], probe := none }
  let refuse (s : State) (m : Msg) : State := s.reply m (.error 0x10) [] false
  have hi : exec (.hostLinkStateChange g false) s = due "HOST_LINK_STATE_CHANGE" (s.hostLinkChange g false) := by rfl
  have step : exec (.hostLinkStateChange g false) s = .next (each ((s.gate g).pending.map (·.2)) refuse down) := by
    rw [hi, State.hostLinkChange, if_neg (by rw [hk, hu]; simp), if_neg Bool.false_ne_true]
    rfl
  have gate : (each ((s.gate g).pending.map (·.2)) refuse down).gate g = { s.gate g with linkUp := false, pending := [], probe := none } :=
    (each_keeps (f := refuse) (·.gate g) (fun _ _ => rfl) ((s.gate g).pending.map (·.2)) down).trans (State.gate_modGate ..)
  refine ⟨_, step, each_keeps (f := refuse) State.mem (fun _ _ => rfl) _ down, by rw [gate], by rw [gate], fun p hp => ?_⟩
  exact each_reaches (f := refuse) (P := fun _ => True) (Q := fun u => Answered u p.2 (.error 0x10) [] false) (fun _ _ _ => trivial)
    (fun _ _ h => Answered.mono h (List.subset_append_left ..)) (fun u _ => answered_reply u ..) (List.mem_map_of_mem hp) trivial

end Sys2Proof.Machine
end

section
/-! Configuration space and cfg.window (R413, R414, R416). -/

namespace Sys2Proof.Machine

open Sys2Proof Sys2Proof.Spec

variable {s t : State} {g n v off : Nat} {m : Msg}

/-! ## Words of configuration space (R414) -/

theorem State.link_unbuffer_dead (s : State) (m : Msg) (v d : Nat) (x : Mesh) : (((s.unbuffer m).site v).link d x).dead = ((s.site v).link d x).dead := by
  unfold State.unbuffer
  split
  · rw [State.modLink, State.site_modSite]
    split_ifs with hv
    · rw [Site.link, Tab.get_put]
      split_ifs with hl
      · simp only [hv, Site.link, hl]
      · rw [hv]; rfl
    · rfl
  · rfl

/-- Credits that go back leave the links that are down for good as they are. -/
theorem State.link_consume_dead (s : State) (n v d : Nat) (x : Mesh) : (((s.consume n).site v).link d x).dead = ((s.site v).link d x).dead := by
  unfold State.consume
  split
  · rfl
  · exact s.link_unbuffer_dead ..

/-- A message taken changes no word of configuration space: none tells of credits. -/
theorem State.cfgRead_consume (s : State) (n v off : Nat) : (s.consume n).cfgRead v off = s.cfgRead v off := by
  have up := s.link_consume_up n v
  have dead := s.link_consume_dead n v
  obtain ⟨l, hl⟩ := s.site_consume_links n v
  rw [hl] at up dead
  have state : ({ s.site v with links := l } : Site).stateWord = (s.site v).stateWord := by simp only [Site.stateWord, Site.edgeUp, up, dead]
  have edge (d : Nat) : ({ s.site v with links := l } : Site).edgeWord d = (s.site v).edgeWord d := by simp only [Site.edgeWord, up]
  unfold State.cfgRead
  rw [hl]
  simp only [state, edge]
  rfl

theorem State.cfgRead_reply (s : State) (m : Msg) (op : MsgOp) (d : List Byte) (f : Bool) (v off : Nat) :
    (s.reply m op d f).cfgRead v off = s.cfgRead v off := rfl

/-- cfg.coord (R414, R417). -/
theorem State.cfgRead_coord (s : State) (v : Nat) : s.cfgRead v 0x010 = some (match (s.site v).coord with
    | some (x, y) => BitVec.ofNat 64 (2 ^ 63 + y * 2 ^ 8 + x)
    | none => 0) := by
  simp only [State.cfgRead]
  cases (s.site v).coord <;> rfl

/-- cfg.cmd reads 0. -/
theorem State.cfgRead_cmd (s : State) (v : Nat) : s.cfgRead v 0x080 = some 0 := rfl

/-! ## Reads -/

theorem exec_reqConfigRead (ha : s.arriving n = some m) (hop : m.op = .cfgRead) :
    (∀ w, s.cfgRead m.dst m.off = some w → ∃ t, exec (.reqConfigRead n) s = .next t ∧ t.mem = s.mem ∧ Answered t m .data (leBytes 8 w.toNat) false) ∧
      (s.cfgRead m.dst m.off = none → ∃ t, exec (.reqConfigRead n) s = .next t ∧ t.mem = s.mem ∧ Answered t m (.error 0x01) [] false) := by
  have hi : exec (.reqConfigRead n) s = due "REQ_CONFIG_READ" (s.configRead n) := by rfl
  refine ⟨fun w hw => ⟨(s.consume n).reply m .data (leBytes 8 w.toNat) false, ?_, s.consume_mem n, answered_reply ..⟩,
    fun hw => ⟨(s.consume n).reply m (.error 0x01) [] false, ?_, s.consume_mem n, answered_reply ..⟩⟩
  · rw [hi, State.configRead, ha]
    simp only [hop, if_true, State.cfgRead_consume, hw]
    rfl
  · rw [hi, State.configRead, ha]
    simp only [hop, if_true, State.cfgRead_consume, hw]
    rfl

/-! ## Writes -/

/-- The isolation that a write asks for waits until the site's links can go down (R165). -/
def ConfigWaits (s : State) (m : Msg) : Prop := m.off = 0x080 ∧ bitOn (leNat m.data) 0 = true ∧ s.downStalls m.dst = true

theorem exec_reqConfigWrite_eq (ha : s.arriving n = some m) (hop : m.op = .cfgWrite) (hd : ¬ConfigWaits s m) :
    exec (.reqConfigWrite n) s = .next (
      if (s.site m.dst).state = .failed ∧ m.off ≠ 0x080 then (s.consume n).reply m (.error 0x07) [] false
      else match s.cfgRead m.dst m.off with
        | none => (s.consume n).reply m (.error 0x01) [] false
        | some _ => ((s.consume n).reply m .ack [] false).cfgWrite m.dst m.off (leWord m.data)) := by
  have hi : exec (.reqConfigWrite n) s = due "REQ_CONFIG_WRITE" (s.configWrite n) := by rfl
  have state : ((s.consume n).site m.dst).state = (s.site m.dst).state := by
    obtain ⟨l, hl⟩ := s.site_consume_links n m.dst
    rw [hl]
  rw [hi, State.configWrite, ha]
  simp only [hop, true_and, if_true, if_neg (show ¬(m.off = 0x080 ∧ bitOn (leNat m.data) 0 = true ∧ s.downStalls m.dst = true) from hd),
    state, State.cfgRead_consume]
  split_ifs
  · rfl
  · cases s.cfgRead m.dst m.off <;> rfl

theorem exec_reqConfigWrite_undefined (ha : s.arriving n = some m) (hop : m.op = .cfgWrite) (hc : s.cfgRead m.dst m.off = none)
    (hf : (s.site m.dst).state ≠ .failed) : ∃ t, exec (.reqConfigWrite n) s = .next t ∧ t.mem = s.mem ∧ Answered t m (.error 0x01) [] false := by
  have waits : ¬ConfigWaits s m := fun ⟨ho, _⟩ => by rw [ho, State.cfgRead_cmd] at hc; cases hc
  have step := exec_reqConfigWrite_eq ha hop waits
  rw [if_neg fun h => hf h.1, hc] at step
  exact ⟨_, step, s.consume_mem n, answered_reply ..⟩

theorem exec_reqConfigWrite_failed (ha : s.arriving n = some m) (hop : m.op = .cfgWrite) (hf : (s.site m.dst).state = .failed) (ho : m.off ≠ 0x080) :
    ∃ t, exec (.reqConfigWrite n) s = .next t ∧ t.mem = s.mem ∧ Answered t m (.error 0x07) [] false := by
  have step := exec_reqConfigWrite_eq ha hop fun h => ho h.1
  rw [if_pos ⟨hf, ho⟩] at step
  exact ⟨_, step, s.consume_mem n, answered_reply ..⟩

/-- The words below cfg.cmd are read-only. -/
theorem State.cfgWrite_readOnly (s : State) (v : Nat) {off : Nat} (h : off < 0x080) (w : Word) : s.cfgWrite v off w = s := by
  have map : inRange off 0x400 800 = false := by simp [inRange]; omega
  rw [State.cfgWrite, if_neg fun hc => by omega, if_neg (by simp [map]), if_neg fun hc => by omega]

theorem exec_reqConfigWrite_readOnly (ha : s.arriving n = some m) (hop : m.op = .cfgWrite) (hc : s.cfgRead m.dst m.off ≠ none)
    (hf : (s.site m.dst).state ≠ .failed) (ho : m.off < 0x080) :
    ∃ t, exec (.reqConfigWrite n) s = .next t ∧ t.mem = s.mem ∧ Answered t m .ack [] false ∧ t.cfgRead m.dst 0x010 = s.cfgRead m.dst 0x010 := by
  have step := exec_reqConfigWrite_eq ha hop fun h => by have := h.1; omega
  obtain ⟨w, hw⟩ := Option.ne_none_iff_exists'.1 hc
  rw [if_neg fun h => hf h.1, hw] at step
  dsimp only at step
  rw [State.cfgWrite_readOnly _ _ ho] at step
  exact ⟨_, step, s.consume_mem n, answered_reply .., s.cfgRead_consume ..⟩

/-- cfg.cmd isolates a site that is not cold (R416). -/
theorem State.cfgIsolate_effect (h : (s.site v).state ≠ .cold) : (s.cfgIsolate v).mem = s.mem ∧ ((s.cfgIsolate v).site v).state = .isolated := by
  unfold State.cfgIsolate
  split_ifs with hs
  · exact ⟨rfl, hs.resolve_left h⟩
  · exact s.isolate_effect v

theorem exec_reqConfigWrite_isolates (ha : s.arriving n = some m) (hop : m.op = .cfgWrite) (ho : m.off = 0x080)
    (hb : (leWord m.data).getLsbD 0 = true) (hc : (s.site m.dst).state ≠ .cold) (hd : s.downStalls m.dst = false) :
    ∃ t, exec (.reqConfigWrite n) s = .next t ∧ t.mem = s.mem ∧ (t.site m.dst).state = .isolated := by
  have step := exec_reqConfigWrite_eq ha hop fun ⟨_, _, h⟩ => by rw [hd] at h; cases h
  rw [if_neg fun h => h.2 ho, ho, State.cfgRead_cmd] at step
  dsimp only at step
  rw [State.cfgWrite, if_pos ⟨rfl, by rw [bitOn_eq_getLsbD]; exact hb⟩] at step
  have state : (((s.consume n).reply m .ack [] false).site m.dst).state ≠ .cold := by
    obtain ⟨l, hl⟩ := s.site_consume_links n m.dst
    have hr : ((s.consume n).reply m .ack [] false).site m.dst = (s.consume n).site m.dst := rfl
    rw [hr, hl]
    exact hc
  obtain ⟨mem, isolated⟩ := State.cfgIsolate_effect state
  exact ⟨_, step, mem.trans (s.consume_mem n), isolated⟩

/-! ## cfg.window (R413, R416, R420) -/

/-- The site that cfg.target names. -/
def Gate.cfgSite (x : Gate) : Nat := siteAt (x.cfgTarget % 256) (x.cfgTarget / 256)

theorem State.cfgTargets_of (hs : (s.site g).outOfService = false)
    (hg : onGrid ((s.gate g).cfgTarget % 256) ((s.gate g).cfgTarget / 256) = true) : s.cfgTargets g = true := by
  unfold State.cfgTargets
  dsimp only
  rw [hs, hg]
  rfl

/-- The request that stands for an access of cfg.window is on its way to the target. -/
theorem State.sendConfig_leaves (s : State) (g : Nat) (op : MsgOp) (off : Nat) (d : List Byte) (a : Acc) (ps : List Msg) :
    ∃ q ∈ (s.sendConfig g op off d a ps).net, q.op = op ∧ q.src = g ∧ q.dst = (s.gate g).cfgSite ∧ q.off = off ∧ q.data = d :=
  ⟨_, List.mem_append_right _ (List.mem_singleton.2 rfl), rfl, rfl, rfl, rfl, rfl⟩

/-- What the gatehouse asks of the target for a read or a write of cfg.window. -/
theorem exec_cfgWindowAccess_sends (ha : s.arriving n = some m) (hd : m.dst = g) (hu : m.unit = 16) (hh : m.host = false)
    (hw : inCfgWindow g m.off = true) (hl : m.len = 8) (ho : m.off % 8 = 0) (hs : (s.site g).outOfService = false)
    (hg : onGrid ((s.gate g).cfgTarget % 256) ((s.gate g).cfgTarget / 256) = true) {op : MsgOp}
    (hop : m.op = .req .read ∧ op = .cfgRead ∨ m.op = .req .write ∧ op = .cfgWrite ∧ m.en % 256 = 255) :
    ∃ t, exec (.cfgWindowAccess g n) s = .next t ∧ t.mem = s.mem ∧
      ∃ q ∈ t.net, q.op = op ∧ q.src = g ∧ q.dst = (s.gate g).cfgSite ∧ q.off = m.off - 0x81000 ∧ q.data = m.data := by
  have hi : exec (.cfgWindowAccess g n) s = due "CFG_WINDOW_ACCESS" (s.cfgAccess g n) := by rfl
  obtain ⟨l, site⟩ := s.site_consume_links n g
  have gate : (s.consume n).gate g = s.gate g := by rw [State.gate, site]; rfl
  have targets : (s.consume n).cfgTargets g = true := State.cfgTargets_of (by rw [site]; exact hs) (by rw [gate]; exact hg)
  have sent := (s.consume n).sendConfig_leaves g op (m.off - 0x81000) m.data { size := 0, owner := .nobody } [m]
  rw [gate] at sent
  refine ⟨(s.consume n).sendConfig g op (m.off - 0x81000) m.data { size := 0, owner := .nobody } [m], ?_, s.consume_mem n, sent⟩
  rw [hi, State.cfgAccess, ha]
  rcases hop with ⟨hop, rfl⟩ | ⟨hop, rfl, hen⟩
  · simp [hd, hu, hh, hw, hl, ho, hop, targets, due]
  · simp [hd, hu, hh, hw, hl, ho, hop, hen, targets, due]

/-- The host's store to a word of cfg.window goes on to the target. -/
theorem exec_registerWrite_cfgWindow (hk : kindOf g = .gatehouse) (hs : siteKey g = true) (hu : (s.gate g).linkUp = true) (hw : inCfgWindow g off = true)
    (ho : off % 8 = 0) (hv : (s.site g).outOfService = false) (hg : onGrid ((s.gate g).cfgTarget % 256) ((s.gate g).cfgTarget / 256) = true)
    (w : Word) : ∃ t, exec (.registerWrite (.window g off w)) s = .next t ∧ t.mem = s.mem ∧
      ∃ q ∈ t.net, q.op = .cfgWrite ∧ q.src = g ∧ q.dst = (s.gate g).cfgSite ∧ q.off = off - 0x81000 ∧ q.data = leBytes 8 w.toNat := by
  have hi : exec (.registerWrite (.window g off w)) s = due "REGISTER_WRITE" (s.registerWrite (.window g off w)) := by rfl
  have inside : ¬0x100000 ≤ off := by
    simp [inCfgWindow, inRange] at hw
    omega
  have window : hasWindow g = true := by rw [hasWindow, hs, hk]; rfl
  have targets : s.cfgTargets g = true := State.cfgTargets_of hv hg
  refine ⟨s.sendConfig g .cfgWrite (off - 0x81000) (leBytes 8 w.toNat) { size := 0, owner := .nobody } [], ?_, rfl, s.sendConfig_leaves ..⟩
  rw [hi]
  simp [State.registerWrite, State.hostConfig, window, inside, ho, hw, hu, targets, due]

end Sys2Proof.Machine
end

section
/-! The statement about host windows and configuration space. -/

namespace Sys2Proof.Machine

open Sys2Proof Sys2Proof.Spec

/-- Settles O59, clause by clause: the host's windows at a gatehouse, then configuration space and cfg.window. -/
theorem windowsOfSites : Obligations.WindowsOfSites := by
  refine ⟨⟨fun s g p => exec_gatehouseZeroLengthRead, fun s g w => exec_hostWriteComplete, fun s g n w m => ⟨exec_hostReadCompletion, fun h =>
    ⟨exec_hostAtomicop_fails h, exec_hostAtomicopComplete h⟩⟩, fun s g hk => ⟨exec_hostLinkStateChange_up hk, exec_hostLinkStateChange_down hk⟩⟩,
    fun s n m ha => ⟨exec_reqConfigRead ha, exec_reqConfigWrite_undefined ha, exec_reqConfigWrite_failed ha, exec_reqConfigWrite_readOnly ha,
      exec_reqConfigWrite_isolates ha⟩, State.cfgRead_coord, ?_, fun s g off w hk hs hu hw ho hv hg => exec_registerWrite_cfgWindow hk hs hu hw ho hv hg w⟩
  intro s g n m ha hd hu hh hw hl ho hf hi d hg _ p hp hop hen
  have hs : (s.site g).outOfService = false := by simp [Site.outOfService, hf, hi]
  refine exec_cfgWindowAccess_sends ha hd hu hh hw hl ho hs hg ?_
  rcases List.mem_cons.1 hp with rfl | hp
  · exact .inl ⟨hop, rfl⟩
  · obtain rfl := List.mem_singleton.1 hp
    exact .inr ⟨hop, rfl, beq_iff_eq.1 hen⟩

end Sys2Proof.Machine
end

section
/-! Atomics at their home (R110, R300, R301): the words that the operations leave, and the requests that are served. -/

namespace Sys2Proof.Machine

open Sys2Proof Sys2Proof.Spec

/-! ## The words that the operations leave -/

/-- The integer operations of R300, each with the word that it leaves. -/
def amoTable (old x : Word) : List (AmoOp × Word) :=
  [(.add, old + x), (.minI, if x.slt old then x else old), (.maxI, if old.slt x then x else old), (.minN, if x.ult old then x else old),
   (.maxN, if old.ult x then x else old), (.and, old &&& x), (.or, old ||| x), (.xor, old ^^^ x)]

/-- The integer operations of R301, each with the word that it leaves; a compare-and-swap carries its new word behind the one it compares. -/
def famoTable (old x new : Word) : List (FamoOp × Word) :=
  [(.add, old + x), (.or, old ||| x), (.swap, x), (.cas, if old = x then new else old)]

theorem slt_iff_not_le (a b : Word) : a.slt b = true ↔ ¬b.toInt ≤ a.toInt := by rw [BitVec.slt_iff_toInt_lt, Int.not_le]

theorem ult_ofNat_iff_not_le {a b : Nat} (ha : a < 2 ^ 64) (hb : b < 2 ^ 64) : (BitVec.ofNat 64 a).ult (BitVec.ofNat 64 b) = true ↔ ¬b ≤ a := by
  rw [BitVec.ult_iff_lt, BitVec.lt_def, BitVec.toNat_ofNat, BitVec.toNat_ofNat, Nat.mod_eq_of_lt ha, Nat.mod_eq_of_lt hb, Nat.not_le]

/-- The smaller of two words, whatever the order: the model tests whether the old one is no greater, the table whether the other is less. -/
theorem ofNat_min {a b : Nat} {p : Prop} [Decidable p] {less : Bool} (h : less = true ↔ ¬p) :
    BitVec.ofNat 64 (if p then a else b) = if less then BitVec.ofNat 64 b else BitVec.ofNat 64 a := by
  by_cases hp : p
  · rw [if_pos hp, if_neg fun hl => h.1 hl hp]
  · rw [if_neg hp, if_pos (h.2 hp)]

/-- The greater of two words, whatever the order: the tests differ for equal words only. -/
theorem ofNat_max {a b : Nat} {p q : Prop} [Decidable p] {less : Bool} (h : less = true ↔ ¬q) (total : p ∨ q)
    (same : p → q → BitVec.ofNat 64 a = BitVec.ofNat 64 b) :
    BitVec.ofNat 64 (if p then b else a) = if less then BitVec.ofNat 64 b else BitVec.ofNat 64 a := by
  by_cases hq : q
  · rw [if_neg fun hl => h.1 hl hq]
    split_ifs with hp
    · exact (same hp hq).symm
    · rfl
  · rw [if_pos (h.2 hq), if_pos (total.resolve_right hq)]

theorem amoApply_table {old x : Nat} (ho : old < 2 ^ 64) (hx : x < 2 ^ 64) (g : FFlags) :
    ∀ p ∈ amoTable (BitVec.ofNat 64 old) (BitVec.ofNat 64 x), p.1.size = 8 ∧ BitVec.ofNat 64 (amoApply p.1 old x g) = p.2 := by
  have word (w : Word) : BitVec.ofNat 64 w.toNat = w := BitVec.ofNat_toNat ..
  have maxI := ofNat_max (a := old) (b := x) (slt_iff_not_le ..) (Int.le_total ..) fun hp hq => BitVec.eq_of_toInt_eq (Int.le_antisymm hp hq)
  have maxN := ofNat_max (ult_ofNat_iff_not_le ho hx) (Nat.le_total ..) fun hp hq => congrArg _ (Nat.le_antisymm hp hq)
  simp only [amoTable, List.forall_mem_cons]
  exact ⟨⟨rfl, word _⟩, ⟨rfl, ofNat_min (slt_iff_not_le ..)⟩, ⟨rfl, maxI⟩, ⟨rfl, ofNat_min (ult_ofNat_iff_not_le hx ho)⟩, ⟨rfl, maxN⟩,
    ⟨rfl, word _⟩, ⟨rfl, word _⟩, ⟨rfl, word _⟩, nofun⟩

theorem famoApply_table {old : Nat} (ho : old < 2 ^ 64) (d : List Byte) :
    ∀ p ∈ famoTable (BitVec.ofNat 64 old) (leWord (d.take 8)) (leWord ((d.drop 8).take 8)),
      p.1.size = 8 ∧ BitVec.ofNat 64 (famoApply p.1 old d) = p.2 := by
  have hx : leNat (d.take 8) < 2 ^ 64 := leNat_word (List.length_take_le ..)
  have word (w : Word) : BitVec.ofNat 64 w.toNat = w := BitVec.ofNat_toNat ..
  simp only [famoTable, List.forall_mem_cons]
  exact ⟨⟨rfl, word _⟩, ⟨rfl, word _⟩, ⟨rfl, rfl⟩, ⟨rfl, ofNat_compareSwap ho hx⟩, nofun⟩

/-! ## The requests -/

variable {s t : State} {n : Nat} {m : Msg}

/-- The word at the address of a request, before it is served. -/
def Msg.oldWord (m : Msg) (s : State) : Word := BitVec.ofNat 64 (leNat ((List.range 8).map fun j => Memory.read s.mem (keyOf m + j)))

/-- A word stands at the address of a request; other bytes and the full/empty bits are as they were. -/
def LeavesWord (s t : State) (m : Msg) (w : Word) : Prop :=
  t.full = s.full ∧ ∀ a, Memory.read t.mem a =
    if keyOf m ≤ a ∧ a < keyOf m + 8 then w.extractLsb' (8 * (a - keyOf m)) 8 else Memory.read s.mem a

/-- The home's write of the 8 bytes of a number, once the request has been taken in (R110). -/
theorem leavesWord_store (hs : Memory.wf s.mem = true) (v key : Nat) (hm : t.mem = ((s.consume n).store m.dst m.unit m.off (allOn 8) (leBytes 8 v) key).mem)
    (hf : t.full = ((s.consume n).store m.dst m.unit m.off (allOn 8) (leBytes 8 v) key).full) : LeavesWord s t m (BitVec.ofNat 64 v) := by
  refine ⟨hf.trans ((State.store_full ..).trans (s.consume_full n)), fun a => ?_⟩
  rw [hm, State.store_mem, s.consume_mem, Memory.read_writeWord hs]
  rfl

/-- The number that a home reads at the address of a request is a word. -/
theorem oldWord_eq (s : State) (n : Nat) (m : Msg) : leNat ((s.consume n).fetchBytes m.dst m.unit m.off 8) < 2 ^ 64 ∧
    m.oldWord s = BitVec.ofNat 64 (leNat ((s.consume n).fetchBytes m.dst m.unit m.off 8)) :=
  ⟨leNat_word (by simp [State.fetchBytes, Memory.readN]), by rw [s.fetchBytes_consume]; rfl⟩

theorem reqAmo_serves (hs : Memory.wf s.mem = true) {p : AmoOp × Word} (hp : p ∈ amoTable (m.oldWord s) (leWord (m.data.take 8)))
    (h : Serves s n m (.amo p.1) false) : ∃ t, exec (.reqAmo n) s = .next t ∧ LeavesWord s t m p.2 ∧ Answered t m .ack [] false := by
  have he := exec_serves (i := .reqAmo n) (by rfl) h rfl
  obtain ⟨-, hop, -, -, -, -, ht, -⟩ := h
  obtain ⟨hold, word⟩ := oldWord_eq s n m
  obtain ⟨size, value⟩ := amoApply_table hold (leNat_word (List.length_take_le ..)) (m.addFlags p.1 (leNat (m.data.take 8))) p (word ▸ hp)
  have asked : m.reqOp.amoOp.getD .add = p.1 := by rw [Msg.reqOp, hop]; rfl
  rw [asked, State.performAmo, State.raiseTag_untagged ht, size] at he
  exact ⟨_, he, value ▸ leavesWord_store hs _ m.writer rfl rfl, answered_reply ..⟩

theorem reqFamo_serves (hs : Memory.wf s.mem = true) {p : FamoOp × Word}
    (hp : p ∈ famoTable (m.oldWord s) (leWord (m.data.take 8)) (leWord ((m.data.drop 8).take 8))) (h : Serves s n m (.famo p.1) false) :
    ∃ t, exec (.reqFamo n) s = .next t ∧ LeavesWord s t m p.2 ∧ Answered t m .data (leBytes 8 (m.oldWord s).toNat) false := by
  have he := exec_serves (i := .reqFamo n) (by rfl) h rfl
  obtain ⟨-, hop, -⟩ := h
  obtain ⟨hold, word⟩ := oldWord_eq s n m
  obtain ⟨size, value⟩ := famoApply_table hold m.data p (word ▸ hp)
  have asked : m.reqOp.famoOp.getD .add = p.1 := by rw [Msg.reqOp, hop]; rfl
  rw [asked, State.performFamo, size] at he
  refine ⟨_, he, value ▸ leavesWord_store hs _ m.key rfl rfl, ?_⟩
  rw [word, BitVec.toNat_ofNat, Nat.mod_eq_of_lt hold]
  exact answered_reply ..

/-- Settles O25: each operation of the tables, without an answer of data and with the old word. -/
theorem homeAtomics : Obligations.HomeAtomics := fun _ _ _ hs => ⟨fun _ => reqAmo_serves hs, fun _ => reqFamo_serves hs⟩

end Sys2Proof.Machine
end

section
/-! The flush of a cache (R86, R105, R106): what the lines on their way out leave as it was, and the lines that stay. -/

namespace Sys2Proof.Machine

open Sys2Proof Sys2Proof.Spec

/-- What each single change of a list's elements keeps, the changes for the whole list keep. -/
theorem each_keeps_mem {α β : Type} (g : State → β) {f : State → α → State} {l : List α} (hf : ∀ s, ∀ a ∈ l, g (f s a) = g s) (s : State) :
    g (each l f s) = g s := by
  induction l generalizing s with
  | nil => rfl
  | cons a l ih => rw [each_cons, ih fun s b hb => hf s b (List.mem_cons_of_mem _ hb), hf s a List.mem_cons_self]

/-! ## Lines on their way out -/

section Out

variable {β : Type} (g : State → β) (hn : ∀ (s : State) n t i, g { s with net := n, txns := t, nextId := i } = g s)
include hn

theorem State.writeHome_keeps (s : State) (v low : Nat) (id : Option Nat) (l : Line) : g (s.writeHome v low id l) = g s := by
  unfold State.writeHome
  split <;> cases id <;> exact hn s ..

/-- Dirty bytes of the L1D change the slice's line of their number alone, or go home (R86). -/
theorem State.writeSlice_keeps {c : Nat} {l : Line} (hw : ∀ (s : State) (w : Line), w.line = l.line →
    g (s.modSite (siteOfC c) fun t => { t with slice := t.slice.map fun x => if x.line = w.line then w.write 0 l.dirty l.data else x }) = g s)
    (s : State) : g (s.writeSlice c none l) = g s := by
  unfold State.writeSlice
  dsimp only
  split
  · next w hl _ => exact hw s w (by simpa using List.find?_some hl)
  · next h => cases h
  · exact (State.writeHome_keeps g hn ..).trans (hn ..)

variable (hs : ∀ (s : State) v x, x.slice = (s.site v).slice → g (s.setSite v x) = g s)
include hs

omit hn in
theorem State.lineEvent_keeps (s : State) (v u : Nat) (l : Line) : g (s.lineEvent v u l) = g s := by
  unfold State.lineEvent
  split_ifs <;> exact hs _ _ _ rfl

theorem State.lineLeaves_keeps {v u : Nat} {l : Line} (ho : ∀ (s : State) k, k.line = l.line → g (s.lineOut v u none k) = g s) (s : State) :
    g (s.lineLeaves v u l) = g s := by
  unfold State.lineLeaves State.lineStruck
  dsimp only
  split_ifs
  · rfl
  · refine (hs s.fresh.2 v _ ?_).trans (hn s ..)
    rfl
  · exact ho s l rfl
  · exact State.lineEvent_keeps g hs ..
  · exact (ho _ _ rfl).trans (State.lineEvent_keeps g hs ..)

/-! ## Flushes -/

/-- A flush of the slice changes the slice; the bytes that leave change nothing more of it. -/
theorem State.flushSlice_keeps (s : State) (v : Nat) (p : Nat → Bool) (drop : Bool) :
    g (s.flushSlice v p drop) = g (s.modSite v fun x => { x with slice := flushed p drop x.slice }) := by
  have out (t : State) (l : Line) : g (t.lineLeaves v 4 l) = g t :=
    State.lineLeaves_keeps (v := v) (u := 4) g hn hs (fun t k _ => State.writeHome_keeps g hn t ..) t
  cases drop with
  | false => exact each_keeps g out ..
  | true => exact (hn ..).trans (each_keeps g out ..)

theorem State.flushL1d_keeps {c : Nat} {p : Nat → Bool} (hw : ∀ (s : State) (w l : Line), w.line = l.line → p l.line = true →
    g (s.modSite (siteOfC c) fun t => { t with slice := t.slice.map fun x => if x.line = w.line then w.write 0 l.dirty l.data else x }) = g s)
    (s : State) (drop : Bool) : g (s.flushL1d c p drop) = g (s.modCore c fun x => { x with l1d := flushed p drop x.l1d }) := by
  have unit (t : State) (k : Line) : t.lineOut (siteOfC c) (16 + c % 16) none k = t.writeSlice c none k := by
    have core : siteOfC c * 16 + (16 + c % 16 - 16) = c := by unfold siteOfC; omega
    rw [State.lineOut, if_neg (by omega), core]
  have out : ∀ t, ∀ l ∈ (s.core c).l1d.filter fun l => p l.line && l.dirty != 0, g (t.lineLeaves (siteOfC c) (16 + c % 16) l) = g t := by
    intro t l hl
    have hp : p l.line = true := ((Bool.and_eq_true ..).mp (List.mem_filter.1 hl).2).1
    exact State.lineLeaves_keeps g hn hs (fun t k hk => unit t k ▸ State.writeSlice_keeps g hn (fun t w h => hw t w k h (hk ▸ hp)) t) t
  cases drop with
  | false => exact each_keeps_mem g out _
  | true => exact (hn ..).trans (each_keeps_mem g out _)

end Out

/-- Two states with the same memory, bits and strands, and the same strand at issue. -/
structure SameStrands (s t : State) : Prop where
  mem : t.mem = s.mem
  full : t.full = s.full
  strands : t.strands = s.strands
  cur : t.cur = s.cur

theorem SameStrands.refl (s : State) : SameStrands s s := ⟨rfl, rfl, rfl, rfl⟩

theorem SameStrands.trans {s t u : State} (h : SameStrands s t) (k : SameStrands t u) : SameStrands s u :=
  ⟨k.mem.trans h.mem, k.full.trans h.full, k.strands.trans h.strands, k.cur.trans h.cur⟩

theorem SameStrands.me {s t : State} (h : SameStrands s t) : t.me = s.me := by rw [State.me, State.strand, h.strands, h.cur]; rfl

variable (s : State) (v c : Nat) (p : Nat → Bool) (drop : Bool)

theorem State.flushSlice_sameStrands : SameStrands s (s.flushSlice v p drop) :=
  have keeps {β : Type} (g : State → β) (hn : ∀ (s : State) n t i, g { s with net := n, txns := t, nextId := i } = g s)
      (hs : ∀ (s : State) v x, g (s.setSite v x) = g s) : g (s.flushSlice v p drop) = g s :=
    (State.flushSlice_keeps g hn (fun s v x _ => hs s v x) ..).trans (hs ..)
  ⟨keeps State.mem (fun _ _ _ _ => rfl) fun _ _ _ => rfl, keeps State.full (fun _ _ _ _ => rfl) fun _ _ _ => rfl,
    keeps State.strands (fun _ _ _ _ => rfl) fun _ _ _ => rfl, keeps State.cur (fun _ _ _ _ => rfl) fun _ _ _ => rfl⟩

theorem State.flushL1d_sameStrands : SameStrands s (s.flushL1d c p drop) :=
  have keeps {β : Type} (g : State → β) (hn : ∀ (s : State) n t i, g { s with net := n, txns := t, nextId := i } = g s)
      (hs : ∀ (s : State) v x, g (s.setSite v x) = g s) : g (s.flushL1d c p drop) = g (s.modCore c fun x => { x with l1d := flushed p drop x.l1d }) :=
    State.flushL1d_keeps g hn (fun s v x _ => hs s v x) (fun _ _ _ _ _ => hs ..) ..
  ⟨keeps State.mem (fun _ _ _ _ => rfl) fun _ _ _ => rfl, keeps State.full (fun _ _ _ _ => rfl) fun _ _ _ => rfl,
    keeps State.strands (fun _ _ _ _ => rfl) fun _ _ _ => rfl, keeps State.cur (fun _ _ _ _ => rfl) fun _ _ _ => rfl⟩

theorem State.flushSlice_core (d : Nat) : (s.flushSlice v p drop).core d = s.core d :=
  State.flushSlice_keeps (·.core d) (fun _ _ _ _ => rfl) (fun _ _ _ _ => rfl) ..

theorem State.flushL1d_l1d : ((s.flushL1d c p drop).core c).l1d = flushed p drop (s.core c).l1d := by
  rw [State.flushL1d_keeps (·.core c) (fun _ _ _ _ => rfl) (fun _ _ _ _ => rfl) (fun _ _ _ _ _ => rfl), State.core_modCore, if_pos rfl]

/-- A change of a site that leaves its slice leaves every slice. -/
theorem State.slice_setSite {s : State} {w : Nat} {x : Site} (h : x.slice = (s.site w).slice) (v : Nat) :
    ((s.setSite w x).site v).slice = (s.site v).slice := by
  rw [State.site_setSite]
  split_ifs with hv
  · rw [h, hv]
  · rfl

theorem State.flushSlice_slice : ((s.flushSlice v p drop).site v).slice = flushed p drop (s.site v).slice := by
  rw [State.flushSlice_keeps (fun s => (s.site v).slice) (fun _ _ _ _ => rfl) (fun s w x h => State.slice_setSite h v), State.site_modSite, if_pos rfl]

theorem filter_map_fixed {α : Type} {q : α → Bool} {f : α → α} {l : List α} (h : ∀ x ∈ l, (q (f x) = false ∧ q x = false) ∨ f x = x) :
    (l.map f).filter q = l.filter q := by
  induction l with
  | nil => rfl
  | cons x l ih =>
    rw [List.map_cons, List.filter_cons, List.filter_cons, ih fun y hy => h y (List.mem_cons_of_mem _ hy)]
    rcases h x List.mem_cons_self with ⟨hf, hx⟩ | hf
    · simp [hf, hx]
    · rw [hf]

/-- A flush of the L1D leaves the slice's lines of other numbers as they were. -/
theorem State.flushL1d_slice : ((s.flushL1d c p drop).site v).slice.filter (fun l => !p l.line) = (s.site v).slice.filter fun l => !p l.line := by
  refine State.flushL1d_keeps (fun s => (s.site v).slice.filter fun l => !p l.line) (fun _ _ _ _ => rfl)
    (fun s w x h => by rw [State.slice_setSite h]) (fun s w l hw hp => ?_) ..
  rw [State.site_modSite]
  split_ifs with hv
  · rw [hv]
    refine filter_map_fixed fun x _ => ?_
    by_cases hx : x.line = w.line
    · exact .inl (by simp [hx, hw, hp, Line.write])
    · exact .inr (if_neg hx)
  · rfl

end Sys2Proof.Machine
end

section
/-! Fences (R103, R105, R106): the lines that stay after a flush, the actions of the scopes, and what a strand waits for. -/

namespace Sys2Proof.Machine

open Sys2Proof Sys2Proof.Spec

variable {s t u : State} {v : Nat}

/-! ## The lines that stay -/

theorem flushed_drop (p : Nat → Bool) (ls : List Line) : flushed p true ls = ls.filter fun l => !p l.line := by
  unfold flushed
  rw [List.map_congr_left (g := id) fun l hl => ?_, List.map_id]
  · simp
  · exact if_neg fun hc => by simp_all [List.mem_filter]

theorem flushed_all (ls : List Line) : flushed (fun _ => true) true ls = [] := by simp [flushed_drop]

theorem dirty_flushed {p : Nat → Bool} {drop : Bool} {ls : List Line} {l : Line} (h : l ∈ flushed p drop ls) (hp : p l.line = true) : l.dirty = 0 := by
  obtain ⟨k, -, rfl⟩ := List.mem_map.1 h
  split_ifs at hp ⊢ with hk
  · rfl
  · simpa [hp] using hk

theorem clean_flushed {ls : List Line} (h : Clean ls) (p : Nat → Bool) (drop : Bool) : Clean (flushed p drop ls) := by
  intro l hl
  obtain ⟨k, hk, rfl⟩ := List.mem_map.1 hl
  split_ifs
  · rfl
  · exact h k (List.mem_of_mem_filter hk)

/-- A write-back of lines that nothing has struck keeps them all (R91, R106). -/
theorem lines_flushed {ls : List Line} (h : ∀ l ∈ ls, l.flaw = 0) (p : Nat → Bool) : (flushed p false ls).map (·.line) = ls.map (·.line) := by
  have kept : (ls.filter fun l => !(p l.line && (false || (l.dirty != 0 && l.flaw == 2)))) = ls :=
    List.filter_eq_self.2 fun l hl => by simp [h l hl]
  rw [flushed, kept, List.map_map]
  exact List.map_congr_left fun l _ => by dsimp only [Function.comp]; split_ifs <;> rfl

/-! ## Flushes of caches that are clean -/

theorem SameWriteBacks.of_eq (hl : (t.site v).leaving = (s.site v).leaving) (ht : t.txns = s.txns) : SameWriteBacks s t v :=
  ⟨hl, id, by rw [ht, List.map_id], fun _ => ⟨rfl, rfl, rfl⟩⟩

theorem SameWriteBacks.trans (h : SameWriteBacks s t v) (k : SameWriteBacks t u v) : SameWriteBacks s u v := by
  obtain ⟨f, hf, kf⟩ := h.txns
  obtain ⟨f', hf', kf'⟩ := k.txns
  refine ⟨k.leaving.trans h.leaving, f' ∘ f, by rw [hf', hf, List.map_map], fun x => ?_⟩
  obtain ⟨id, acc, req⟩ := kf x
  obtain ⟨id', acc', req'⟩ := kf' (f x)
  exact ⟨id'.trans id, acc'.trans acc, req'.trans req⟩

theorem State.sameWriteBacks_staleL1d (s : State) (c : Nat) (p : Nat → Bool) (v : Nat) : SameWriteBacks s (s.staleL1d c p) v := by
  refine ⟨rfl, _, rfl, fun x => ?_⟩
  cases x.fill with
  | none => exact ⟨rfl, rfl, rfl⟩
  | some l => by_cases stale : coreOfK x.acc.k = c ∧ p l.line <;> simp [stale]

theorem State.sameWriteBacks_staleSlice (s : State) (w : Nat) (p : Nat → Bool) (v : Nat) : SameWriteBacks s (s.staleSlice w p) v :=
  ⟨rfl, s.staleSlice_txns w p⟩

theorem filter_dirty_of_clean {ls : List Line} (h : Clean ls) (p : Nat → Bool) : ls.filter (fun l => p l.line && l.dirty != 0) = [] :=
  List.filter_eq_nil_iff.2 fun l hl => by simp [h l hl]

/-- Nothing leaves a clean L1D. -/
theorem State.flushL1d_clean {c : Nat} (h : Clean (s.core c).l1d) (p : Nat → Bool) (drop : Bool) (v : Nat) :
    SameWriteBacks s (s.flushL1d c p drop) v ∧ ∀ w, ((s.flushL1d c p drop).site w).slice = (s.site w).slice := by
  have within : SameWriteBacks s (s.modCore c fun x => { x with l1d := flushed p drop x.l1d }) v := .of_eq rfl rfl
  unfold State.flushL1d
  rw [filter_dirty_of_clean h]
  cases drop with
  | false => exact ⟨within, fun _ => rfl⟩
  | true => exact ⟨within.trans (State.sameWriteBacks_staleL1d ..), fun _ => rfl⟩

/-- Nothing leaves a clean slice. -/
theorem State.flushSlice_clean {w : Nat} (h : Clean (s.site w).slice) (p : Nat → Bool) (drop : Bool) (v : Nat) :
    SameWriteBacks s (s.flushSlice w p drop) v := by
  have within : SameWriteBacks s (s.modSite w fun x => { x with slice := flushed p drop x.slice }) v := by
    refine .of_eq ?_ rfl
    rw [State.site_modSite]
    split_ifs with hv
    · rw [hv]
    · rfl
  unfold State.flushSlice
  rw [filter_dirty_of_clean h]
  cases drop with
  | false => exact within
  | true => exact within.trans (State.sameWriteBacks_staleSlice ..)

/-! ## The actions of the scopes -/

/-- The actions of a scope: an acquire drops the lines, a release keeps them (R105, R106). -/
def State.scopeFlush (s : State) (n : Nat) (drop : Bool) : State :=
  let t := if n = 0 then s else s.flushL1d (coreOfK s.cur) (fun _ => true) drop
  if n < 3 then t else t.flushSlice (siteOfK s.cur) (fun _ => true) drop

theorem State.acqActions_eq (s : State) (n : Nat) : s.acqActions n = s.scopeFlush n true := rfl
theorem State.relActions_eq (s : State) (n : Nat) : s.relActions n = s.scopeFlush n false := rfl

/-- Scope 0 does nothing, scopes 1 and 2 flush the L1D, scopes 3 and 4 the slice behind it (R106). -/
theorem State.scopeFlush_cases (s : State) (n : Nat) (drop : Bool) :
    (n = 0 ∧ s.scopeFlush n drop = s) ∨ (n < 3 ∧ s.scopeFlush n drop = s.flushL1d (coreOfK s.cur) (fun _ => true) drop) ∨
      (s.scopeFlush n drop = (s.flushL1d (coreOfK s.cur) (fun _ => true) drop).flushSlice (siteOfK s.cur) (fun _ => true) drop) := by
  unfold State.scopeFlush
  by_cases h0 : n = 0
  · exact .inl ⟨h0, by simp [h0]⟩
  · by_cases h3 : n < 3
    · exact .inr (.inl ⟨h3, by simp [h0, h3]⟩)
    · exact .inr (.inr (by simp [h0, h3]))

theorem State.scopeFlush_sameStrands (s : State) (n : Nat) (drop : Bool) : SameStrands s (s.scopeFlush n drop) := by
  obtain ⟨-, h⟩ | ⟨-, h⟩ | h := s.scopeFlush_cases n drop <;> rw [h]
  · exact .refl s
  · exact s.flushL1d_sameStrands ..
  · exact (s.flushL1d_sameStrands ..).trans (State.flushSlice_sameStrands ..)

theorem State.scopeFlush_l1d (s : State) {n : Nat} (hn : 1 ≤ n) (drop : Bool) :
    ((s.scopeFlush n drop).core (coreOfK s.cur)).l1d = flushed (fun _ => true) drop (s.core (coreOfK s.cur)).l1d := by
  obtain ⟨h0, -⟩ | ⟨-, h⟩ | h := s.scopeFlush_cases n drop
  · omega
  · rw [h, State.flushL1d_l1d]
  · rw [h, State.flushSlice_core, State.flushL1d_l1d]

theorem State.scopeFlush_slice (s : State) {n : Nat} (hn : 3 ≤ n) (drop : Bool) :
    ∃ ls, ((s.scopeFlush n drop).site (siteOfK s.cur)).slice = flushed (fun _ => true) drop ls := by
  obtain ⟨h0, -⟩ | ⟨h3, -⟩ | h := s.scopeFlush_cases n drop
  · omega
  · omega
  · rw [h]; exact ⟨_, State.flushSlice_slice ..⟩

/-- The caches of the issuing strand's core and pavilion hold no dirty byte. -/
def State.CachesClean (s : State) : Prop := Clean (s.core (coreOfK s.cur)).l1d ∧ Clean (s.site (siteOfK s.cur)).slice

/-- With clean caches the actions send nothing home. -/
theorem State.scopeFlush_clean (h : s.CachesClean) (n : Nat) (drop : Bool) :
    (s.scopeFlush n drop).CachesClean ∧ SameWriteBacks s (s.scopeFlush n drop) (siteOfK s.cur) := by
  obtain ⟨hl, hs⟩ := h
  obtain ⟨same, slice⟩ := s.flushL1d_clean hl (fun _ => true) drop (siteOfK s.cur)
  have cur := (s.scopeFlush_sameStrands n drop).cur
  have flushedClean : Clean ((s.flushL1d (coreOfK s.cur) (fun _ => true) drop).core (coreOfK s.cur)).l1d := by
    rw [State.flushL1d_l1d]; exact clean_flushed hl _ drop
  rw [State.CachesClean, cur]
  obtain ⟨-, e⟩ | ⟨-, e⟩ | e := s.scopeFlush_cases n drop <;> rw [e]
  · exact ⟨⟨hl, hs⟩, .of_eq rfl rfl⟩
  · exact ⟨⟨flushedClean, (slice _).symm ▸ hs⟩, same⟩
  · have clean : Clean ((s.flushL1d (coreOfK s.cur) (fun _ => true) drop).site (siteOfK s.cur)).slice := (slice _).symm ▸ hs
    rw [State.flushSlice_core, State.flushSlice_slice]
    exact ⟨⟨flushedClean, clean_flushed clean _ drop⟩, same.trans (State.flushSlice_clean clean ..)⟩

/-! ## The wait for the write-backs -/

/-- What `awaitFlush` leaves: memory, bits and the caches, and the strand goes on or parks (R106). -/
theorem State.awaitFlush_ends (h : SameStrands s t) (mode : Nat) (l : List Nat) :
    let u := t.awaitFlush mode 4 l
    u.mem = s.mem ∧ u.full = s.full ∧ (∀ v, u.site v = t.site v) ∧ (∀ c, (u.core c).l1d = (t.core c).l1d) ∧
      (Passes s u 4 ∨ (u.me.st = .parked ∧ u.me.why = some .fence ∧ u.me.pc = s.me.pc ∧ u.me.regs = s.me.regs)) := by
  unfold State.awaitFlush
  split_ifs
  · refine ⟨h.mem, h.full, fun _ => rfl, fun _ => rfl, .inl ?_⟩
    rw [Passes, State.pass, State.me_modStrand, h.me]
  · refine ⟨h.mem, h.full, fun _ => rfl, fun c => State.core_count_keeps Core.l1d (fun _ _ _ => rfl) .., .inr ?_⟩
    rw [me_park, h.me]
    exact ⟨rfl, rfl, rfl, rfl⟩

/-! ## Fences -/

theorem State.fence_busy (h : s.me.tracker ≠ []) (mode n : Nat) (act : State → State) : s.fence mode n act = s.park s.cur .relaxedWait .reissue :=
  if_neg (by simpa using h)

theorem State.fence_idle (h : s.me.tracker = []) (mode n : Nat) (act : State → State) :
    s.fence mode n act = (act s).awaitFlush mode 4 ((act s).fenceTxns n) := if_pos (by simp [h])

theorem parks_relaxedWait (s : State) (c : Cont) : Parks s (s.park s.cur .relaxedWait c) .relaxedWait c := by
  rw [Parks, me_park]
  exact ⟨rfl, rfl, rfl, rfl, rfl, rfl, rfl⟩

/-- A fence whose write-backs are over lets its strand go on, where it does not wait for the host (R106). -/
theorem State.awaitFlush_passes (h : SameStrands s t) {n : Nat} (same : SameWriteBacks s t (siteOfK s.cur))
    (done : s.unwritten (siteOfK s.cur) (s.fenceTxns n) = false) : Passes s (t.awaitFlush 0 4 (t.fenceTxns n)) 4 := by
  have txns : t.fenceTxns n = s.fenceTxns n := by rw [State.fenceTxns, State.fenceTxns, h.cur, same.writeBacks]
  have ready : t.fenceReady t.cur 0 (t.fenceTxns n) = true := by
    rw [State.fenceReady, txns, h.cur, same.unwritten, done]; rfl
  rw [State.awaitFlush, if_pos ready, Passes, State.pass, State.me_modStrand, h.me]

end Sys2Proof.Machine
end

section
/-! The fences, `inv` and `wb` (R103, R105, R106, R307), and the statement about them. -/

namespace Sys2Proof.Machine

open Sys2Proof Sys2Proof.Spec

variable {s t : State}

/-! ## Fences (R103, R106) -/

/-- What a fence of scope n leaves of everything but the caches: memory and bits, and a strand that goes on or waits (R106). -/
def FenceEnds (s t : State) (n : Nat) : Prop :=
  t.mem = s.mem ∧ t.full = s.full ∧
    (Passes s t 4 ∨ (t.me.st = .parked ∧ t.me.why = some .fence ∧ t.me.pc = s.me.pc ∧ t.me.regs = s.me.regs)) ∧
    (Clean (s.core (coreOfK s.cur)).l1d → Clean (s.site (siteOfK s.cur)).slice → s.unwritten (siteOfK s.cur) (s.fenceTxns n) = false → n < 4 →
      Passes s t 4)

/-- A fence performs its actions and waits for the write-backs; the caches are as the actions leave them (R106). -/
theorem exec_fence {i : Instr} {mode n : Nat} {act : State → State} (hi : exec i s = .next (s.fence mode n act)) (hm : n < 4 → mode = 0)
    (ht : s.me.tracker = []) (same : SameStrands s (act s)) (quiet : s.CachesClean → SameWriteBacks s (act s) (siteOfK s.cur)) :
    ∃ t, exec i s = .next t ∧ FenceEnds s t n ∧ (∀ c, (t.core c).l1d = ((act s).core c).l1d) ∧ ∀ v, t.site v = (act s).site v := by
  rw [State.fence_idle ht] at hi
  obtain ⟨mem, full, site, l1d, ends⟩ := State.awaitFlush_ends same mode ((act s).fenceTxns n)
  refine ⟨_, hi, ⟨mem, full, ends, fun hl hs done hn => ?_⟩, l1d, site⟩
  rw [hm hn]
  exact State.awaitFlush_passes same (quiet ⟨hl, hs⟩) done

/-- Only a fence of the system's scope waits for the host (R106, R120, R121). -/
theorem hostMode_eq_zero (g : BitVec 3) (m : Nat) (h : g.toNat < 4) : (if g = 4 then m else 0) = 0 :=
  if_neg fun hg => by rw [hg] at h; exact absurd h (by decide)

variable (ht : s.me.tracker = []) (g : BitVec 3)
include ht

theorem exec_fenceAcq : ∃ t, exec (.fenceAcq g) s = .next t ∧ FenceEnds s t g.toNat ∧ (1 ≤ g.toNat → (t.core (coreOfK s.cur)).l1d = []) ∧
    (3 ≤ g.toNat → (t.site (siteOfK s.cur)).slice = []) := by
  obtain ⟨t, hi, ends, l1d, site⟩ := exec_fence (i := .fenceAcq g) (act := fun s => s.scopeFlush g.toNat true) (by rfl) (hostMode_eq_zero g 2) ht
    (s.scopeFlush_sameStrands ..) fun h => (State.scopeFlush_clean h ..).2
  refine ⟨t, hi, ends, fun hn => ?_, fun hn => ?_⟩
  · rw [l1d, s.scopeFlush_l1d hn, flushed_all]
  · obtain ⟨ls, slice⟩ := s.scopeFlush_slice hn true
    rw [site, slice, flushed_all]

theorem exec_fenceRel : ∃ t, exec (.fenceRel g) s = .next t ∧ FenceEnds s t g.toNat ∧ (1 ≤ g.toNat → Clean (t.core (coreOfK s.cur)).l1d) ∧
    (3 ≤ g.toNat → Clean (t.site (siteOfK s.cur)).slice) ∧
    ((∀ l ∈ (s.core (coreOfK s.cur)).l1d, l.flaw = 0) →
      (t.core (coreOfK s.cur)).l1d.map (·.line) = (s.core (coreOfK s.cur)).l1d.map (·.line)) := by
  obtain ⟨t, hi, ends, l1d, site⟩ := exec_fence (i := .fenceRel g) (act := fun s => s.scopeFlush g.toNat false) (by rfl) (hostMode_eq_zero g 1) ht
    (s.scopeFlush_sameStrands ..) fun h => (State.scopeFlush_clean h ..).2
  refine ⟨t, hi, ends, fun hn => ?_, fun hn => ?_, fun sound => ?_⟩
  · rw [l1d, s.scopeFlush_l1d hn]
    exact fun l hl => dirty_flushed hl rfl
  · obtain ⟨ls, slice⟩ := s.scopeFlush_slice hn false
    rw [site, slice]
    exact fun l hl => dirty_flushed hl rfl
  · rw [l1d]
    obtain h0 | hn : g.toNat = 0 ∨ 1 ≤ g.toNat := by omega
    · rw [h0]; rfl
    · rw [s.scopeFlush_l1d hn, lines_flushed sound]

theorem exec_fenceAr : ∃ t, exec (.fenceAr g) s = .next t ∧ FenceEnds s t g.toNat ∧ (1 ≤ g.toNat → (t.core (coreOfK s.cur)).l1d = []) ∧
    (3 ≤ g.toNat → (t.site (siteOfK s.cur)).slice = []) := by
  have released := s.scopeFlush_sameStrands g.toNat false
  obtain ⟨t, hi, ends, l1d, site⟩ := exec_fence (i := .fenceAr g) (act := fun s => (s.scopeFlush g.toNat false).scopeFlush g.toNat true) (by rfl)
    (hostMode_eq_zero g 3) ht (released.trans (State.scopeFlush_sameStrands ..)) fun h => by
      obtain ⟨clean, same⟩ := State.scopeFlush_clean h g.toNat false
      exact same.trans (released.cur ▸ (State.scopeFlush_clean clean g.toNat true).2)
  refine ⟨t, hi, ends, fun hn => ?_, fun hn => ?_⟩
  · rw [l1d, ← released.cur, State.scopeFlush_l1d _ hn, flushed_all]
  · obtain ⟨ls, slice⟩ := (s.scopeFlush g.toNat false).scopeFlush_slice hn true
    rw [site, ← released.cur, slice, flushed_all]

omit ht

/-- With a relaxed access outstanding `wait.r` and the fences wait (R103, R106). -/
theorem exec_fence_waits (h : s.me.tracker ≠ []) :
    ∀ i ∈ [Instr.waitR, .fenceAcq g, .fenceRel g, .fenceAr g], ∃ t k, exec i s = .next t ∧ Parks s t .relaxedWait k := by
  have busy {i : Instr} {mode : Nat} {act : State → State} (hi : exec i s = .next (s.fence mode g.toNat act)) :
      ∃ t k, exec i s = .next t ∧ Parks s t .relaxedWait k := ⟨_, _, hi.trans (congrArg _ (State.fence_busy h ..)), parks_relaxedWait ..⟩
  have waits : exec .waitR s = .next (s.park s.cur .relaxedWait (.done 4)) := congrArg Host.Outcome.next (if_neg (by simpa using h))
  simp only [List.forall_mem_cons]
  exact ⟨⟨_, _, waits, parks_relaxedWait ..⟩, busy (by rfl), busy (by rfl), busy (by rfl), nofun⟩

/-! ## Range instructions (R307) -/

/-- The numbers of the lines of a byte range. -/
def linesOf (a : Addr) (n l : Nat) : Bool := decide (a.toNat / 128 ≤ l ∧ l ≤ (a.toNat + n - 1) / 128)

theorem linesOf_line (a : Addr) (n : Nat) (l : Line) : linesOf a n l.line = lineIn a n l := Bool.decide_and ..

/-- The flush of a byte range: the L1D of the issuing core, then the slice (R307). -/
def State.rangeFlush (s : State) (a : Addr) (n : Nat) (drop : Bool) : State :=
  (s.flushL1d (coreOfK s.cur) (linesOf a n) drop).flushSlice (siteOfK s.cur) (linesOf a n) drop

theorem State.rangeFlush_sameStrands (s : State) (a : Addr) (n : Nat) (drop : Bool) : SameStrands s (s.rangeFlush a n drop) :=
  (s.flushL1d_sameStrands ..).trans (State.flushSlice_sameStrands ..)

section Range

variable {d x : BitVec 8} {g : BitVec 3} {o : BitVec 5} {a : Addr} (hr : Ready s [d, x]) (drop : Bool)
include hr

/-- A length of 0 and an address without lines only move on (R307). -/
theorem State.range_passes (h : (s.val d).toNat = 0 ∨
      (s.checkAccess s.cur (s.me.seg g.toNat) (mOff x o 128 s) (s.val d).toNat rR 1 = .ok a ∧ kindBits a.toNat ≠ 0)) :
    s.range d x g o drop = went s (s.me.pc + 4) := by
  refine (State.issue_two hr).trans ?_
  by_cases hn : (s.val d).toNat = 0
  · exact if_pos hn
  · obtain ⟨hc, hk⟩ := h.resolve_left hn
    refine (if_neg hn).trans ?_
    rw [State.offM, ← mOff, hc]
    exact if_pos hk

theorem State.range_faults {e : Code} {b : Option Addr} (hn : (s.val d).toNat ≠ 0)
    (hc : s.checkAccess s.cur (s.me.seg g.toNat) (mOff x o 128 s) (s.val d).toNat rR 1 = .error (e, b)) (hk : slotOf s.cur ≠ walkSlot) :
    s.range d x g o drop = s.takeFault s.cur { code := e, addr := b, pc := s.me.pc } := by
  refine (State.issue_two hr).trans ((if_neg hn).trans ?_)
  rw [State.offM, ← mOff, hc]
  exact if_neg fun h => hk h.1

variable (hn : (s.val d).toNat ≠ 0) (hc : s.checkAccess s.cur (s.me.seg g.toNat) (mOff x o 128 s) (s.val d).toNat rR 1 = .ok a)
  (hk : kindBits a.toNat = 0)
include hn hc hk

/-- Over a heap range the lines are flushed, and the strand waits for their write-backs (R307). -/
theorem State.range_flushes :
    let t := s.rangeFlush a (s.val d).toNat drop
    s.range d x g o drop = t.awaitFlush 0 4 (t.writeBacks (siteOfK t.cur) [coreNo t.cur] true (linesOf a (s.val d).toNat)) := by
  refine (State.issue_two hr).trans ((if_neg hn).trans ?_)
  rw [State.offM, ← mOff, hc]
  exact if_neg (not_not.2 hk)

/-- The caches after a range instruction: both are flushed of the range, the slice with what has come to it from the L1D. -/
theorem State.range_caches :
    let t := s.range d x g o drop
    let p := linesOf a (s.val d).toNat
    t.mem = s.mem ∧ t.full = s.full ∧ t.me.regs = s.me.regs ∧ (t.core (coreOfK s.cur)).l1d = flushed p drop (s.core (coreOfK s.cur)).l1d ∧
      (t.site (siteOfK s.cur)).slice = flushed p drop ((s.flushL1d (coreOfK s.cur) p drop).site (siteOfK s.cur)).slice := by
  intro t p
  obtain ⟨mem, full, site, l1d, ends⟩ := State.awaitFlush_ends (s.rangeFlush_sameStrands a (s.val d).toNat drop) 0 _
  rw [← State.range_flushes hr drop hn hc hk] at mem full site l1d ends
  refine ⟨mem, full, ?_, ?_, ?_⟩
  · obtain goes | ⟨-, -, -, regs⟩ := ends
    · rw [goes]
    · exact regs
  · rw [l1d, State.rangeFlush, State.flushSlice_core, State.flushL1d_l1d]
  · rw [site, State.rangeFlush, State.flushSlice_slice]

theorem exec_inv : ∃ t, exec (.inv d x g o) s = .next t ∧ t.mem = s.mem ∧ t.full = s.full ∧ t.me.regs = s.me.regs ∧
    (t.core (coreOfK s.cur)).l1d = (s.core (coreOfK s.cur)).l1d.filter (fun l => !lineIn a (s.val d).toNat l) ∧
    (t.site (siteOfK s.cur)).slice = (s.site (siteOfK s.cur)).slice.filter (fun l => !lineIn a (s.val d).toNat l) := by
  obtain ⟨mem, full, regs, l1d, slice⟩ := State.range_caches hr true hn hc hk
  rw [flushed_drop] at l1d slice
  rw [State.flushL1d_slice] at slice
  simp only [linesOf_line] at l1d slice
  exact ⟨_, by rfl, mem, full, regs, l1d, slice⟩

theorem exec_wb : ∃ t, exec (.wb d x g o) s = .next t ∧ t.mem = s.mem ∧ t.full = s.full ∧ t.me.regs = s.me.regs ∧
    (∀ l ∈ (t.core (coreOfK s.cur)).l1d, lineIn a (s.val d).toNat l = true → l.dirty = 0) ∧
    (∀ l ∈ (t.site (siteOfK s.cur)).slice, lineIn a (s.val d).toNat l = true → l.dirty = 0) := by
  obtain ⟨mem, full, regs, l1d, slice⟩ := State.range_caches hr false hn hc hk
  refine ⟨_, by rfl, mem, full, regs, fun l hl hin => ?_, fun l hl hin => ?_⟩
  · exact dirty_flushed (l1d ▸ hl) ((linesOf_line ..).trans hin)
  · exact dirty_flushed (slice ▸ hl) ((linesOf_line ..).trans hin)

end Range

/-- Settles O27: the waits of the fences, their actions scope by scope, and the range instructions. -/
theorem fences : Obligations.Fences := by
  refine ⟨fun g s _ => ⟨exec_fence_waits g, fun ht => ⟨?_, exec_fenceAcq ht g, ?_, exec_fenceAr ht g⟩⟩, fun d x g o s a hr =>
    ⟨fun h => ⟨?_, ?_⟩, fun e b hn hc hk => ?_, fun hn hc hk => ⟨exec_inv hr hn hc hk, exec_wb hr hn hc hk⟩⟩⟩
  · exact congrArg Host.Outcome.next (if_pos (by simp [ht]))
  · exact exec_fenceRel ht g
  · exact congrArg Host.Outcome.next (State.range_passes hr true h)
  · exact congrArg Host.Outcome.next (State.range_passes hr false h)
  · simp only [List.forall_mem_cons]
    exact ⟨congrArg Host.Outcome.next (State.range_faults hr true hn hc hk), congrArg Host.Outcome.next (State.range_faults hr false hn hc hk), nofun⟩

end Sys2Proof.Machine
end

section
/-! The link of a site off the grid (R13, R408): a state outside the module, which the statement admits. -/

namespace Sys2Proof.Machine

open Sys2Proof Sys2Proof.Spec

/-- An end of a link without a neighbour behind it goes down with its event alone: no link changes. -/
theorem State.site_linkDown_alone {s : State} {v d : Nat} (h : neighbour v d = none) (x : Mesh) (w : Nat) :
    ((s.linkDown v d x).site w).links = (s.site w).links := by
  unfold State.linkDown State.dropLink
  rw [h]
  refine (congrArg Site.links (State.site_setSite ..)).trans ?_
  split_ifs with hw
  · rw [hw]
  · rfl

/-- A flit of which a sending has failed its check (R408). -/
def failingFlit : Flit := { seq := 0, msg := { id := 0, op := .data, src := 19, dst := 20 }, hit := true }

/-- The link between site 19, the last of the grid's first row, and site 20, which would stand east of it: a flit that has failed once is on its way to
site 20. -/
def linkOffGrid : State :=
  { State.reset with
    sites := [(19, { links := [(linkKey 1 .oak, { wire := [failingFlit] })] }), (20, { links := [(linkKey 3 .oak, { up := true })] })] }

/-- The flit's second failure: the event is raised at site 19, which has no neighbour in the east (R408). -/
theorem exec_linkCrcError_offGrid : ∃ u : State, exec (.linkCrcError 20 3 .oak) linkOffGrid = .next (u.linkDown 19 1 .oak) ∧
    ((u.site 20).link 3 .oak).dead = false :=
  ⟨_, by rfl, by decide⟩

/-- Refutes O58: site 20 is not on the grid, its neighbour in the west is site 19, and site 19 has none in the east. The second failure of a flit between
them takes no link down, where the statement says that both ends go down. (The sites of the module are those of the grid, R13.) -/
theorem not_linksAndMerging : ¬ Obligations.LinksAndMerging := by
  intro ⟨⟨_, errors, _⟩, _⟩
  obtain ⟨-, -, twice, -⟩ := errors linkOffGrid 20 3 19 .oak (by decide) (by decide)
  obtain ⟨t, ht, -, ⟨dead, -⟩, -⟩ := twice failingFlit [] (by decide) (by decide) (by decide) (by decide) (by decide)
  obtain ⟨u, hu, alive⟩ := exec_linkCrcError_offGrid
  obtain rfl := Host.Outcome.next.inj (hu.symm.trans ht)
  rw [Site.link, State.site_linkDown_alone (by decide), ← Site.link, alive] at dead
  exact Bool.noConfusion dead

end Sys2Proof.Machine
end

section
/-! A step of the schedule: the cycle of a core whose position issues, and the event at the head of the agenda (R122, R123, R252, R430, log 1). -/

namespace Sys2Proof.Machine

open Sys2Proof Sys2Proof.Spec

variable {s t u : State} {c k : Nat} {rest : List Sched} {i : Instr}

/-! ## The turn of a strand (R122, R123) -/

theorem State.modStrand_modStrand (s : State) (k : Nat) (f g : Strand → Strand) : (s.modStrand k f).modStrand k g = s.modStrand k fun x => g (f x) := by
  have written : (s.modStrand k f).strand k = f (s.strand k) := by rw [State.strand_modStrand, if_pos rfl]
  simp only [State.modStrand, State.setStrand, Tab.put_put]
  exact congrArg (fun x => { s with strands := Tab.put k (g x) s.strands }) written

/-- A strand written before, to which no late fault has come, has none that is stale. -/
theorem State.dropStale_modStrand {f : Strand → Strand} (h : (f (s.strand k)).late = []) : (s.modStrand k f).dropStale k = s.modStrand k f := by
  have kept : { f (s.strand k) with late := (f (s.strand k)).late.filter fun e => e.code != Code.pageFault.num } = f (s.strand k) := by
    rw [h, List.filter_nil, ← h]
  unfold State.dropStale
  split_ifs
  · rfl
  · rw [State.modStrand_modStrand]
    exact congrArg (s.setStrand k) kept

/-- The turn of a position that issues is the fetch of its instruction (R122-R124). -/
theorem turn_of_issues (h : Issues s c k) : State.turn { s with cur := k, agenda := rest, batch := s.nextId } k = (atTurn s k rest).fetchInstr k := by
  obtain ⟨rfl, hcopy, hmember, hst, hgang, hlate, hwalk⟩ := h
  have hc : coreOfK (slotKey c ((s.core c).cycle % 16)) = c := by unfold coreOfK slotKey; omega
  generalize slotKey c ((s.core c).cycle % 16) = k at *
  have me : (atTurn s k rest).strand k = { s.strand k with st := .ready } := by
    refine (State.strand_modStrand ..).trans (if_pos rfl)
  have ready : State.dropStale (State.modStrand { s with cur := k, agenda := rest, batch := s.nextId } k fun x => { x with st := .ready }) k = atTurn s k rest :=
    State.dropStale_modStrand hlate
  have running : ¬(slotOf k < 13 ∧ ((atTurn s k rest).gang (siteOfK k) ((atTurn s k rest).strand k).entry).halting) := fun ⟨hs, hh⟩ => by
    rw [me] at hh
    exact Bool.noConfusion ((hgang hs).symm.trans hh)
  have served : ¬(slotOf k = walkSlot ∧ ((atTurn s k rest).core (coreOfK k)).misses.isEmpty) := fun ⟨hs, hm⟩ => by
    rw [hc] at hm
    exact hwalk hs (List.isEmpty_iff.1 hm)
  have issues : State.turn { s with cur := k, agenda := rest, batch := s.nextId } k = State.strandTurn { s with cur := k, agenda := rest, batch := s.nextId } k := by
    unfold State.turn
    rw [hc]
    exact (if_neg (Bool.eq_false_iff.1 hmember)).trans ((if_neg hcopy).trans (if_pos hst))
  rw [issues, State.strandTurn, ready, me, hlate, if_neg (by simp), if_neg (by rw [← me]; exact running), if_neg served]

/-! ## The fetch of an instruction (R252) -/

theorem fetchInstr_word {a : Nat} {w : List Byte} (hf : s.fetchWord k (s.strand k).pc = .word a w) (hl : isLong (BitVec.ofNat 32 (leNat w)) = false)
    (hd : decode w = .ok (i, [])) (hi : i.wf = true) : s.fetchInstr k = .issue i (s.readClean (coreOfK k) a) := by
  simp only [State.fetchInstr, hf, hl, hd, hi, if_true, Bool.false_eq_true, if_false]

theorem fetchInstr_words {a b : Nat} {w v : List Byte} (hf : s.fetchWord k (s.strand k).pc = .word a w)
    (hl : isLong (BitVec.ofNat 32 (leNat w)) = true) (hg : (s.readClean (coreOfK k) a).fetchWord k ((s.strand k).pc + 4) = .word b v)
    (hd : decode (w ++ v) = .ok (i, [])) (hi : i.wf = true) :
    s.fetchInstr k = .issue i ((s.readClean (coreOfK k) a).readClean (coreOfK k) b) := by
  simp only [State.fetchInstr, hf, hl, hg, hd, hi, if_true]

/-! ## A step -/

theorem step_cycle (h : NextIs s c rest) : step s = runCycle exec c { s with agenda := rest, batch := s.nextId } := by
  unfold step runStep
  rcases h with h | ⟨h, rfl, rfl⟩
  · simp only [h]
    rfl
  · simp only [h]

theorem runCycle_issues {ex : Instr → State → Out} (ht : State.turn { s with cur := s.dueStrand c } (s.dueStrand c) = .issue i t) (hx : ex i t = .next u) :
    runCycle ex c s = .next ((u.issued (s.dueStrand c) i).endTurn c) := by
  unfold runCycle
  dsimp only
  rw [ht]
  dsimp only
  rw [hx]

/-- The step of a position that issues: exec of its instruction, then the end of the cycle (R122, R123). -/
theorem step_issues (h : NextIs s c rest) (hk : Issues s c k) (hf : (atTurn s k rest).fetchInstr k = .issue i t) (hx : exec i t = .next u) :
    step s = .next ((u.issued k i).endTurn c) := by
  have turn := (turn_of_issues hk).trans hf
  obtain ⟨rfl, -⟩ := hk
  exact (step_cycle h).trans (runCycle_issues turn hx)

/-- Settles O4: the word or words at pc are fetched and decoded, and what they decode to is run in the turn. -/
theorem stepRunsWord : Obligations.StepRunsWord := by
  intro s c k rest i u hnext hk hwf t
  have pc : (t.strand k).pc = (s.strand k).pc := by
    rw [show t.strand k = { s.strand k with st := .ready } from (State.strand_modStrand ..).trans (if_pos rfl)]
  rw [← pc]
  exact ⟨fun a w hf hl hd hx => step_issues hnext hk (fetchInstr_word hf hl hd hwf) hx,
    fun a w b v hf hl hg hd hx => step_issues hnext hk (fetchInstr_words hf hl hg hd hwf) hx⟩

theorem step_event (h : s.agenda = .event i :: rest) : step s = runEvent exec i { s with agenda := rest, batch := s.nextId } := by
  unfold step runStep
  simp only [h]
  rfl

/-- Settles O5: an event is run where it stands at the head of the agenda, and an instruction or a thing of a position's turn is not. -/
theorem stepRunsEvent : Obligations.StepRunsEvent := by
  intro s i rest h
  rw [step_event h, runEvent]
  refine ⟨fun he ht => if_pos ?_, fun hi => if_neg ?_⟩
  · rw [he, ht]
    rfl
  · rcases hi with he | ht
    · cases hn : encode i with
      | nil => exact absurd hn he
      | cons w l => exact Bool.false_ne_true
    · simp [ht]

end Sys2Proof.Machine
end

section
/-! Relaxed accesses to placed and host addresses, the full tracker, and accesses that fail their checks (R78, R135, R226, R290, R297, R300). -/

namespace Sys2Proof.Machine

open Sys2Proof Sys2Proof.Spec

variable {s : State} {a : Addr} {d x : BitVec 8} {g : BitVec 3} {o : BitVec 5}

/-! ## Accesses past the L1D (R86, R291) -/

theorem cacheable_placed {q : Acc} (h : kindBits q.addr.toNat ≠ 0) : q.cacheable = false := by simp [Acc.cacheable, h]

theorem cacheable_amo {q : Acc} {op : AmoOp} (h : q.op = .amo op) : q.cacheable = false := by simp [Acc.cacheable, h]

theorem eventWait_uncacheable {q : Acc} (h : q.cacheable = false) : s.eventWait q = none := by simp [State.eventWait, State.l1dStalled, h]

theorem hitsL1d_uncacheable {q : Acc} (h : q.cacheable = false) : s.hitsL1d q = false := by simp [State.hitsL1d, h]

/-! ## Relaxed accesses (R135, R297) -/

/-- The tracker entry that a relaxed access of the issuing strand takes (R135). -/
def State.trackOf (s : State) (a : Addr) (size : Nat) (dest : Option Nat) : Track :=
  { id := s.nextId, granule := (s.granulesOf (siteOfK s.cur) a size).headD 0, dest, pc := s.me.pc }

section

variable {r : Reach} {q : Acc} (dest : Option Nat) (hr : Reaches s r.seg r.off r.size r.need r.align a)
  (hq : Acc.cacheable { q with addr := a, size := r.size } = false)
include hr hq

/-- With an entry free, a relaxed access takes it and is sent, and the strand goes on (R135, R297). -/
theorem State.relaxedAccess_sends (ht : s.me.tracker.length < 8) : s.relaxedAccess r q dest =
    ((State.modStrand { s.takePermit (coreOfK s.cur) .memory with nextId := s.nextId + 1 } s.cur fun x =>
        { x with tracker := x.tracker ++ [s.trackOf a r.size dest],
                 pend := (match dest with | some r => r :: x.pend | none => x.pend) }).modStrand s.cur fun x =>
        { x with pc := x.pc + 4 }).sendAccess
      { q with addr := a, size := r.size, pc := s.me.pc, k := s.cur, seg := r.seg, sup := s.me.sup, owner := .relaxed s.cur s.nextId } := by
  obtain ⟨hp, hc, hb⟩ := hr
  have free : ¬(8 ≤ s.me.tracker.length ∧ !s.hitsL1d { q with addr := a, size := r.size }) := fun ⟨full, _⟩ => absurd ht (Nat.not_lt.2 full)
  unfold State.relaxedAccess
  refine (State.reach_ok _ _ _ hp hc hb ?_).trans ((if_neg ?_).trans rfl)
  · rw [eventWait_uncacheable (q := { q with addr := a }) hq]
    exact if_neg free
  · exact Bool.eq_false_iff.1 hq

/-- With all eight entries taken, the strand waits and has not issued (R102, R135, R162). -/
theorem State.relaxedAccess_waits (ht : 8 ≤ s.me.tracker.length) : s.relaxedAccess r q dest = s.park s.cur .relaxedFull .reissue := by
  obtain ⟨hp, hc, hb⟩ := hr
  unfold State.relaxedAccess
  refine State.reach_own _ _ _ hp hc hb ?_
  rw [eventWait_uncacheable (q := { q with addr := a }) hq]
  exact if_pos ⟨ht, by rw [hitsL1d_uncacheable hq]; rfl⟩

end

/-- An instruction whose body is a relaxed access asks for it (R135, R297). -/
theorem asksRelaxed {i : Instr} {names : List (BitVec 8)} {g size need : Nat} {off : State → Nat} {q : State → Acc} {dest : Option Nat}
    (hi : ∀ s, Ready s names → exec i s = .next (s.relaxedAccess { seg := g, off := off s, size, need, align := size } (q s) dest)) :
    AsksRelaxed i names g off size need q dest :=
  fun s a hready hr hk ht => ⟨s.trackOf a size dest, rfl, rfl, rfl,
    (hi s hready).trans (congrArg _ (State.relaxedAccess_sends dest hr (cacheable_placed hk) ht))⟩

theorem ldr64_asks : AsksRelaxed (.ldr64 d x g o) [d, x] g.toNat (mOff x o 8) 8 rR (fun _ => { op := .read, kind := 0x04 }) (some d.toNat) :=
  asksRelaxed fun _ hready => congrArg _ (State.issue_two hready)

theorem str64_asks : AsksRelaxed (.str64 d x g o) [d, x] g.toNat (mOff x o 8) 8 rW
    (fun s => { op := .write, data := leBytes 8 (s.val d).toNat, en := 2 ^ 8 - 1, kind := 0x05 }) none :=
  asksRelaxed fun _ hready => congrArg _ (State.issue_two hready)

theorem exec_amoForms : ∀ p ∈ amoForms d x g o, ∀ s, p.2.2 = p.2.1.size ∧ exec p.1 s = .next (s.amoM p.2.1 d x g o) := by
  simp only [amoForms, List.forall_mem_cons, List.not_mem_nil, false_imp_iff, implies_true, and_true]
  and_intros <;> exact fun _ => ⟨rfl, rfl⟩

/-- A non-fetching atomic of a ready strand is a relaxed access (R300). -/
theorem amoForms_relaxed : ∀ p ∈ amoForms d x g o, ∀ s, Ready s [d, x] → exec p.1 s = .next
    (s.relaxedAccess { seg := g.toNat, off := mOff x o p.2.2 s, size := p.2.2, need := rW + rA, align := p.2.2 }
      { op := .amo p.2.1, data := leBytes p.2.2 (s.val d).toNat, en := 2 ^ p.2.2 - 1, kind := 0x06 } none) := by
  intro p hp s hready
  obtain ⟨hsize, hi⟩ := exec_amoForms p hp s
  rw [State.amoM, State.issue_two hready] at hi
  rw [hsize]
  exact hi

theorem amoForms_ask : ∀ p ∈ amoForms d x g o, AsksRelaxed p.1 [d, x] g.toNat (mOff x o p.2.2) p.2.2 (rW + rA)
    (fun s => { op := .amo p.2.1, data := leBytes p.2.2 (s.val d).toNat, en := 2 ^ p.2.2 - 1, kind := 0x06 }) none :=
  fun p hp => asksRelaxed (amoForms_relaxed p hp)

theorem amoForms_wait : ∀ p ∈ amoForms d x g o, ∀ s a, Ready s [d, x] → Reaches s g.toNat (mOff x o p.2.2 s) p.2.2 (rW + rA) p.2.2 a →
    8 ≤ s.me.tracker.length → ∃ t, exec p.1 s = .next t ∧ t.me.st = .parked ∧ t.me.why = some .relaxedFull ∧ t.me.pc = s.me.pc ∧
      t.me.regs = s.me.regs := by
  intro p hp s a hready hr ht
  obtain ⟨st, why, -, pc, regs, -⟩ := park_parks s .relaxedFull .reissue
  refine ⟨_, (amoForms_relaxed p hp s hready).trans (congrArg _ (State.relaxedAccess_waits none hr ?_ ht)), st, why, pc, regs⟩
  exact cacheable_amo rfl

/-! ## Accesses that do not reach their address (R78, R226, R290) -/

theorem State.faultAt_strand (hw : slotOf s.cur ≠ walkSlot) (c : Code) (a : Option Addr) (kind : Nat) :
    s.faultAt c a kind = s.takeFault s.cur { code := c, addr := a, pc := s.me.pc, kind } :=
  if_neg fun ⟨walk, _⟩ => hw walk

/-- A plain access that fails a check takes its fault (R78, R290). -/
theorem State.plain_faults {r : Reach} {q : Acc} {k : Cont} {c : Code} {a : Option Addr} (hw : slotOf s.cur ≠ walkSlot)
    (hp : s.hasPermit (coreOfK s.cur) .memory = true)
    (hc : s.checkAccess s.cur (s.me.seg r.seg) r.off r.size r.need r.align = .error (c, a)) :
    s.plain r q k = (s.takePermit (coreOfK s.cur) .memory).takeFault s.cur { code := c, addr := a, pc := s.me.pc, kind := q.kind } :=
  (State.reach_fault _ _ _ hp hc).trans (State.faultAt_strand (s := s.takePermit (coreOfK s.cur) .memory) hw ..)

/-- What a plain access comes to that does not reach its address: the fault of its check, or a wait for a permit (R78, R226, R290). -/
theorem plain_unreached {i : Instr} {r : Reach} {q : Acc} {k : Cont} {c : Code} {a : Option Addr} (hi : exec i s = .next (s.plain r q k))
    (hw : slotOf s.cur ≠ walkSlot) :
    (s.hasPermit (coreOfK s.cur) .memory = true → s.checkAccess s.cur (s.me.seg r.seg) r.off r.size r.need r.align = .error (c, a) →
      exec i s = .next ((s.takePermit (coreOfK s.cur) .memory).takeFault s.cur { code := c, addr := a, pc := s.me.pc, kind := q.kind })) ∧
    (s.hasPermit (coreOfK s.cur) .memory = false → exec i s = .next (s.held s.cur)) :=
  ⟨fun hp hc => hi.trans (congrArg _ (State.plain_faults hw hp hc)), fun hp => hi.trans (congrArg _ (State.reach_held _ _ _ _ hp))⟩

theorem loadForms_plain : ∀ p ∈ loadForms d x g o, ∀ s, Ready s [d, x] → exec p.1 s = .next
    (s.plain { seg := g.toNat, off := mOff x o p.2.2 s, size := p.2.2, need := rR, align := p.2.2 } { op := .read, kind := 0x02 }
      (.load p.2.1 d.toNat 4)) := by
  intro p hp s hready
  obtain ⟨hsize, hi⟩ := exec_loadForms p hp s
  rw [State.loadM, State.issue_two hready] at hi
  rw [hsize]
  exact hi

theorem storeForms_plain : ∀ p ∈ storeForms d x g o, ∀ s, Ready s [d, x] → exec p.1 s = .next
    (s.plain { seg := g.toNat, off := mOff x o p.2 s, size := p.2, need := rW, align := p.2 }
      { op := .write, data := leBytes p.2 (s.val d).toNat, en := allOn p.2, kind := 0x03 } (.done 4)) := by
  intro p hp s hready
  have hi := exec_storeForms p hp s
  rw [State.storeM, State.issue_two hready] at hi
  exact hi

theorem loadForms_unreached (hready : Ready s [d, x]) (hw : slotOf s.cur ≠ walkSlot) (c : Code) (a : Option Addr) : ∀ p ∈ loadForms d x g o,
    (s.hasPermit (coreOfK s.cur) .memory = true → s.checkAccess s.cur (s.me.seg g.toNat) (mOff x o p.2.2 s) p.2.2 rR p.2.2 = .error (c, a) →
      exec p.1 s = .next ((s.takePermit (coreOfK s.cur) .memory).takeFault s.cur { code := c, addr := a, pc := s.me.pc, kind := 0x02 })) ∧
    (s.hasPermit (coreOfK s.cur) .memory = false → exec p.1 s = .next (s.held s.cur)) := by
  intro p hp
  have unreached := plain_unreached (c := c) (a := a) (loadForms_plain p hp s hready) hw
  exact unreached

theorem storeForms_unreached (hready : Ready s [d, x]) (hw : slotOf s.cur ≠ walkSlot) (c : Code) (a : Option Addr) : ∀ p ∈ storeForms d x g o,
    (s.hasPermit (coreOfK s.cur) .memory = true → s.checkAccess s.cur (s.me.seg g.toNat) (mOff x o p.2 s) p.2 rW p.2 = .error (c, a) →
      exec p.1 s = .next ((s.takePermit (coreOfK s.cur) .memory).takeFault s.cur { code := c, addr := a, pc := s.me.pc, kind := 0x03 })) ∧
    (s.hasPermit (coreOfK s.cur) .memory = false → exec p.1 s = .next (s.held s.cur)) := by
  intro p hp
  have unreached := plain_unreached (c := c) (a := a) (storeForms_plain p hp s hready) hw
  exact unreached

/-- Settles O22: relaxed accesses form by form, with an entry free and with none; then the loads and stores that do not reach their address. -/
theorem relaxedAndFaults : Obligations.RelaxedAndFaults :=
  ⟨fun _ _ _ _ => ⟨ldr64_asks, str64_asks, amoForms_ask, amoForms_wait⟩,
    fun _ _ _ _ _ c a hready hw => ⟨loadForms_unreached hready hw c a, storeForms_unreached hready hw c a⟩⟩

end Sys2Proof.Machine
end

section
/-! What a fault leaves of the strands and gangs that it does not concern (R59, R162, R373, R374). -/

namespace Sys2Proof.Machine

open Sys2Proof Sys2Proof.Spec

variable {s t u : State} {k : Nat}

/-- What a fault leaves as it was: the deadlines of the gangs, the claim-table entries of the strands, and an empty replay queue. -/
structure FaultLeaves (s t : State) : Prop where
  expired : ∀ v e, (t.gang v e).expired = (s.gang v e).expired
  entry : ∀ k, (t.strand k).entry = (s.strand k).entry
  replays : ∀ c, (s.core c).replays = [] → (t.core c).replays = []

theorem FaultLeaves.refl (s : State) : FaultLeaves s s := ⟨fun _ _ => rfl, fun _ => rfl, fun _ h => h⟩

theorem FaultLeaves.trans (h : FaultLeaves s t) (g : FaultLeaves t u) : FaultLeaves s u :=
  ⟨fun v e => (g.expired v e).trans (h.expired v e), fun k => (g.entry k).trans (h.entry k), fun c hc => g.replays c (h.replays c hc)⟩

theorem FaultLeaves.modStrand (s : State) (k : Nat) {f : Strand → Strand} (hf : ∀ x, (f x).entry = x.entry) : FaultLeaves s (s.modStrand k f) := by
  refine ⟨fun _ _ => rfl, fun j => ?_, fun _ h => h⟩
  rw [State.strand_modStrand]
  split_ifs with hj
  · rw [hf, hj]
  · rfl

theorem FaultLeaves.count (s : State) (c n m : Nat) : FaultLeaves s (s.count c n m) := by
  refine ⟨fun _ _ => rfl, fun _ => rfl, fun d h => ?_⟩
  rw [State.count, State.core_modCore]
  split_ifs with hd
  · exact hd ▸ h
  · exact h

theorem FaultLeaves.modStrand_count (s : State) (k c n m : Nat) {f : Strand → Strand} (hf : ∀ x, (f x).entry = x.entry) :
    FaultLeaves s ((s.modStrand k f).count c n m) := .trans (.modStrand s k hf) (.count ..)

theorem FaultLeaves.park (s : State) (k : Nat) (r : Park) (c : Cont) : FaultLeaves s (s.park k r c) := by
  unfold State.park
  exact .modStrand_count s k _ _ _ fun _ => rfl

theorem FaultLeaves.raise (s : State) (v u sev code : Nat) (n : Option Nat) (a : Addr) : FaultLeaves s (s.raise v u sev code n a) := by
  refine ⟨fun w e => ?_, fun _ => rfl, fun _ h => h⟩
  rw [State.gang, State.raise, State.site_setSite]
  split_ifs with hw
  · rw [hw]
    rfl
  · rfl

theorem FaultLeaves.stop (s : State) (k : Nat) : FaultLeaves s (s.stop k) := by
  refine .modStrand s k fun x => ?_
  split <;> rfl

theorem FaultLeaves.trapEntry (s : State) (k : Nat) (a : Addr) (n : Nat) : FaultLeaves s (s.trapEntry k a n) := by
  unfold State.trapEntry
  exact .modStrand s k fun _ => rfl

theorem FaultLeaves.faultRecord (s : State) (k : Nat) (f : Trouble) : FaultLeaves s (s.faultRecord k f) := by
  unfold State.faultRecord
  cases f.addr with
  | none => exact .trans (t := s.free.2) ⟨fun _ _ => rfl, fun _ => rfl, fun _ h => h⟩ (.modStrand_count s.free.2 k _ _ _ fun _ => rfl)
  | some a => exact .modStrand_count s k _ _ _ fun _ => rfl

theorem FaultLeaves.abortStrand (s : State) (k : Nat) : FaultLeaves s (s.abortStrand k) := by
  refine ⟨fun v e => ?_, fun j => ?_, fun c h => ?_⟩
  · obtain ⟨gangs, -⟩ := s.site_abortStrand k v
    rw [State.gang, gangs, State.gang]
  · rw [State.strand_abortStrand]
    split_ifs with hj
    · rw [hj, Strand.halted]
      split <;> rfl
    · rfl
  · rw [State.abortStrand, State.core_modCore]
    split_ifs with hc
    · change List.map _ (s.core (coreOfK k)).replays = []
      rw [← hc, h, List.map_nil]
    · exact h

theorem FaultLeaves.abortGang (s : State) (v e : Nat) : FaultLeaves s (s.abortGang v e) := by
  have marked : FaultLeaves s (s.modGang v e fun g => { g with st := .aborting, aborted := true }) := by
    refine ⟨fun w j => ?_, fun _ => rfl, fun _ h => h⟩
    rw [State.gang_modGang]
    split_ifs with hw
    · obtain ⟨rfl, rfl⟩ := hw
      rfl
    · rfl
  have freed (t : State) (f : Site → List (Nat × Trig)) : FaultLeaves t (t.modSite v fun x => { x with trigs := f x }) := by
    refine ⟨fun w j => ?_, fun _ => rfl, fun _ h => h⟩
    rw [State.gang, State.site_modSite]
    split_ifs with hw
    · rw [hw]
      rfl
    · rfl
  exact each_invariant (P := FaultLeaves s) (fun t k h => h.trans (.abortStrand t k)) _ (marked.trans (freed ..))

theorem FaultLeaves.ite {p : Prop} [Decidable p] (h : FaultLeaves s t) (g : FaultLeaves s u) : FaultLeaves s (if p then t else u) := by
  split_ifs
  · exact h
  · exact g

theorem FaultLeaves.faultAct (s : State) (k : Nat) (f : Late) : FaultLeaves s (s.faultAct k f) := by
  have trap : FaultLeaves s (s.faultTrap k f) := .ite (.ite (.park ..) (.trans (.raise ..) (.stop ..))) (.ite (.trapEntry ..) (.park ..))
  exact .ite trap (.ite (.park ..) (.trans (.raise ..) (.abortGang ..)))

/-- A fault leaves the deadline of the gang, and an empty replay queue, as they were (R59, R373, R374). -/
theorem FaultLeaves.takeFault (s : State) (k : Nat) (f : Trouble) : FaultLeaves s (s.takeFault k f) :=
  .trans (.faultRecord s k f) (.ite (.park ..) (.faultAct ..))

/-- A fault of a strand whose gang has no deadline behind it stops nothing more. -/
theorem State.testHalt_takeFault (h : (s.gang (siteOfK k) (s.strand k).entry).expired = false) (f : Trouble) :
    (s.takeFault k f).testHalt k = s.takeFault k f := by
  have leaves := FaultLeaves.takeFault s k f
  refine State.testHalt_running ?_
  rw [leaves.entry, leaves.expired, h]

end Sys2Proof.Machine
end

section
/-! Replies to the accesses of parked strands (R125, R292, R293, R298, R301). -/

namespace Sys2Proof.Machine

open Sys2Proof Sys2Proof.Spec

variable {s : State} {n k : Nat} {m : Msg} {x : Txn} {b : Cont}

/-! ## Replies that complete an instruction (R125, R293, R298, R301) -/

/-- The continuations by which a reply completes an access: registers may be written, and pc moves on. -/
def Cont.completes : Cont → Bool
  | .load .. | .pair .. | .probe .. | .old32 .. | .done _ => true
  | _ => false

theorem State.strandDone_completes (h : WaitsFor s k b) (hb : b.completes = true) (d : List Byte) (full : Bool) :
    s.strandDone k d full = (s.modStrand k fun x => x.finish b d full).wake k := by
  obtain ⟨hs, hc, -⟩ := h
  cases b with
  | load | pair | probe | old32 | done => simp [State.strandDone, hs, hc]
  | _ => exact absurd hb Bool.false_ne_true

theorem State.replayAnswered_full (s : State) (o : Owner) : (s.replayAnswered o).full = s.full := by
  unfold State.replayAnswered
  split
  · rfl
  · dsimp only
    split_ifs <;> rfl

/-- The reply completes the access of strand k, which becomes z and is READY again; memory, the bits and the other strands stay. -/
def CompletesAs (i : Instr) (s : State) (k : Nat) (z : Strand) : Prop :=
  ∃ t, exec i s = .next t ∧ t.strand k = { z with st := .ready, why := none, cont := .reissue } ∧ t.mem = s.mem ∧ t.full = s.full ∧
    ∀ j, j ≠ k → t.strand j = s.strand j

theorem completesAs_of_accDone {i : Instr} {d : Option (List Byte)} {full : Bool}
    (hi : exec i s = .next ((s.settled m).accDone x.acc x.req d full)) (ho : x.acc.owner = .strand k) (hw : WaitsFor s k b) (hb : b.completes = true) :
    CompletesAs i s k ((s.strand k).finish b (d.getD []) full) := by
  have settled := LinesMove.settled s m
  have waits := waitsFor_of_linesMove hw settled
  have finish := State.strandDone_completes waits hb (d.getD []) full
  obtain ⟨mem, -, strand⟩ := State.accDone_strand (q := x.req) ho waits finish
  have done : (s.settled m).accDone x.acc x.req d full = ((s.settled m).strandDone k (d.getD []) full).replayAnswered (.strand k) := by
    simp only [State.accDone, State.answered, ho]
  have others := ((s.settled m).strandDone k (d.getD []) full).replayAnswered_keeps (.strand k)
  refine ⟨_, hi, strand.trans (by rw [settled.strand]), mem.trans settled.mem, ?_, fun j hj => ?_⟩
  · rw [done, State.replayAnswered_full, finish, State.wake_keeps State.full fun _ _ _ => rfl]
    exact s.consume_full m.id
  · obtain ⟨-, strands, -⟩ := others
    rw [done, State.strand, strands, ← State.strand, finish, ((Touches.modStrand ..).trans (.wake ..)).strand j hj, settled.strand]

theorem exec_rspData (h : Replied s n m .data x) (ho : x.acc.owner = .strand k) :
    exec (.rspData n) s = .next ((s.settled m).accDone x.acc x.req (some m.data) m.full) := by
  obtain ⟨ha, hop, hx, hf, hp, -⟩ := h
  have hr : s.replied n (· == .data) = some (m, x) := State.replied_some ha hx (by rw [hop]; rfl)
  have hi : exec (.rspData n) s = due "RSP_DATA" (s.rspData n) := by rfl
  rw [hi, State.rspData, hr]
  simp only [hf, ho, State.answerParts, hp, each_nil]
  rfl

theorem exec_rspAcknowledge (h : Replied s n m .ack x) :
    exec (.rspAcknowledge n) s = .next ((s.settled m).accDone x.acc x.req none false) := by
  obtain ⟨ha, hop, hx, -, hp, o, hreq⟩ := h
  have hr : s.replied n (· == .ack) = some (m, x) := State.replied_some ha hx (by rw [hop]; rfl)
  have hi : exec (.rspAcknowledge n) s = due "RSP_ACKNOWLEDGE" (s.rspAck n) := by rfl
  rw [hi, State.rspAck, hr]
  simp only [Txn.relays, hreq, hp, List.isEmpty_nil, Bool.not_true, Bool.false_eq_true, if_false]
  rfl

/-- Two registers, the second with the next number, written, then pc moved on. -/
theorem Strand.step_setNext (x : Strand) {d : BitVec 8} (hd : d.toNat < 255) (w v : Word) (a : Nat) :
    ((x.setReg d.toNat w).setReg (d.toNat + 1) v).step a = { put (put x d w) (d + 1) v with pc := x.pc + BitVec.ofNat 60 a } := by
  have next : (d + 1).toNat = d.toNat + 1 := by
    change (d.toNat + 1) % 2 ^ 8 = d.toNat + 1
    omega
  have pc : (x.setReg d.toNat w).pc = x.pc := by unfold Strand.setReg; split <;> rfl
  rw [← next, Strand.step_setReg, pc, put_eq_setReg x]

section

variable (h : Replied s n m .data x) (ho : x.acc.owner = .strand k)
include h ho

theorem rspData_load {ty : LoadTy} {d : BitVec 8} {a : Nat} (hw : WaitsFor s k (.load ty d.toNat a)) :
    CompletesAs (.rspData n) s k { put (s.strand k) d (extended ty m.data) with pc := (s.strand k).pc + BitVec.ofNat 60 a } := by
  rw [← LoadTy.value_eq, ← Strand.step_setReg]
  exact completesAs_of_accDone (exec_rspData h ho) ho hw rfl

theorem rspData_pair {d : BitVec 8} {a : Nat} (hd : d.toNat < 255) (hw : WaitsFor s k (.pair d.toNat a)) :
    CompletesAs (.rspData n) s k { put (put (s.strand k) d (leWord (m.data.take 8))) (d + 1) (leWord (m.data.drop 8)) with
      pc := (s.strand k).pc + BitVec.ofNat 60 a } := by
  rw [← Strand.step_setNext _ hd]
  exact completesAs_of_accDone (exec_rspData h ho) ho hw rfl

theorem rspData_probe {d : BitVec 8} {a : Nat} (hd : d.toNat < 255) (hw : WaitsFor s k (.probe d.toNat a)) :
    CompletesAs (.rspData n) s k { put (put (s.strand k) d (leWord m.data)) (d + 1) (if m.full then 1 else 0) with
      pc := (s.strand k).pc + BitVec.ofNat 60 a } := by
  rw [← Strand.step_setNext _ hd]
  exact completesAs_of_accDone (exec_rspData h ho) ho hw rfl

theorem rspData_old32 {d : BitVec 8} {a : Nat} (hw : WaitsFor s k (.old32 d.toNat a)) :
    CompletesAs (.rspData n) s k { put (s.strand k) d ((BitVec.ofNat 32 (leNat m.data)).setWidth 64) with
      pc := (s.strand k).pc + BitVec.ofNat 60 a } := by
  have low : (BitVec.ofNat 32 (leNat m.data)).setWidth 64 = BitVec.ofNat 64 (leNat m.data % 2 ^ 32) := by
    apply BitVec.eq_of_toNat_eq
    simp
  rw [low, ← Strand.step_setReg]
  exact completesAs_of_accDone (exec_rspData h ho) ho hw rfl

end

theorem rspAcknowledge_done (h : Replied s n m .ack x) (ho : x.acc.owner = .strand k) {a : Nat} (hw : WaitsFor s k (.done a)) :
    CompletesAs (.rspAcknowledge n) s k { s.strand k with pc := (s.strand k).pc + BitVec.ofNat 60 a } :=
  completesAs_of_accDone (exec_rspAcknowledge h) ho hw rfl

/-! ## Errors (R292) -/

theorem State.replayAnswered_none {o : Owner} {c : Nat} (ho : o.core? = some c) (h : (s.core c).replays = []) : s.replayAnswered o = s := by
  simp [State.replayAnswered, ho, h]

theorem exec_rspError {c : Nat} (h : Replied s n m (.error c) x) : exec (.rspError n) s = .next ((s.settled m).accFault x.acc x.req c) := by
  obtain ⟨ha, hop, hx, -, hp, o, hreq⟩ := h
  have hi : exec (.rspError n) s = due "RSP_ERROR" (s.rspError n) := by rfl
  rw [hi, State.rspError]
  simp only [ha, hop, hx, hp, hreq, List.isEmpty_nil, Bool.not_true, Bool.false_eq_true, if_false]
  rfl

/-- An error response to a load is the precise fault of the access, and that is all of it (R292). -/
theorem State.accFault_load {a : Acc} {q : Msg} {c r d : Nat} {ty : LoadTy} (ho : a.owner = .strand k) (hkind : a.kind ≠ 0)
    (hs : (s.strand k).st = .parked) (hc : (s.strand k).cont = .load ty d r) (hw : slotOf k ≠ walkSlot) (hr : (s.core (coreOfK k)).replays = [])
    (he : (s.gang (siteOfK k) (s.strand k).entry).expired = false) :
    s.accFault a q c = s.takeFault k { code := Code.ofNum c, addr := some a.addr, pc := a.pc, kind := a.kind } := by
  have fault : s.strandFault k c a = s.takeFault k { code := Code.ofNum c, addr := some a.addr, pc := a.pc, kind := a.kind } := by
    rw [← State.testHalt_takeFault he]
    simp [State.strandFault, hs, hc, hw, hkind]
  simp only [State.accFault, State.answered, ho, fault]
  exact State.replayAnswered_none rfl ((FaultLeaves.takeFault s k _).replays _ hr)

theorem rspError_load {c r d : Nat} {ty : LoadTy} (h : Replied s n m (.error c) x) (ho : x.acc.owner = .strand k) (hkind : x.acc.kind ≠ 0)
    (hs : (s.strand k).st = .parked) (hc : (s.strand k).cont = .load ty d r) (hw : slotOf k ≠ walkSlot) (hr : (s.core (coreOfK k)).replays = [])
    (he : (s.gang (siteOfK k) (s.strand k).entry).expired = false) : exec (.rspError n) s =
      .next (((s.consume n).dropTxn m.txn).takeFault k { code := Code.ofNum c, addr := some x.acc.addr, pc := x.acc.pc, kind := x.acc.kind }) := by
  have settled := LinesMove.settled s m
  have fault := State.accFault_load (s := s.settled m) (q := x.req) (c := c) ho hkind (by rw [settled.strand, hs]) (by rw [settled.strand, hc]) hw
    (by rw [settled.core, hr]) (by rw [settled.strand, settled.gang, he])
  rw [exec_rspError h, fault]
  obtain ⟨ha, -⟩ := h
  rw [State.settled, State.arriving_id ha]

/-- Settles O26: the data and the acknowledgements by what the strand waits for, then the error of a load. -/
theorem repliesComplete : Obligations.RepliesComplete := by
  refine ⟨?_, fun s n m x k c l d a h ho hkind hs hc hw hr he => rspError_load h ho hkind hs hc hw hr he⟩
  intro s n m x k ho hs hg
  refine ⟨fun h => ⟨?_, ?_, ?_, ?_⟩, fun h a hc => rspAcknowledge_done h ho ⟨hs, hc, hg⟩⟩
  · exact fun ty d a hc => rspData_load h ho ⟨hs, hc, hg⟩
  · exact fun d a hd hc => rspData_pair h ho hd ⟨hs, hc, hg⟩
  · exact fun d a hd hc => rspData_probe h ho hd ⟨hs, hc, hg⟩
  · exact fun d a hc => rspData_old32 h ho ⟨hs, hc, hg⟩

end Sys2Proof.Machine
end

section
/-! Monitors at the strand: waits, removals, arms and fires (R133, R134, R309, R310). -/

namespace Sys2Proof.Machine

open Sys2Proof Sys2Proof.Spec

variable {s : State} {n k : Nat} {m : Msg}

/-! ## `mon.wait` and `mon.clr` (R310) -/

theorem exec_monWait (s : State) : exec .monWait s =
    .next (if s.me.monitor.fired && s.me.monitor.inFlight.isEmpty then s.pass 4 else s.park s.cur .monitor (.done 4)) := by rfl

theorem monWait_fired (hf : s.me.monitor.fired = true) (hi : s.me.monitor.inFlight = []) : exec .monWait s = .next (went s (s.me.pc + 4)) := by
  rw [exec_monWait, hf, hi, ← pass_eq_went]
  rfl

theorem monWait_waits (h : s.me.monitor.fired = false ∨ s.me.monitor.inFlight ≠ []) :
    ∃ t, exec .monWait s = .next t ∧ Parks s t .monitor (.done 4) := by
  have quiet : ¬(s.me.monitor.fired && s.me.monitor.inFlight.isEmpty) = true := by
    rcases h with hf | hi
    · simp [hf]
    · simp [hi]
  rw [exec_monWait, if_neg quiet]
  exact ⟨_, rfl, park_parks ..⟩

/-- The removal of a watch is a message: it changes the network, the transactions and the next number. -/
theorem State.sendRemoval_keeps {β : Type} (g : State → β) (hg : ∀ (s : State) n i x, g { s with net := n, nextId := i, txns := x } = g s) (s : State)
    (k : Nat) : g (s.sendRemoval k) = g s := by
  unfold State.sendRemoval
  split
  · rfl
  · unfold State.removeWatch
    dsimp only
    split
    · exact hg s _ _ _
    · rfl

theorem monClr_clears (s : State) : ∃ t, exec .monClr s = .next t ∧ t.mem = s.mem ∧ t.me.pc = s.me.pc + 4 ∧ t.me.regs = s.me.regs ∧
    t.me.monitor = { inFlight := s.me.monitor.inFlight } := by
  have hi : exec .monClr s = .next ((s.sendRemoval s.cur).modStrand (s.sendRemoval s.cur).cur fun x =>
      { x with monitor := { inFlight := x.monitor.inFlight }, pc := x.pc + 4 }) := by rfl
  have me : (s.sendRemoval s.cur).me = s.me := s.sendRemoval_keeps State.me (fun _ _ _ _ => rfl) s.cur
  refine ⟨_, hi, s.sendRemoval_keeps State.mem (fun _ _ _ _ => rfl) s.cur, ?_⟩
  rw [State.me_modStrand, me]
  exact ⟨rfl, rfl, rfl⟩

/-! ## `mon.arm` (R133, R309) -/

/-- The monitor after `mon.arm`: the mark clears, unless a watch is still on its way, and watch n is on its way. -/
def Monitor.armed (m : Monitor) (n : Nat) (a : Addr) : Monitor := { fired := !m.inFlight.isEmpty, inFlight := m.inFlight ++ [(n, a)], current := some n }

/-- The issuing strand after `mon.arm`, with the removal of its watch before on its way. -/
def State.armed (s : State) (a : Addr) : State :=
  (s.sendRemoval s.cur).fresh.2.modStrand s.cur fun x => { x with monitor := x.monitor.armed (s.sendRemoval s.cur).nextId a, pc := x.pc + 4 }

theorem State.armed_keeps {β : Type} (g : State → β) (hg : ∀ (s : State) n i x, g { s with net := n, nextId := i, txns := x } = g s)
    (hs : ∀ (s : State) k x, g (s.setStrand k x) = g s) (s : State) (a : Addr) : g (s.armed a) = g s :=
  (hs ..).trans ((hg (s.sendRemoval s.cur) _ _ _).trans (s.sendRemoval_keeps g hg s.cur))

theorem State.me_armed (s : State) (a : Addr) :
    (s.armed a).me = { s.me with monitor := s.me.monitor.armed (s.sendRemoval s.cur).nextId a, pc := s.me.pc + 4 } := by
  have cur : (s.armed a).cur = s.cur := s.armed_keeps State.cur (fun _ _ _ _ => rfl) (fun _ _ _ => rfl) a
  have me : (s.sendRemoval s.cur).fresh.2.strand s.cur = s.me := s.sendRemoval_keeps (·.strand s.cur) (fun _ _ _ _ => rfl) s.cur
  rw [State.me, cur, State.armed, State.strand_modStrand, if_pos rfl, me]

/-- The access that carries the new watch of the issuing strand. -/
def State.armAcc (s : State) (a : Addr) : Acc :=
  { addr := a, op := .monArm, size := 16, kind := 0x13, pc := s.me.pc, k := s.cur, sup := (s.armed a).me.sup,
    owner := .monitor s.cur (s.sendRemoval s.cur).nextId }

/-- An arm of a heap granule past its checks: its watch stands in the memory port (R309). -/
theorem exec_monArm {x : BitVec 8} {g : BitVec 3} {o : BitVec 5} {a : Addr} (hr : Ready s [x])
    (hc : s.checkAccess s.cur (s.me.seg g.toNat) (mOff x o 16 s) 16 rR 16 = .ok a) (hk : kindBits a.toNat = 0) : exec (.monArm x g o) s =
      .next ((s.armed a).toPort (siteOfK s.cur) (s.armAcc a)) := by
  have pc : (s.sendRemoval s.cur).me.pc = s.me.pc := s.sendRemoval_keeps (·.me.pc) (fun _ _ _ _ => rfl) s.cur
  have heap : s.feCore (siteOfK s.cur) a true = false := if_pos hk
  refine congrArg Host.Outcome.next ((State.issue_one hr).trans ?_)
  change s.checkAccess s.cur (s.me.seg g.toNat) (s.offM x o 16) 16 rR 16 = .ok a at hc
  dsimp only
  rw [hc]
  dsimp only
  rw [heap, if_neg Bool.false_ne_true]
  exact if_pos hk

theorem monArm_arms {x : BitVec 8} {g : BitVec 3} {o : BitVec 5} {a : Addr} (hr : Ready s [x])
    (hc : s.checkAccess s.cur (s.me.seg g.toNat) (mOff x o 16 s) 16 rR 16 = .ok a) (hk : kindBits a.toNat = 0) :
    ∃ t p n, exec (.monArm x g o) s = .next t ∧ t.mem = s.mem ∧ t.me.st = s.me.st ∧ t.me.pc = s.me.pc + 4 ∧ t.me.regs = s.me.regs ∧
      t.me.monitor = { fired := !s.me.monitor.inFlight.isEmpty, inFlight := s.me.monitor.inFlight ++ [(n, a)], current := some n } ∧
      (t.site (siteOfK s.cur)).port = (s.site (siteOfK s.cur)).port ++ [p] ∧ p.acc.op = .monArm ∧ p.acc.addr = a ∧
      p.acc.owner = .monitor s.cur n := by
  have me : ((s.armed a).toPort (siteOfK s.cur) (s.armAcc a)).me = _ := s.me_armed a
  have site : (s.armed a).site (siteOfK s.cur) = s.site (siteOfK s.cur) :=
    s.armed_keeps (·.site (siteOfK s.cur)) (fun _ _ _ _ => rfl) (fun _ _ _ => rfl) a
  refine ⟨_, { id := (s.armed a).nextId, acc := s.armAcc a }, (s.sendRemoval s.cur).nextId, exec_monArm hr hc hk,
    s.armed_keeps State.mem (fun _ _ _ _ => rfl) (fun _ _ _ => rfl) a, ?_⟩
  rw [me, State.port_toPort, if_pos rfl, site]
  exact ⟨rfl, rfl, rfl, rfl, rfl, rfl, rfl, rfl⟩

/-! ## Fires (R134, R310) -/

/-- The strand whose monitor a fire names. -/
def Msg.firedStrand (m : Msg) (slot : Nat) : Nat := m.dst * 256 + m.key % 256 / 16 * 16 + slot

/-- The mark of a fire. -/
def Strand.marked (x : Strand) : Strand := { x with monitor := { x.monitor with fired := true } }

theorem exec_rspMonitorFire {slot : Nat} (ha : s.arriving n = some m) (hop : m.op = .monFire slot) (hs : (s.strand (m.firedStrand slot)).st ≠ .free) :
    exec (.rspMonitorFire n) s = .next (((s.consume n).modStrand (m.firedStrand slot) Strand.marked).monitorWake (m.firedStrand slot)) := by
  have hi : exec (.rspMonitorFire n) s = due "RSP_MONITOR_FIRE" (s.rspMonitorFire n) := by rfl
  have taken : ¬((s.consume n).strand (m.firedStrand slot)).st = .free := by rwa [State.strand_consume]
  rw [hi, State.rspMonitorFire, ha]
  dsimp only
  rw [hop]
  exact congrArg Host.Outcome.next (if_neg taken)

theorem State.strand_marked (s : State) (n k : Nat) : ((s.consume n).modStrand k Strand.marked).strand k = (s.strand k).marked := by
  rw [State.strand_modStrand, if_pos rfl, State.strand_consume]

theorem State.monitorWake_idle (h : (s.strand k).st ≠ .parked) : s.monitorWake k = s := if_neg (by simp [h])

/-- A `mon.wait` whose watch is settled completes (R310). -/
theorem State.monitorWake_waits (hf : (s.strand k).monitor.fired = true) (hi : (s.strand k).monitor.inFlight = []) (hs : (s.strand k).st = .parked)
    (hw : (s.strand k).why = some .monitor) (hc : (s.strand k).cont = .done 4) : s.monitorWake k = s.completed k 4 := by
  simp [State.monitorWake, hf, hi, hs, hw, hc]

theorem rspMonitorFire_marks {slot : Nat} (ha : s.arriving n = some m) (hop : m.op = .monFire slot) (hs : (s.strand (m.firedStrand slot)).st ≠ .free)
    (hp : (s.strand (m.firedStrand slot)).st ≠ .parked) :
    exec (.rspMonitorFire n) s = .next ((s.consume n).modStrand (m.firedStrand slot) Strand.marked) := by
  rw [exec_rspMonitorFire ha hop hs, State.monitorWake_idle]
  rw [State.strand_marked]
  exact hp

theorem rspMonitorFire_wakes {slot : Nat} (ha : s.arriving n = some m) (hop : m.op = .monFire slot) (hk : m.firedStrand slot = k)
    (hs : (s.strand k).st = .parked) (hw : (s.strand k).why = some .monitor) (hc : (s.strand k).cont = .done 4)
    (hi : (s.strand k).monitor.inFlight = []) (hg : (s.gang (siteOfK k) (s.strand k).entry).halting = false) :
    ∃ t, exec (.rspMonitorFire n) s = .next t ∧ t.mem = s.mem ∧ t.strand k =
      { s.strand k with monitor := { (s.strand k).monitor with fired := true }, pc := (s.strand k).pc + 4, st := .ready, why := none, cont := .reissue } := by
  subst hk
  have strand := s.strand_marked n (m.firedStrand slot)
  have gang : ((s.consume n).modStrand (m.firedStrand slot) Strand.marked).gang (siteOfK (m.firedStrand slot)) (s.strand (m.firedStrand slot)).entry = _ :=
    (LinesMove.consume s n).gang ..
  have completes := State.monitorWake_waits (s := (s.consume n).modStrand (m.firedStrand slot) Strand.marked) (k := m.firedStrand slot)
    (by rw [strand]; rfl) (by rw [strand]; exact hi) (by rw [strand]; exact hs) (by rw [strand]; exact hw) (by rw [strand]; exact hc)
  refine ⟨_, (exec_rspMonitorFire ha hop (by rw [hs]; nofun)).trans (congrArg _ completes), ?_, ?_⟩
  · rw [State.completed_mem]
    exact s.consume_mem n
  · rw [State.completed_goesOn 4 (by rw [strand]; exact hs) (by rw [strand]; exact gang.symm ▸ hg), strand]
    rfl

end Sys2Proof.Machine
end

section
/-! Watches at their homes, and the statement about monitors (R133, R134, R309, R310). -/

namespace Sys2Proof.Machine

open Sys2Proof Sys2Proof.Spec

variable {s t : State} {n : Nat} {m : Msg} {x : Txn}

/-! ## Arms and clears (R133) -/

theorem State.watches_consume (s : State) (n v : Nat) : ((s.consume n).site v).watches = (s.site v).watches := by
  obtain ⟨l, hl⟩ := s.site_consume_links n v
  rw [hl]

theorem reqMonitorArm_records (hx : s.txn m.txn = some x) (h : Serves s n m .monArm false) (hg : x.acc.owner.gone = false)
    (hroom : ((s.site m.dst).watches.filter fun w => w.unit == m.unit).length < 128) :
    ∃ t, exec (.reqMonitorArm n) s = .next t ∧ t.mem = s.mem ∧ Answered t m .ack [] false ∧
      (t.site m.dst).watches = (s.site m.dst).watches ++ [{ unit := m.unit, granule := m.off / 16, k := x.acc.k, src := m.src }] := by
  have txn : ((s.consume n).reply m .ack [] false).txn m.txn = some x := (s.txn_consume n m.txn).trans hx
  have room : (((s.consume n).site m.dst).watches.filter fun w => w.unit == m.unit).length < watchRecords := by rwa [State.watches_consume]
  have kept : (((s.consume n).reply m .ack [] false).txn m.txn).any (fun q => q.acc.owner.gone) = false := by rw [txn]; exact hg
  have recorded : (s.consume n).performMonArm m = ((s.consume n).reply m .ack [] false).modSite m.dst fun t =>
      { t with watches := t.watches ++ [{ unit := m.unit, granule := m.off / 16, k := x.acc.k, src := m.src }] } := by
    unfold State.performMonArm
    dsimp only
    rw [kept, if_neg Bool.false_ne_true, if_pos room, s.txn_consume, hx]
  refine ⟨_, (exec_serves (by rfl) h rfl).trans (congrArg _ recorded), s.consume_mem n, answered_reply .., ?_⟩
  rw [State.site_modSite, if_pos rfl]
  exact congrArg (· ++ _) (s.watches_consume n m.dst)

theorem reqMonitorClear_removes (hx : s.txn m.txn = some x) (h : Serves s n m .monClr false) :
    ∃ t, exec (.reqMonitorClear n) s = .next t ∧ t.mem = s.mem ∧ Answered t m .ack [] false ∧
      ∀ w, w ∈ (t.site m.dst).watches ↔ w ∈ (s.site m.dst).watches ∧ ¬(w.unit = m.unit ∧ w.granule = m.off / 16 ∧ w.k = x.acc.k) := by
  refine ⟨_, exec_serves (by rfl) h rfl, s.consume_mem n, answered_reply .., fun w => ?_⟩
  have cleared : (((s.consume n).performMonClr m).site m.dst).watches =
      (s.site m.dst).watches.filter fun w => !(w.unit == m.unit && w.granule == m.off / 16 && w.k == x.acc.k) := by
    unfold State.performMonClr
    dsimp only
    rw [s.txn_consume, hx, State.site, State.reply_sites, ← State.site, State.site_modSite, if_pos rfl]
    exact congrArg (List.filter _) (s.watches_consume n m.dst)
  rw [cleared, List.mem_filter]
  simp only [Bool.not_eq_true', Bool.and_eq_false_iff, beq_eq_false_iff_ne, not_and_or, ne_eq, or_assoc]

/-! ## Fires (R134) -/

theorem State.number_congr (h : ∀ v, (t.site v).self = (s.site v).self) (k : Nat) : t.number k = s.number k := by
  unfold State.number State.virt
  rw [h]

/-- The fire of a watch is on its way to the strand that armed it. -/
def Tells (t : State) (w : Watch) (key : Nat) : Prop := ∃ q ∈ t.net, q.op = .monFire (slotOf w.k) ∧ q.dst = w.src ∧ q.key = key

theorem Tells.mono {w : Watch} {key : Nat} (h : Tells s w key) (hn : s.net ⊆ t.net) : Tells t w key := by
  obtain ⟨q, hq, fire⟩ := h
  exact ⟨q, hn hq, fire⟩

theorem State.fire_tells {w : Watch} {v key : Nat} (hw : w ∈ (s.site v).watches) (hk : s.number w.k ≠ key) :
    Tells (s.fire v w.unit w.granule key) w (s.number w.k) := by
  have watching : w ∈ (s.site v).watches.filter fun q => q.unit == w.unit && q.granule == w.granule && s.number q.k != key :=
    List.mem_filter.2 ⟨hw, by simp [hk]⟩
  refine each_reaches (P := fun t => t.sites = s.sites) (Q := fun t => Tells t w (s.number w.k)) ?_ ?_ ?_ watching rfl
  · exact fun _ _ h => h
  · exact fun _ _ h => h.mono (List.subset_append_left ..)
  · intro t ht
    exact ⟨_, List.mem_append_right _ (List.mem_singleton_self _), rfl, rfl, State.number_congr (fun v => by rw [State.site, ht, State.site]) w.k⟩

/-- A write fires the watches of other strands on the granules that it touches (R134). -/
theorem State.fireAll_tells {w : Watch} {v off len key : Nat} (hw : w ∈ (s.site v).watches) (hk : s.number w.k ≠ key) (hlo : off / 16 ≤ w.granule)
    (hhi : w.granule ≤ (off + len - 1) / 16) : Tells (s.fireAll v w.unit off len key) w (s.number w.k) := by
  have touched : w.granule ∈ (List.range ((off + len - 1) / 16 + 1 - off / 16)).map (off / 16 + ·) :=
    List.mem_map.2 ⟨w.granule - off / 16, List.mem_range.2 (by omega), by omega⟩
  refine each_reaches (P := fun t => ∀ v, t.site v = s.site v) (Q := fun t => Tells t w (s.number w.k)) (fun t g ht v' => ?_)
    (fun t g h => h.mono (State.net_subset_fire ..)) (fun t ht => ?_) touched fun _ => rfl
  · rw [State.fire_site, ht]
  · have number : t.number w.k = s.number w.k := State.number_congr (fun v' => by rw [ht]) w.k
    have told := State.fire_tells (s := t) (w := w) (v := v) (key := key) (by rw [ht]; exact hw) (by rw [number]; exact hk)
    rwa [number] at told

theorem reqWrite_fires {w : Watch} (hw : w ∈ (s.site m.dst).watches) (h : Serves s n m .write false) (hu : w.unit = m.unit) (hlo : m.off / 16 ≤ w.granule)
    (hl : m.data.length = m.len) (hhi : w.granule ≤ (m.off + m.len - 1) / 16) (hk : s.number w.k ≠ m.key) :
    ∃ t, exec (.reqWrite n) s = .next t ∧ Tells t w (s.number w.k) := by
  have hi := exec_serves (i := .reqWrite n) (by rfl) h rfl
  obtain ⟨-, -, -, -, -, -, ht, -⟩ := h
  rw [State.performWrite, State.raiseTag_untagged ht] at hi
  let u : State := { (s.consume n).repair m with mem := Memory.writeN ((s.consume n).repair m).mem (homeKey m.dst m.unit m.off) m.en m.data }
  have number : u.number w.k = s.number w.k := State.number_congr (fun v => by
    change ((s.consume n).site v).self = _
    obtain ⟨l, hl⟩ := s.site_consume_links n v
    rw [hl]) w.k
  have told := State.fireAll_tells (s := u) (w := w) (v := m.dst) (off := m.off) (len := m.data.length) (key := m.key)
    (by exact (s.watches_consume n m.dst).symm ▸ hw) (by rw [number]; exact hk) hlo (by rw [hl]; exact hhi)
  rw [number, hu] at told
  exact ⟨_, hi, told.mono (List.subset_append_left ..)⟩

/-- Settles O29: the strand's instructions and the fires that reach it, then the arms, clears and writes at the home. -/
theorem monitorsAndWatches : Obligations.MonitorsAndWatches := by
  refine ⟨⟨fun s => ⟨monWait_fired, monWait_waits⟩, monClr_clears, fun x g o s a => monArm_arms, ?_⟩, ?_⟩
  · intro s n slot m ha hop
    exact ⟨rspMonitorFire_marks ha hop, rspMonitorFire_wakes ha hop rfl⟩
  · intro s n m x hx
    refine ⟨reqMonitorArm_records hx, reqMonitorClear_removes hx, fun w hw h hu hlo hl _ hhi hk => reqWrite_fires hw h hu hlo hl hhi hk⟩

end Sys2Proof.Machine
end

section
/-! Late faults, the ends of replay entries, wake words and the fault queue (R136, R141, R142, R292). -/

namespace Sys2Proof.Machine

open Sys2Proof Sys2Proof.Spec

variable {s : State} {k v c ix : Nat} {w : Word}

/-! ## Late faults (R292) -/

theorem lateFaultTaken_takes {f : Late} {rest : List Late} (hl : (s.strand k).late = f :: rest) (hs : (s.strand k).st = .ready) (hf : f.code ≠ 0x0B) :
    exec (.lateFaultTaken k) s = .next ((s.modStrand k fun x => { x with late := rest }).takeFault k
      { code := Code.ofNum f.code, addr := some f.addr, pc := f.pc, kind := f.kind }) := by
  have hi : exec (.lateFaultTaken k) s = due "LATE_FAULT_TAKEN" (s.lateTaken k) := by rfl
  have other : f.code ≠ Code.pageFault.num := hf
  have taken : s.lateTaken k = some (s.takeLate k) := by simp [State.lateTaken, hl, hs, other]
  rw [hi, taken, State.takeLate, hl]
  rfl

/-! ## The walk strand's wait for a record (R139) -/

theorem Touches.rouse (s : State) (k : Nat) (r : Park) : Touches s (s.rouse k r) k := by
  unfold State.rouse
  split_ifs
  · exact .wake ..
  · exact .refl ..

theorem Touches.wakeRecord (s : State) (c : Nat) : Touches s (s.wakeRecord c) (slotKey c walkSlot) := by
  unfold State.wakeRecord
  split_ifs
  · exact .rouse ..
  · exact .refl ..

theorem State.core_dropReplays (s : State) (c : Nat) (p : Replay → Bool) :
    ((s.dropReplays c p).core c).replays = (s.core c).replays.filter fun r => !p r := by
  have cores := (Touches.wakeRecord (s.modCore c fun x => { x with replays := x.replays.filter fun r => !p r }) c).cores
  rw [State.dropReplays, State.core, cores, ← State.core, State.core_modCore, if_pos rfl]

theorem State.mem_dropReplays (s : State) (c : Nat) (p : Replay → Bool) : (s.dropReplays c p).mem = s.mem := (Touches.wakeRecord ..).mem

/-- Entries that go touch no strand but the walk strand. -/
theorem State.strand_dropReplays (s : State) (p : Replay → Bool) (hk : k ≠ slotKey c walkSlot) : (s.dropReplays c p).strand k = s.strand k :=
  (Touches.wakeRecord ..).strand k hk

theorem State.gang_dropReplays (s : State) (c v e : Nat) (p : Replay → Bool) : (s.dropReplays c p).gang v e = s.gang v e := by
  have sites := (Touches.wakeRecord (s.modCore c fun x => { x with replays := x.replays.filter fun r => !p r }) c).sites
  rw [State.gang, State.site, State.dropReplays, sites]
  rfl

/-! ## Ends of replay entries (R136, R142) -/

/-- The strand that a relaxed page fault parked goes on once no entry of its relaxed accesses is left (R142). -/
theorem State.relaxedEnd_wakes (hw : WaitsFor s k .engine) (hp : (s.strand k).why = some .pageFault) (hr : s.relaxedReplay k = false) :
    s.relaxedEnd k = (s.modStrand k fun y => { y with late := y.late.filter fun f => f.code != Code.pageFault.num }).wake k := by
  obtain ⟨hs, hc, -⟩ := hw
  simp [State.relaxedEnd, hs, hc, hp, hr]

theorem State.strand_relaxedEnd (hw : WaitsFor s k .engine) (hp : (s.strand k).why = some .pageFault) (hr : s.relaxedReplay k = false) :
    ((s.relaxedEnd k).strand k).st = .ready ∧ ((s.relaxedEnd k).strand k).pc = (s.strand k).pc := by
  rw [State.relaxedEnd_wakes hw hp hr]
  obtain ⟨hs, -, hg⟩ := hw
  have self := s.strand_modStrand k k fun y => { y with late := y.late.filter fun f => f.code != Code.pageFault.num }
  rw [if_pos rfl] at self
  rw [State.strand_wake_ready (by rw [self, hs]) (by rw [self]; exact hg), self]
  exact ⟨rfl, rfl⟩

theorem exec_replayEntryEnd {r : Replay} (hf : (s.core c).replays.find? (fun q => q.ix == ix) = some r) (hd : r.dead = false) (hw : r.waiting = false)
    (ha : r.accs = []) (hi : r.issued = []) (hlo : 4 ≤ r.kind) (hhi : r.kind ≤ 6) :
    exec (.replayEntryEnd c ix) s = .next ((s.dropReplays c fun q => q.ix == ix).relaxedEnd (slotKey c r.slot)) := by
  have exec_eq : exec (.replayEntryEnd c ix) s = due "REPLAY_ENTRY_END" (s.replayEnd c ix) := by rfl
  rw [exec_eq, State.replayEnd, hf]
  simp [hd, hw, ha, hi, hlo, hhi, due]

theorem replayEntryEnd_wakes {r : Replay} (hf : (s.core c).replays.find? (fun q => q.ix == ix) = some r) (hd : r.dead = false) (hw : r.waiting = false)
    (ha : r.accs = []) (hi : r.issued = []) (hlo : 4 ≤ r.kind) (hhi : r.kind ≤ 6) (hslot : r.slot < 13) (hwait : WaitsFor s (slotKey c r.slot) .engine)
    (hp : (s.strand (slotKey c r.slot)).why = some .pageFault)
    (hothers : ∀ q ∈ (s.core c).replays, q.ix ≠ ix → q.slot = r.slot → q.kind < 4 ∨ 6 < q.kind) :
    ∃ t, exec (.replayEntryEnd c ix) s = .next t ∧ t.mem = s.mem ∧ (t.core c).replays = (s.core c).replays.filter (fun q => q.ix != ix) ∧
      (t.strand (slotKey c r.slot)).st = .ready ∧ (t.strand (slotKey c r.slot)).pc = (s.strand (slotKey c r.slot)).pc := by
  have notWalk : slotKey c r.slot ≠ slotKey c walkSlot := by unfold slotKey walkSlot; omega
  have core : coreOfK (slotKey c r.slot) = c := coreOfK_slotKey c (by omega)
  have slot : slotOf (slotKey c r.slot) = r.slot := by unfold slotOf slotKey; omega
  have strand := s.strand_dropReplays (fun q => q.ix == ix) notWalk
  have replays := s.core_dropReplays c fun q => q.ix == ix
  have waits : WaitsFor (s.dropReplays c fun q => q.ix == ix) (slotKey c r.slot) .engine := by
    unfold WaitsFor
    rw [strand, State.gang_dropReplays]
    exact hwait
  have rest : (s.dropReplays c fun q => q.ix == ix).relaxedReplay (slotKey c r.slot) = false := by
    rw [State.relaxedReplay, core, replays, slot, List.any_eq_false]
    intro q hq
    obtain ⟨hq, hix⟩ := List.mem_filter.1 hq
    have other := hothers q hq (by simpa using hix)
    simp only [Bool.and_eq_true, beq_iff_eq, decide_eq_true_eq]
    rintro ⟨⟨-, same⟩, kind⟩
    have := other same
    omega
  have page : ((s.dropReplays c fun q => q.ix == ix).strand (slotKey c r.slot)).why = some .pageFault := by rw [strand, hp]
  obtain ⟨ready, pc⟩ := State.strand_relaxedEnd waits page rest
  refine ⟨_, exec_replayEntryEnd hf hd hw ha hi hlo hhi, ?_, ?_, ready, pc.trans (by rw [strand])⟩
  · rw [State.relaxedEnd_wakes waits page rest]
    exact ((Touches.modStrand ..).trans (.wake ..)).mem.trans (s.mem_dropReplays ..)
  · rw [State.relaxedEnd_wakes waits page rest, State.core, ((Touches.modStrand ..).trans (.wake ..)).cores, ← State.core, replays]
    rfl

/-! ## Wake words (R142) -/

/-- The strand that a wake word names. -/
def wakeKey (v : Nat) (w : Word) : Nat := v * 256 + (w.extractLsb' 30 8).toNat

/-- The wake word names a strand of pavilion v, by the pavilion's address (R142). -/
def State.WakeNames (s : State) (v : Nat) (w : Word) : Prop := (w.extractLsb' 38 16).toNat = (s.virt v).2 * 256 + (s.virt v).1

theorem bits_wake_site (w : Word) : bits w.toNat 53 30 / 256 = (w.extractLsb' 38 16).toNat := by
  rw [toNat_extractLsb'_eq_bits w 38 15]
  simp only [bits, Nat.reduceAdd, Nat.reduceSub, Nat.reducePow]
  omega

theorem bits_wake_strand (w : Word) : bits w.toNat 53 30 % 256 = (w.extractLsb' 30 8).toNat := by
  rw [toNat_extractLsb'_eq_bits w 30 7]
  simp only [bits, Nat.reduceAdd, Nat.reduceSub, Nat.reducePow]
  omega

theorem bits_wake_core (v : Nat) (w : Word) : v * 16 + bits (bits w.toNat 53 30) 7 4 = coreOfK (wakeKey v w) := by
  rw [wakeKey, ← bits_wake_strand, coreOfK]
  generalize bits w.toNat 53 30 = n
  simp only [bits, Nat.reduceAdd, Nat.reduceSub, Nat.reducePow]
  omega

/-- With V set the word releases the replay entry that it names (R142). -/
theorem State.wakeWord_releases (hn : s.WakeNames v w) (hv : w.getLsbD 24 = true) :
    s.wakeWord v w = s.releaseReplay (coreOfK (wakeKey v w)) (w.extractLsb' 25 5).toNat := by
  rw [← bitOn_eq_getLsbD] at hv
  rw [State.WakeNames, ← bits_wake_site] at hn
  rw [State.wakeWord, toNat_extractLsb'_eq_bits w 25 4, ← bits_wake_core]
  simp only [hn, hv, ne_eq, not_true_eq_false, if_false, if_true]

/-- With V clear the word wakes a strand that a page fault parked; no access of the vector unit's queue is its own (R142). -/
theorem State.wakeWord_wakes (hn : s.WakeNames v w) (hv : w.getLsbD 24 = false) (hs : (s.strand (wakeKey v w)).st = .parked)
    (hp : (s.strand (wakeKey v w)).why = some .pageFault) (hq : ∀ o ∈ (s.core (coreOfK (wakeKey v w))).vq, o.k ≠ wakeKey v w) :
    s.wakeWord v w = (s.modStrand (wakeKey v w) fun x => { x with late := x.late.filter fun f => f.code != Code.pageFault.num }).wake (wakeKey v w) := by
  have idle : (s.core (coreOfK (wakeKey v w))).vq.any (fun o => o.k == wakeKey v w) = false := by
    rw [List.any_eq_false]
    exact fun o ho => by simpa using hq o ho
  rw [← bitOn_eq_getLsbD] at hv
  rw [State.WakeNames, ← bits_wake_site] at hn
  rw [wakeKey, ← bits_wake_strand] at hs hp idle ⊢
  simp [State.wakeWord, hn, hv, hs, hp, idle]

theorem exec_fqWake (hv : kindOf v = .pavilion) : exec (.fqWake v w) s = .next (s.wakeWord v w) := by
  have hi : exec (.fqWake v w) s = due "FQ_WAKE" (if kindOf v = .pavilion then some (s.wakeWord v w) else none) := by rfl
  rw [hi, if_pos hv]
  rfl

theorem fqWake_wakes (hv : kindOf v = .pavilion) (hn : s.WakeNames v w) (hb : w.getLsbD 24 = false) (hs : (s.strand (wakeKey v w)).st = .parked)
    (hp : (s.strand (wakeKey v w)).why = some .pageFault)
    (hg : (s.gang (siteOfK (wakeKey v w)) (s.strand (wakeKey v w)).entry).halting = false)
    (hq : ∀ o ∈ (s.core (coreOfK (wakeKey v w))).vq, o.k ≠ wakeKey v w) :
    ∃ t, exec (.fqWake v w) s = .next t ∧ t.mem = s.mem ∧ t.strand (wakeKey v w) =
      { s.strand (wakeKey v w) with late := (s.strand (wakeKey v w)).late.filter (fun f => f.code != 0x0B), st := .ready, why := none, cont := .reissue } := by
  have self := s.strand_modStrand (wakeKey v w) (wakeKey v w) fun x => { x with late := x.late.filter fun f => f.code != Code.pageFault.num }
  rw [if_pos rfl] at self
  refine ⟨_, exec_fqWake hv, ?_, ?_⟩ <;> rw [State.wakeWord_wakes hn hb hs hp hq]
  · exact ((Touches.modStrand ..).trans (.wake ..)).mem
  · rw [State.strand_wake_ready (by rw [self]; exact hs) (by rw [self]; exact hg), self]
    rfl

theorem State.mem_releaseReplay (s : State) (c ix : Nat) : (s.releaseReplay c ix).mem = s.mem := by
  unfold State.releaseReplay
  split
  · rfl
  · exact (Settled.each Settled.sendAccess _ _).mem

/-- A release leaves no entry of its number waiting, unless there was none to release. -/
theorem State.waiting_releaseReplay {q : Replay} (hq : q ∈ ((s.releaseReplay c ix).core c).replays) (hix : q.ix = ix) (hw : q.waiting = true) :
    q ∈ (s.core c).replays ∧ (s.core c).replays.find? (fun r => r.ix == q.ix && r.waiting) = none := by
  rw [hix]
  unfold State.releaseReplay at hq
  split at hq
  next absent => exact ⟨hq, absent⟩
  next r _ =>
    rw [(Settled.each Settled.sendAccess _ _).core, State.core_modCore, if_pos rfl] at hq
    obtain ⟨p, -, rfl⟩ := List.mem_map.1 hq
    split_ifs at hix hw with hp
    · exact absurd hix hp

theorem fqWake_releases (hv : kindOf v = .pavilion) (hn : s.WakeNames v w) (hb : w.getLsbD 24 = true) : ∃ t, exec (.fqWake v w) s = .next t ∧
    t.mem = s.mem ∧ ∀ q ∈ (t.core (coreOfK (wakeKey v w))).replays, q.ix = (w.extractLsb' 25 5).toNat → q.waiting = true →
      q ∈ (s.core (coreOfK (wakeKey v w))).replays ∧
        (s.core (coreOfK (wakeKey v w))).replays.find? (fun r => r.ix == q.ix && r.waiting) = none := by
  refine ⟨_, exec_fqWake hv, ?_⟩
  rw [State.wakeWord_releases hn hb]
  exact ⟨s.mem_releaseReplay .., fun q => State.waiting_releaseReplay⟩

/-! ## The fault queue (R141) -/

/-- The entries of the fault queue from its head to number n. -/
def Site.fqDist (x : Site) (n : Nat) : Nat := (n + 2 ^ 32 - x.fqHead) % 2 ^ 32

theorem State.mem_writeFqHead (s : State) (v : Nat) (w : Word) : (s.writeFqHead v w).mem = s.mem :=
  each_keeps State.mem (fun s c => (Touches.wakeRecord s c).mem) _ _

theorem State.site_writeFqHead (s : State) (v : Nat) (w : Word) : (s.writeFqHead v w).site v = { s.site v with
    fqHead := if (s.site v).fqDist (s.site v).fqTail < (s.site v).fqDist (w.toNat % 2 ^ 32) then (s.site v).fqTail else w.toNat % 2 ^ 32 } := by
  unfold State.writeFqHead
  rw [each_keeps (State.site · v) fun s c => by rw [State.site, (Touches.wakeRecord s c).sites, State.site], State.site_modSite, if_pos rfl]
  rfl

theorem fqHeadWrite_moves (hv : kindOf v = .pavilion) : ∃ t, exec (.fqHeadWrite v w) s = .next t ∧ t.mem = s.mem ∧
    (t.site v).fqTail = (s.site v).fqTail ∧ (t.site v).fq = (s.site v).fq ∧ (t.site v).fqHead =
      if (s.site v).fqDist (w.toNat % 2 ^ 32) ≤ (s.site v).fqDist (s.site v).fqTail then w.toNat % 2 ^ 32 else (s.site v).fqTail := by
  have hi : exec (.fqHeadWrite v w) s = due "FQ_HEAD_WRITE" (if kindOf v = .pavilion then some (s.writeFqHead v w) else none) := by rfl
  rw [if_pos hv] at hi
  refine ⟨_, hi, s.mem_writeFqHead v w, ?_⟩
  rw [State.site_writeFqHead]
  refine ⟨rfl, rfl, ?_⟩
  dsimp only
  rw [← ite_not]
  simp only [not_lt]

theorem faultQueueNotice_tells {n : Nat} {m : Msg} (ha : s.arriving n = some m) (hop : m.op = .faultNotice) : exec (.faultQueueNotice n) s =
    .next ((s.consume n).modGate m.dst fun g => { g with faultNotices := g.faultNotices + 1 }.interrupt 65) := by
  have hi : exec (.faultQueueNotice n) s = due "FAULT_QUEUE_NOTICE" (s.faultNotice n) := by rfl
  rw [hi, State.faultNotice, ha]
  exact congrArg _ (if_pos hop)

end Sys2Proof.Machine
end

section
/-! TLB invalidations, and the statement about late faults and the TLB (R200). -/

namespace Sys2Proof.Machine

open Sys2Proof Sys2Proof.Spec

variable {s : State} {v : Nat} {w : Word} {i : Instr}

/-! ## Writes of tlb.inv (R200) -/

/-- The entries that a write of tlb.inv removes: all of them with bit 63 set, else those that map the address. -/
def TlbEntry.goesWith (e : TlbEntry) (w : Word) : Bool := bitOn w.toNat 63 || e.maps (w.toNat % 2 ^ 57)

/-- What a write of tlb.inv does: entries that meet p go, the epoch rises and BUSY is set; while BUSY is set the write is held. -/
def Invalidates (i : Instr) (s : State) (v : Nat) (p : TlbEntry → Bool) : Prop :=
  ((s.site v).tlbBusy = false → ∃ t, exec i s = .next t ∧ t.mem = s.mem ∧ t.strands = s.strands ∧
    (t.site v).tlb = (s.site v).tlb.filter (fun e => !p e) ∧ (t.site v).tlbEpoch = ((s.site v).tlbEpoch + 1) % 2 ^ 32 ∧ (t.site v).tlbBusy = true) ∧
  ((s.site v).tlbBusy = true → ∃ t, exec i s = .next t ∧ (t.site v).tlb = (s.site v).tlb ∧ (t.site v).tlbEpoch = (s.site v).tlbEpoch ∧
    (t.site v).tlbHeld.length = (s.site v).tlbHeld.length + 1)

theorem invalidates_of_tlbInv {p : TlbEntry → Bool} (hi : exec i s = .next (s.tlbInv v w)) (hp : ∀ e : TlbEntry, e.goesWith w = p e) :
    Invalidates i s v p := by
  have same : p = (·.goesWith w) := funext fun e => (hp e).symm
  subst same
  rw [State.tlbInv] at hi
  refine ⟨fun hb => ?_, fun hb => ?_⟩
  · rw [hb] at hi
    refine ⟨_, hi, rfl, rfl, ?_⟩
    rw [if_neg Bool.false_ne_true, State.site_setSite, if_pos rfl]
    exact ⟨rfl, rfl, rfl⟩
  · rw [hb, if_pos rfl] at hi
    refine ⟨_, hi, ?_⟩
    rw [State.site_setSite, if_pos rfl]
    exact ⟨rfl, rfl, List.length_append⟩

theorem goesWith_addr (e : TlbEntry) (a : Word) : e.goesWith (a &&& 0x01FFFFFFFFFFFFFF#64) = e.maps (a.toNat % 2 ^ 57) := by
  have low : (a &&& 0x01FFFFFFFFFFFFFF#64).toNat = a.toNat % 2 ^ 57 := by
    rw [BitVec.toNat_and]
    exact Nat.and_two_pow_sub_one_eq_mod a.toNat 57
  have top : bitOn (a &&& 0x01FFFFFFFFFFFFFF#64).toNat 63 = false := by
    rw [bitOn_eq_getLsbD, BitVec.getLsbD_and]
    exact Bool.and_false _
  rw [TlbEntry.goesWith, top, low, Nat.mod_mod, Bool.false_or]

theorem goesWith_all (e : TlbEntry) : e.goesWith 0x8000000000000000#64 = true := by
  have top : bitOn (0x8000000000000000#64).toNat 63 = true := by decide
  rw [TlbEntry.goesWith, top, Bool.true_or]

theorem tlbInvAddr_invalidates (hv : kindOf v = .pavilion) (a : Word) : Invalidates (.tlbInvAddr v a) s v fun e => e.maps (a.toNat % 2 ^ 57) := by
  have hi : exec (.tlbInvAddr v a) s =
    due "TLB_INV_ADDR" (if kindOf v = .pavilion then some (s.tlbInv v (a &&& 0x01FFFFFFFFFFFFFF#64)) else none) := by rfl
  rw [if_pos hv] at hi
  exact invalidates_of_tlbInv hi fun e => goesWith_addr e a

theorem tlbInvAll_invalidates (hv : kindOf v = .pavilion) : Invalidates (.tlbInvAll v) s v fun _ => true := by
  have hi : exec (.tlbInvAll v) s = due "TLB_INV_ALL" (if kindOf v = .pavilion then some (s.tlbInv v 0x8000000000000000#64) else none) := by rfl
  rw [if_pos hv] at hi
  exact invalidates_of_tlbInv hi goesWith_all

/-! ## The end of BUSY (R200) -/

/-- Nothing that a removed entry translated is outstanding: the accesses, the dirty lines and the write-backs under way. -/
theorem State.tlbDone_of_performed (hwait : ∀ n ∈ (s.site v).tlbWait, ∀ u, s.txn n = some u → s.unperformed u = false)
    (hlines : ∀ l ∈ s.dirtyLines v, ∀ e ∈ (s.site v).tlbGone, e.made l = false)
    (hwritten : ∀ u ∈ s.txns, u.acc.owner = .writeBack → u.req.src = v → s.unperformed u = false) : s.tlbDone v = true := by
  simp only [State.tlbDone, Bool.and_eq_true, Bool.not_eq_true', List.all_eq_true, List.any_eq_false]
  refine ⟨⟨fun n hn => ?_, fun l hl => ?_⟩, fun u hu => ?_⟩
  · cases ht : s.txn n with
    | none => rfl
    | some u => simp [hwait n hn u ht]
  · simpa using hlines l hl
  · simp only [beq_iff_eq]
    rintro ⟨⟨⟨owner, source⟩, outstanding⟩, -⟩
    rw [hwritten u hu owner source] at outstanding
    exact Bool.false_ne_true outstanding

theorem tlbBusyClear_clears (hb : (s.site v).tlbBusy = true) (hd : s.tlbDone v = true) (hh : (s.site v).tlbHeld = []) :
    ∃ t, exec (.tlbBusyClear v) s = .next t ∧ (t.site v).tlbBusy = false ∧ (t.site v).tlb = (s.site v).tlb ∧ t.mem = s.mem := by
  have hi : exec (.tlbBusyClear v) s = due "TLB_BUSY_CLEAR" (s.tlbIdle v) := by rfl
  have idle : s.tlbIdle v = some (s.setSite v { s.site v with tlbBusy := false, tlbWait := [], tlbGone := [], tlbHeld := (s.site v).tlbHeld.drop 1 }) := by
    simp [State.tlbIdle, hb, hd, hh]
  rw [idle] at hi
  refine ⟨_, hi, ?_⟩
  rw [State.site_setSite, if_pos rfl]
  exact ⟨rfl, rfl, rfl⟩

/-- Settles O45: late faults, the ends of replay entries, wake words, the fault queue and its notice, then the writes of tlb.inv and the end of BUSY. -/
theorem lateFaultsAndTlb : Obligations.LateFaultsAndTlb := by
  refine ⟨⟨fun s k f rest => lateFaultTaken_takes, fun s c ix r => replayEntryEnd_wakes, ?_, fun s v w => fqHeadWrite_moves,
    fun s n m => faultQueueNotice_tells⟩, ?_⟩
  · intro s v w hv hn
    exact ⟨fqWake_wakes hv hn, fqWake_releases hv hn⟩
  · intro s v a hv
    refine ⟨fun q hq => ?_, fun hb hwait hlines hwritten hh => tlbBusyClear_clears hb (State.tlbDone_of_performed hwait hlines hwritten) hh⟩
    simp only [List.mem_cons, List.not_mem_nil, or_false] at hq
    obtain rfl | rfl := hq
    · exact tlbInvAddr_invalidates hv a
    · exact tlbInvAll_invalidates hv

end Sys2Proof.Machine
end

section
/-! Host queues of a gatehouse: their registers and completion records (R146, R148). -/

namespace Sys2Proof.Machine

open Sys2Proof Sys2Proof.Spec

variable {s t : State} {g q : Nat} {w : Word}

/-! ## A gatehouse after a change -/

@[simp] theorem State.gate_free (s : State) (v : Nat) : s.free.2.gate v = s.gate v := rfl
@[simp] theorem State.gate_fresh (s : State) (v : Nat) : s.fresh.2.gate v = s.gate v := rfl

/-- An event that is raised leaves the gatehouses as they are. -/
@[simp] theorem State.gate_raise (s : State) (v u sev code : Nat) (n : Option Nat) (a : Addr) (w : Nat) : (s.raise v u sev code n a).gate w = s.gate w := by
  rw [State.gate, State.raise, State.site_setSite]
  split_ifs with h
  · rw [h]; rfl
  · rfl

/-- A change of a gatehouse leaves what its site holds of events. -/
@[simp] theorem State.holdFull_modGate (s : State) (g v u : Nat) (f : Gate → Gate) : (s.modGate g f).holdFull v u = s.holdFull v u := by
  rw [State.holdFull, State.modGate, State.site_modSite]
  split_ifs with h
  · rw [h]; rfl
  · rfl

theorem State.hostQueue_eq (s : State) (g q : Nat) : Tab.get {} q (s.gate g).queues = s.hostQueue g q := rfl

@[simp] theorem State.modQueue_mem (s : State) (g q : Nat) (f : HostQueue → HostQueue) : (s.modQueue g q f).mem = s.mem := rfl
@[simp] theorem State.holdFull_modQueue (s : State) (g q v u : Nat) (f : HostQueue → HostQueue) : (s.modQueue g q f).holdFull v u = s.holdFull v u :=
  s.holdFull_modGate ..

@[simp] theorem State.hostQueue_modQueue (s : State) (g q : Nat) (f : HostQueue → HostQueue) : (s.modQueue g q f).hostQueue g q = f (s.hostQueue g q) := by
  simp [State.hostQueue, State.modQueue, State.gate_modGate]

/-! ## The registers of a queue (R146, R148) -/

theorem exec_eq_execQtailWrite (g q : Nat) (w : Word) (s : State) : exec (.qtailWrite g q w) s = execQtailWrite g q w s := rfl
theorem exec_eq_execQctlWrite (g q : Nat) (w : Word) (s : State) : exec (.qctlWrite g q w) s = execQctlWrite g q w s := rfl
theorem exec_eq_execCreadWrite (g q : Nat) (w : Word) (s : State) : exec (.creadWrite g q w) s = execCreadWrite g q w s := rfl
theorem exec_eq_execCompletionRecordWrite (g q : Nat) (s : State) : exec (.completionRecordWrite g q) s = execCompletionRecordWrite g q s := rfl

/-- The low half of a register write. -/
theorem bits_low (w : Word) : bits w.toNat 31 0 = w.toNat % 0x100000000 := by simp [bits]

/-- A queue that is not enabled, or whose tail stays within a ring of its head, goes on (R146). -/
theorem State.checkQueue_within (h : (s.hostQueue g q).en = false ∨ (s.hostQueue g q).ahead ≤ 2 ^ (s.hostQueue g q).lsize) : s.checkQueue g q = some s := by
  refine if_neg ?_
  rcases h with h | h <;> simp [h]

/-- A queue whose tail runs more than a ring ahead stops, with a notice event (R146). -/
theorem State.checkQueue_beyond (he : (s.hostQueue g q).en = true) (hs : (s.hostQueue g q).stopped = false)
    (ha : 2 ^ (s.hostQueue g q).lsize < (s.hostQueue g q).ahead) (hh : s.holdFull g 10 = false) :
    s.checkQueue g q = some ((s.modQueue g q fun h => { h with stopped := true }).raise g 10 sevNotice 0x010C none 0) := by
  simp [State.checkQueue, he, hs, ha, hh]

theorem qtailWrite_within (hq : hostQueueAt g q = true)
    (ht : (w.toNat % 0x100000000 + 0x100000000 - (s.hostQueue g q).head) % 0x100000000 ≤ 2 ^ (s.hostQueue g q).lsize) :
    exec (.qtailWrite g q w) s = .next (s.modQueue g q fun x => { x with tail := w.toNat % 0x100000000 }) := by
  have within := State.checkQueue_within (s := s.modQueue g q fun x => { x with tail := w.toNat % 0x100000000 }) (g := g) (q := q)
    (.inr (by rw [State.hostQueue_modQueue]; exact ht))
  rw [exec_eq_execQtailWrite, execQtailWrite, if_pos hq, State.writeQtail, bits_low, within]
  rfl

theorem qtailWrite_beyond (hq : hostQueueAt g q = true)
    (ht : 2 ^ (s.hostQueue g q).lsize < (w.toNat % 0x100000000 + 0x100000000 - (s.hostQueue g q).head) % 0x100000000)
    (he : (s.hostQueue g q).en = true) (hs : (s.hostQueue g q).stopped = false) (hh : s.holdFull g 10 = false) :
    ∃ t, exec (.qtailWrite g q w) s = .next t ∧ t.mem = s.mem ∧
      t.hostQueue g q = { s.hostQueue g q with tail := w.toNat % 0x100000000, stopped := true } ∧ t.holdFull g 10 = true := by
  have beyond := State.checkQueue_beyond (s := s.modQueue g q fun x => { x with tail := w.toNat % 0x100000000 }) (g := g) (q := q)
    (by rw [State.hostQueue_modQueue]; exact he) (by rw [State.hostQueue_modQueue]; exact hs) (by rw [State.hostQueue_modQueue]; exact ht)
    (by rw [State.holdFull_modQueue]; exact hh)
  rw [exec_eq_execQtailWrite, execQtailWrite, if_pos hq, State.writeQtail, bits_low, beyond]
  refine ⟨_, rfl, rfl, ?_, State.holdFull_raise ..⟩
  rw [State.hostQueue, State.gate_raise, State.hostQueue_eq, State.hostQueue_modQueue, State.hostQueue_modQueue]

/-- The ring size that a write of qctl leaves: fixed while EN is set (R146). -/
def HostQueue.sizeWritten (h : HostQueue) (w : Word) : Nat :=
  if h.en then h.lsize else if 4 ≤ (w.extractLsb' 16 5).toNat ∧ (w.extractLsb' 16 5).toNat ≤ 16 then (w.extractLsb' 16 5).toNat else 4

theorem qctlWrite_sets (hq : hostQueueAt g q = true)
    (ha : w.getLsbD 63 = false ∨ (s.hostQueue g q).ahead ≤ 2 ^ (s.hostQueue g q).sizeWritten w) :
    exec (.qctlWrite g q w) s = .next (s.modQueue g q fun x =>
      { x with en := w.getLsbD 63, prio := (w.extractLsb' 32 3).toNat, lsize := (s.hostQueue g q).sizeWritten w, stopped := x.stopped && w.getLsbD 63 }) := by
  let f (x : HostQueue) : HostQueue :=
    { x with en := w.getLsbD 63, prio := (w.extractLsb' 32 3).toNat, lsize := x.sizeWritten w, stopped := x.stopped && w.getLsbD 63 }
  have written : s.writeQctl g q w = (s.modQueue g q f).checkQueue g q := by
    simp only [State.writeQctl, f, HostQueue.sizeWritten, bitOn_eq_getLsbD, toNat_extractLsb'_eq_bits]
  have within := State.checkQueue_within (s := s.modQueue g q f) (g := g) (q := q) (by rw [State.hostQueue_modQueue]; exact ha)
  rw [exec_eq_execQctlWrite, execQctlWrite, if_pos hq, written, within]
  rfl

theorem creadWrite_sets (hq : hostQueueAt g q = true) : exec (.creadWrite g q w) s = .next (s.modQueue g q fun x =>
    { x with cread := if (x.cdone + 0x100000000 - x.cread) % 0x100000000 < (w.toNat % 0x100000000 + 0x100000000 - x.cread) % 0x100000000 then x.cdone
                      else w.toNat % 0x100000000 }) := by
  rw [exec_eq_execCreadWrite, execCreadWrite, if_pos hq, State.writeCread, bits_low]
  rfl

/-! ## Completion records (R148) -/

theorem bitOn_allOn {n i : Nat} (h : i < n) : bitOn (allOn n) i = true := by
  rw [bitOn_eq_testBit, allOn, Nat.testBit_two_pow_sub_one, decide_eq_true h]

theorem completionRecordWrite_writes {w0 w1 : Word} {rest : List (Word × Word)} (hq : hostQueueAt g q = true)
    (hh : (s.hostQueue g q).held = (w0, w1) :: rest)
    (hr : ((s.hostQueue g q).cdone + 0x100000000 - (s.hostQueue g q).cread) % 0x100000000 < 2 ^ (s.hostQueue g q).lsize) (hm : Memory.wf s.mem = true) :
    let h := s.hostQueue g q
    let p := hostKey (h.cbase + 16 * (h.cdone % 2 ^ h.lsize))
    ∃ t, exec (.completionRecordWrite g q) s = .next t ∧ t.hostQueue g q = { h with held := rest, cdone := (h.cdone + 1) % 0x100000000 } ∧
      ∀ a, Memory.read t.mem a =
        if p ≤ a ∧ a < p + 16 then (leBytes 8 w0.toNat ++ leBytes 8 w1.toNat).getD (a - p) 0 else Memory.read s.mem a := by
  intro h p
  have room : h.ringFull = false := by simpa [HostQueue.ringFull] using hr
  have queue (x : Gate) : (x.interrupt q).queues = x.queues := by unfold Gate.interrupt; split_ifs <;> rfl
  rw [exec_eq_execCompletionRecordWrite, execCompletionRecordWrite, if_pos hq, State.writeRecord]
  simp only [hh, room, h, Bool.false_eq_true, if_false]
  refine ⟨_, rfl, ?_, fun a => ?_⟩
  · rw [State.hostQueue, State.gate_modGate, queue, State.hostQueue_eq, State.hostQueue_modQueue]
    rfl
  · rw [State.modGate_mem, State.modQueue_mem, Memory.read_writeN hm]
    have enabled (hb : p ≤ a ∧ a < p + 16) : bitOn (allOn 16) (a - p) = true := bitOn_allOn (by omega)
    by_cases hb : p ≤ a ∧ a < p + 16
    · rw [if_pos hb, if_pos ⟨hb.1, by simpa using hb.2, enabled hb⟩]
    · rw [if_neg hb, if_neg fun hc => hb ⟨hc.1, by simpa using hc.2.1⟩]

end Sys2Proof.Machine
end

section
/-! Commands of host queues: how each is taken, and the status with which it is complete (R147-R150, R161, R172). -/

namespace Sys2Proof.Machine

open Sys2Proof Sys2Proof.Spec

variable {s t u : State} {g q op tag a b c : Nat}

theorem exec_eq_execHostCmdLaunch (g q : Nat) (s : State) : exec (.hostCmdLaunch g q) s = execHostCmdLaunch g q s := rfl
theorem exec_eq_execHostCmdReplay (g q : Nat) (s : State) : exec (.hostCmdReplay g q) s = execHostCmdReplay g q s := rfl
theorem exec_eq_execHostCmdPreempt (g q : Nat) (s : State) : exec (.hostCmdPreempt g q) s = execHostCmdPreempt g q s := rfl
theorem exec_eq_execHostCmdDrain (g q : Nat) (s : State) : exec (.hostCmdDrain g q) s = execHostCmdDrain g q s := rfl
theorem exec_eq_execHostCmdReserved (g q : Nat) (s : State) : exec (.hostCmdReserved g q) s = execHostCmdReserved g q s := rfl

/-! ## What an engine's reading corrects -/

theorem State.sysInspect_keeps {β : Type} (f : State → β) (hs : ∀ (s : State) v u sev code, f (s.raise v u sev code none 0) = f s)
    (hf : ∀ (s : State) l, f { s with flaws := l } = f s) (s : State) (gs : List Nat) : f (s.sysInspect gs) = f s := by
  refine each_keeps f (fun s p => ?_) (s.flawed gs) s
  unfold State.inspect
  dsimp only
  rw [apply_ite f, hf, ite_self, hs]

@[simp] theorem State.sysInspect_mem (s : State) (gs : List Nat) : (s.sysInspect gs).mem = s.mem :=
  State.sysInspect_keeps State.mem (fun _ _ _ _ _ => rfl) (fun _ _ => rfl) s gs

@[simp] theorem State.gate_sysInspect (s : State) (gs : List Nat) (v : Nat) : (s.sysInspect gs).gate v = s.gate v :=
  State.sysInspect_keeps (·.gate v) (fun s _ _ _ _ => s.gate_raise ..) (fun _ _ => rfl) s gs

@[simp] theorem State.hostQueue_sysInspect (s : State) (gs : List Nat) (g q : Nat) : (s.sysInspect gs).hostQueue g q = s.hostQueue g q := by
  rw [State.hostQueue, State.gate_sysInspect, State.hostQueue]

/-! ## The command at the head of a queue (R146-R148) -/

theorem commandWord_op (h : op < 256) : bits (tag * 0x100000000 + op) 7 0 = op := by simp only [bits]; omega
theorem commandWord_reserved (h : op < 256) : bits (tag * 0x100000000 + op) 31 8 = 0 := by simp only [bits]; omega
theorem commandWord_tag (h : op < 256) (ht : tag < 0x100000000) : bits (tag * 0x100000000 + op) 63 32 = tag := by simp only [bits]; omega
theorem bits_above {w lo : Nat} (h : w < 2 ^ lo) : bits w 63 lo = 0 := by rw [bits, Nat.div_eq_of_lt h, Nat.zero_mod]

theorem mayTake_of_takes {l : List Nat} (h : Takes s g q l) {p : Nat → Bool} (hp : p (bits (l.getD 0 0) 7 0) = true) : s.mayTake g q p = true := by
  obtain ⟨at_, up, en, running, some_, ring, unblocked, -, room, word⟩ := h
  simp only [State.mayTake, at_, up, en, running, unblocked, room, word, hp, decide_eq_true ring, decide_eq_true (Nat.pos_iff_ne_zero.1 some_)]
  rfl

theorem command_of_takes {l : List Nat} (h : Takes s g q l) : s.command g q = l := by
  obtain ⟨-, -, -, -, -, -, -, -, -, word⟩ := h
  exact word

theorem held_of_takes {l : List Nat} (h : Takes s g q l) : (s.hostQueue g q).held = [] := by
  obtain ⟨-, -, -, -, -, -, -, none_, -⟩ := h
  exact none_

theorem State.queuePlaced_of_placed (h : Placed s g q) : s.queuePlaced g q = true := by
  refine List.all_eq_true.2 fun l hl => ?_
  by_cases mine : l.queue = some q ∧ l.node = none
  · simp [Nat.not_lt.2 (h l hl mine.1 mine.2)]
  · simp only [not_and] at mine
    by_cases hq : l.queue = some q
    · simp [Option.isNone_iff_eq_none.not.2 (mine hq)]
    · simp [hq]

@[simp] theorem State.taken_mem (s : State) (g q : Nat) : (s.taken g q).mem = s.mem := rfl
@[simp] theorem State.hostQueue_taken (s : State) (g q : Nat) :
    (s.taken g q).hostQueue g q = { s.hostQueue g q with head := ((s.hostQueue g q).head + 1) % 2 ^ 32 } := State.hostQueue_modQueue ..

/-! ## What else stands at the gatehouse -/

theorem State.launches_modQueue (s : State) (g q : Nat) (f : HostQueue → HostQueue) : ((s.modQueue g q f).gate g).launches = (s.gate g).launches := by
  rw [State.modQueue, State.gate_modGate]

theorem State.replays_modQueue (s : State) (g q : Nat) (f : HostQueue → HostQueue) : ((s.modQueue g q f).gate g).replays = (s.gate g).replays := by
  rw [State.modQueue, State.gate_modGate]

theorem State.count_modQueue (s : State) (g q : Nat) (f : HostQueue → HostQueue) : ((s.modQueue g q f).gate g).count = (s.gate g).count := by
  rw [State.modQueue, State.gate_modGate]

/-- The launch that a launch unit starts (R152, R154). -/
def State.newLaunch (s : State) (g : Nat) (m : Desc) (queue : Option Nat) (tag : BitVec 32) (prio : Nat) (node : Option (Nat × Nat)) : Launch :=
  { number := BitVec.ofNat 32 (rimOf g * 2 ^ 28 + (s.gate g).count), desc := m, queue, tag, prio, order := (s.gate g).order, total := m.gangCount, node }

section StartLaunch

variable (s : State) (g : Nat) (m : Desc) (queue : Option Nat) (tag : BitVec 32) (prio : Nat) (node : Option (Nat × Nat))

theorem State.launches_startLaunch :
    ((s.startLaunch g m queue tag prio node).gate g).launches = (s.gate g).launches ++ [s.newLaunch g m queue tag prio node] := by
  rw [State.startLaunch, State.gate_modGate]
  rfl

theorem State.replays_startLaunch : ((s.startLaunch g m queue tag prio node).gate g).replays = (s.gate g).replays := by
  rw [State.startLaunch, State.gate_modGate]

theorem State.hostQueue_startLaunch (q : Nat) : (s.startLaunch g m queue tag prio node).hostQueue g q = s.hostQueue g q := by
  rw [State.hostQueue, State.startLaunch, State.gate_modGate]
  rfl

end StartLaunch

/-! ## Commands that are complete (R148) -/

/-- A command that has been taken is complete: its record is the one that its queue holds (R148). -/
theorem ended_complete (n st : Nat) (ht : tag < 0x100000000) (hh : (s.hostQueue g q).held = []) (hm : u.mem = s.mem)
    (hu : u.hostQueue g q = (s.taken g q).hostQueue g q) :
    Ended s (u.modGate g fun x => x.complete q op st (BitVec.ofNat 32 tag) n) g q op st tag := by
  have queue : (u.modGate g fun x => x.complete q op st (BitVec.ofNat 32 tag) n).hostQueue g q =
      { (s.taken g q).hostQueue g q with held := [completionRecord op st tag n] } := by
    rw [State.hostQueue, State.gate_modGate, Gate.complete, Tab.get_put_self, State.hostQueue_eq, hu, State.hostQueue_taken, hh,
      BitVec.toNat_ofNat, Nat.mod_eq_of_lt ht]
    rfl
  refine ⟨by rw [queue, State.hostQueue_taken], hm, _, by rw [queue]; rfl⟩

theorem ended_finishCommand (st : Nat) (ht : tag < 0x100000000) (hh : (s.hostQueue g q).held = []) (hm : u.mem = s.mem)
    (hu : u.hostQueue g q = (s.taken g q).hostQueue g q) : Ended s (u.finishCommand g q op st tag) g q op st tag :=
  ended_complete (u := u.free.2) _ st ht hh hm hu

/-! ## Launch (R147-R150, R172) -/

section Launch

/-- The granules that a launch command reads for its descriptor. -/
def State.launchReads (s : State) (g a : Nat) : List Nat := s.sysGranules g true false true (BitVec.ofNat 60 a) 256

variable {l : List Byte} (h : Takes s g q [tag * 0x100000000 + 1, a, 0, 0, 0, 0, 0, 0]) (ht : tag < 0x100000000) (ha : a < 0x1000000000000000)
  (hp : Placed s g q) (hs : s.sysStalled (s.launchReads g a) = false)
include h ht ha hp hs

/-- A descriptor that cannot be read gives status 4 (R148). -/
theorem State.cmdLaunch_unread (hr : s.sysRead g (BitVec.ofNat 60 a) 256 = none) :
    s.cmdLaunch g q = some (((s.taken g q).sysInspect (s.launchReads g a)).finishCommand g q 1 4 tag) := by
  have take := mayTake_of_takes h (p := (· == 1)) (by simp [commandWord_op])
  rw [State.launchReads] at hs
  simp [State.cmdLaunch, State.launchReads, take, State.queuePlaced_of_placed hp, command_of_takes h, commandClean, commandWord_reserved, commandWord_tag, ht, hs,
    hr, bits_above (lo := 60) ha, List.range_succ]

/-- What a launch command comes to with its descriptor read: status 2, status 3, or the start of its launch (R147-R150, R172). -/
theorem State.cmdLaunch_read (hr : s.sysRead g (BitVec.ofNat 60 a) 256 = some l) :
    let t := (s.taken g q).sysInspect (s.launchReads g a)
    s.cmdLaunch g q = some
      (if (descOf l).rejected = true ∨ s.strayCounter g (descOf l) = true ∨ a % 64 ≠ 0 then t.finishCommand g q 1 2 tag
       else if (descOf l).overclaims = true then t.finishCommand g q 1 3 tag
       else (t.startLaunch g (descOf l) (some q) (BitVec.ofNat 32 tag) (s.hostQueue g q).prio none).modQueue g q fun h =>
         { h with open_ := NatSet.add (rimOf g * 2 ^ 28 + (s.gate g).count) h.open_ }) := by
  have take := mayTake_of_takes h (p := (· == 1)) (by simp [commandWord_op])
  rw [State.launchReads] at hs
  simp [State.cmdLaunch, State.launchReads, take, State.queuePlaced_of_placed hp, command_of_takes h, commandClean, commandWord_reserved, commandWord_tag, ht, hs,
    hr, bits_above (lo := 60) ha, List.range_succ, apply_ite some, or_assoc]

theorem hostCmdLaunch_unread (hr : s.sysRead g (BitVec.ofNat 60 a) 256 = none) :
    ∃ t, exec (.hostCmdLaunch g q) s = .next t ∧ Ended s t g q 1 4 tag := by
  rw [exec_eq_execHostCmdLaunch, execHostCmdLaunch, State.cmdLaunch_unread h ht ha hp hs hr]
  exact ⟨_, rfl, ended_finishCommand 4 ht (held_of_takes h) (State.sysInspect_mem ..) (State.hostQueue_sysInspect ..)⟩

theorem hostCmdLaunch_rejected (hr : s.sysRead g (BitVec.ofNat 60 a) 256 = some l)
    (hd : (descOf l).rejected = true ∨ s.strayCounter g (descOf l) = true ∨ a % 64 ≠ 0) :
    ∃ t, exec (.hostCmdLaunch g q) s = .next t ∧ Ended s t g q 1 2 tag := by
  rw [exec_eq_execHostCmdLaunch, execHostCmdLaunch, State.cmdLaunch_read h ht ha hp hs hr, if_pos hd]
  exact ⟨_, rfl, ended_finishCommand 2 ht (held_of_takes h) (State.sysInspect_mem ..) (State.hostQueue_sysInspect ..)⟩

theorem hostCmdLaunch_overclaims (hr : s.sysRead g (BitVec.ofNat 60 a) 256 = some l)
    (hd : ¬((descOf l).rejected = true ∨ s.strayCounter g (descOf l) = true ∨ a % 64 ≠ 0)) (hc : (descOf l).overclaims = true) :
    ∃ t, exec (.hostCmdLaunch g q) s = .next t ∧ Ended s t g q 1 3 tag := by
  rw [exec_eq_execHostCmdLaunch, execHostCmdLaunch, State.cmdLaunch_read h ht ha hp hs hr, if_neg hd, if_pos hc]
  exact ⟨_, rfl, ended_finishCommand 3 ht (held_of_takes h) (State.sysInspect_mem ..) (State.hostQueue_sysInspect ..)⟩

theorem hostCmdLaunch_starts (hr : s.sysRead g (BitVec.ofNat 60 a) 256 = some l)
    (hd : ¬((descOf l).rejected = true ∨ s.strayCounter g (descOf l) = true ∨ a % 64 ≠ 0)) (hc : (descOf l).overclaims = false) :
    ∃ t y, exec (.hostCmdLaunch g q) s = .next t ∧ t.mem = s.mem ∧
      (t.hostQueue g q).head = ((s.hostQueue g q).head + 1) % 0x100000000 ∧ (t.hostQueue g q).held = [] ∧
      (t.gate g).launches = (s.gate g).launches ++ [y] ∧ y.desc = descOf l ∧ y.queue = some q ∧ y.tag = BitVec.ofNat 32 tag ∧
      y.prio = (s.hostQueue g q).prio ∧ y.number = BitVec.ofNat 32 (rimOf g * 2 ^ 28 + (s.gate g).count) := by
  rw [exec_eq_execHostCmdLaunch, execHostCmdLaunch, State.cmdLaunch_read h ht ha hp hs hr, if_neg hd, if_neg (by rw [hc]; nofun)]
  refine ⟨_, ((s.taken g q).sysInspect (s.launchReads g a)).newLaunch g (descOf l) (some q) (BitVec.ofNat 32 tag) (s.hostQueue g q).prio none,
    rfl, ?_, ?_, ?_, ?_, rfl, rfl, rfl, rfl, ?_⟩
  · exact State.sysInspect_mem ..
  · rw [State.hostQueue_modQueue, State.hostQueue_startLaunch, State.hostQueue_sysInspect, State.hostQueue_taken]
    rfl
  · rw [State.hostQueue_modQueue, State.hostQueue_startLaunch, State.hostQueue_sysInspect, State.hostQueue_taken]
    exact held_of_takes h
  · rw [State.launches_modQueue, State.launches_startLaunch, State.gate_sysInspect, State.taken, State.launches_modQueue]
  · rw [State.newLaunch, State.gate_sysInspect, State.taken, State.count_modQueue]

end Launch

/-! ## Replays (R147, R157) -/

theorem hostCmdReplay_waits (h : Takes s g q [tag * 0x100000000 + 2, a, b, c, 0, 0, 0, 0]) (ht : tag < 0x100000000) (ha : a < 0x1000000000000000)
    (hb : b < 0x1000000000000000) (hc : c < 0x100000000) (hp : Placed s g q) :
    ∃ t r, exec (.hostCmdReplay g q) s = .next t ∧ t.mem = s.mem ∧ (t.gate g).replays = (s.gate g).replays ++ [r] ∧
      r.object = BitVec.ofNat 60 a ∧ r.patch = BitVec.ofNat 60 b ∧ r.patchLen = c ∧ r.queue = q ∧ r.bank = none ∧
      (t.hostQueue g q).blocked = some r.id := by
  have take := mayTake_of_takes h (p := (· == 2)) (by simp [commandWord_op])
  let u := s.taken g q
  let r : ReplayCmd := { id := u.nextId, object := BitVec.ofNat 60 a, patch := BitVec.ofNat 60 b, patchLen := c, queue := q, tag := BitVec.ofNat 32 tag,
                         number := (Config.freeWord u.freeIx).toNat % 2 ^ 32 }
  have waits : s.cmdReplay g q = some ((u.fresh.2.free.2.modGate g fun x => { x with replays := x.replays ++ [r] }).modQueue g q fun h =>
      { h with blocked := some u.nextId }) := by
    simp [State.cmdReplay, take, State.queuePlaced_of_placed hp, command_of_takes h, commandClean, commandWord_reserved, commandWord_tag, ht,
      bits_above (lo := 60) ha, bits_above (lo := 60) hb, bits_above (lo := 32) hc, List.range_succ, u, r, State.fresh, State.free]
  rw [exec_eq_execHostCmdReplay, execHostCmdReplay, waits]
  refine ⟨_, r, rfl, rfl, ?_, rfl, rfl, rfl, rfl, rfl, by rw [State.hostQueue_modQueue]⟩
  have kept : (u.gate g).replays = (s.gate g).replays := State.replays_modQueue ..
  rw [State.replays_modQueue, State.gate_modGate]
  exact congrArg (· ++ [r]) kept

/-! ## Pre-emption (R147, R161) -/

/-- Lists gathered over a table do not see a record that is written with the same list as the one that stood there. -/
theorem Tab.flatMap_put {α β : Type} (f : α → List β) (d x : α) {t : List (Nat × α)} (hr : Rising t) (k : Nat) (hd : f d = []) (hx : f x = f (Tab.get d k t)) :
    ((Tab.put k x t).flatMap fun p => f p.2) = t.flatMap fun p => f p.2 := by
  induction t with
  | nil => simpa [Tab.put, Tab.get, Tab.find, hd] using hx
  | cons p t ih =>
    obtain ⟨j, y⟩ := p
    obtain ⟨above, rest⟩ := List.pairwise_cons.1 hr
    by_cases hk : k = j
    · subst hk
      have same : f x = f y := by simpa [Tab.get, Tab.find] using hx
      simp [Tab.put, same]
    · have get : Tab.get d k ((j, y) :: t) = Tab.get d k t := by simp [Tab.get, Tab.find, Ne.symm hk]
      rw [get] at hx
      by_cases lt : k < j
      · have none_ : Tab.find k t = none := Tab.find_below fun a ha => lt.trans (above a ha)
        have nil : f x = [] := by rw [hx, Tab.get, none_]; exact hd
        simp [Tab.put, lt, nil]
      · simp only [Tab.put, if_neg lt, if_neg hk, List.flatMap_cons, ih rest hx]

/-- The gangs that a command names stand in the claim tables, whatever changes at a gatehouse. -/
theorem State.named_modGate (h : Sound s) (f : Gate → Gate) : (s.modGate g f).named a b = s.named a b := by
  obtain ⟨-, -, -, -, sites⟩ := h
  exact Tab.flatMap_put (fun t : Site => t.gangs.filterMap _) {} _ sites g rfl rfl

section Preempt

variable (hs : Sound s) (h : Takes s g q [tag * 0x100000000 + 3, a, b, 0, 0, 0, 0, 0]) (ht : tag < 0x100000000) (ha : a < 0x100000000) (hb : b < 0x100000000)
include hs h ht ha hb

theorem State.cmdPreempt_eq : s.cmdPreempt g q = some
    (if s.named a b = [] then (s.taken g q).modGate g fun x => x.complete q 3 7 (BitVec.ofNat 32 tag) a
     else (s.taken g q).modGate g fun x => { x with preempts := x.preempts ++ [(q, BitVec.ofNat 32 tag, s.named a b)] }) := by
  have take := mayTake_of_takes h (p := (· == 3)) (by simp [commandWord_op])
  have named : (s.taken g q).named a b = s.named a b := State.named_modGate hs _
  simp [State.cmdPreempt, take, command_of_takes h, commandClean, commandWord_reserved, commandWord_tag, ht, bits_above (lo := 32) ha,
    bits_above (lo := 32) hb, List.range_succ, named, apply_ite some]

theorem hostCmdPreempt_names_none (hn : s.named a b = []) : ∃ t, exec (.hostCmdPreempt g q) s = .next t ∧ Ended s t g q 3 7 tag := by
  rw [exec_eq_execHostCmdPreempt, execHostCmdPreempt, State.cmdPreempt_eq hs h ht ha hb, if_pos hn]
  exact ⟨_, rfl, ended_complete a 7 ht (held_of_takes h) rfl rfl⟩

theorem hostCmdPreempt_names (hn : s.named a b ≠ []) :
    ∃ t, exec (.hostCmdPreempt g q) s = .next t ∧ t.mem = s.mem ∧ (t.hostQueue g q).held = [] ∧
      (t.gate g).preempts = (s.gate g).preempts ++ [(q, BitVec.ofNat 32 tag, s.named a b)] := by
  rw [exec_eq_execHostCmdPreempt, execHostCmdPreempt, State.cmdPreempt_eq hs h ht ha hb, if_neg hn]
  refine ⟨_, rfl, rfl, ?_, ?_⟩
  · rw [State.hostQueue, State.gate_modGate, State.hostQueue_eq, State.hostQueue_taken]
    exact held_of_takes h
  · rw [State.gate_modGate, State.taken, State.modQueue, State.gate_modGate]

end Preempt

/-! ## Drains and reserved commands (R147, R148) -/

theorem hostCmdDrain_ends (h : Takes s g q [tag * 0x100000000 + 4, 0, 0, 0, 0, 0, 0, 0]) (ht : tag < 0x100000000) (hi : s.queueIdle g q = true) :
    ∃ t, exec (.hostCmdDrain g q) s = .next t ∧ Ended s t g q 4 0 tag := by
  have take := mayTake_of_takes h (p := (· == 4)) (by simp [commandWord_op])
  have drain : s.cmdDrain g q = some ((s.taken g q).finishCommand g q 4 0 tag) := by
    simp [State.cmdDrain, take, hi, command_of_takes h, commandClean, commandWord_reserved, commandWord_tag, ht, List.range_succ]
  rw [exec_eq_execHostCmdDrain, execHostCmdDrain, drain]
  exact ⟨_, rfl, ended_finishCommand 0 ht (held_of_takes h) rfl rfl⟩

theorem hostCmdReserved_ends {l : List Nat} (h : Takes s g q l) (hl : l.getD 0 0 = tag * 0x100000000 + op) (ht : tag < 0x100000000) (ho : op = 0 ∨ 4 < op)
    (hb : op < 256) : ∃ t, exec (.hostCmdReserved g q) s = .next t ∧ Ended s t g q op 1 tag := by
  have take := mayTake_of_takes h (p := fun o => decide (o = 0 ∨ 4 < o)) (by rw [hl, commandWord_op hb]; exact decide_eq_true ho)
  have reserved : s.cmdReserved g q = some ((s.taken g q).finishCommand g q op 1 tag) := by
    simp only [State.cmdReserved, take, command_of_takes h, hl, commandWord_op hb, commandWord_tag hb ht]
    rfl
  rw [exec_eq_execHostCmdReserved, execHostCmdReserved, reserved]
  exact ⟨_, rfl, ended_finishCommand 1 ht (held_of_takes h) rfl rfl⟩

end Sys2Proof.Machine
end

section
/-! Graph replays (R156-R158): the start of a replay and of a node, and the statement about host queues. -/

namespace Sys2Proof.Machine

open Sys2Proof Sys2Proof.Spec

variable {s : State} {g i n : Nat} {r : ReplayCmd} {m : Graph}

theorem exec_eq_execReplayStart (g i : Nat) (s : State) : exec (.replayStart g i) s = execReplayStart g i s := rfl
theorem exec_eq_execGraphNodeStart (g i n : Nat) (s : State) : exec (.graphNodeStart g i n) s = execGraphNodeStart g i n s := rfl

/-! ## What engines read where no error strikes (R90) -/

@[simp] theorem State.sysStalled_nil (s : State) : s.sysStalled [] = false := rfl
@[simp] theorem State.sysInspect_nil (s : State) : s.sysInspect [] = s := rfl

section Unflawed

variable (h : s.flaws = [])
include h

theorem State.sysGranules_unflawed (v : Nat) (sup w data : Bool) (a : Addr) (n : Nat) : s.sysGranules v sup w data a n = [] := if_pos (by rw [h]; rfl)

theorem State.writeReads_unflawed (v : Nat) (a : Addr) (l : List Byte) : s.writeReads v a l = [] := if_pos (by rw [h]; rfl)

theorem State.graphReads_unflawed (g : Nat) (o : Addr) : s.graphReads g o = [] := State.sysGranules_unflawed h ..

theorem State.replayReads_unflawed (g : Nat) (r : ReplayCmd) : s.replayReads g r = [] := by
  simp only [State.replayReads, State.graphReads_unflawed h, State.sysGranules_unflawed h, List.nil_append, ite_self]
  split
  · rfl
  · simp

end Unflawed

/-! ## The start of a replay (R157, R158) -/

/-- The bank that a replay takes: the free one, and of two free ones the one not used last (R157). -/
def GraphObj.bankTaken (o : GraphObj) : Bool := if o.busyA then true else if o.busyB then false else o.last == some false

/-- The address of a bank of a graph object. -/
def Graph.bank (m : Graph) (b : Bool) : Addr := if b then m.bankB else m.bankA

/-- A replay's bank after its start: the bytes of the bank used last, then the patch (R157, R158). -/
def State.bankFilled (s : State) (g : Nat) (bank : Addr) (old : List Byte) (es : List (Nat × List Byte)) : State :=
  each es (fun s e => s.sysWrite g (bank + BitVec.ofNat 60 e.1) e.2) (s.sysWrite g bank old)

/-- The books of a launch unit with a replay's bank in use (R157). -/
def Gate.bankInUse (x : Gate) (i nodes : Nat) (object : Addr) (b : Bool) : Gate :=
  let y := x.modReplay i fun r => { r with bank := some b, nodes }
  let o : GraphObj := Tab.get {} object.toNat y.objects
  { y with objects := Tab.put object.toNat (if b then { o with busyB := true, last := some b } else { o with busyA := true, last := some b }) y.objects }

theorem GraphObj.bankTaken_unused {o : GraphObj} (h : o.last = none) : (if !o.busyA && !o.busyB then false else o.busyA) = o.bankTaken := by
  rw [GraphObj.bankTaken, h]
  cases o.busyA <;> cases o.busyB <;> rfl

theorem GraphObj.bankTaken_used {o : GraphObj} {x : Bool} (h : o.last = some x) : (if !o.busyA && !o.busyB then !x else o.busyA) = o.bankTaken := by
  rw [GraphObj.bankTaken, h]
  cases o.busyA <;> cases o.busyB <;> cases x <;> rfl

/-- What a change gives to the replay of a number holds of every replay of that number. -/
theorem Gate.of_mem_modReplay {x : Gate} {f : ReplayCmd → ReplayCmd} {q : ReplayCmd} (h : q ∈ (x.modReplay i f).replays) (hq : q.id = i)
    {P : ReplayCmd → Prop} (hP : ∀ r, P (f r)) : P q := by
  obtain ⟨r, -, rfl⟩ := List.mem_map.1 h
  split_ifs at hq ⊢ with hr
  · exact hP r
  · exact absurd hq hr

/-- The descriptors of all nodes are read, each good for what every single one is. -/
theorem mapM_some {α β : Type} {f : α → Option β} {P : β → Prop} {l : List α} (h : ∀ a ∈ l, ∃ b, f a = some b ∧ P b) :
    ∃ bs, l.mapM f = some bs ∧ ∀ b ∈ bs, P b := by
  induction l with
  | nil => exact ⟨[], rfl, nofun⟩
  | cons a l ih =>
    obtain ⟨b, hb, pb⟩ := h a List.mem_cons_self
    obtain ⟨bs, hbs, pbs⟩ := ih fun c hc => h c (List.mem_cons_of_mem _ hc)
    refine ⟨b :: bs, by simp [List.mapM_cons, hb, hbs], fun c hc => ?_⟩
    rcases List.mem_cons.1 hc with rfl | hc
    · exact pb
    · exact pbs c hc

section Start

variable {ws : List Nat} {pb old : List Byte} {es : List (Nat × List Byte)} {b : Bool} {o : GraphObj}
  (hw : s.graphWords g r.object = some ws) (hm : graphOf ws = some m) (hf : s.flaws = [])
  (hr : (s.gate g).replays.find? (fun q => q.id == i && q.bank.isNone && !q.done) = some r)
  (ho : Tab.get {} r.object.toNat (s.gate g).objects = o) (hb : (o.busyA && o.busyB) = false) (ht : o.bankTaken = b)
  (hl : r.patchLen ≤ 65536) (hp : r.patch = 0 ∧ pb = [] ∨ r.patch ≠ 0 ∧ s.sysRead g r.patch r.patchLen = some pb)
  (hn : ∀ n ∈ m.nodes, ∃ l, s.sysRead g n.1 256 = some l ∧ (descOf l).rejected = false ∧ s.strayCounter g (descOf l) = false)
  (he : patchEntries (pb.length + 1) m.bsize pb = some es)
  (hc : (o.last = none ∨ o.last = some b) ∧ old = [] ∨ o.last = some (!b) ∧ s.sysRead g (m.bank (!b)) m.bsize = some old)
include hw hm hf hr ho hb ht hl hp hn he hc

theorem State.replayStart_takes : s.replayStart g i = some
    (((s.bankFilled g (m.bank b) old es).modGate g fun x => x.bankInUse i m.nodes.length r.object b).modQueue g r.queue fun h =>
      { h with blocked := none }) := by
  have patch : (if r.patch = 0 then some [] else s.sysRead g r.patch r.patchLen) = some pb := by
    rcases hp with ⟨zero, rfl⟩ | ⟨set, read⟩
    · exact if_pos zero
    · rw [if_neg set, read]
  obtain ⟨ds, descs, good⟩ := mapM_some hn
  have accepted : ds.any (fun l => (descOf l).rejected || s.strayCounter g (descOf l)) = false :=
    List.any_eq_false.2 fun l hl => by simp [good l hl]
  have nothing : es.flatMap (fun _ => ([] : List Nat)) = [] := by simp
  cases last : o.last with
  | none =>
    have unused : old = [] := by simpa [last] using hc
    simp only [State.replayStart, hr, ho, hb, hw, hm, State.replayReads_unflawed hf, State.sysStalled_nil, State.sysInspect_nil, Bool.or_self, Bool.false_eq_true,
      if_false, if_neg (Nat.not_lt.2 hl), patch, descs, he, accepted, last, GraphObj.bankTaken_unused last, ht, State.writeReads_unflawed hf, nothing,
      List.append_nil, unused]
    rfl
  | some x =>
    have before : (if (x != b) = true then s.sysRead g (if (!b) = true then m.bankB else m.bankA) m.bsize else some []) = some old := by
      rw [last] at hc
      rcases hc with ⟨none_ | same, rfl⟩ | ⟨other, read⟩
      · cases none_
      · exact if_neg (by simpa using same)
      · exact (if_pos (by cases other; cases b <;> rfl)).trans read
    simp only [State.replayStart, hr, ho, hb, hw, hm, State.replayReads_unflawed hf, State.sysStalled_nil, State.sysInspect_nil, Bool.or_self, Bool.false_eq_true,
      if_false, if_neg (Nat.not_lt.2 hl), patch, descs, he, accepted, last, GraphObj.bankTaken_used last, ht, State.sysGranules_unflawed hf,
      State.writeReads_unflawed hf, ite_self, before, nothing, List.append_nil]
    rfl

theorem replayStart_fills : ∃ t, exec (.replayStart g i) s = .next t ∧ t.mem = (s.bankFilled g (m.bank b) old es).mem ∧
    (∀ q ∈ (t.gate g).replays, q.id = i → q.bank = some b ∧ q.nodes = m.nodes.length) ∧ (t.hostQueue g r.queue).blocked = none := by
  rw [exec_eq_execReplayStart, execReplayStart, State.replayStart_takes hw hm hf hr ho hb ht hl hp hn he hc]
  refine ⟨_, rfl, rfl, fun q hq id => ?_, by rw [State.hostQueue_modQueue]⟩
  rw [State.replays_modQueue, State.gate_modGate] at hq
  exact Gate.of_mem_modReplay (P := fun q => q.bank = some b ∧ q.nodes = m.nodes.length) hq id fun _ => ⟨rfl, rfl⟩

end Start

/-! ## The start of a node (R156, R157) -/

/-- The state with a node of a replay marked as started (R157). -/
def State.nodeMarked (s : State) (g i n : Nat) : State := s.modGate g fun x => x.modReplay i fun r => { r with started := NatSet.add n r.started }

section Node

variable {ws : List Nat} {b : Bool} {a : Addr} {ps : List Nat} {l : List Byte}
  (hw : s.graphWords g r.object = some ws) (hm : graphOf ws = some m) (hf : s.flaws = [])
  (hr : (s.gate g).replays.find? (fun q => q.id == i) = some r) (hb : r.bank = some b) (hn : m.nodes[n]? = some (a, ps)) (hs : n ∉ r.started)
  (hd : r.done = false) (hp : ∀ p ∈ ps, p ∈ r.complete) (hl : s.sysRead g a 256 = some l) (hj : (descOf l).rejected = false)
  (hk : s.strayCounter g (descOf l) = false) (ho : (descOf l).overclaims = false)
include hw hm hf hr hb hn hs hd hp hl hj hk ho

theorem State.nodeStart_starts : s.nodeStart g i n = some
    ((s.nodeMarked g i n).startLaunch g { descOf l with param := m.bank b + (descOf l).param } (some r.queue) r.tag
      (s.hostQueue g r.queue).prio (some (i, n))) := by
  have ready : (r.started.contains n || r.done || !ps.all r.complete.contains || s.sysStalled []) = false := by
    simpa [hs, hd] using hp
  have stray : (s.nodeMarked g i n).strayCounter g (descOf l) = false := by
    rw [← hk, State.strayCounter, State.strayCounter, State.kindAt, State.kindAt, State.nodeMarked, State.modGate, State.site_modSite, if_pos rfl]
  have prio : (s.nodeMarked g i n).hostQueue g r.queue = s.hostQueue g r.queue := by
    rw [State.hostQueue, State.nodeMarked, State.gate_modGate]
    rfl
  rw [State.nodeMarked] at stray prio
  simp only [State.nodeStart, hr, hb, hw, hm, Option.bind_some, hn, State.graphReads_unflawed hf, State.sysGranules_unflawed hf, List.append_nil, ready,
    Bool.false_eq_true, if_false, State.sysInspect_nil, hl, hj, stray, Bool.or_self, ho, prio]
  rfl

theorem graphNodeStart_starts : ∃ t y, exec (.graphNodeStart g i n) s = .next t ∧ t.mem = s.mem ∧ (t.gate g).launches = (s.gate g).launches ++ [y] ∧
    y.desc = { descOf l with param := m.bank b + (descOf l).param } ∧ y.queue = some r.queue ∧ y.node = some (i, n) ∧
    ∀ q ∈ (t.gate g).replays, q.id = i → n ∈ q.started := by
  rw [exec_eq_execGraphNodeStart, execGraphNodeStart, State.nodeStart_starts hw hm hf hr hb hn hs hd hp hl hj hk ho]
  refine ⟨_, (s.nodeMarked g i n).newLaunch g { descOf l with param := m.bank b + (descOf l).param } (some r.queue) r.tag (s.hostQueue g r.queue).prio
    (some (i, n)), rfl, rfl, ?_, rfl, rfl, rfl, fun q hq id => ?_⟩
  · rw [State.launches_startLaunch, State.nodeMarked, State.gate_modGate]
    rfl
  · rw [State.replays_startLaunch, State.nodeMarked, State.gate_modGate] at hq
    exact Gate.of_mem_modReplay (P := fun q => n ∈ q.started) hq id fun r => List.contains_iff_mem.1 ((NatSet.contains_add n n r.started).trans (if_pos rfl))

end Node

/-- Settles O53: the registers and records of a queue, its commands one by one, then replays and their nodes. -/
theorem hostQueues : Obligations.HostQueues := by
  refine ⟨⟨?_, ?_⟩, ?_⟩
  · intro s g q w hq
    exact ⟨qtailWrite_within hq, qtailWrite_beyond hq, qctlWrite_sets hq, creadWrite_sets hq, fun w0 w1 rest => completionRecordWrite_writes hq⟩
  · intro s g q op tag a b c ht
    refine ⟨?_, ?_, ?_, ?_, ?_⟩
    · rintro h rfl ha hp hs
      refine ⟨hostCmdLaunch_unread h ht ha hp hs, fun l hr => ⟨hostCmdLaunch_rejected h ht ha hp hs hr, ?_, ?_⟩⟩
      · exact fun hj hk h64 => hostCmdLaunch_overclaims h ht ha hp hs hr (by simp [hj, hk, h64])
      · exact fun hj hk h64 => hostCmdLaunch_starts h ht ha hp hs hr (by simp [hj, hk, h64])
    · rintro h rfl ha hb hc hp
      exact hostCmdReplay_waits h ht ha hb hc hp
    · rintro hs h rfl ha hb
      exact ⟨hostCmdPreempt_names_none hs h ht ha hb, hostCmdPreempt_names hs h ht ha hb⟩
    · rintro h rfl hi
      exact hostCmdDrain_ends h ht hi
    · exact fun l h hl ho hb => hostCmdReserved_ends h hl ht ho hb
  · intro s g i r ws m hw hm hf
    refine ⟨?_, ?_⟩
    · rintro b pb old es hr hb rfl hl hp hn he hc
      exact replayStart_fills hw hm hf hr rfl hb rfl hl hp hn he hc
    · exact fun b n a ps l hr hb hn hs hd hp hl => graphNodeStart_starts hw hm hf hr hb hn hs hd hp hl

end Sys2Proof.Machine
end

section
/-! The record of a fault, whatever follows it (R59, R373, R374). -/

namespace Sys2Proof.Machine

open Sys2Proof Sys2Proof.Spec

variable {s : State}

/-- The three fault registers of a strand (R59). -/
def Strand.record (x : Strand) : Word × Addr × Addr := (x.faultCode, x.faultAddr, x.faultPc)

/-- A change of a strand that leaves its fault registers leaves those of the issuing strand. -/
theorem State.record_modStrand (s : State) (k : Nat) {f : Strand → Strand} (hf : ∀ x, (f x).record = x.record) : (s.modStrand k f).me.record = s.me.record := by
  rw [State.me, State.strand_modStrand]
  split_ifs with h
  · rw [hf, ← h]
    rfl
  · rfl

theorem State.record_park (s : State) (k : Nat) (r : Park) (c : Cont) : (s.park k r c).me.record = s.me.record :=
  s.record_modStrand k (f := fun x => { x with st := .parked, why := some r, cont := c }) fun _ => rfl

theorem Strand.record_halted (x : Strand) : x.halted.record = x.record := by
  unfold Strand.halted
  split_ifs <;> rfl

theorem State.record_stop (s : State) (k : Nat) : (s.stop k).me.record = s.me.record := s.record_modStrand k (f := Strand.halted) Strand.record_halted

theorem State.record_abortStrand (s : State) (k : Nat) : (s.abortStrand k).me.record = s.me.record := by
  have cur : (s.abortStrand k).cur = s.cur := rfl
  rw [State.me, cur, State.strand_abortStrand]
  split_ifs with h
  · rw [Strand.record_halted, State.me, h]
  · rfl

theorem State.record_abortGang (s : State) (v e : Nat) : (s.abortGang v e).me.record = s.me.record :=
  each_keeps (·.me.record) State.record_abortStrand ..

theorem State.record_trapEntry (s : State) (k : Nat) (a : Addr) (n : Nat) : (s.trapEntry k a n).me.record = s.me.record := by
  unfold State.trapEntry
  exact s.record_modStrand k fun _ => rfl

/-- A trap, a stop, an abort and a wait for the event's hold leave the record of the fault. -/
theorem State.record_faultAct (s : State) (k : Nat) (f : Late) : (s.faultAct k f).me.record = s.me.record := by
  unfold State.faultAct State.faultTrap
  dsimp only
  split_ifs
  · exact s.record_park ..
  · exact State.record_stop ..
  · exact s.record_trapEntry ..
  · exact s.record_park ..
  · exact s.record_park ..
  · exact State.record_abortGang ..

/-- The record of a fault that the issuing strand takes (R59). -/
theorem State.record_takeFault {f : Trouble} (hf : f.code ≠ .pageFault) (ha : f.addr = some a) :
    (s.takeFault s.cur f).me.record = (BitVec.ofNat 64 (f.kind * 2 ^ 16 + f.code.num), a, f.pc) := by
  have cur : (s.faultRecord s.cur f).cur = s.cur := by
    unfold State.faultRecord
    cases f.addr <;> rfl
  rw [State.takeFault_of_ne s s.cur hf, State.record_faultAct, State.me, cur, State.strand_faultRecord, if_pos rfl, ha]
  rfl

end Sys2Proof.Machine
end

section
/-! `launch`: its release, its descriptor's read, the submission at the gatehouse and the status (R159, R341, R416). -/

namespace Sys2Proof.Machine

open Sys2Proof Sys2Proof.Spec

variable {s t : State} {d a : BitVec 8} {n k r st v : Nat} {m : Msg} {x : Desc} {y z : Strand}

theorem exec_eq_execLaunch (d a : BitVec 8) (s : State) : exec (.launch d a) s = execLaunch d a s := rfl
theorem exec_eq_execReqLaunchSubmission (n : Nat) (s : State) : exec (.reqLaunchSubmission n) s = execReqLaunchSubmission n s := rfl
theorem exec_eq_execRspStatus (n : Nat) (s : State) : exec (.rspStatus n) s = execRspStatus n s := rfl

/-! ## The release (R106, R341) -/

/-- The lines of the two caches that a release of module scope covers, after it. -/
def State.linesReleased (s : State) : State :=
  (s.modCore (coreOfK s.cur) fun x => { x with l1d := flushed (fun _ => true) false x.l1d }).modSite (siteOfK s.cur) fun x =>
    { x with slice := flushed (fun _ => true) false x.slice }

theorem State.flushL1d_of_clean {c : Nat} (h : Clean (s.core c).l1d) (p : Nat → Bool) :
    s.flushL1d c p false = s.modCore c fun x => { x with l1d := flushed p false x.l1d } := by
  unfold State.flushL1d
  rw [filter_dirty_of_clean h]
  rfl

theorem State.flushSlice_of_clean {v : Nat} (h : Clean (s.site v).slice) (p : Nat → Bool) :
    s.flushSlice v p false = s.modSite v fun x => { x with slice := flushed p false x.slice } := by
  unfold State.flushSlice
  rw [filter_dirty_of_clean h]
  rfl

/-- A release with clean caches sends nothing home. -/
theorem State.relActions_clean (hl : Clean (s.core (coreOfK s.cur)).l1d) (hs : Clean (s.site (siteOfK s.cur)).slice) : s.relActions 3 = s.linesReleased := by
  have first := State.flushL1d_of_clean hl fun _ => true
  have second := State.flushSlice_of_clean (s := s.modCore (coreOfK s.cur) fun x => { x with l1d := flushed (fun _ => true) false x.l1d }) hs fun _ => true
  rw [← first] at second
  exact second.trans (congrArg (State.modSite · _ _) first)

theorem State.virt_linesReleased (s : State) (v : Nat) : s.linesReleased.virt v = s.virt v := by
  have self : (s.linesReleased.site v).self = (s.site v).self := by
    rw [State.linesReleased, State.site_modSite]
    split_ifs with h
    · rw [h]; rfl
    · rfl
  rw [State.virt, self, State.virt]

/-- The issuing strand as it waits for the write-backs of its release. -/
def State.launchReleased (s : State) (d : Nat) (p : Addr) : State :=
  s.linesReleased.park s.cur .access (.launchRelease d p (s.linesReleased.fenceTxns 3))

theorem exec_launch (hr : Ready s [d, a]) (ht : s.me.tracker = []) (hl : Clean (s.core (coreOfK s.cur)).l1d) (hs : Clean (s.site (siteOfK s.cur)).slice)
    (hw : s.unwritten (siteOfK s.cur) (s.fenceTxns 3) = false) :
    exec (.launch d a) s = .next ((s.launchReleased d.toNat ((s.val a).setWidth 60)).launchGo s.cur d.toNat ((s.val a).setWidth 60)) := by
  have released := s.relActions_clean hl hs
  obtain ⟨-, same⟩ := s.scopeFlush_clean ⟨hl, hs⟩ 3 false
  rw [← State.relActions_eq, released] at same
  have cur : s.linesReleased.cur = s.cur := rfl
  have txns : s.linesReleased.fenceTxns 3 = s.fenceTxns 3 := by rw [State.fenceTxns, State.fenceTxns, cur, same.writeBacks]
  have written : (s.launchReleased d.toNat ((s.val a).setWidth 60)).unwritten (siteOfK s.cur) (s.linesReleased.fenceTxns 3) = false := by
    rw [txns, ← hw, ← same.unwritten]
    rfl
  rw [exec_eq_execLaunch, execLaunch, State.issue_two hr]
  simp only [ht, List.isEmpty_nil, Bool.not_true, Bool.false_eq_true, if_false, released]
  rw [State.launchReleased] at written ⊢
  exact congrArg _ (if_neg (by rw [written]; nofun))

/-! ## The descriptor's check and read (R341) -/

/-- A segment's addresses resolve by the position of the site alone. -/
theorem covered_congr (h : t.virt v = s.virt v) (hx : y.segList = z.segList) (hp : y.sup = z.sup) (a : Addr) (n need : Nat) :
    t.covered v y a n need = s.covered v z a n need := by
  have inside (g : Seg) : t.insideSeg v a n g = s.insideSeg v a n g := by
    simp only [State.insideSeg, State.absolute, h]
  simp only [State.covered, inside, hx, hp]

section Released

variable (s : State) (k : Nat) (p : Addr)

theorem State.me_launchReleased : (s.launchReleased k p).me =
    { s.me with st := .parked, why := some .access, cont := .launchRelease k p (s.linesReleased.fenceTxns 3) } := by
  have cur : s.linesReleased.cur = s.cur := rfl
  rw [State.launchReleased, ← cur, me_park]
  rfl

theorem State.covered_launchReleased : (s.launchReleased k p).covered (siteOfK s.cur) (s.launchReleased k p).me p 256 rR =
    s.covered (siteOfK s.cur) s.me p 256 rR := by
  have virt : (s.launchReleased k p).virt (siteOfK s.cur) = s.virt (siteOfK s.cur) := s.virt_linesReleased _
  exact covered_congr virt (by rw [State.me_launchReleased]; rfl) (by rw [State.me_launchReleased]) ..

theorem State.record_launchFault {c : Code} (hc : c ≠ .pageFault) :
    ((s.launchReleased k p).takeFault s.cur { code := c, addr := some p, pc := (s.launchReleased k p).me.pc }).me.record =
      (BitVec.ofNat 64 c.num, p, s.me.pc) := by
  have fault := State.record_takeFault (s := s.launchReleased k p) (f := { code := c, addr := some p, pc := (s.launchReleased k p).me.pc }) (a := p) hc rfl
  have cur : (s.launchReleased k p).cur = s.cur := rfl
  rw [cur, State.me_launchReleased] at fault
  rw [State.me_launchReleased, fault]
  simp

end Released

/-- An access on its way leaves the strands and memory (R137). -/
theorem State.sendAccess_sameStrands (s : State) (a : Acc) : SameStrands s (s.sendAccess a) := by
  unfold State.sendAccess
  dsimp only
  split_ifs
  · exact ⟨rfl, rfl, rfl, rfl⟩
  · split <;> exact ⟨rfl, rfl, rfl, rfl⟩

/-- The strand waits for the first piece of its descriptor (R341). -/
theorem launchPiece_parks (s : State) (k : Nat) (p : Addr) :
    Parks s ((s.launchReleased k p).launchPiece s.cur k p []) .access (.launchRead k p []) := by
  have sent := State.sendAccess_sameStrands ((s.launchReleased k p).modStrand s.cur fun x => { x with cont := .launchRead k p [] })
    { addr := p + BitVec.ofNat 60 ([] : List Byte).length, op := .read, size := 64, kind := 0x02, pc := ((s.launchReleased k p).strand s.cur).pc, k := s.cur,
      sup := ((s.launchReleased k p).strand s.cur).sup, owner := .strand s.cur }
  have me : ((s.launchReleased k p).launchPiece s.cur k p []).me = { (s.launchReleased k p).me with cont := .launchRead k p [] } :=
    (State.me_of_strands sent.cur sent.strands).trans ((s.launchReleased k p).me_modStrand fun x => { x with cont := .launchRead k p [] })
  rw [State.me_launchReleased] at me
  rw [Parks, me]
  exact ⟨rfl, rfl, rfl, rfl, rfl, rfl, sent.mem⟩

section Launch

variable (hr : Ready s [d, a]) (ht : s.me.tracker = []) (hl : Clean (s.core (coreOfK s.cur)).l1d) (hs : Clean (s.site (siteOfK s.cur)).slice)
  (hw : s.unwritten (siteOfK s.cur) (s.fenceTxns 3) = false)
include hr ht hl hs hw

theorem launch_reads (h64 : ((s.val a).setWidth 60).toNat % 64 = 0) (hc : s.covered (siteOfK s.cur) s.me ((s.val a).setWidth 60) 256 rR = true) :
    ∃ t, exec (.launch d a) s = .next t ∧ Parks s t .access (.launchRead d.toNat ((s.val a).setWidth 60) []) := by
  rw [← s.covered_launchReleased d.toNat] at hc
  refine ⟨_, (exec_launch hr ht hl hs hw).trans (congrArg _ ?_), launchPiece_parks ..⟩
  exact (if_neg (not_not.2 h64)).trans (if_neg (ne_true_of_eq_false (congrArg not hc)))

theorem launch_faults {c : Code} (hc : c ≠ .pageFault)
    (hg : (s.launchReleased d.toNat ((s.val a).setWidth 60)).launchGo s.cur d.toNat ((s.val a).setWidth 60) =
      (s.launchReleased d.toNat ((s.val a).setWidth 60)).takeFault s.cur
        { code := c, addr := some ((s.val a).setWidth 60), pc := (s.launchReleased d.toNat ((s.val a).setWidth 60)).me.pc }) :
    ∃ t, exec (.launch d a) s = .next t ∧ t.me.faultCode = BitVec.ofNat 64 c.num ∧ t.me.faultAddr = (s.val a).setWidth 60 ∧ t.me.faultPc = s.me.pc := by
  have record := s.record_launchFault d.toNat ((s.val a).setWidth 60) hc
  simp only [Strand.record, Prod.mk.injEq] at record
  exact ⟨_, (exec_launch hr ht hl hs hw).trans (congrArg _ hg), record⟩

theorem launch_misaligned (h64 : ((s.val a).setWidth 60).toNat % 64 ≠ 0) :
    ∃ t, exec (.launch d a) s = .next t ∧ t.me.faultCode = 0x06 ∧ t.me.faultAddr = (s.val a).setWidth 60 ∧ t.me.faultPc = s.me.pc :=
  launch_faults hr ht hl hs hw (c := .alignment) nofun (if_pos h64)

theorem launch_uncovered (h64 : ((s.val a).setWidth 60).toNat % 64 = 0) (hc : s.covered (siteOfK s.cur) s.me ((s.val a).setWidth 60) 256 rR = false) :
    ∃ t, exec (.launch d a) s = .next t ∧ t.me.faultCode = 0x03 ∧ t.me.faultAddr = (s.val a).setWidth 60 ∧ t.me.faultPc = s.me.pc := by
  rw [← s.covered_launchReleased d.toNat] at hc
  exact launch_faults hr ht hl hs hw (c := .segment) nofun ((if_neg (not_not.2 h64)).trans (if_pos (congrArg not hc)))

end Launch

/-! ## The submission at the gatehouse (R159, R416) -/

/-- The status of a submission to the device-side queue (R159, R341). -/
def State.deviceStatus (s : State) (g : Nat) (x : Desc) (st : Nat) : Nat :=
  if 256 ≤ (s.gate g).deviceLoad then 1 else if x.rejected || s.strayCounter g x then 2 else if x.overclaims then 3 else st

/-- Status 0 starts a launch, and no other status changes anything. -/
theorem State.submitDevice_eq (s : State) (g : Nat) (x : Desc) (st : Nat) :
    s.submitDevice g x st = (s.deviceStatus g x st, if s.deviceStatus g x st = 0 then s.startLaunch g x none 0 x.prio none else s) := by
  rw [State.submitDevice, State.deviceStatus]
  by_cases full : 256 ≤ (s.gate g).deviceLoad
  · simp [full]
  by_cases bad : (x.rejected || s.strayCounter g x) = true
  · simp [full, bad]
  by_cases claims : x.overclaims = true
  · simp [full, bad, claims]
  by_cases segs : st = 0 <;> simp [full, bad, claims, segs]

theorem State.deviceStatus_consume (s : State) (n g : Nat) (x : Desc) (st : Nat) : (s.consume n).deviceStatus g x st = s.deviceStatus g x st := by
  obtain ⟨l, site⟩ := s.site_consume_links n g
  rw [State.deviceStatus, State.gate, State.strayCounter, State.kindAt, site]
  rfl

theorem State.gate_consume (s : State) (n g : Nat) : (s.consume n).gate g = s.gate g := by
  obtain ⟨l, site⟩ := s.site_consume_links n g
  rw [State.gate, site]
  rfl

theorem reqLaunchSubmission_outOfService (ha : s.arriving n = some m) (ho : m.op = .launchSub x st)
    (hv : (s.site m.dst).state = .failed ∨ (s.site m.dst).state = .isolated) :
    ∃ t, exec (.reqLaunchSubmission n) s = .next t ∧ t.mem = s.mem ∧ t.strands = s.strands ∧ (t.gate m.dst).launches = (s.gate m.dst).launches ∧
      Answered t m (.error 0x07) [] false := by
  have taken := LinesMove.consume s n
  have error : s.launchSubmission n = some ((s.consume n).reply m (.error 0x07) [] false) := by
    simp only [State.launchSubmission, ha, ho, if_pos hv]
    rfl
  rw [exec_eq_execReqLaunchSubmission, execReqLaunchSubmission, error]
  exact ⟨_, rfl, taken.mem, taken.strands, congrArg Gate.launches (s.gate_consume n m.dst), answered_reply ..⟩

theorem reqLaunchSubmission_answers (ha : s.arriving n = some m) (ho : m.op = .launchSub x st)
    (hf : (s.site m.dst).state ≠ .failed) (hi : (s.site m.dst).state ≠ .isolated) : exec (.reqLaunchSubmission n) s = .next
      ((if s.deviceStatus m.dst x st = 0 then (s.consume n).startLaunch m.dst x none 0 x.prio none else s.consume n).reply m
        (.status (s.deviceStatus m.dst x st)) [] false) := by
  have answer : s.launchSubmission n = some
      ((if s.deviceStatus m.dst x st = 0 then (s.consume n).startLaunch m.dst x none 0 x.prio none else s.consume n).reply m
        (.status (s.deviceStatus m.dst x st)) [] false) := by
    simp only [State.launchSubmission, ha, ho, if_neg (not_or.2 ⟨hf, hi⟩), State.submitDevice_eq, State.deviceStatus_consume]
  rw [exec_eq_execReqLaunchSubmission, execReqLaunchSubmission, answer]
  rfl

theorem reqLaunchSubmission_submits (ha : s.arriving n = some m) (ho : m.op = .launchSub x st)
    (hf : (s.site m.dst).state ≠ .failed) (hi : (s.site m.dst).state ≠ .isolated) :
    ∃ t, exec (.reqLaunchSubmission n) s = .next t ∧ t.mem = s.mem ∧ t.strands = s.strands ∧
      Answered t m (.status (s.deviceStatus m.dst x st)) [] false ∧
      (s.deviceStatus m.dst x st ≠ 0 → (t.gate m.dst).launches = (s.gate m.dst).launches) ∧
      (s.deviceStatus m.dst x st = 0 → ∃ l, (t.gate m.dst).launches = (s.gate m.dst).launches ++ [l] ∧ l.desc = x ∧ l.queue = none ∧ l.prio = x.prio ∧
        l.next = 0 ∧ l.total = x.gangCount) := by
  have taken := LinesMove.consume s n
  refine ⟨_, reqLaunchSubmission_answers ha ho hf hi, ?_⟩
  by_cases h0 : s.deviceStatus m.dst x st = 0
  · have launches := (s.consume n).launches_startLaunch m.dst x none 0 x.prio none
    rw [s.gate_consume] at launches
    rw [if_pos h0]
    exact ⟨taken.mem, taken.strands, answered_reply .., fun h => absurd h0 h, fun _ => ⟨_, launches, rfl, rfl, rfl, rfl, rfl⟩⟩
  · rw [if_neg h0]
    exact ⟨taken.mem, taken.strands, answered_reply .., fun _ => congrArg Gate.launches (s.gate_consume n m.dst), fun h => absurd h h0⟩

/-! ## The status at the strand (R341) -/

theorem rspStatus_arrives {x : Txn} (ha : s.arriving n = some m) (ho : m.op = .status r) (hx : s.txn m.txn = some x) (hk : x.acc.owner = .strand k)
    (hw : WaitsFor s k (.status d.toNat)) : ∃ t, exec (.rspStatus n) s = .next t ∧ t.mem = s.mem ∧
      t.strand k = { put (s.strand k) d (BitVec.ofNat 64 r) with pc := (s.strand k).pc + 4, st := .ready, why := none, cont := .reissue } := by
  obtain ⟨parked, waits, gang⟩ := hw
  have settled := LinesMove.settled s m
  have cont : ((s.settled m).strand k).cont = .status d.toNat := by rw [settled.strand, waits]
  have arrives : s.rspStatus n = some ((s.settled m).launchStatus k d.toNat r) := by
    simp only [State.rspStatus, ha, ho, hx, hk, cont]
  rw [exec_eq_execRspStatus, execRspStatus, arrives]
  let u := (s.settled m).modStrand k fun x => x.setReg d.toNat (BitVec.ofNat 64 r)
  have strand : u.strand k = (s.strand k).setReg d.toNat (BitVec.ofNat 64 r) := by
    rw [State.strand_modStrand, if_pos rfl, settled.strand]
  obtain ⟨st, pc, entry, -⟩ := (s.strand k).setReg_fields d.toNat (BitVec.ofNat 64 r)
  have running : ((u.gang (siteOfK k) (u.strand k).entry).halting && decide (slotOf k < 13)) = false := by
    rw [strand, entry, show u.gang (siteOfK k) (s.strand k).entry = (s.settled m).gang (siteOfK k) (s.strand k).entry from rfl, settled.gang, gang]
    rfl
  refine ⟨_, rfl, (State.completed_mem ..).trans settled.mem, ?_⟩
  rw [State.launchStatus, State.strand_completed 4 (by rw [strand, st, parked]) running, if_pos rfl, strand, put_eq_setReg, pc]
  rfl

/-- Settles O52: the strand's read of its descriptor, the gatehouse's answer to the submission, and the status that the strand gets. -/
theorem deviceLaunch : Obligations.DeviceLaunch := by
  refine ⟨?_, ?_, ?_⟩
  · intro d a s hr ht hl hs hw
    exact ⟨launch_reads hr ht hl hs hw, launch_misaligned hr ht hl hs hw, launch_uncovered hr ht hl hs hw⟩
  · intro s n st m x ha ho
    exact ⟨reqLaunchSubmission_outOfService ha ho, reqLaunchSubmission_submits ha ho⟩
  · intro s n k r d m x ha ho hx hk hw
    exact rspStatus_arrives ha ho hx hk hw

end Sys2Proof.Machine
end

section
/-! Events on their way to the host: a held event takes a record, and a record goes to its gatehouse or is refused (R165, R167, R168). -/

namespace Sys2Proof.Machine

open Sys2Proof Sys2Proof.Spec

variable {s t : State} {v d u : Nat} {r : EventRec} {x : Option Mesh}

theorem exec_eq_execEventHoldToRecord (v : Nat) (s : State) : exec (.eventHoldToRecord v) s = execEventHoldToRecord v s := rfl
theorem exec_eq_execEventForward (v : Nat) (s : State) : exec (.eventForward v) s = execEventForward v s := rfl
theorem exec_eq_execEventResend (v : Nat) (s : State) : exec (.eventResend v) s = execEventResend v s := rfl

/-! ## What waits for a hold, where nothing does (R165) -/

/-- Changes that each leave a state as it is leave it so together. -/
theorem each_fixed {α : Type} {f : State → α → State} {l : List α} (h : ∀ a ∈ l, f s a = s) : each l f s = s := by
  induction l with
  | nil => rfl
  | cons a l ih => rw [each_cons, h a List.mem_cons_self, ih fun b hb => h b (List.mem_cons_of_mem _ hb)]

/-- Nothing of a pavilion waits for the hold of one of its units: no line on its way out, no wait list, no release and no strand. -/
structure State.Unwaited (s : State) (v : Nat) : Prop where
  leaving : (s.site v).leaving = []
  unserved : (s.site v).unserved = []
  releases : (s.site v).releases = []
  strands : ∀ k, siteOfK k = v → (s.strand k).st ≠ .parked ∧ (s.strand k).cont = .reissue

section Unwaited

variable (h : s.Unwaited v)
include h

theorem State.nextLeaving_unwaited : s.nextLeaving v = s := by
  rw [State.nextLeaving, h.leaving]
  rfl

theorem State.serveRest_unwaited (u : Nat) : s.serveRest v u = s := by
  unfold State.serveRest
  rw [h.unserved]
  rfl

theorem State.writeBackDone_unwaited : s.writeBackDone v = s := by
  have strands : ∀ k ∈ s.strandKeys.filter fun k => siteOfK k == v, (s.strand k).cont = .reissue := fun k hk =>
    (h.strands k (by simpa using (List.mem_filter.1 hk).2)).2
  unfold State.writeBackDone
  dsimp only
  rw [each_fixed fun k hk => by simp only [strands k hk, State.testFence], State.releasesDone, h.releases]
  rfl

theorem State.holdEmptied_unwaited (u : Nat) : s.holdEmptied v u = s := by
  rw [State.holdEmptied, State.nextLeaving_unwaited h, State.serveRest_unwaited h, State.writeBackDone_unwaited h, ite_self]

theorem State.actStalled_unwaited (u : Nat) : s.actStalled v u = s := by
  unfold State.actStalled
  split_ifs
  · rfl
  · dsimp only
    split
    · rfl
    · next k ks stalled =>
      have first := List.of_mem_filter (stalled ▸ List.mem_cons_self : k ∈ _)
      simp only [Bool.and_eq_true, beq_iff_eq] at first
      obtain ⟨⟨⟨site, -⟩, parked⟩, -⟩ := first
      exact absurd parked (h.strands k site).1

theorem State.eventWaiters_unwaited :
    (s.strandKeys.filter fun k => siteOfK k == v && (s.strand k).st == .parked && (s.strand k).cont == .eventHold) = [] :=
  List.filter_eq_nil_iff.2 fun k _ hk => by
    simp only [Bool.and_eq_true, beq_iff_eq] at hk
    exact (h.strands k hk.1.1).1 hk.1.2

end Unwaited

/-- The state in which the first held event of a pavilion has taken a record (R165). -/
def State.firstRecorded (s : State) (v : Nat) (r : EventRec) (rest : List (Nat × EventRec)) : State :=
  s.setSite v { s.site v with evHolds := rest, events := (s.site v).events ++ [r] }

theorem State.holdToRecord_first {rest : List (Nat × EventRec)} (hh : (s.site v).evHolds = (u, r) :: rest) (hr : (s.site v).roomFor r = true) :
    let w := s.firstRecorded v r rest
    s.holdToRecord v = some (((each (w.strandKeys.filter fun k => siteOfK k == v && (w.strand k).st == .parked && (w.strand k).cont == .eventHold)
      State.wake w).holdEmptied v u).actStalled v u) := by
  have first : nextHeld (s.site v) [] ((u, r) :: rest) = some (u, r) := by
    rw [nextHeld, hr]
    rfl
  simp only [State.holdToRecord, hh, first, List.erase_cons_head]
  rfl

theorem eventHoldToRecord_records {rest : List (Nat × EventRec)} (hh : (s.site v).evHolds = (u, r) :: rest) (hr : (s.site v).roomFor r = true) :
    ∃ t, exec (.eventHoldToRecord v) s = .next t ∧
      ((s.site v).leaving = [] → (s.site v).unserved = [] → (s.site v).releases = [] →
        (∀ k, siteOfK k = v → (s.strand k).st ≠ .parked ∧ (s.strand k).cont = .reissue) →
        t.mem = s.mem ∧ t.strands = s.strands ∧ (t.site v).events = (s.site v).events ++ [r] ∧ (t.site v).evHolds = rest) := by
  rw [exec_eq_execEventHoldToRecord, execEventHoldToRecord, State.holdToRecord_first hh hr]
  refine ⟨_, rfl, fun hl hu hr hk => ?_⟩
  have site : (s.firstRecorded v r rest).site v = { s.site v with evHolds := rest, events := (s.site v).events ++ [r] } :=
    (State.site_setSite ..).trans (if_pos rfl)
  have unwaited : (s.firstRecorded v r rest).Unwaited v := ⟨by rw [site, hl], by rw [site, hu], by rw [site, hr], hk⟩
  rw [State.eventWaiters_unwaited unwaited, each_nil, State.holdEmptied_unwaited unwaited, State.actStalled_unwaited unwaited, site]
  exact ⟨rfl, rfl, rfl, rfl⟩

/-! ## To the gatehouse (R167, R168) -/

/-- Record r of site v stands in the event queue of gatehouse d. -/
def RecordSent (s t : State) (v d : Nat) (r : EventRec) : Prop :=
  t.mem = s.mem ∧ t.strands = s.strands ∧ (t.site v).events = (s.site v).events.erase r ∧ (t.site v).evRefused = false ∧
    Tab.find ((s.gate d).eqTail % 4096) (t.gate d).events = some r ∧ (t.gate d).eqTail = ((s.gate d).eqTail + 1) % 2 ^ 32 ∧
    (t.gate d).eventNotices = (s.gate d).eventNotices + 1

/-- Gatehouse d has refused a record of site v. -/
def RecordRefused (s t : State) (v d : Nat) : Prop :=
  t.mem = s.mem ∧ (t.site v).events = (s.site v).events ∧ (t.site v).evRefused = true ∧ t.gate d = s.gate d

/-- A message to the host leaves the event queue as it is. -/
theorem Gate.interrupt_queue (g : Gate) (n : Nat) :
    (g.interrupt n).events = g.events ∧ (g.interrupt n).eqTail = g.eqTail ∧ (g.interrupt n).eventNotices = g.eventNotices := by
  unfold Gate.interrupt
  split_ifs <;> exact ⟨rfl, rfl, rfl⟩

/-- A retry counter's count is all that changes. -/
theorem State.site_countRetry (s : State) (v o n w : Nat) : ∃ l, (s.countRetry v o n).site w = { s.site w with retries := l } := by
  unfold State.countRetry
  split_ifs
  · rw [State.site_modSite]
    split_ifs with h
    · exact ⟨_, by rw [h]⟩
    · exact ⟨_, rfl⟩
  · exact ⟨_, rfl⟩

theorem State.retries_countRetry (hv : kindOf v = .pavilion) (s : State) (o n : Nat) :
    ((s.countRetry v o n).site v).retries = Tab.put o (Tab.get 0 o (s.site v).retries + BitVec.ofNat 64 n) (s.site v).retries := by
  rw [State.countRetry, if_pos hv, State.site_modSite, if_pos rfl]

/-- A retry counter's count leaves memory, strands, records and gatehouses as they are. -/
theorem State.countRetry_leaves (s : State) (w o n v : Nat) : (s.countRetry w o n).mem = s.mem ∧ (s.countRetry w o n).strands = s.strands ∧
    ((s.countRetry w o n).site v).events = (s.site v).events ∧ ((s.countRetry w o n).site v).evRefused = (s.site v).evRefused ∧
    (s.countRetry w o n).gate v = s.gate v := by
  obtain ⟨l, site⟩ := s.site_countRetry w o n v
  rw [State.gate, site]
  unfold State.countRetry
  split_ifs <;> exact ⟨rfl, rfl, rfl, rfl, rfl⟩

theorem RecordSent.countRetry (h : RecordSent s t v d r) (w o n : Nat) : RecordSent s (t.countRetry w o n) v d r := by
  obtain ⟨mem, strands, events, refused, -⟩ := t.countRetry_leaves w o n v
  obtain ⟨-, -, -, -, gate⟩ := t.countRetry_leaves w o n d
  rw [RecordSent, mem, strands, events, refused, gate]
  exact h

theorem RecordRefused.countRetry (h : RecordRefused s t v d) (w o n : Nat) : RecordRefused s (t.countRetry w o n) v d := by
  obtain ⟨mem, -, events, refused, -⟩ := t.countRetry_leaves w o n v
  obtain ⟨-, -, -, -, gate⟩ := t.countRetry_leaves w o n d
  rw [RecordRefused, mem, events, refused, gate]
  exact h

/-- A gatehouse with one more record in its event queue (R168). -/
def Gate.taking (g : Gate) (r : EventRec) : Gate :=
  { g with events := Tab.put (g.eqTail % eventQueue) r g.events, eqTail := (g.eqTail + 1) % 2 ^ 32, eventNotices := g.eventNotices + 1 }.interrupt 64

theorem Gate.taking_queue (g : Gate) (r : EventRec) : (g.taking r).events = Tab.put (g.eqTail % 4096) r g.events ∧
    (g.taking r).eqTail = (g.eqTail + 1) % 2 ^ 32 ∧ (g.taking r).eventNotices = g.eventNotices + 1 := Gate.interrupt_queue _ 64

/-- The state in which record r of site v has gone to gatehouse d. -/
def State.recordTaken (s : State) (v d : Nat) (r : EventRec) : State :=
  (s.setSite v { s.site v with evRefused := false, events := (s.site v).events.erase r }).modGate d (·.taking r)

/-- The state in which a record of site v has been refused. -/
def State.recordKept (s : State) (v : Nat) : State := s.setSite v { s.site v with evRefused := true }

section Other

variable (hd : d ≠ v)
include hd

theorem State.gate_setSite_ne (s : State) (y : Site) : (s.setSite v y).gate d = s.gate d := by
  rw [State.gate, State.site_setSite, if_neg hd, State.gate]

theorem State.site_recordTaken (s : State) (r : EventRec) :
    (s.recordTaken v d r).site v = { s.site v with evRefused := false, events := (s.site v).events.erase r } := by
  rw [State.recordTaken, State.modGate, State.site_modSite, if_neg hd.symm, State.site_setSite, if_pos rfl]

theorem recordSent_recordTaken (s : State) (r : EventRec) : RecordSent s (s.recordTaken v d r) v d r := by
  have gate : (s.recordTaken v d r).gate d = (s.gate d).taking r := by
    rw [State.recordTaken, State.gate_modGate, State.gate_setSite_ne hd]
  obtain ⟨events, tail, notices⟩ := (s.gate d).taking_queue r
  rw [RecordSent, State.site_recordTaken hd, gate, events, Tab.find_put_self]
  exact ⟨rfl, rfl, rfl, rfl, rfl, tail, notices⟩

theorem recordRefused_recordKept (s : State) : RecordRefused s (s.recordKept v) v d := by
  have site : (s.recordKept v).site v = { s.site v with evRefused := true } := (State.site_setSite ..).trans (if_pos rfl)
  rw [RecordRefused, site]
  exact ⟨rfl, rfl, rfl, State.gate_setSite_ne hd ..⟩

end Other

section Send

variable (hr : (s.site v).nextRecord = some r)
  (hx : s.resolve v (xOf (rimSite (s.site v).evTarget)) (yOf (rimSite (s.site v).evTarget)) 0 = some (d, x))
  (hf : (s.site d).state ≠ .failed) (hi : (s.site d).state ≠ .isolated) (hn : s.nsHolds v d = false)
  (hl : ∀ p q, x = some p → q ∈ Machine.route 40 p v d → ((s.site q.1).link q.2 p).up = true)
include hr hx hf hi hn hl

/-- A record goes to its gatehouse, or stays while the queue there is full. -/
theorem State.sendRecord_eq : s.sendRecord v =
    some (if eventQueue ≤ ((s.gate d).eqTail + 2 ^ 32 - (s.gate d).eqHead) % 2 ^ 32 then s.recordKept v else s.recordTaken v d r) := by
  rw [apply_ite some]
  cases x with
  | none =>
    simp only [State.sendRecord, hr, hx, hf, hi, hn, Bool.not_true, Bool.false_eq_true, or_self, if_false]
    rfl
  | some p =>
    have way : ((Machine.route 40 p v d).all fun q => ((s.site q.1).link q.2 p).up) = true := List.all_eq_true.2 fun q hq => hl p q rfl hq
    simp only [State.sendRecord, hr, hx, hf, hi, hn, way, Bool.not_true, Bool.false_eq_true, or_self, if_false]
    rfl

variable (hd : d ≠ v)
include hd

theorem eventForward_sends (he : (s.site v).evRefused = false) (hq : ¬eventQueue ≤ ((s.gate d).eqTail + 2 ^ 32 - (s.gate d).eqHead) % 2 ^ 32) :
    ∃ t, exec (.eventForward v) s = .next t ∧ RecordSent s t v d r := by
  rw [exec_eq_execEventForward, execEventForward, he, State.sendRecord_eq hr hx hf hi hn hl, if_neg hq]
  exact ⟨_, rfl, recordSent_recordTaken hd s r⟩

theorem eventForward_refused (he : (s.site v).evRefused = false) (hq : eventQueue ≤ ((s.gate d).eqTail + 2 ^ 32 - (s.gate d).eqHead) % 2 ^ 32) :
    ∃ t, exec (.eventForward v) s = .next t ∧ RecordRefused s t v d := by
  rw [exec_eq_execEventForward, execEventForward, he, State.sendRecord_eq hr hx hf hi hn hl, if_pos hq]
  exact ⟨_, rfl, recordRefused_recordKept hd s⟩

theorem eventResend_sends (he : (s.site v).evRefused = true) (hq : ¬eventQueue ≤ ((s.gate d).eqTail + 2 ^ 32 - (s.gate d).eqHead) % 2 ^ 32) :
    ∃ t, exec (.eventResend v) s = .next t ∧ RecordSent s t v d r ∧
      (kindOf v = .pavilion → Tab.get 0 0xC3108 (t.site v).retries = Tab.get 0 0xC3108 (s.site v).retries + 1) := by
  rw [exec_eq_execEventResend, execEventResend, he, State.sendRecord_eq hr hx hf hi hn hl, if_neg hq]
  refine ⟨_, rfl, (recordSent_recordTaken hd s r).countRetry .., fun hv => ?_⟩
  rw [State.retries_countRetry hv, Tab.get_put_self, State.site_recordTaken hd]
  rfl

theorem eventResend_refused (he : (s.site v).evRefused = true) (hq : eventQueue ≤ ((s.gate d).eqTail + 2 ^ 32 - (s.gate d).eqHead) % 2 ^ 32) :
    ∃ t, exec (.eventResend v) s = .next t ∧ RecordRefused s t v d := by
  rw [exec_eq_execEventResend, execEventResend, he, State.sendRecord_eq hr hx hf hi hn hl, if_pos hq]
  exact ⟨_, rfl, (recordRefused_recordKept hd s).countRetry ..⟩

end Send

end Sys2Proof.Machine
end

section
/-! Clock offsets, operating points, the current limiter and the thermal trip (R65, R227, R422-R428), and the statement about events and power. -/

namespace Sys2Proof.Machine

open Sys2Proof Sys2Proof.Spec

variable {s t : State} {v d n : Nat} {m : Msg}

theorem exec_eq_execOffsetProbe (v d : Nat) (s : State) : exec (.offsetProbe v d) s = execOffsetProbe v d s := rfl
theorem exec_eq_execReqProbeTimestamp (n : Nat) (s : State) : exec (.reqProbeTimestamp n) s = execReqProbeTimestamp n s := rfl
theorem exec_eq_execReqProbeEcho (n : Nat) (s : State) : exec (.reqProbeEcho n) s = execReqProbeEcho n s := rfl
theorem exec_eq_execControlInterval (v : Nat) (s : State) : exec (.controlInterval v) s = execControlInterval v s := rfl
theorem exec_eq_execLevelChangeComplete (b : Nat) (s : State) : exec (.levelChangeComplete b) s = execLevelChangeComplete b s := rfl
theorem exec_eq_execLimiterWindow (v meas : Nat) (s : State) : exec (.limiterWindow v meas) s = execLimiterWindow v meas s := rfl
theorem exec_eq_execThermalTrip (v : Nat) (temp : Int) (s : State) : exec (.thermalTrip v temp) s = execThermalTrip v temp s := rfl

/-! ## Offsets between clock regions (R65, R227) -/

/-- A message that is posted stands in the network, with a number of its own. -/
theorem mem_net_post (s : State) (m : Msg) : { m with id := s.nextId, batch := s.batch } ∈ (s.post m).net := List.mem_append_right _ (List.mem_singleton.2 rfl)

theorem offsetProbe_posts {w : Nat} {x : Mesh} (hw : neighbour v d = some w) (hx : (s.site v).meshUp d = some x) (hr : regionOf v ≠ regionOf w)
    (hv : (s.site v).clocked = true) (hc : (s.site w).clocked = true) (hf : (s.site w).state ≠ .failed) (hi : (s.site w).state ≠ .isolated) :
    ∃ t, exec (.offsetProbe v d) s = .next t ∧ t.mem = s.mem ∧ ∃ q ∈ t.net, q.op = .probeTs (s.site v).time ∧ q.src = v ∧ q.dst = w := by
  have probe : s.offsetProbe v d =
      some (s.post { id := 0, op := .probeTs (s.site v).time, mesh := some x, src := v, dst := w, edge := opposite d }) := by
    simp only [State.offsetProbe, hw, hx]
    exact if_pos ⟨hr, hv, hc, hf, hi⟩
  rw [exec_eq_execOffsetProbe, execOffsetProbe, probe]
  exact ⟨_, rfl, rfl, _, mem_net_post .., rfl, rfl, rfl⟩

theorem reqProbeTimestamp_echoes {t1 : Word} (ha : s.arriving n = some m) (ho : m.op = .probeTs t1) :
    ∃ t, exec (.reqProbeTimestamp n) s = .next t ∧ t.mem = s.mem ∧
      ∃ q ∈ t.net, q.op = .probeEcho t1 (s.site m.dst).time (s.site m.dst).time ∧ q.src = m.dst ∧ q.dst = m.src := by
  have echo : s.probeTimestamp n = some ((s.consume n).post
      { id := 0, op := .probeEcho t1 (s.site m.dst).time (s.site m.dst).time, mesh := m.mesh, src := m.dst, dst := m.src, edge := opposite m.edge }) := by
    simp only [State.probeTimestamp, ha, ho]
  rw [exec_eq_execReqProbeTimestamp, execReqProbeTimestamp, echo]
  exact ⟨_, rfl, (LinesMove.consume s n).mem, _, mem_net_post .., rfl, rfl, rfl⟩

/-- The field holds the offset, cut off at both ends (R227). -/
theorem offsetField_eq (t1 t2 t3 t4 : Word) : offsetField t1 t2 t3 t4 =
    BitVec.ofInt 16 (max (-32767) (min 32767 ((((t2.toNat : Int) - t1.toNat) + ((t3.toNat : Int) - t4.toNat)) / 2))) := by
  unfold offsetField
  dsimp only
  split_ifs with low high
  · rw [max_eq_left (by omega)]
    rfl
  · rw [min_eq_left (by omega)]
    rfl
  · rw [min_eq_right (by omega), max_eq_right (by omega)]

/-- A field of the clock offsets stored at a site of a list is what the site has in the end. -/
theorem find_offset_each (e : Nat) (f : BitVec 16) {l : List Nat} (h : v ∈ l) (s : State) :
    Tab.find e (((each l (fun s v => s.modSite v fun t => { t with timeOffset := Tab.put e f t.timeOffset }) s).site v).timeOffset) = some f := by
  refine each_reaches (P := fun _ => True) (Q := fun s => Tab.find e (s.site v).timeOffset = some f) (fun _ _ _ => trivial) (fun s a hs => ?_)
    (fun s _ => ?_) h trivial
  · rw [State.site_modSite]
    split_ifs
    · exact Tab.find_put_self ..
    · exact hs
  · rw [State.site_modSite, if_pos rfl, Tab.find_put_self]

theorem reqProbeEcho_stores {t1 t2 t3 : Word} (ha : s.arriving n = some m) (ho : m.op = .probeEcho t1 t2 t3) :
    ∃ t, exec (.reqProbeEcho n) s = .next t ∧ t.mem = s.mem ∧ ∀ v ∈ regionSites (xOf m.dst / 2) (yOf m.dst / 2),
      Tab.find m.edge (t.site v).timeOffset = some (offsetField t1 t2 t3 (s.site m.dst).time) := by
  have echo : s.probeEcho n = some (each (regionSites (xOf m.dst / 2) (yOf m.dst / 2))
      (fun u v => u.modSite v fun t => { t with timeOffset := Tab.put m.edge (offsetField t1 t2 t3 (s.site m.dst).time) t.timeOffset }) (s.consume n)) := by
    simp only [State.probeEcho, ha, ho]
    rfl
  rw [exec_eq_execReqProbeEcho, execReqProbeEcho, echo]
  exact ⟨_, rfl, (each_keeps State.mem (fun _ _ => by rfl) ..).trans (LinesMove.consume s n).mem, fun v hv => find_offset_each _ _ hv _⟩

/-! ## One change for each element of a list -/

/-- Where each step of a list without repetition changes what stands at its own number, each number of the list is changed once. -/
theorem each_at {β : Type} {g : State → Nat → β} {f : State → Nat → State} {h : Nat → β → β} {P : State → Prop} (hP : ∀ s a, P s → P (f s a))
    (hf : ∀ s a j, P s → g (f s a) j = if j = a then h a (g s a) else g s j) {l : List Nat} (hl : l.Nodup) (hs : P s) (j : Nat) :
    g (each l f s) j = if j ∈ l then h j (g s j) else g s j := by
  induction l generalizing s with
  | nil => rfl
  | cons a l ih =>
    obtain ⟨fresh, rest⟩ := List.nodup_cons.1 hl
    rw [each_cons, ih rest (hP s a hs), hf s a j hs]
    by_cases hj : j = a
    · subst hj
      rw [if_neg fresh, if_pos rfl, if_pos List.mem_cons_self]
    · simp only [List.mem_cons, hj, if_false, false_or]

theorem nodup_bowersOf (v : Nat) : (bowersOf v).Nodup := List.nodup_range.map fun _ _ h => Nat.add_left_cancel h
theorem nodup_coresOf (v : Nat) : (coresOf v).Nodup := List.nodup_range.map fun _ _ h => Nat.add_left_cancel h
theorem mem_bowersOf {b : Nat} (h : b < 4) : v * 4 + b ∈ bowersOf v := List.mem_map.2 ⟨b, List.mem_range.2 h, rfl⟩
theorem mem_coresOf {c : Nat} (h : c < 16) : v * 16 + c ∈ coresOf v := List.mem_map.2 ⟨c, List.mem_range.2 h, rfl⟩

/-! ## Operating points (R422-R426) -/

/-- Changes of bowers leave memory, strands and sites. -/
theorem State.each_modBower_keeps (l : List Nat) (f : State → Nat → Bower → Bower) (s : State) :
    let t := each l (fun s b => s.modBower b (f s b)) s
    t.mem = s.mem ∧ t.strands = s.strands ∧ ∀ v, t.site v = s.site v :=
  ⟨each_keeps State.mem (fun _ _ => by rfl) .., each_keeps State.strands (fun _ _ => by rfl) .., fun v => each_keeps (·.site v) (fun _ _ => by rfl) ..⟩

/-- What the setting of a level leaves and gives (R422, R424). -/
theorem Bower.setFor_gives (w : Bower) (l : Nat) : (w.setFor l).target = l ∧ (w.setFor l).level = w.level ∧ (w.setFor l).icap = w.icap ∧
    (w.setFor l).dueIcap = w.dueIcap ∧ (w.setFor l).dueTcap = w.dueTcap ∧ (w.setFor l).dueBoost = w.dueBoost ∧
    (w.level = l → (w.setFor l).shownIcap = w.dueIcap ∧ (w.setFor l).shownTcap = w.dueTcap ∧ (w.setFor l).boost = w.dueBoost) ∧
    (w.level ≠ l → (w.setFor l).shownIcap = w.shownIcap ∧ (w.setFor l).shownTcap = w.shownTcap ∧ (w.setFor l).boost = w.boost) := by
  by_cases h : w.level = l
  · rw [show w.setFor l = ({ w with target := l } : Bower).arrived from if_pos h]
    exact ⟨rfl, h.symm, rfl, rfl, rfl, rfl, fun _ => ⟨rfl, rfl, rfl⟩, fun hn => absurd h hn⟩
  · rw [show w.setFor l = { w with target := l } from if_neg h]
    exact ⟨rfl, rfl, rfl, rfl, rfl, rfl, fun hp => absurd hp h, fun _ => ⟨rfl, rfl, rfl⟩⟩

/-- What the evaluation at a boundary gives: the level to go to, and what is shown once it is reached (R424, R426, log 66). -/
theorem Bower.evaluate_gives (w : Bower) (i : Nat) (trip : Bool) (req : Nat) :
    let x := w.evaluate i trip req
    let icap := w.nextIcap i
    let tcap := if trip then 0 else w.pwTcap
    x.icap = icap ∧ x.target = min tcap (min icap (min req (if w.bg then w.hc else min w.hc 12))) ∧ x.level = w.level ∧ x.dueIcap = icap ∧ x.dueTcap = tcap ∧
      x.dueBoost = (w.bg && decide (12 < x.target)) ∧
      (w.level = x.target → x.shownIcap = icap ∧ x.shownTcap = tcap ∧ x.boost = x.dueBoost) ∧
      (w.level ≠ x.target → x.shownIcap = w.shownIcap ∧ x.shownTcap = w.shownTcap ∧ x.boost = w.boost) := by
  intro x icap tcap
  let l := min tcap (min icap (min req (if w.bg then w.hc else min w.hc 12)))
  obtain ⟨target, level, icap_, dueIcap, dueTcap, dueBoost, arrived, moving⟩ :=
    Bower.setFor_gives { w with icap, dueIcap := icap, dueTcap := tcap, dueBoost := w.bg && decide (12 < l), interval := l } l
  have target' : x.target = l := target
  rw [target']
  exact ⟨icap_, rfl, level, dueIcap, dueTcap, dueBoost, fun h => ⟨(arrived h).1, (arrived h).2.1, (arrived h).2.2.trans dueBoost.symm⟩, moving⟩

/-- The evaluations of the bowers of a list, each with what its own cores request (R424). -/
theorem State.bower_evaluated {l : List Nat} (hl : l.Nodup) (s : State) (i : Nat) (trip : Bool) {b : Nat} (hb : b ∈ l) :
    (each l (fun s b => s.modBower b fun w => w.evaluate i trip (s.requested b)) s).bower b = (s.bower b).evaluate i trip (s.requested b) := by
  have requested (u : State) (hu : u.cores = s.cores) (a : Nat) : u.requested a = s.requested a := by
    simp only [State.requested, State.core, hu]
  have each_ := each_at (s := s) (g := State.bower) (f := fun s b => s.modBower b fun w => w.evaluate i trip (s.requested b))
    (h := fun a w => w.evaluate i trip (s.requested a)) (P := fun u => u.cores = s.cores) (fun _ _ hu => hu)
    (fun u a j hu => by rw [State.bower_modBower, requested u hu]) hl rfl b
  rw [each_, if_pos hb]

theorem controlInterval_evaluates (hv : kindOf v = .pavilion) (hc : (s.site v).clocked = true) :
    let p := (s.site v).power
    let trip := p.trip && (decide (1000 ≤ p.temp) || s.holdFull v 13)
    ∃ t, exec (.controlInterval v) s = .next t ∧ t.mem = s.mem ∧ t.strands = s.strands ∧ (t.site v).power.trip = trip ∧
      ∀ b, b < 4 → t.bower (v * 4 + b) = (s.bower (v * 4 + b)).evaluate p.maxStage trip (s.requested (v * 4 + b)) := by
  intro p trip
  let u := s.setSite v { s.site v with power := { p with trip, maxStage := p.stage } }
  have evaluated : s.controlInterval v = some (each (bowersOf v) (fun s b => s.modBower b fun w => w.evaluate p.maxStage trip (s.requested b)) u) :=
    if_pos ⟨hv, hc⟩
  rw [exec_eq_execControlInterval, execControlInterval, evaluated]
  obtain ⟨mem, strands, site⟩ := u.each_modBower_keeps (bowersOf v) fun s b w => w.evaluate p.maxStage trip (s.requested b)
  refine ⟨_, rfl, mem, strands, ?_, fun b hb => ?_⟩
  · rw [site, State.site_setSite, if_pos rfl]
  · exact State.bower_evaluated (nodup_bowersOf v) u _ _ (mem_bowersOf hb)

theorem levelChangeComplete_arrives {b : Nat} (h : (s.bower b).level ≠ (s.bower b).target) : exec (.levelChangeComplete b) s = .next (s.modBower b Bower.arrived) := by
  rw [exec_eq_execLevelChangeComplete, execLevelChangeComplete]
  dsimp only
  rw [if_pos h]
  rfl

/-! ## The current limiter (R62, R427, R428) -/

@[simp] theorem Core.permit_modPermits (x : Core) (f : Permit → Permit) (q : PClass) : (x.modPermits f).permit q = f (x.permit q) := by cases q <;> rfl

theorem Permit.halve_first {p : Permit} (h : p.was = none) :
    p.halve false = { rate := p.rate / 2, cap := p.cap / 2, count := min p.count (p.cap / 2), saved := some (p.rate, p.cap) } := by
  rw [Permit.halve, h]
  simp [Permit.take, h]

theorem Permit.restore_saved {p : Permit} {r c : Nat} (h : p.was = none) (hs : p.saved = some (r, c)) :
    p.restore false = { rate := r, cap := c, count := min p.count c, saved := none } := by
  simp [Permit.restore, Permit.take, h, hs]

theorem Permit.restore_unsaved {p : Permit} (h : p.was = none) (hs : p.saved = none) : p.restore false = p := by
  simp [Permit.restore, h, hs]

/-- Changes of cores leave memory, strands and sites. -/
theorem State.each_modCore_keeps (l : List Nat) (f : State → Core → Core) (s : State) :
    let t := each l (fun s c => s.modCore c (f s)) s
    t.mem = s.mem ∧ t.strands = s.strands ∧ ∀ v, t.site v = s.site v :=
  ⟨each_keeps State.mem (fun _ _ => by rfl) .., each_keeps State.strands (fun _ _ => by rfl) .., fun v => each_keeps (·.site v) (fun _ _ => by rfl) ..⟩

/-- A change of each core of a pavilion that leaves its permits leaves all permits. -/
theorem State.permit_each_modCore {f : Core → Core} (hf : ∀ x q, (f x).permit q = x.permit q) (l : List Nat) (s : State) (c : Nat) (q : PClass) :
    ((each l (fun s c => s.modCore c f) s).core c).permit q = (s.core c).permit q := by
  refine each_keeps (fun s => (s.core c).permit q) (fun s a => ?_) ..
  rw [State.core_modCore]
  split_ifs with h
  · rw [hf, h]
  · rfl

/-- Outside an instant each permit of a pavilion is changed once. -/
theorem State.permit_each_modPermits (f : Bool → Permit → Permit) (hi : s.instant = none) {c : Nat} (hc : c < 16) (q : PClass) :
    ((each (coresOf v) (fun s c => s.modCore c fun x => x.modPermits (f s.instant.isSome)) s).core (v * 16 + c)).permit q =
      f false ((s.core (v * 16 + c)).permit q) := by
  have each_ := each_at (s := s) (g := fun s j => (s.core j).permit q) (f := fun s c => s.modCore c fun x => x.modPermits (f s.instant.isSome))
    (h := fun _ => f false) (P := fun u => u.instant = none) (fun _ _ hu => hu) (fun u a j hu => by
      rw [State.core_modCore, hu]
      split_ifs
      · rw [Core.permit_modPermits]; rfl
      · rfl) (nodup_coresOf v) hi (v * 16 + c)
  rw [each_, if_pos (mem_coresOf hc)]

/-- The state with a window's measured current (R427). -/
def State.measured (s : State) (v meas : Nat) : State := s.modSite v fun t => { t with power := { t.power with imeas := meas } }

theorem State.site_measured (s : State) (v meas : Nat) :
    (s.measured v meas).site v = { s.site v with power := { (s.site v).power with imeas := meas } } := (State.site_modSite ..).trans (if_pos rfl)

theorem State.power_setStage (s : State) (v n : Nat) :
    ((s.setStage v n).site v).power = { (s.site v).power with stage := n, maxStage := max n (s.site v).power.maxStage } := by
  rw [State.setStage, State.site_modSite, if_pos rfl]

theorem State.power_raise (s : State) (v u sev code : Nat) (n : Option Nat) (a : Addr) (w : Nat) :
    ((s.raise v u sev code n a).site w).power = (s.site w).power := by
  rw [State.raise, State.site_setSite]
  split_ifs with h
  · rw [h]
  · rfl

/-- What a window leaves: the current as measured, the stage n, and the permits of the pavilion's cores as f makes them (R427). -/
def WindowGives (s t : State) (v meas n : Nat) (f : Permit → Permit) : Prop :=
  t.mem = s.mem ∧ t.strands = s.strands ∧ (t.site v).power.imeas = meas ∧ (t.site v).power.stage = n ∧
    ∀ c, c < 16 → ∀ q, (t.core (v * 16 + c)).permit q = f ((s.core (v * 16 + c)).permit q)

section Window

variable {meas : Nat} (hv : kindOf v = .pavilion) (hm : meas < 2 ^ 16)
include hv hm

/-- A window at stage 0 (R427). -/
theorem State.limiterWindow_stage0 (h : (s.site v).power.stage = 0) : s.limiterWindow v meas = some
    (if (s.site v).power.ilimit < meas then
      each (coresOf v) (fun s c => s.modCore c fun x => x.modPermits (Permit.halve s.instant.isSome)) ((s.measured v meas).setStage v 1)
    else s.measured v meas) := by
  have site := s.site_measured v meas
  rw [State.measured] at site ⊢
  simp only [State.limiterWindow, hv, Nat.mod_eq_of_lt hm, site, h, ne_eq, not_true_eq_false, if_false, decide_eq_true_eq]

/-- A window at stage 1 (R427). -/
theorem State.limiterWindow_stage1 (h : (s.site v).power.stage = 1) : s.limiterWindow v meas = some
    (if (s.site v).power.ilimit < meas then
      each (coresOf v) (fun s c => s.modCore c fun x => { x with limited := some x.cycle })
        (((s.measured v meas).setStage v 2).raise v 12 sevNotice 0x010D none 0)
    else if meas * 100 ≤ (s.site v).power.ilimit * 95 then
      each (coresOf v) (fun s c => s.modCore c fun x => x.modPermits (Permit.restore s.instant.isSome)) ((s.measured v meas).setStage v 0)
    else s.measured v meas) := by
  have site := s.site_measured v meas
  rw [State.measured] at site ⊢
  simp only [State.limiterWindow, hv, Nat.mod_eq_of_lt hm, site, h, ne_eq, not_true_eq_false, if_false, decide_eq_true_eq]

/-- A window at stage 2 (R165, R427). -/
theorem State.limiterWindow_stage2 (h : (s.site v).power.stage = 2) : s.limiterWindow v meas = some
    (if meas * 100 ≤ (s.site v).power.ilimit * 95 ∧ s.holdFull v 12 = false then
      each (coresOf v) (fun s c => s.modCore c fun x => { x with limited := none }) ((s.measured v meas).setStage v 1)
    else s.measured v meas) := by
  have site := s.site_measured v meas
  have hold : (s.measured v meas).holdFull v 12 = s.holdFull v 12 := by rw [State.holdFull, site, State.holdFull]
  rw [State.measured] at site hold ⊢
  simp only [State.limiterWindow, hv, Nat.mod_eq_of_lt hm, site, hold, h, ne_eq, not_true_eq_false, if_false, Bool.and_eq_true, decide_eq_true_eq,
    Bool.not_eq_true']

end Window

/-- A window that moves nothing leaves the current alone. -/
theorem windowGives_measured {meas : Nat} (h : (s.site v).power.stage = n) : WindowGives s (s.measured v meas) v meas n id := by
  rw [WindowGives, State.site_measured]
  exact ⟨rfl, rfl, rfl, h, fun _ _ _ => rfl⟩

/-- The stage alone moves (R427). -/
theorem windowGives_setStage (s : State) (v meas n : Nat) : WindowGives s ((s.measured v meas).setStage v n) v meas n id := by
  rw [WindowGives, State.power_setStage, State.site_measured]
  exact ⟨rfl, rfl, rfl, rfl, fun _ _ _ => rfl⟩

/-- An event of the limiter moves nothing (R165). -/
theorem WindowGives.raise {meas : Nat} {f : Permit → Permit} (h : WindowGives s t v meas n f) (u sev code : Nat) :
    WindowGives s (t.raise v u sev code none 0) v meas n f := by
  rw [WindowGives, State.power_raise]
  exact h

/-- The cores' cycle limits are no permits (R428). -/
theorem WindowGives.modCores {meas : Nat} {g : Permit → Permit} (h : WindowGives s t v meas n g) {f : Core → Core}
    (hf : ∀ x q, (f x).permit q = x.permit q) : WindowGives s (each (coresOf v) (fun s c => s.modCore c f) t) v meas n g := by
  obtain ⟨mem, strands, site⟩ := t.each_modCore_keeps (coresOf v) fun _ => f
  rw [WindowGives, mem, strands, site]
  simp only [State.permit_each_modCore hf]
  exact h

/-- Outside an instant the permits of the cores move once (R427). -/
theorem WindowGives.modPermits {meas : Nat} (h : WindowGives s t v meas n id) (hi : t.instant = none) (f : Bool → Permit → Permit) {g : Permit → Permit}
    (hg : ∀ c q, f false ((s.core c).permit q) = g ((s.core c).permit q)) :
    WindowGives s (each (coresOf v) (fun s c => s.modCore c fun x => x.modPermits (f s.instant.isSome)) t) v meas n g := by
  obtain ⟨mem, strands, imeas, stage, permits⟩ := h
  obtain ⟨mem', strands', site⟩ := t.each_modCore_keeps (coresOf v) fun s x => x.modPermits (f s.instant.isSome)
  refine ⟨mem'.trans mem, strands'.trans strands, by rw [site, imeas], by rw [site, stage], fun c hc q => ?_⟩
  rw [State.permit_each_modPermits f hi hc, permits c hc, id, hg]

/-- The window of a measured current goes on, at stage n and with the permits that f makes (R427). -/
def WindowGoes (s : State) (v meas n : Nat) (f : Permit → Permit) : Prop :=
  ∃ t, exec (.limiterWindow v meas) s = .next t ∧ WindowGives s t v meas n f

theorem windowGoes_of {meas : Nat} {f : Permit → Permit} (h : s.limiterWindow v meas = some t) (hg : WindowGives s t v meas n f) :
    WindowGoes s v meas n f := by
  rw [WindowGoes, exec_eq_execLimiterWindow, execLimiterWindow, h]
  exact ⟨t, rfl, hg⟩

section Window

variable {meas : Nat} (hv : kindOf v = .pavilion) (hm : meas < 2 ^ 16)
include hv hm

section Full

variable (h : (s.site v).power.stage = 0)
include h

theorem window_halves (ha : (s.site v).power.ilimit < meas) (hi : s.instant = none) (hw : ∀ c q, ((s.core c).permit q).was = none) :
    WindowGoes s v meas 1 fun q => { rate := q.rate / 2, cap := q.cap / 2, count := min q.count (q.cap / 2), saved := some (q.rate, q.cap) } :=
  windowGoes_of ((State.limiterWindow_stage0 hv hm h).trans (congrArg some (if_pos ha)))
    ((windowGives_setStage s v meas 1).modPermits hi Permit.halve fun c q => Permit.halve_first (hw c q))

theorem window_idles (ha : meas ≤ (s.site v).power.ilimit) : WindowGoes s v meas 0 id :=
  windowGoes_of ((State.limiterWindow_stage0 hv hm h).trans (congrArg some (if_neg (Nat.not_lt.2 ha)))) (windowGives_measured h)

end Full

section Halved

variable (h : (s.site v).power.stage = 1)
include h

theorem window_limits (ha : (s.site v).power.ilimit < meas) : WindowGoes s v meas 2 id :=
  windowGoes_of ((State.limiterWindow_stage1 hv hm h).trans (congrArg some (if_pos ha)))
    (((windowGives_setStage s v meas 2).raise ..).modCores fun _ q => by cases q <;> rfl)

theorem window_restores (hb : meas * 100 ≤ (s.site v).power.ilimit * 95) (hi : s.instant = none) {g : Permit → Permit}
    (hg : ∀ c q, ((s.core c).permit q).restore false = g ((s.core c).permit q)) : WindowGoes s v meas 0 g :=
  windowGoes_of ((State.limiterWindow_stage1 hv hm h).trans (congrArg some ((if_neg (by omega)).trans (if_pos hb))))
    ((windowGives_setStage s v meas 0).modPermits hi Permit.restore hg)

theorem window_staysHalved (ha : meas ≤ (s.site v).power.ilimit) (hb : (s.site v).power.ilimit * 95 < meas * 100) : WindowGoes s v meas 1 id :=
  windowGoes_of ((State.limiterWindow_stage1 hv hm h).trans (congrArg some ((if_neg (Nat.not_lt.2 ha)).trans (if_neg (Nat.not_le.2 hb)))))
    (windowGives_measured h)

end Halved

section Limited

variable (h : (s.site v).power.stage = 2)
include h

theorem window_unlimits (hb : meas * 100 ≤ (s.site v).power.ilimit * 95) (hh : s.holdFull v 12 = false) : WindowGoes s v meas 1 id :=
  windowGoes_of ((State.limiterWindow_stage2 hv hm h).trans (congrArg some (if_pos ⟨hb, hh⟩)))
    ((windowGives_setStage s v meas 1).modCores fun _ q => by cases q <;> rfl)

theorem window_staysLimited (hb : (s.site v).power.ilimit * 95 < meas * 100) : WindowGoes s v meas 2 id :=
  windowGoes_of ((State.limiterWindow_stage2 hv hm h).trans (congrArg some (if_neg fun ⟨below, _⟩ => absurd below (Nat.not_le.2 hb))))
    (windowGives_measured h)

end Limited

end Window

/-! ## The thermal trip (R424, R425) -/

/-- The state with the temperature that was read. -/
def State.heated (s : State) (v : Nat) (temp : Int) : State := s.modSite v fun t => { t with power := { t.power with temp } }

theorem State.power_heated (s : State) (v : Nat) (temp : Int) : ((s.heated v temp).site v).power = { (s.site v).power with temp } := by
  rw [State.heated, State.site_modSite, if_pos rfl]

/-- The trip holds, its bowers are set for level 0, and its event is raised (R424, R425). -/
def State.tripped (s : State) (v : Nat) (temp : Int) : State :=
  (each (bowersOf v) (fun s b => s.modBower b fun w => { w with dueBoost := false }.setFor 0)
    ((s.heated v temp).modSite v fun t => { t with power := { t.power with trip := true } })).raise v 13 sevUncorrected 0x010E none 0

section Thermal

variable {temp : Int} (hv : kindOf v = .pavilion) (hl : -32768 ≤ temp) (hh : temp ≤ 32767)
include hv hl hh

theorem State.thermalTrip_eq : s.thermalTrip v temp =
    some (if 1100 ≤ temp ∧ (s.site v).power.trip = false then s.tripped v temp else s.heated v temp) := by
  have power := s.power_heated v temp
  have range : ¬(kindOf v ≠ .pavilion ∨ temp < -32768 ∨ 32767 < temp) := by
    rw [hv]
    simp [hl, hh]
  rw [State.heated] at power
  simp only [State.thermalTrip, if_neg range, power, Bool.not_eq_true', apply_ite some]
  rfl

theorem thermalTrip_trips (ht : 1100 ≤ temp) (hp : (s.site v).power.trip = false) : ∃ t, exec (.thermalTrip v temp) s = .next t ∧ t.mem = s.mem ∧
    (t.site v).power.temp = temp ∧ (t.site v).power.trip = true ∧ t.holdFull v 13 = true ∧
    ∀ b, b < 4 → (t.bower (v * 4 + b)).target = 0 ∧ (t.bower (v * 4 + b)).dueBoost = false ∧ (t.bower (v * 4 + b)).level = (s.bower (v * 4 + b)).level := by
  rw [exec_eq_execThermalTrip, execThermalTrip, State.thermalTrip_eq hv hl hh, if_pos ⟨ht, hp⟩]
  let u := (s.heated v temp).modSite v fun t => { t with power := { t.power with trip := true } }
  have power : (u.site v).power = { (s.site v).power with temp, trip := true } := by
    rw [State.site_modSite, if_pos rfl, State.power_heated]
  obtain ⟨mem, -, site⟩ := u.each_modBower_keeps (bowersOf v) fun _ _ w => { w with dueBoost := false }.setFor 0
  have kept : ((s.tripped v temp).site v).power = { (s.site v).power with temp, trip := true } := by
    rw [State.tripped, State.power_raise, site, power]
  refine ⟨_, rfl, mem, by rw [kept], by rw [kept], State.holdFull_raise .., fun b hb => ?_⟩
  have bower : (s.tripped v temp).bower (v * 4 + b) = { s.bower (v * 4 + b) with dueBoost := false }.setFor 0 := by
    have each_ := each_at (s := u) (g := State.bower) (f := fun s b => s.modBower b fun w => { w with dueBoost := false }.setFor 0)
      (h := fun _ w => { w with dueBoost := false }.setFor 0) (P := fun _ => True) (fun _ _ _ => trivial) (fun s a j _ => s.bower_modBower ..)
      (nodup_bowersOf v) trivial (v * 4 + b)
    rw [if_pos (mem_bowersOf hb)] at each_
    exact each_
  obtain ⟨target, level, -, -, -, boost, -⟩ := Bower.setFor_gives { s.bower (v * 4 + b) with dueBoost := false } 0
  rw [bower]
  exact ⟨target, boost, level⟩

theorem thermalTrip_reads (h : temp < 1100 ∨ (s.site v).power.trip = true) : ∃ t, exec (.thermalTrip v temp) s = .next t ∧ t.mem = s.mem ∧
    (t.site v).power.temp = temp ∧ t.bowers = s.bowers ∧ (t.site v).power.trip = (s.site v).power.trip := by
  have cold : ¬(1100 ≤ temp ∧ (s.site v).power.trip = false) := fun ⟨hot, untripped⟩ => by
    rcases h with h | h
    · omega
    · rw [h] at untripped
      cases untripped
  rw [exec_eq_execThermalTrip, execThermalTrip, State.thermalTrip_eq hv hl hh, if_neg cold]
  have power := s.power_heated v temp
  exact ⟨_, rfl, rfl, by rw [power], rfl, by rw [power]⟩

end Thermal

/-- Settles O56: records on their way, then clock offsets, operating points, the limiter's stages and the thermal trip. -/
theorem eventsAndPower : Obligations.EventsAndPower := by
  refine ⟨⟨fun s v u r rest hh hr => eventHoldToRecord_records hh hr, ?_⟩, ?_, ?_, ?_, ?_, ?_, ?_, ?_⟩
  · intro s v d r x hr hx hd hf hi hn hl
    exact ⟨eventForward_sends hr hx hf hi hn hl hd, eventForward_refused hr hx hf hi hn hl hd, eventResend_sends hr hx hf hi hn hl hd,
      eventResend_refused hr hx hf hi hn hl hd⟩
  · exact fun s v d w x hw hx hr hv hc hf hi => offsetProbe_posts hw hx hr hv hc hf hi
  · exact fun s n m t1 ha ho => reqProbeTimestamp_echoes ha ho
  · intro s n m t1 t2 t3 ha ho
    dsimp only
    rw [← offsetField_eq]
    exact reqProbeEcho_stores ha ho
  · intro s v hv hc
    obtain ⟨t, step, mem, strands, trip, bowers⟩ := controlInterval_evaluates hv hc
    refine ⟨t, step, mem, strands, trip, fun b hb => ?_⟩
    dsimp only
    rw [bowers b hb]
    exact Bower.evaluate_gives ..
  · exact fun s b h => levelChangeComplete_arrives h
  · intro s v meas hv hm p hi hw cores goes
    refine ⟨fun h ha => window_halves hv hm h ha hi hw, fun h ha => window_idles hv hm h ha, fun h ha => window_limits hv hm h ha,
      fun h hb => ?_, fun h ha hb => window_staysHalved hv hm h ha hb,
      fun h hb hh => window_unlimits hv hm h hb hh, fun h hb => window_staysLimited hv hm h hb⟩
    refine window_restores hv hm h hb hi (g := fun q => match q.saved with
      | some (r, c) => { rate := r, cap := c, count := min q.count c, saved := none }
      | none => q) fun c q => ?_
    split
    · next r c saved => exact Permit.restore_saved (hw ..) saved
    · next unsaved => exact Permit.restore_unsaved (hw ..) unsaved
  · exact fun s v temp hv hl hh => ⟨thermalTrip_trips hv hl hh, thermalTrip_reads hv hl hh⟩

end Sys2Proof.Machine
end
